-- ==== Sys2Proof/Word.lean ====
section
/-! DEFINITION. The word types of the SZ96 and their plainest arithmetic. -/

namespace Sys2Proof

/-- A byte: the smallest addressable unit (R109: a location is one byte). -/
abbrev Byte := BitVec 8
/-- A 32-bit register word (Table 7-12). -/
abbrev Word := BitVec 32
/-- A 64-bit value: an x pair, an address, a mask register. -/
abbrev DWord := BitVec 64
/-- A program counter or virtual address of 48 bits (R14, R169). -/
abbrev Addr := BitVec 48

/-- A sparse map: keys and values, at most one entry a key. -/
abbrev SMap (α : Type) := List (Nat × α)

end Sys2Proof
end

