-- ==== Sys2Proof/Syntax.lean ====
section
/-! DEFINITION. The instructions and the steps of the SZ96: one constructor per row of the opcode table. -/

namespace Sys2Proof

/-- What a remote or host request asks for (R140 to R147, R105). -/
inductive ReqKind where
  | load                                       -- read of `len` bytes
  | store                                      -- write of the data bytes
  | stf                                        -- data, then flag + 1 (R143)
  | atomic (op : BitVec 4) (w64 : Bool)        -- Table 11-7
  | masked (mask : BitVec 128)                 -- masked writeback of a line (R103)
  | push                                       -- Regulator token (R341)
  | xqDone                                     -- slot store, then counter - 1 (R346)
  | fill                                       -- line fill for the remote-data cache (R103)
  deriving DecidableEq, Repr

/-- A request arriving over the fabric (R145): the source device, its tag, its issue time in the domain
time base, what it asks, and the tags of earlier requests of the source that it releases (R146). -/
structure FabReq where
  src : Nat
  tag : Nat
  issue : Nat
  kind : ReqKind
  va : Nat
  len : Nat
  data : List Byte
  aux : DWord
  frees : List Nat := []
  /-- The accesses of the further lanes of one bundle to the line, in ascending lane: address, length and data (R56). -/
  more : List (Nat × Nat × List Byte) := []
  deriving DecidableEq, Repr

/-- The answer to a request: data, or the cause (Table 15-1 bit) the target reported. -/
inductive FabAns where
  | ok (bytes : List Byte)
  /-- The line of a page with RM = 1: used for the access, and not retained (R32, Table 3-4). -/
  | noRetain (bytes : List Byte)
  | fail (cause : Nat)
  /-- No answer yet: the target has performed the read, whose value is bound and on its way (row 2 of Table 4-4). -/
  | bound
  deriving DecidableEq, Repr

/-- A firmware image offered at reset or in recovery (R421): its bytes, its version, and whether the security block verifies its signature
under the key whose digest is fused; with the images of the stages that it starts, the hypervisor's and each partition's. -/
structure Firmware where
  signatureOk : Bool
  version : Nat
  image : List Byte
  hypervisor : List Byte := []
  systems : List (Nat × List Byte) := []
  deriving DecidableEq, Repr

/-- A lane of a link: the end that names the link, a die or a port, and the lane of it that failed (R99, R416). -/
structure LinkLane where
  far : Nat
  lane : Nat := 0
  deriving DecidableEq, Repr

/-- The storage that a soft error strikes (Table 2-9), by the number of its core, die, line or key. A line of page table entries is the
tier of its own, whichever storage holds it. -/
inductive Tier where
  | registers (core : Nat)
  | accumulators (core : Nat)
  | scratchpad (core : Nat)
  | l1 (core line : Nat)
  | writeSet (core line : Nat)
  | icache (core line : Nat)
  | l2 (line : Nat)
  | rdc (die key : Nat)
  | directory (line : Nat)
  | dram (line : Nat)
  | pageTable (line : Nat)
  deriving DecidableEq, Repr

/-- A soft error met when a tier is read: corrected, or not (R68). -/
structure SoftError where
  tier : Tier
  corrected : Bool
  deriving DecidableEq, Repr

/-- A line that the patrol visits, and the soft error met on the way, if any (R68, R70). -/
structure Patrol where
  line : Nat
  err : Option SoftError := none
  deriving DecidableEq, Repr
/-- What is read: the counters of a die, or with a line the directory entry of the line, the state of a halted thread, or the time record of a
launch (R85, R404, R406, R420). -/
structure Readout where
  die : Nat
  line : Option Nat := none
  thread : Option Nat := none
  launch : Option Nat := none
  deriving DecidableEq, Repr
/-- The new mode of a region, and the device that is the region's home (R34). -/
structure RegionMode where
  rm : Nat
  home : Nat
  deriving DecidableEq, Repr

/-- The system registers that a write changes and nothing else (REGISTER_WRITE). The spec names what system software and the hypervisor
set and gives no register numbers; the list is the model's (DESIGN CHOICE, log entry 17). -/
inductive SysReg where
  | root (ctx : Nat)            -- the root pointer of a context (R15)
  | slice (ctx : Nat)           -- its time slice, in clocks (R377)
  | partition (ctx : Nat)       -- the partition it belongs to (R380)
  | dies (part : Nat)           -- the dies of a partition, one bit a die (R380)
  | member (device : Nat)       -- bit 0: the device belongs to the domain job (R12)
  | jobContext                  -- the domain job's context on this device (R12)
  | aperture (id word : Nat)    -- a 64-bit word of an aperture descriptor (R26)
  | overflow (core : Nat)       -- the write-set overflow area of a core: channel offset in bits 31:0, length in bits 63:32 (R80)
  | thread (part t word : Nat)  -- by a partition: a 64-bit word of a halted thread's state, laid out as Table 15-4: its 64 bytes, then its g registers (R404)
  | other (number : Nat)        -- a register that nothing else reads
  deriving DecidableEq, Repr

/-- The steps of the machine. The first 242 are instructions, whose arguments are the fields of the opcode table from the
highest bit down, the switch marker `s` last; the others are steps without an encoding, whose arguments name their object
or carry what arrives from outside. -/
inductive Instr where
  /-- MOV_FORM_H (R189) 16-bit two-address move d = b. -/
  | movFormH (b : BitVec 5) (d : BitVec 5) (s : BitVec 1)
  /-- ADD_FORM_H (R189) 16-bit two-address add d = d + b. -/
  | addFormH (b : BitVec 5) (d : BitVec 5) (s : BitVec 1)
  /-- SUB_FORM_H (R189) 16-bit two-address subtract. -/
  | subFormH (b : BitVec 5) (d : BitVec 5) (s : BitVec 1)
  /-- AND_FORM_H (R189) 16-bit two-address AND. -/
  | andFormH (b : BitVec 5) (d : BitVec 5) (s : BitVec 1)
  /-- OR_FORM_H (R189) 16-bit two-address OR. -/
  | orFormH (b : BitVec 5) (d : BitVec 5) (s : BitVec 1)
  /-- XOR_FORM_H (R189) 16-bit two-address XOR. -/
  | xorFormH (b : BitVec 5) (d : BitVec 5) (s : BitVec 1)
  /-- SHL_FORM_H (R189) 16-bit two-address shift left. -/
  | shlFormH (b : BitVec 5) (d : BitVec 5) (s : BitVec 1)
  /-- SHR_FORM_H (R189) 16-bit two-address logical shift right. -/
  | shrFormH (b : BitVec 5) (d : BitVec 5) (s : BitVec 1)
  /-- ADDI_FORM_H (R189) 16-bit add of a signed 5-bit immediate. -/
  | addiFormH (i : BitVec 5) (d : BitVec 5) (s : BitVec 1)
  /-- MUL_FORM_H (R189) 16-bit two-address multiply. -/
  | mulFormH (b : BitVec 5) (d : BitVec 5) (s : BitVec 1)
  /-- FADD_F32_FORM_H (R189) 16-bit FP32 add. -/
  | faddF32FormH (b : BitVec 5) (d : BitVec 5) (s : BitVec 1)
  /-- FSUB_F32_FORM_H (R189) 16-bit FP32 subtract. -/
  | fsubF32FormH (b : BitVec 5) (d : BitVec 5) (s : BitVec 1)
  /-- FMUL_F32_FORM_H (R189) 16-bit FP32 multiply. -/
  | fmulF32FormH (b : BitVec 5) (d : BitVec 5) (s : BitVec 1)
  /-- FMAX_F32_FORM_H (R189) 16-bit FP32 maximum. -/
  | fmaxF32FormH (b : BitVec 5) (d : BitVec 5) (s : BitVec 1)
  /-- FMIN_F32_FORM_H (R189) 16-bit FP32 minimum. -/
  | fminF32FormH (b : BitVec 5) (d : BitVec 5) (s : BitVec 1)
  /-- MOVI_FORM_H (R189) 16-bit move of a signed 5-bit immediate. -/
  | moviFormH (i : BitVec 5) (d : BitVec 5) (s : BitVec 1)
  /-- ADD (R255) Guarded 32-bit add, wrapping. -/
  | add (g : BitVec 4) (b : BitVec 6) (a : BitVec 6) (d : BitVec 6) (s : BitVec 1)
  /-- SUB (R255) Guarded 32-bit subtract. -/
  | sub (g : BitVec 4) (b : BitVec 6) (a : BitVec 6) (d : BitVec 6) (s : BitVec 1)
  /-- MUL (R255) Low 32 bits of a product. -/
  | mul (g : BitVec 4) (b : BitVec 6) (a : BitVec 6) (d : BitVec 6) (s : BitVec 1)
  /-- MULHI (R255) High word of the signed 64-bit product. -/
  | mulhi (g : BitVec 4) (b : BitVec 6) (a : BitVec 6) (d : BitVec 6) (s : BitVec 1)
  /-- MULHU (R255) High word of the unsigned 64-bit product. -/
  | mulhu (g : BitVec 4) (b : BitVec 6) (a : BitVec 6) (d : BitVec 6) (s : BitVec 1)
  /-- AND (R255) Bitwise AND. -/
  | and (g : BitVec 4) (b : BitVec 6) (a : BitVec 6) (d : BitVec 6) (s : BitVec 1)
  /-- OR (R255) Bitwise OR. -/
  | or (g : BitVec 4) (b : BitVec 6) (a : BitVec 6) (d : BitVec 6) (s : BitVec 1)
  /-- XOR (R255) Bitwise XOR. -/
  | xor (g : BitVec 4) (b : BitVec 6) (a : BitVec 6) (d : BitVec 6) (s : BitVec 1)
  /-- SHL (R255) Shift left, zero for amounts of 32 or more. -/
  | shl (g : BitVec 4) (b : BitVec 6) (a : BitVec 6) (d : BitVec 6) (s : BitVec 1)
  /-- SHR (R255) Logical shift right. -/
  | shr (g : BitVec 4) (b : BitVec 6) (a : BitVec 6) (d : BitVec 6) (s : BitVec 1)
  /-- SAR (R255) Arithmetic shift right. -/
  | sar (g : BitVec 4) (b : BitVec 6) (a : BitVec 6) (d : BitVec 6) (s : BitVec 1)
  /-- MIN (R255) Signed minimum. -/
  | min (g : BitVec 4) (b : BitVec 6) (a : BitVec 6) (d : BitVec 6) (s : BitVec 1)
  /-- MAX (R255) Signed maximum. -/
  | max (g : BitVec 4) (b : BitVec 6) (a : BitVec 6) (d : BitVec 6) (s : BitVec 1)
  /-- MINU (R255) Unsigned minimum. -/
  | minu (g : BitVec 4) (b : BitVec 6) (a : BitVec 6) (d : BitVec 6) (s : BitVec 1)
  /-- MAXU (R255) Unsigned maximum. -/
  | maxu (g : BitVec 4) (b : BitVec 6) (a : BitVec 6) (d : BitVec 6) (s : BitVec 1)
  /-- MOV (R255) 32-bit move; A must equal D. -/
  | mov (g : BitVec 4) (b : BitVec 6) (a : BitVec 6) (d : BitVec 6) (s : BitVec 1)
  /-- ADD_64 (R259) 64-bit pair add. -/
  | add64 (g : BitVec 4) (b : BitVec 6) (a : BitVec 6) (d : BitVec 6) (s : BitVec 1)
  /-- SUB_64 (R259) 64-bit pair subtract. -/
  | sub64 (g : BitVec 4) (b : BitVec 6) (a : BitVec 6) (d : BitVec 6) (s : BitVec 1)
  /-- ADDW (R259) Pair plus sign-extended word. -/
  | addw (g : BitVec 4) (b : BitVec 6) (a : BitVec 6) (d : BitVec 6) (s : BitVec 1)
  /-- ADDUW (R259) Pair plus zero-extended word. -/
  | adduw (g : BitVec 4) (b : BitVec 6) (a : BitVec 6) (d : BitVec 6) (s : BitVec 1)
  /-- SHL_64 (R259) 64-bit shift left. -/
  | shl64 (g : BitVec 4) (b : BitVec 6) (a : BitVec 6) (d : BitVec 6) (s : BitVec 1)
  /-- SHR_64 (R259) 64-bit logical shift right. -/
  | shr64 (g : BitVec 4) (b : BitVec 6) (a : BitVec 6) (d : BitVec 6) (s : BitVec 1)
  /-- SAR_64 (R259) 64-bit arithmetic shift right. -/
  | sar64 (g : BitVec 4) (b : BitVec 6) (a : BitVec 6) (d : BitVec 6) (s : BitVec 1)
  /-- MULW (R259) Signed 64-bit product of two words. -/
  | mulw (g : BitVec 4) (b : BitVec 6) (a : BitVec 6) (d : BitVec 6) (s : BitVec 1)
  /-- ADDI (R257) Add of a signed 13-bit immediate. -/
  | addi (i : BitVec 13) (a : BitVec 6) (d : BitVec 6) (s : BitVec 1)
  /-- ANDI (R257) AND with a sign-extended 13-bit immediate. -/
  | andi (i : BitVec 13) (a : BitVec 6) (d : BitVec 6) (s : BitVec 1)
  /-- CLZ (R260) Count leading zeros. -/
  | clz (a : BitVec 6) (d : BitVec 6) (s : BitVec 1)
  /-- CTZ (R260) Count trailing zeros. -/
  | ctz (a : BitVec 6) (d : BitVec 6) (s : BitVec 1)
  /-- POPC (R260) Population count. -/
  | popc (a : BitVec 6) (d : BitVec 6) (s : BitVec 1)
  /-- BREV (R260) Bit reverse. -/
  | brev (a : BitVec 6) (d : BitVec 6) (s : BitVec 1)
  /-- SEXT_8 (R260) Sign-extend low byte. -/
  | sext8 (a : BitVec 6) (d : BitVec 6) (s : BitVec 1)
  /-- SEXT_16 (R260) Sign-extend low halfword. -/
  | sext16 (a : BitVec 6) (d : BitVec 6) (s : BitVec 1)
  /-- ADDSAT (R260) Signed saturating add, setting SAT on clamp. -/
  | addsat (b : BitVec 6) (a : BitVec 6) (d : BitVec 6) (s : BitVec 1)
  /-- SUBSAT (R260) Signed saturating subtract. -/
  | subsat (b : BitVec 6) (a : BitVec 6) (d : BitVec 6) (s : BitVec 1)
  /-- ADDSATU (R260) Unsigned saturating add. -/
  | addsatu (b : BitVec 6) (a : BitVec 6) (d : BitVec 6) (s : BitVec 1)
  /-- SUBSATU (R260) Unsigned saturating subtract. -/
  | subsatu (b : BitVec 6) (a : BitVec 6) (d : BitVec 6) (s : BitVec 1)
  /-- ROL (R260) Rotate left. -/
  | rol (b : BitVec 6) (a : BitVec 6) (d : BitVec 6) (s : BitVec 1)
  /-- BFX (R260) Unsigned bit-field extract. -/
  | bfx (b : BitVec 6) (a : BitVec 6) (d : BitVec 6) (s : BitVec 1)
  /-- LI_LO (R258) Load sign-extended 16-bit immediate. -/
  | liLo (i : BitVec 16) (d : BitVec 6) (s : BitVec 1)
  /-- LI_HI (R258) Load immediate into upper halfword, keeping the low half. -/
  | liHi (i : BitVec 16) (d : BitVec 6) (s : BitVec 1)
  /-- ICMP (R228) Signed integer compare to predicate. -/
  | icmp (g : BitVec 4) (b : BitVec 6) (a : BitVec 6) (c : BitVec 3) (q : BitVec 3) (s : BitVec 1)
  /-- UCMP (R228) Unsigned integer compare to predicate. -/
  | ucmp (g : BitVec 4) (b : BitVec 6) (a : BitVec 6) (c : BitVec 3) (q : BitVec 3) (s : BitVec 1)
  /-- FCMP_F32 (R228) FP32 compare to predicate. -/
  | fcmpF32 (g : BitVec 4) (b : BitVec 6) (a : BitVec 6) (c : BitVec 3) (q : BitVec 3) (s : BitVec 1)
  /-- FCMP_F64 (R228) FP64 compare to predicate, variable latency. -/
  | fcmpF64 (g : BitVec 4) (b : BitVec 6) (a : BitVec 6) (c : BitVec 3) (q : BitVec 3) (s : BitVec 1)
  /-- PAND (R228) Predicate AND. -/
  | pand (g : BitVec 4) (b : BitVec 3) (a : BitVec 3) (q : BitVec 3) (s : BitVec 1)
  /-- POR (R228) Predicate OR. -/
  | por (g : BitVec 4) (b : BitVec 3) (a : BitVec 3) (q : BitVec 3) (s : BitVec 1)
  /-- PXOR (R228) Predicate XOR. -/
  | pxor (g : BitVec 4) (b : BitVec 3) (a : BitVec 3) (q : BitVec 3) (s : BitVec 1)
  /-- PANDN (R228) Predicate AND-NOT. -/
  | pandn (g : BitVec 4) (b : BitVec 3) (a : BitVec 3) (q : BitVec 3) (s : BitVec 1)
  /-- PNOT (R228) Predicate NOT. -/
  | pnot (g : BitVec 4) (a : BitVec 3) (q : BitVec 3) (s : BitVec 1)
  /-- PMOV (R228) Predicate move. -/
  | pmov (g : BitVec 4) (a : BitVec 3) (q : BitVec 3) (s : BitVec 1)
  /-- PGET (R228) Read q1-q7 into a register. -/
  | pget (g : BitVec 4) (d : BitVec 6) (s : BitVec 1)
  /-- PSET (R228) Write q1-q7 from a register. -/
  | pset (g : BitVec 4) (a : BitVec 6) (s : BitVec 1)
  /-- FADD_F32 (R262) FP32 add RNE. -/
  | faddF32 (g : BitVec 4) (b : BitVec 6) (a : BitVec 6) (d : BitVec 6) (s : BitVec 1)
  /-- FSUB_F32 (R262) FP32 subtract RNE. -/
  | fsubF32 (g : BitVec 4) (b : BitVec 6) (a : BitVec 6) (d : BitVec 6) (s : BitVec 1)
  /-- FMUL_F32 (R262) FP32 multiply RNE. -/
  | fmulF32 (g : BitVec 4) (b : BitVec 6) (a : BitVec 6) (d : BitVec 6) (s : BitVec 1)
  /-- FMIN_F32 (R263) FP32 minimum. -/
  | fminF32 (g : BitVec 4) (b : BitVec 6) (a : BitVec 6) (d : BitVec 6) (s : BitVec 1)
  /-- FMAX_F32 (R263) FP32 maximum. -/
  | fmaxF32 (g : BitVec 4) (b : BitVec 6) (a : BitVec 6) (d : BitVec 6) (s : BitVec 1)
  /-- FADD_RZ_F32 (R262) FP32 add RTZ. -/
  | faddRzF32 (g : BitVec 4) (b : BitVec 6) (a : BitVec 6) (d : BitVec 6) (s : BitVec 1)
  /-- FMUL_RZ_F32 (R262) FP32 multiply RTZ. -/
  | fmulRzF32 (g : BitVec 4) (b : BitVec 6) (a : BitVec 6) (d : BitVec 6) (s : BitVec 1)
  /-- FSGNJ_F32 (R264) FP32 sign injection. -/
  | fsgnjF32 (g : BitVec 4) (b : BitVec 6) (a : BitVec 6) (d : BitVec 6) (s : BitVec 1)
  /-- FADD_F64 (R262) FP64 add RNE. -/
  | faddF64 (g : BitVec 4) (b : BitVec 6) (a : BitVec 6) (d : BitVec 6) (s : BitVec 1)
  /-- FSUB_F64 (R262) FP64 subtract RNE. -/
  | fsubF64 (g : BitVec 4) (b : BitVec 6) (a : BitVec 6) (d : BitVec 6) (s : BitVec 1)
  /-- FMUL_F64 (R262) FP64 multiply RNE. -/
  | fmulF64 (g : BitVec 4) (b : BitVec 6) (a : BitVec 6) (d : BitVec 6) (s : BitVec 1)
  /-- FMIN_F64 (R263) FP64 minimum. -/
  | fminF64 (g : BitVec 4) (b : BitVec 6) (a : BitVec 6) (d : BitVec 6) (s : BitVec 1)
  /-- FMAX_F64 (R263) FP64 maximum. -/
  | fmaxF64 (g : BitVec 4) (b : BitVec 6) (a : BitVec 6) (d : BitVec 6) (s : BitVec 1)
  /-- FADD_RZ_F64 (R262) FP64 add RTZ. -/
  | faddRzF64 (g : BitVec 4) (b : BitVec 6) (a : BitVec 6) (d : BitVec 6) (s : BitVec 1)
  /-- FMUL_RZ_F64 (R262) FP64 multiply RTZ. -/
  | fmulRzF64 (g : BitVec 4) (b : BitVec 6) (a : BitVec 6) (d : BitVec 6) (s : BitVec 1)
  /-- FSGNJ_F64 (R264) FP64 sign injection. -/
  | fsgnjF64 (g : BitVec 4) (b : BitVec 6) (a : BitVec 6) (d : BitVec 6) (s : BitVec 1)
  /-- FADD_F16X2 (R265) Packed FP16 add. -/
  | faddF16x2 (g : BitVec 4) (b : BitVec 6) (a : BitVec 6) (d : BitVec 6) (s : BitVec 1)
  /-- FMUL_F16X2 (R265) Packed FP16 multiply. -/
  | fmulF16x2 (g : BitVec 4) (b : BitVec 6) (a : BitVec 6) (d : BitVec 6) (s : BitVec 1)
  /-- FFMA_F16X2 (R265) Packed FP16 fused multiply-add into D. -/
  | ffmaF16x2 (g : BitVec 4) (b : BitVec 6) (a : BitVec 6) (d : BitVec 6) (s : BitVec 1)
  /-- FMAX_F16X2 (R265) Packed FP16 maximum. -/
  | fmaxF16x2 (g : BitVec 4) (b : BitVec 6) (a : BitVec 6) (d : BitVec 6) (s : BitVec 1)
  /-- FADD_BF16X2 (R265) Packed BF16 add. -/
  | faddBf16x2 (g : BitVec 4) (b : BitVec 6) (a : BitVec 6) (d : BitVec 6) (s : BitVec 1)
  /-- FMUL_BF16X2 (R265) Packed BF16 multiply. -/
  | fmulBf16x2 (g : BitVec 4) (b : BitVec 6) (a : BitVec 6) (d : BitVec 6) (s : BitVec 1)
  /-- FFMA_BF16X2 (R265) Packed BF16 fused multiply-add into D. -/
  | ffmaBf16x2 (g : BitVec 4) (b : BitVec 6) (a : BitVec 6) (d : BitVec 6) (s : BitVec 1)
  /-- FMAX_BF16X2 (R265) Packed BF16 maximum. -/
  | fmaxBf16x2 (g : BitVec 4) (b : BitVec 6) (a : BitVec 6) (d : BitVec 6) (s : BitVec 1)
  /-- FFMA_F32 (R266) FP32 fused multiply-add with one rounding. -/
  | ffmaF32 (c : BitVec 6) (b : BitVec 6) (a : BitVec 6) (d : BitVec 6) (s : BitVec 1)
  /-- FFMA_F64 (R266) FP64 fused multiply-add on pairs. -/
  | ffmaF64 (c : BitVec 6) (b : BitVec 6) (a : BitVec 6) (d : BitVec 6) (s : BitVec 1)
  /-- CVT_F32_F64 (R267) FP64 to FP32 RNE. -/
  | cvtF32F64 (a : BitVec 6) (d : BitVec 6) (s : BitVec 1)
  /-- CVT_RZ_F32_F64 (R267) FP64 to FP32 RTZ. -/
  | cvtRzF32F64 (a : BitVec 6) (d : BitVec 6) (s : BitVec 1)
  /-- CVT_F64_F32 (R267) FP32 to FP64 exactly. -/
  | cvtF64F32 (a : BitVec 6) (d : BitVec 6) (s : BitVec 1)
  /-- CVT_F32_S32 (R267) Signed INT32 to FP32. -/
  | cvtF32S32 (a : BitVec 6) (d : BitVec 6) (s : BitVec 1)
  /-- CVT_F32_UNS32 (R267) Unsigned 32-bit to FP32. -/
  | cvtF32Uns32 (a : BitVec 6) (d : BitVec 6) (s : BitVec 1)
  /-- CVT_S32_F32 (R267) FP32 to INT32 RNE. -/
  | cvtS32F32 (a : BitVec 6) (d : BitVec 6) (s : BitVec 1)
  /-- CVT_RZ_S32_F32 (R267) FP32 to INT32 RTZ. -/
  | cvtRzS32F32 (a : BitVec 6) (d : BitVec 6) (s : BitVec 1)
  /-- CVT_F64_S32 (R267) INT32 to FP64 exactly. -/
  | cvtF64S32 (a : BitVec 6) (d : BitVec 6) (s : BitVec 1)
  /-- CVT_S32_F64 (R267) FP64 to INT32 RNE. -/
  | cvtS32F64 (a : BitVec 6) (d : BitVec 6) (s : BitVec 1)
  /-- CVT_RZ_S32_F64 (R267) FP64 to INT32 RTZ. -/
  | cvtRzS32F64 (a : BitVec 6) (d : BitVec 6) (s : BitVec 1)
  /-- CVT_F16X2_F32 (R267) Two FP32 to packed FP16. -/
  | cvtF16x2F32 (b : BitVec 6) (a : BitVec 6) (d : BitVec 6) (s : BitVec 1)
  /-- CVT_BF16X2_F32 (R267) Two FP32 to packed BF16 RNE. -/
  | cvtBf16x2F32 (b : BitVec 6) (a : BitVec 6) (d : BitVec 6) (s : BitVec 1)
  /-- CVT_RZ_BF16X2_F32 (R267) Two FP32 to packed BF16 RTZ. -/
  | cvtRzBf16x2F32 (b : BitVec 6) (a : BitVec 6) (d : BitVec 6) (s : BitVec 1)
  /-- CVT_F32_F16 (R267) Half of a register FP16 to FP32. -/
  | cvtF32F16 (h : BitVec 1) (a : BitVec 6) (d : BitVec 6) (s : BitVec 1)
  /-- CVT_F32_BF16 (R267) Half of a register BF16 to FP32. -/
  | cvtF32Bf16 (h : BitVec 1) (a : BitVec 6) (d : BitVec 6) (s : BitVec 1)
  /-- D8_PACK (R221) Encode FP32 into byte b of D as D8. -/
  | d8Pack (y : BitVec 2) (a : BitVec 6) (d : BitVec 6) (s : BitVec 1)
  /-- D8_UNPACK (R220) Decode byte b of a D8 word to FP32. -/
  | d8Unpack (y : BitVec 2) (a : BitVec 6) (d : BitVec 6) (s : BitVec 1)
  /-- CVT_S8_F32 (R267) FP32 to INT8 into byte b of D. -/
  | cvtS8F32 (y : BitVec 2) (a : BitVec 6) (d : BitVec 6) (s : BitVec 1)
  /-- CVT_F32_S8 (R267) INT8 byte b to FP32. -/
  | cvtF32S8 (y : BitVec 2) (a : BitVec 6) (d : BitVec 6) (s : BitVec 1)
  /-- FSINT (R270) Correctly rounded sine of 2πa in turns. -/
  | fsint (a : BitVec 6) (d : BitVec 6) (s : BitVec 1)
  /-- FCOST (R270) Correctly rounded cosine of 2πa in turns. -/
  | fcost (a : BitVec 6) (d : BitVec 6) (s : BitVec 1)
  /-- FEXP2 (R269) Correctly rounded 2^a. -/
  | fexp2 (a : BitVec 6) (d : BitVec 6) (s : BitVec 1)
  /-- FLOG2 (R269) Correctly rounded log2 a. -/
  | flog2 (a : BitVec 6) (d : BitVec 6) (s : BitVec 1)
  /-- FRCP (R269) Correctly rounded reciprocal. -/
  | frcp (a : BitVec 6) (d : BitVec 6) (s : BitVec 1)
  /-- FRSQ (R269) Correctly rounded reciprocal square root. -/
  | frsq (a : BitVec 6) (d : BitVec 6) (s : BitVec 1)
  /-- FSQRT (R269) Correctly rounded FP32 square root. -/
  | fsqrt (a : BitVec 6) (d : BitVec 6) (s : BitVec 1)
  /-- FDIV (R271) Correctly rounded FP32 divide. -/
  | fdiv (b : BitVec 6) (a : BitVec 6) (d : BitVec 6) (s : BitVec 1)
  /-- FRCP_F64 (R269) FP64 reciprocal. -/
  | frcpF64 (a : BitVec 6) (d : BitVec 6) (s : BitVec 1)
  /-- FSQRT_F64 (R269) FP64 square root. -/
  | fsqrtF64 (a : BitVec 6) (d : BitVec 6) (s : BitVec 1)
  /-- FDIV_F64 (R271) FP64 divide. -/
  | fdivF64 (b : BitVec 6) (a : BitVec 6) (d : BitVec 6) (s : BitVec 1)
  /-- LSWAP (R272) Cross-lane exchange with train index XOR d. -/
  | lswap (m : BitVec 4) (i : BitVec 6) (a : BitVec 6) (d : BitVec 6) (s : BitVec 1)
  /-- SHFL (R272) Cross-lane read from train index in gb. -/
  | shfl (m : BitVec 4) (b : BitVec 6) (a : BitVec 6) (d : BitVec 6) (s : BitVec 1)
  /-- BCAST (R272) Cross-lane broadcast from train index s. -/
  | bcast (m : BitVec 4) (i : BitVec 6) (a : BitVec 6) (d : BitVec 6) (s : BitVec 1)
  /-- BALLOT (R272) Mask of members whose predicate is true. -/
  | ballot (m : BitVec 4) (a : BitVec 3) (d : BitVec 6) (s : BitVec 1)
  /-- RED_OP (R273) Integer reduction over mask members. -/
  | redOp (m : BitVec 4) (o : BitVec 3) (a : BitVec 6) (d : BitVec 6) (s : BitVec 1)
  /-- RED_FOP_F32 (R273) FP32 reduction by the fixed tree. -/
  | redFopF32 (m : BitVec 4) (o : BitVec 2) (a : BitVec 6) (d : BitVec 6) (s : BitVec 1)
  /-- SCAN_ADD (R272) Inclusive prefix sum over mask members. -/
  | scanAdd (m : BitVec 4) (a : BitVec 6) (d : BitVec 6) (s : BitVec 1)
  /-- RED_FOP_F64 (R273) FP64 reduction by the fixed tree. -/
  | redFopF64 (m : BitVec 4) (o : BitVec 2) (a : BitVec 6) (d : BitVec 6) (s : BitVec 1)
  /-- BR (R229) Unconditional or predicated relative branch. -/
  | br (x : BitVec 21) (v : BitVec 1) (q : BitVec 3) (s : BitVec 1)
  /-- CALL (R229) Relative call linking PC+4 into x0. -/
  | call (x : BitVec 21) (s : BitVec 1)
  /-- EXIT (R234) End the thread after marker wait, helper drain and implicit phase.device. -/
  | exit (s : BitVec 1)
  /-- JR (R231) Indirect jump with landing check. -/
  | jr (a : BitVec 6) (s : BitVec 1)
  /-- JALR (R231) Indirect jump with landing check and link. -/
  | jalr (a : BitVec 6) (d : BitVec 6) (s : BitVec 1)
  /-- RET (R231) Indirect jump without landing check. -/
  | ret (a : BitVec 6) (s : BitVec 1)
  /-- LAND (R233) Marks a permitted indirect target; no effect. -/
  | land (s : BitVec 1)
  /-- JOIN (R236) Set the thread's bit in a mask. -/
  | join (d : BitVec 6) (s : BitVec 1)
  /-- LEAVE (R236) Clear the thread's bit in a mask. -/
  | leave (d : BitVec 6) (s : BitVec 1)
  /-- WAITM (R237) Gather on a mask without data exchange. -/
  | waitm (d : BitVec 6) (s : BitVec 1)
  /-- MRD (R237) Read a mask into a pair. -/
  | mrd (a : BitVec 6) (d : BitVec 6) (s : BitVec 1)
  /-- HZRD (R243) Read SEQ and HZ. -/
  | hzrd (d : BitVec 6) (s : BitVec 1)
  /-- HZWAIT (R244) Park until at most n operations are unresolved. -/
  | hzwait (a : BitVec 6) (s : BitVec 1)
  /-- HZBR (R245) Branch when the horizon is clear. -/
  | hzbr (x : BitVec 18) (s : BitVec 1)
  /-- HZBRN (R245) Branch when the horizon is not clear. -/
  | hzbrn (x : BitVec 18) (s : BitVec 1)
  /-- HZREPLAY (R249) End handler mode and re-run HELD and FAULT entries of the trap record. -/
  | hzreplay (s : BitVec 1)
  /-- LD (R279) Load, weak in device space. -/
  | ld (o : BitVec 4) (w : BitVec 3) (p : BitVec 3) (a : BitVec 6) (d : BitVec 6) (s : BitVec 1)
  /-- LD_SX (R278) Sign-extending load of 8 or 16 bits. -/
  | ldSx (o : BitVec 4) (w : BitVec 3) (p : BitVec 3) (a : BitVec 6) (d : BitVec 6) (s : BitVec 1)
  /-- ST (R282) Store, weak in device space. -/
  | st (o : BitVec 4) (w : BitVec 3) (p : BitVec 3) (a : BitVec 6) (d : BitVec 6) (s : BitVec 1)
  /-- LD_S (R279) Strong load. -/
  | ldS (o : BitVec 4) (w : BitVec 3) (p : BitVec 3) (a : BitVec 6) (d : BitVec 6) (s : BitVec 1)
  /-- LD_SX_S (R278) Strong sign-extending load. -/
  | ldSxS (o : BitVec 4) (w : BitVec 3) (p : BitVec 3) (a : BitVec 6) (d : BitVec 6) (s : BitVec 1)
  /-- ST_S (R282) Strong store. -/
  | stS (o : BitVec 4) (w : BitVec 3) (p : BitVec 3) (a : BitVec 6) (d : BitVec 6) (s : BitVec 1)
  /-- ATOM_ADD (R286) Atomic wrapping add at the home service train. -/
  | atomAdd (w : BitVec 1) (p : BitVec 2) (b : BitVec 6) (a : BitVec 6) (d : BitVec 6) (s : BitVec 1)
  /-- ATOM_MIN (R286) Atomic signed minimum. -/
  | atomMin (w : BitVec 1) (p : BitVec 2) (b : BitVec 6) (a : BitVec 6) (d : BitVec 6) (s : BitVec 1)
  /-- ATOM_MAX (R286) Atomic signed maximum. -/
  | atomMax (w : BitVec 1) (p : BitVec 2) (b : BitVec 6) (a : BitVec 6) (d : BitVec 6) (s : BitVec 1)
  /-- ATOM_MINU (R286) Atomic unsigned minimum. -/
  | atomMinu (w : BitVec 1) (p : BitVec 2) (b : BitVec 6) (a : BitVec 6) (d : BitVec 6) (s : BitVec 1)
  /-- ATOM_MAXU (R286) Atomic unsigned maximum. -/
  | atomMaxu (w : BitVec 1) (p : BitVec 2) (b : BitVec 6) (a : BitVec 6) (d : BitVec 6) (s : BitVec 1)
  /-- ATOM_AND (R286) Atomic AND. -/
  | atomAnd (w : BitVec 1) (p : BitVec 2) (b : BitVec 6) (a : BitVec 6) (d : BitVec 6) (s : BitVec 1)
  /-- ATOM_OR (R286) Atomic OR. -/
  | atomOr (w : BitVec 1) (p : BitVec 2) (b : BitVec 6) (a : BitVec 6) (d : BitVec 6) (s : BitVec 1)
  /-- ATOM_XOR (R286) Atomic XOR. -/
  | atomXor (w : BitVec 1) (p : BitVec 2) (b : BitVec 6) (a : BitVec 6) (d : BitVec 6) (s : BitVec 1)
  /-- ATOM_EXCH (R286) Atomic exchange. -/
  | atomExch (w : BitVec 1) (p : BitVec 2) (b : BitVec 6) (a : BitVec 6) (d : BitVec 6) (s : BitVec 1)
  /-- ATOM_CAS (R286) Atomic compare-and-swap using D as compare value. -/
  | atomCas (w : BitVec 1) (p : BitVec 2) (b : BitVec 6) (a : BitVec 6) (d : BitVec 6) (s : BitVec 1)
  /-- ATOM_FADD (R286) Atomic FP add in lane order. -/
  | atomFadd (w : BitVec 1) (p : BitVec 2) (b : BitVec 6) (a : BitVec 6) (d : BitVec 6) (s : BitVec 1)
  /-- ATOM_FADD_RA (R286) Atomic FP add with reassociation permitted. -/
  | atomFaddRa (w : BitVec 1) (p : BitVec 2) (b : BitVec 6) (a : BitVec 6) (d : BitVec 6) (s : BitVec 1)
  /-- ATOM_FMIN (R286) Atomic FP minimum. -/
  | atomFmin (w : BitVec 1) (p : BitVec 2) (b : BitVec 6) (a : BitVec 6) (d : BitVec 6) (s : BitVec 1)
  /-- ATOM_FMAX (R286) Atomic FP maximum. -/
  | atomFmax (w : BitVec 1) (p : BitVec 2) (b : BitVec 6) (a : BitVec 6) (d : BitVec 6) (s : BitVec 1)
  /-- STF (R288) Remote store with flag increment after the data lands. -/
  | stf (w : BitVec 1) (b : BitVec 6) (a : BitVec 6) (d : BitVec 6) (s : BitVec 1)
  /-- PHASE_TRAIN (R126) Phase boundary at train scope. -/
  | phaseTrain (s : BitVec 1)
  /-- PHASE_MOVEMENT (R126) Phase boundary at movement scope. -/
  | phaseMovement (s : BitVec 1)
  /-- PHASE_CALIBRE (R126) Phase boundary at calibre scope. -/
  | phaseCalibre (s : BitVec 1)
  /-- PHASE_DEVICE (R126) Phase boundary at device scope. -/
  | phaseDevice (s : BitVec 1)
  /-- PHASE_DOMAIN (R127) Phase boundary at domain scope. -/
  | phaseDomain (s : BitVec 1)
  /-- FENCE_TRAIN (R128) Fence at train scope. -/
  | fenceTrain (s : BitVec 1)
  /-- FENCE_MOVEMENT (R128) Fence at movement scope. -/
  | fenceMovement (s : BitVec 1)
  /-- FENCE_CALIBRE (R128) Fence at calibre scope. -/
  | fenceCalibre (s : BitVec 1)
  /-- FENCE_DEVICE (R128) Fence at device scope. -/
  | fenceDevice (s : BitVec 1)
  /-- FENCE_DOMAIN (R128) Fence covering remote, aperture and host accesses. -/
  | fenceDomain (s : BitVec 1)
  /-- BAR_TRAIN (R292) Barrier over a mask's members. -/
  | barTrain (d : BitVec 6) (s : BitVec 1)
  /-- BAR_MOVEMENT (R293) Counted barrier at movement scope. -/
  | barMovement (i : BitVec 4) (a : BitVec 6) (s : BitVec 1)
  /-- BAR_CALIBRE (R293) Counted barrier at calibre scope. -/
  | barCalibre (i : BitVec 4) (a : BitVec 6) (s : BitVec 1)
  /-- BAR_DEVICE (R293) Counted barrier at device scope. -/
  | barDevice (i : BitVec 4) (a : BitVec 6) (s : BitVec 1)
  /-- RFLUSH_DEV (R294) Range flush of device space. -/
  | rflushDev (b : BitVec 6) (a : BitVec 6) (s : BitVec 1)
  /-- RFLUSH_REM (R294) Range flush of remote space. -/
  | rflushRem (b : BitVec 6) (a : BitVec 6) (s : BitVec 1)
  /-- RFLUSH_HOST (R294) Range flush of host space. -/
  | rflushHost (b : BitVec 6) (a : BitVec 6) (s : BitVec 1)
  /-- RINVAL_DEV (R294) Range invalidate of device space. -/
  | rinvalDev (b : BitVec 6) (a : BitVec 6) (s : BitVec 1)
  /-- RINVAL_REM (R294) Range invalidate of remote space. -/
  | rinvalRem (b : BitVec 6) (a : BitVec 6) (s : BitVec 1)
  /-- RINVAL_HOST (R294) Range invalidate of host space. -/
  | rinvalHost (b : BitVec 6) (a : BitVec 6) (s : BitVec 1)
  /-- PRS_WAIT (R295) Park until every named scratch line is present. -/
  | prsWait (b : BitVec 6) (a : BitVec 6) (s : BitVec 1)
  /-- PRS_TEST (R295) Test presence of one scratch line into a predicate. -/
  | prsTest (a : BitVec 6) (q : BitVec 3) (s : BitVec 1)
  /-- MX_OP (R303) Issue a matrix command from a parameter block. -/
  | mxOp (a : BitVec 6) (s : BitVec 1)
  /-- MX_COMMIT (R307) Close the train's open matrix batch. -/
  | mxCommit (d : BitVec 6) (s : BitVec 1)
  /-- MX_WAIT (R308) Park until at most n batches are incomplete. -/
  | mxWait (i : BitVec 6) (s : BitVec 1)
  /-- MX_RD (R310) Read one accumulator tile word. -/
  | mxRd (t : BitVec 6) (a : BitVec 6) (d : BitVec 6) (s : BitVec 1)
  /-- MX_WR (R310) Write one accumulator tile word. -/
  | mxWr (b : BitVec 6) (a : BitVec 6) (t : BitVec 6) (s : BitVec 1)
  /-- MX_RD_64 (R310) Read one FP64 element of a tile pair. -/
  | mxRd64 (t : BitVec 6) (a : BitVec 6) (d : BitVec 6) (s : BitVec 1)
  /-- MX_WR_64 (R310) Write one FP64 element of a tile pair. -/
  | mxWr64 (b : BitVec 6) (a : BitVec 6) (t : BitVec 6) (s : BitVec 1)
  /-- MX_ZERO (R310) Zero an accumulator tile. -/
  | mxZero (t : BitVec 6) (s : BitVec 1)
  /-- CP_TILE_LD (R316) Copy-engine gather of a tensor box. -/
  | cpTileLd (b : BitVec 6) (a : BitVec 6) (d : BitVec 6) (s : BitVec 1)
  /-- CP_TILE_ST (R316) Copy-engine scatter of a dense box into a tensor. -/
  | cpTileSt (b : BitVec 6) (a : BitVec 6) (d : BitVec 6) (s : BitVec 1)
  /-- RNEXT (R325) Claim the next chunk of the dispenser. -/
  | rnext (d : BitVec 6) (s : BitVec 1)
  /-- RLEAVE (R326) Helper implicit phase.movement and end. -/
  | rleave (s : BitVec 1)
  /-- RJOIN (R327) Wait for helpers to leave and release the bank. -/
  | rjoin (s : BitVec 1)
  /-- RJOIN_ADD (R327) Fold helper registers by integer add. -/
  | rjoinAdd (b : BitVec 6) (d : BitVec 6) (s : BitVec 1)
  /-- RJOIN_MIN (R327) Fold by signed minimum. -/
  | rjoinMin (b : BitVec 6) (d : BitVec 6) (s : BitVec 1)
  /-- RJOIN_MAX (R327) Fold by signed maximum. -/
  | rjoinMax (b : BitVec 6) (d : BitVec 6) (s : BitVec 1)
  /-- RJOIN_MINU (R327) Fold by unsigned minimum. -/
  | rjoinMinu (b : BitVec 6) (d : BitVec 6) (s : BitVec 1)
  /-- RJOIN_MAXU (R327) Fold by unsigned maximum. -/
  | rjoinMaxu (b : BitVec 6) (d : BitVec 6) (s : BitVec 1)
  /-- RJOIN_AND (R327) Fold by AND. -/
  | rjoinAnd (b : BitVec 6) (d : BitVec 6) (s : BitVec 1)
  /-- RJOIN_OR (R327) Fold by OR. -/
  | rjoinOr (b : BitVec 6) (d : BitVec 6) (s : BitVec 1)
  /-- RJOIN_XOR (R327) Fold by XOR. -/
  | rjoinXor (b : BitVec 6) (d : BitVec 6) (s : BitVec 1)
  /-- RJOIN_FADD_F32 (R327) Fold by FP32 add in helper order. -/
  | rjoinFaddF32 (b : BitVec 6) (d : BitVec 6) (s : BitVec 1)
  /-- RJOIN_FMIN_F32 (R327) Fold by FP32 minimum. -/
  | rjoinFminF32 (b : BitVec 6) (d : BitVec 6) (s : BitVec 1)
  /-- RJOIN_FMAX_F32 (R327) Fold by FP32 maximum. -/
  | rjoinFmaxF32 (b : BitVec 6) (d : BitVec 6) (s : BitVec 1)
  /-- RJOIN_FADD_F64 (R327) Fold by FP64 add. -/
  | rjoinFaddF64 (b : BitVec 6) (d : BitVec 6) (s : BitVec 1)
  /-- RJOIN_FMIN_F64 (R327) Fold by FP64 minimum. -/
  | rjoinFminF64 (b : BitVec 6) (d : BitVec 6) (s : BitVec 1)
  /-- RJOIN_FMAX_F64 (R327) Fold by FP64 maximum. -/
  | rjoinFmaxF64 (b : BitVec 6) (d : BitVec 6) (s : BitVec 1)
  /-- RECRUIT (R322) Recruit spare lanes as helpers and arm the dispenser. -/
  | recruit (c : BitVec 6) (b : BitVec 6) (a : BitVec 6) (d : BitVec 6) (s : BitVec 1)
  /-- ESC_OPEN (R336) Open an Escapement stream. -/
  | escOpen (d : BitVec 6) (s : BitVec 1)
  /-- ESC_IN (R335) Push a constraint with up to four bodies. -/
  | escIn (b : BitVec 6) (a : BitVec 6) (k : BitVec 3) (i : BitVec 3) (s : BitVec 1)
  /-- ESC_END (R336) End an Escapement stream. -/
  | escEnd (d : BitVec 6) (s : BitVec 1)
  /-- ESC_NEXT (R337) Take the next released constraint or the end mark. -/
  | escNext (a : BitVec 6) (d : BitVec 6) (s : BitVec 1)
  /-- ESC_DONE (R338) Retire a constraint with an implicit calibre boundary. -/
  | escDone (b : BitVec 6) (a : BitVec 6) (s : BitVec 1)
  /-- XQ_CFG (R340) Configure an expert queue from a record. -/
  | xqCfg (a : BitVec 6) (s : BitVec 1)
  /-- XQ_IN (R341) Push one token to an expert queue. -/
  | xqIn (b : BitVec 6) (a : BitVec 6) (s : BitVec 1)
  /-- XQ_TAKE (R345) Write a fired batch's token entries to scratch. -/
  | xqTake (a : BitVec 6) (d : BitVec 6) (s : BitVec 1)
  /-- XQ_DONE (R346) Store a result slot and decrement the combine counter. -/
  | xqDone (b : BitVec 6) (a : BitVec 6) (s : BitVec 1)
  /-- TK_SPAWN (R357) Queue a task record on a core. -/
  | tkSpawn (b : BitVec 6) (a : BitVec 6) (s : BitVec 1)
  /-- TK_HAND (R358) Queue a task record handing over the scratch range. -/
  | tkHand (a : BitVec 6) (s : BitVec 1)
  /-- KRD (R360) Read a uniform register. -/
  | krd (a : BitVec 6) (d : BitVec 6) (s : BitVec 1)
  /-- RG_SEND (R362) Send one value on a stage ring. -/
  | rgSend (a : BitVec 6) (d : BitVec 6) (s : BitVec 1)
  /-- RG_RECV (R362) Receive one value or the end mark from a ring. -/
  | rgRecv (a : BitVec 6) (d : BitVec 6) (s : BitVec 1)
  /-- RG_EOS (R362) Record end of stream for the train on a ring. -/
  | rgEos (d : BitVec 6) (s : BitVec 1)
  /-- PH_END (R366) Implicit phase.domain then park until the domain phase ends. -/
  | phEnd (d : BitVec 6) (s : BitVec 1)
  /-- SRD (R374) Read a special register. -/
  | srd (a : BitVec 6) (d : BitVec 6) (s : BitVec 1)
  /-- CSRR (R374) Read a control register. -/
  | csrr (a : BitVec 6) (d : BitVec 6) (s : BitVec 1)
  /-- CSRW (R374) Write a control register. -/
  | csrw (b : BitVec 6) (a : BitVec 6) (s : BitVec 1)
  /-- CSRS (R374) Set bits in a control register. -/
  | csrs (b : BitVec 6) (a : BitVec 6) (s : BitVec 1)
  /-- CSRC (R374) Clear bits in a control register. -/
  | csrc (b : BitVec 6) (a : BitVec 6) (s : BitVec 1)
  /-- ERET (R371) Return from handler mode or deliver a held cause. -/
  | eret (s : BitVec 1)
  /-- BRK (R374) Raise the breakpoint trap precisely. -/
  | brk (a : BitVec 6) (s : BitVec 1)
  /-- STARVED_LIST_JOIN (R172) A thread whose wait count reaches 512 joins the starved list. -/
  | starvedListJoin (t : Nat)
  /-- LOAD_RESULT_ARRIVAL (R279) A load's data or failure returns and writes its registers. -/
  | loadResultArrival (t seq : Nat)
  /-- TRANSLATION_WALK_COMPLETE (R16) A page walk ends with a physical address or a fault for every joined miss. -/
  | translationWalkComplete (ctx core page : Nat)
  /-- SERVICEABLE_FAULT_SERVICED (R424) System cores install an entry or decline, and the walk reruns or fails. -/
  | serviceableFaultServiced (core : Nat) (install : Option (List (Nat × DWord)))
  /-- TRANSLATION_SHOOTDOWN (R21) Remove a range from translation and instruction caches of named cores and wait for acknowledgements. -/
  | translationShootdown (ctx lo len : Nat) (cores : List Nat)
  /-- CLASSIFIER_RUN (R23) Freeze, write back, rewrite as SHARED, shoot down and release a page. -/
  | classifierRun (ctx page : Nat)
  /-- REBASE (R78) When an LT or phase clock reaches 2^62 all timestamps are reset to zero. -/
  | rebase
  /-- LT_TICK (R71) Each core's logical time increases by 1 every 1,024 clocks. -/
  | ltTick (core : Nat)
  /-- OVERFLOW_AREA_SERVICED (R80) System cores enlarge a full write-set overflow area or decline, failing the store. -/
  | overflowAreaServiced (core : Nat) (room : Option Nat)
  /-- SCRATCH_FILL_ARRIVAL (R46) Fill data arrives, the line is written and made present and waiting threads wake. -/
  | scratchFillArrival (core line : Nat)
  /-- ENGINE_READ_DONE (R46) An engine finishes reading a scratch line and its early pin count falls. -/
  | engineReadDone (core line : Nat)
  /-- FILL_FAILURE (R50) An accepted fill fails, leaving lines absent and failing late-pinned readers. -/
  | fillFailure (core line cause : Nat)
  /-- RANGE_WALK_START (R61) A flush or invalidate starts its walk once older operations resolve. -/
  | rangeWalkStart (t seq : Nat)
  /-- GETS (R90) Directory receives a read-copy request or lease renewal. -/
  | gets (src dst : Nat)
  /-- GETX (R90) Directory receives an exclusive-copy request for a store. -/
  | getx (src dst : Nat)
  /-- UPG (R90) Directory receives an upgrade request from an S holder. -/
  | upg (src dst : Nat)
  /-- DATA (R88) RDC receives a fill from the home with a grant. -/
  | data (src dst : Nat)
  /-- FWDS (R90) Owner receives a request to supply a read copy. -/
  | fwds (src dst : Nat)
  /-- FWDX (R90) Owner receives a request to pass ownership. -/
  | fwdx (src dst : Nat)
  /-- FDATA (R88) Requester receives a forwarded fill from the owner. -/
  | fdata (src dst : Nat)
  /-- FACK (R90) Home receives the close of a forward. -/
  | fack (src dst : Nat)
  /-- INV (R89) RDC receives an order to drop a clean copy. -/
  | inv (src dst : Nat)
  /-- IACK (R90) Home receives an invalidation acknowledgement. -/
  | iack (src dst : Nat)
  /-- RECALLS (R89) Owner receives a recall keeping a clean copy. -/
  | recalls (src dst : Nat)
  /-- RECALLI (R89) Owner receives a recall dropping the copy. -/
  | recalli (src dst : Nat)
  /-- RDATA (R90) Home receives recalled data. -/
  | rdata (src dst : Nat)
  /-- WB (R90) Home receives a dirty eviction of an owned copy. -/
  | wb (src dst : Nat)
  /-- EVICT (R90) Home receives a clean eviction notice. -/
  | evict (src dst : Nat)
  /-- WBACK (R89) RDC receives the record of its eviction and frees the buffer. -/
  | wback (src dst : Nat)
  /-- CLAIM (R95) Home receives a claim for bytes of a privatised line. -/
  | claim (src dst : Nat)
  /-- CLAIMOK (R95) Participant receives granted bytes. -/
  | claimok (src dst : Nat)
  /-- MERGE (R96) Participant receives an order to return written bytes and drop. -/
  | merge (src dst : Nat)
  /-- MDATA (R96) Home receives written bytes in reply to Merge. -/
  | mdata (src dst : Nat)
  /-- EDONE (R91) Home receives notice that an engine finished writing a line and clears EO. -/
  | edone (core line : Nat)
  /-- SERVICE_TRAIN_ATOMIC (R286) The home service train performs an atomic request for its lanes. -/
  | serviceTrainAtomic (k : Nat)
  /-- DIE_LINK_LANE_FAILURE (R99) A die-link lane failing 8 replays is retired and the link retrains. -/
  | dieLinkLaneFailure (src : Nat) (dst : LinkLane)
  /-- PATROL_SCRUB (R70) A channel reads, corrects and rewrites a line every 8 hours. -/
  | patrolScrub (visit : Patrol)
  /-- FABRIC_REQUEST (R141) A target receives a remote request and performs, answers from cache or refuses it. -/
  | fabricRequest (r : FabReq)
  /-- FABRIC_REPLY (R147) A source receives a reply to a remote load or atomic. -/
  | fabricReply (rid : Nat) (ans : FabAns)
  /-- FABRIC_ACKNOWLEDGEMENT (R147) A source receives the acknowledgement of a remote store. -/
  | fabricAcknowledgement (rid : Nat) (ans : FabAns)
  /-- NOREPLY (R146) A source receives a refusal and re-sends or fails indeterminate. -/
  | noreply (rid : Nat)
  /-- IDLE_FLIT (R412) An idle flit arrives carrying a link acknowledgement. -/
  | idleFlit (port ack : Nat)
  /-- REMOTE_GIVE_UP (R145) A source gives up on a request 50 µs after it last left. -/
  | remoteGiveUp (rid : Nat)
  /-- REPLY_CACHE_EXPIRY (R146) A reply-cache entry is freed 60 µs after its issue time. -/
  | replyCacheExpiry (src tag : Nat)
  /-- SERIAL_LANE_RETIREMENT (R416) A serial lane failing 8 replays is retired and the link retrains. -/
  | serialLaneRetirement (port : LinkLane)
  /-- LINK_RETRAIN_COMPLETE (R416) A retraining fabric link resumes at reduced width. -/
  | linkRetrainComplete (port : Nat)
  /-- LINK_DOWN (R415) A link goes down and every lane using it is rebound to a detour. -/
  | linkDown (a b : Nat)
  /-- LINK_UP (R415) A link comes back and idle lanes may return to their path. -/
  | linkUp (a b : Nat)
  /-- TIME_FLIT (R417) A device sets its domain time from a received time flit. -/
  | timeFlit (value delay : Nat)
  /-- TIME_BROADCAST (R417) Device 0 broadcasts a time flit every 100 µs. -/
  | timeBroadcast
  /-- TIME_FLIT_TIMEOUT (R417) After 10 ms without a time flit the device stops injecting tagged requests. -/
  | timeFlitTimeout
  /-- MIGRATION_FORWARD_END (R36) The old home stops forwarding 25,000 clocks after the switch. -/
  | migrationForwardEnd (page : Nat)
  /-- WRITEBACK_FAILURE (R103) An eviction writeback of a remote or host line fails and the line is marked. -/
  | writebackFailure (rid cause : Nat)
  /-- SNPDATA (R33) Host snoop for data of a held line. -/
  | snpdata (line : Nat)
  /-- SNPINV (R33) Host snoop invalidating a held line. -/
  | snpinv (line : Nat)
  /-- SNPCUR (R33) Host snoop for the current value of a line. -/
  | snpcur (line : Nat)
  /-- CXL_RESPONSE (R105) Host answers a device CXL.cache request with data or completion. -/
  | cxlResponse (rid : Nat) (ans : FabAns)
  /-- HOST_INBOUND_READ (R419) Host reads device memory through a BAR2 window. -/
  | hostInboundRead (off len : Nat)
  /-- HOST_INBOUND_WRITE (R419) Host writes device memory through a BAR2 window. -/
  | hostInboundWrite (off : Nat) (bytes : List Byte)
  /-- MX_ACCEPT (R303) A matrix command is accepted into the queue, pinning its operands. -/
  | mxAccept (core : Nat)
  /-- MX_COMMAND_DONE (R305) A matrix command writes its last destination element. -/
  | mxCommandDone (core : Nat)
  /-- MX_OPERAND_FAULT (R313) A matrix operand fault after acceptance kills the train's task. -/
  | mxOperandFault (core : Nat)
  /-- CP_ACCEPT (R318) A copy command takes its destinations, fills and pins and resolves. -/
  | cpAccept (core k : Nat)
  /-- CP_COMMAND_DONE (R320) All destination writes performed; ownership released and counter incremented. -/
  | cpCommandDone (core : Nat)
  /-- CP_FAULT (R320) A copy command stops on a fault after acceptance. -/
  | cpFault (core : Nat)
  /-- ESCAPEMENT_ARRIVAL (R334) A push, open or end arrives at a stream and batches are placed. -/
  | escapementArrival (t seq : Nat)
  /-- PUSH_WATCHDOG_EXPIRY (R335) A replayed push waiting for room fails with the watchdog cause. -/
  | pushWatchdogExpiry (t seq : Nat)
  /-- TOKEN_ACCEPTANCE (R342) A token reaches its queue and is held on chip or spilled. -/
  | tokenAcceptance (t seq : Nat)
  /-- QUEUE_FIRING (R343) A die fires one eligible expert queue and places a task record. -/
  | queueFiring (die : Nat)
  /-- GANG_PLACEMENT (R350) The distributor places the next gang of a launch. -/
  | gangPlacement (lid : Nat)
  /-- UNIT_MIGRATION (R352) Resident units are migrated within a die to fit a gang. -/
  | unitMigration (train core quarter lane row : Nat)
  /-- TASK_DISPATCH (R355) The dispatcher starts the head task record once it fits. -/
  | taskDispatch (core lid : Nat)
  /-- TRAIN_RETIRE (R359) A train retires, releasing resources and decrementing its successor counter. -/
  | trainRetire (train : Nat)
  /-- DOMAIN_SWEEP (R366) A reduction sweep sums S and R over the domain to end a phase. -/
  | domainSweep (others : List (Bool × Nat × Nat))
  /-- TRAP_DELIVERY (R369) A trap is delivered, the trap area written and the handler entered. -/
  | trapDelivery (t : Nat)
  /-- HELPER_FAILURE (R330) A helper's operation fails; its chunk is returned and a forced release begins. -/
  | helperFailure (t : Nat)
  /-- WATCHDOG_EXPIRY (R375) A counting wait reaches WDOG × 1,024 clocks and raises the watchdog trap. -/
  | watchdogExpiry (t : Nat)
  /-- TIME_SLICE_EXPIRY (R377) A context's slice expires while another waits for the core. -/
  | timeSliceExpiry (core ctx : Nat)
  /-- PARTIAL_EVICTION (R378) Chosen trains are drained, saved and released for incoming work. -/
  | partialEviction (train save : Nat)
  /-- TRAIN_RESTORATION (R379) An evicted train is restored to its core at its context's resumption. -/
  | trainRestoration (train : Nat)
  /-- BREAKPOINT_MATCH (R403) A thread reaching a breakpoint PC traps or halts after SKIP matches. -/
  | breakpointMatch (t part n : Nat)
  /-- TRACE_SAMPLE (R402) Each quarter writes a sample record every SPER clocks. -/
  | traceSample (core quarter : Nat)
  /-- CHECKPOINT_CUT (R407) At each checkpoint time every device stops, drains and records state. -/
  | checkpointCut (n : Nat)
  /-- LOG_AREA_THRESHOLD (R408) A die's log area reaches 7/8 full and a cut begins. -/
  | logAreaThreshold (die : Nat)
  /-- REPLAY_GATE_TIMEOUT (R410) A gate head waits 2^20 clocks; held requesters take replay-divergence. -/
  | replayGateTimeout (gate : Nat)
  /-- JUNCTION_105C (R423) Die temperature or power limit reached; issue units skip clocks. -/
  | junction105c (die : Nat)
  /-- THERMAL_RECOVERY (R423) Die recovers and clock skipping stops. -/
  | thermalRecovery (die : Nat)
  /-- JUNCTION_115C (R423) Die reaches 115 °C and the device takes a device-level fault. -/
  | junction115c (die : Nat)
  /-- DEVICE_RESET (R421) ROM verifies firmware and boot proceeds or stays in recovery. -/
  | deviceReset (img : Firmware)
  /-- NEW_FIRMWARE_IMAGE (R421) A new image is accepted through BAR0 in recovery. -/
  | newFirmwareImage (img : Firmware)
  /-- SUBMIT_LAUNCH (R349) A launch block is checked and queued or rejected with a code. -/
  | submitLaunch (part ctx addr : Nat)
  /-- SET_LEASE (R75) Set a die's LEASE value. -/
  | setLease (part die value : Nat)
  /-- READ_COUNTERS (R420) Return error, writeback, link and trace counters. -/
  | readCounters (part : Nat) (what : Readout)
  /-- SET_TRACE_RING (R400) Set a die's trace ring. -/
  | setTraceRing (part die base len : Nat)
  /-- SET_SAMPLING (R402) Set a die's sampling period. -/
  | setSampling (part die period : Nat)
  /-- SET_BREAKPOINT (R403) Write a breakpoint register. -/
  | setBreakpoint (part n : Nat) (value : BitVec 128)
  /-- HALT_REQUEST (R404) Halt a thread by name. -/
  | haltRequest (part t : Nat)
  /-- DEBUG_RESUME (R404) Resume a debug-halted thread. -/
  | debugResume (part t : Nat)
  /-- SET_CHECKPOINT_PERIOD (R407) Enable checkpointing and set T. -/
  | setCheckpointPeriod (part ms : Nat)
  /-- REPLAY (R410) Restore a checkpoint and enter replay mode. -/
  | replay (part n : Nat)
  /-- SET_HOST_WINDOW (R30) Configure a context's host window. -/
  | setHostWindow (part ctx i : Nat) (value : BitVec 128)
  /-- SET_INBOUND_WINDOW (R419) Configure a BAR2 inbound window. -/
  | setInboundWindow (part i : Nat) (value : BitVec 128)
  /-- PAGE_MIGRATION (R36) Move a page to a new home by freeze, complete, copy, switch and forward. -/
  | pageMigration (part ctx page home frame : Nat)
  /-- REGION_MODE_CHANGE (R34) Change a region's coherence mode by freeze, drain, flush, rebuild and release. -/
  | regionModeChange (part ctx page count : Nat) (mode : RegionMode)
  /-- OWNER_TAG_CHANGE (R39) Give a frame a new owner tag, zeroing it first. -/
  | ownerTagChange (part home frame ctx : Nat)
  /-- ATTESTATION_REPORT (R422) Return a signed attestation report for the partition. -/
  | attestationReport (part : Nat) (nonce : BitVec 256)
  /-- REGISTER_WRITE (R420) Write to a system register with no behaviour of its own. -/
  | registerWrite (r : SysReg) (value : DWord)
  /-- ILLEGAL_INSTRUCTION (R200) A thread issues an encoding that is not an instruction and takes the illegal-instruction trap at decode. -/
  | illegalInstruction
  /-- VARIABLE_LATENCY_RESULT_ARRIVAL (R182) A non-load variable-latency result (FP64, conversion, transcendental, cross-lane, srd, krd, mx.rd and the like) is written and the outstanding count falls. -/
  | variableLatencyResultArrival (t k : Nat)
  /-- ATOMIC_REPLY_ARRIVAL (R117) The reply of a device-space atomic returns from the home service train, writes the old value and resolves the operation. -/
  | atomicReplyArrival (t seq : Nat)
  /-- PERFORMED_ACKNOWLEDGEMENT (R83) The home or phase-clock holder acknowledges a performed publication entry, device strong store or phase-clock update, letting a boundary or fence complete. -/
  | performedAcknowledgement (t k : Nat)
  /-- DIE_LINK_CRC_FAILURE (R99) A flit on a die-to-die link fails its CRC and is replayed from the sender's replay buffer. -/
  | dieLinkCrcFailure (src : Nat) (dst : LinkLane)
  /-- DIE_LINK_RETRAIN_COMPLETE (R99) A die link that retrained after retiring a lane resumes the traffic it held. -/
  | dieLinkRetrainComplete (src dst : Nat)
  /-- FLIT_CRC_FAILURE (R416) A fabric flit fails its CRC or arrives out of LSN order, is dropped, and the sender replays from the first unacknowledged LSN. -/
  | flitCrcFailure (port : LinkLane)
  deriving DecidableEq, Repr

end Sys2Proof
end

