-- ==== Sys2Proof/WellFormed.lean ====
section
/-! DEFINITION. The checks on an instruction's fields that the encoding tables make (Table 7-11 and the chapters it points to). -/

namespace Sys2Proof

/-- Why an encoding, or a term of `Instr`, is not an instruction (Table 7-11). -/
inductive IllFormed where
  | truncated        -- fewer bytes than the length bit asks for
  | zeroHalfword     -- R190
  | reservedMajor    -- MAJ 0x1E, 0x1F
  | unallocated      -- F3 or sub7 not listed
  | reservedField    -- a field that must be zero is not (R195, R198)
  | guardNever       -- guard 0b0001 (R192)
  | oddPair          -- a pair field is odd
  | misalignedSpan   -- a span of registers starts at a wrong multiple (R197, R339, R347)
  | space            -- space 5 to 7, atomic SP 3 (R10, R284)
  | width            -- width 6 or 7, or not 8 or 16 for a sign-extending load (R197, R274)
  | condition        -- a compare code not listed (R227)
  | operation        -- a reduction code not listed (R272)
  | maskRange        -- a mask field above 11 (R235, R272, R290)
  | immediateRange   -- hzwait above 16, mx.wait above 8
  | tileRange        -- a tile field above 15 (R300)
  | helperRegister   -- a fold register above 15 (R332)
  | streamRange      -- an Escapement stream above 7 (R339)
  | ringRange        -- a ring above 3 (R362)
  | uniformRange     -- a k register above 31 (Table 7-12)
  | selector         -- an srd selector above 8 (R374)
  | controlRegister  -- a reserved control register read, or a write of one not writable (R368)
  | movSource        -- mov with A other than D (R255)
  | callSpelling     -- br with q0 inverted, whose bits are call (R196)
  deriving DecidableEq, Repr

/-- The registers that one operand of a load or store spans (Table 11-4). -/
def spanOfWidth (w : BitVec 3) : Nat :=
  if w = 3#3 then 2 else if w = 4#3 then 4 else if w = 5#3 then 8 else 1

/-- The control registers that may be read: the numbers of Table 15-2. -/
def csrReadable (n : BitVec 6) : Bool := n = 0#6 ∨ (2#6 ≤ n ∧ n ≤ 8#6)

/-- The control registers that may be written: those of Table 15-2 not marked RO. -/
def csrWritable (n : BitVec 6) : Bool := csrReadable n ∧ n ≠ 6#6 ∧ n ≠ 7#6

/-- The first check of a list that fails. -/
def firstFailing : List (Bool × IllFormed) → Option IllFormed
  | [] => none
  | (bad, e) :: rest => if bad then some e else firstFailing rest

/-- The first check that the instruction fails, if any; a step without an encoding has none. -/
def Instr.check : Instr → Option IllFormed
  | .movFormH b d s => firstFailing [(b = 0#5 ∧ d = 0#5 ∧ s = 0#1, .zeroHalfword)]
  | .add g _ _ _ _ => firstFailing [(g = 1#4, .guardNever)]
  | .sub g _ _ _ _ => firstFailing [(g = 1#4, .guardNever)]
  | .mul g _ _ _ _ => firstFailing [(g = 1#4, .guardNever)]
  | .mulhi g _ _ _ _ => firstFailing [(g = 1#4, .guardNever)]
  | .mulhu g _ _ _ _ => firstFailing [(g = 1#4, .guardNever)]
  | .and g _ _ _ _ => firstFailing [(g = 1#4, .guardNever)]
  | .or g _ _ _ _ => firstFailing [(g = 1#4, .guardNever)]
  | .xor g _ _ _ _ => firstFailing [(g = 1#4, .guardNever)]
  | .shl g _ _ _ _ => firstFailing [(g = 1#4, .guardNever)]
  | .shr g _ _ _ _ => firstFailing [(g = 1#4, .guardNever)]
  | .sar g _ _ _ _ => firstFailing [(g = 1#4, .guardNever)]
  | .min g _ _ _ _ => firstFailing [(g = 1#4, .guardNever)]
  | .max g _ _ _ _ => firstFailing [(g = 1#4, .guardNever)]
  | .minu g _ _ _ _ => firstFailing [(g = 1#4, .guardNever)]
  | .maxu g _ _ _ _ => firstFailing [(g = 1#4, .guardNever)]
  | .mov g _ a d _ => firstFailing [(g = 1#4, .guardNever), (a ≠ d, .movSource)]
  | .add64 g b a d _ => firstFailing [(g = 1#4, .guardNever), (d.getLsbD 0, .oddPair), (a.getLsbD 0, .oddPair), (b.getLsbD 0, .oddPair)]
  | .sub64 g b a d _ => firstFailing [(g = 1#4, .guardNever), (d.getLsbD 0, .oddPair), (a.getLsbD 0, .oddPair), (b.getLsbD 0, .oddPair)]
  | .addw g _ a d _ => firstFailing [(g = 1#4, .guardNever), (d.getLsbD 0, .oddPair), (a.getLsbD 0, .oddPair)]
  | .adduw g _ a d _ => firstFailing [(g = 1#4, .guardNever), (d.getLsbD 0, .oddPair), (a.getLsbD 0, .oddPair)]
  | .shl64 g _ a d _ => firstFailing [(g = 1#4, .guardNever), (d.getLsbD 0, .oddPair), (a.getLsbD 0, .oddPair)]
  | .shr64 g _ a d _ => firstFailing [(g = 1#4, .guardNever), (d.getLsbD 0, .oddPair), (a.getLsbD 0, .oddPair)]
  | .sar64 g _ a d _ => firstFailing [(g = 1#4, .guardNever), (d.getLsbD 0, .oddPair), (a.getLsbD 0, .oddPair)]
  | .mulw g _ _ d _ => firstFailing [(g = 1#4, .guardNever), (d.getLsbD 0, .oddPair)]
  | .icmp g _ _ c _ _ => firstFailing [(g = 1#4, .guardNever), (6#3 ≤ c, .condition)]
  | .ucmp g _ _ c _ _ => firstFailing [(g = 1#4, .guardNever), (6#3 ≤ c, .condition)]
  | .fcmpF32 g _ _ c _ _ => firstFailing [(g = 1#4, .guardNever), (c = 7#3, .condition)]
  | .fcmpF64 g b a c _ _ => firstFailing [(g = 1#4, .guardNever), (c = 7#3, .condition), (a.getLsbD 0, .oddPair), (b.getLsbD 0, .oddPair)]
  | .pand g _ _ _ _ => firstFailing [(g = 1#4, .guardNever)]
  | .por g _ _ _ _ => firstFailing [(g = 1#4, .guardNever)]
  | .pxor g _ _ _ _ => firstFailing [(g = 1#4, .guardNever)]
  | .pandn g _ _ _ _ => firstFailing [(g = 1#4, .guardNever)]
  | .pnot g _ _ _ => firstFailing [(g = 1#4, .guardNever)]
  | .pmov g _ _ _ => firstFailing [(g = 1#4, .guardNever)]
  | .pget g _ _ => firstFailing [(g = 1#4, .guardNever)]
  | .pset g _ _ => firstFailing [(g = 1#4, .guardNever)]
  | .faddF32 g _ _ _ _ => firstFailing [(g = 1#4, .guardNever)]
  | .fsubF32 g _ _ _ _ => firstFailing [(g = 1#4, .guardNever)]
  | .fmulF32 g _ _ _ _ => firstFailing [(g = 1#4, .guardNever)]
  | .fminF32 g _ _ _ _ => firstFailing [(g = 1#4, .guardNever)]
  | .fmaxF32 g _ _ _ _ => firstFailing [(g = 1#4, .guardNever)]
  | .faddRzF32 g _ _ _ _ => firstFailing [(g = 1#4, .guardNever)]
  | .fmulRzF32 g _ _ _ _ => firstFailing [(g = 1#4, .guardNever)]
  | .fsgnjF32 g _ _ _ _ => firstFailing [(g = 1#4, .guardNever)]
  | .faddF64 g b a d _ => firstFailing [(g = 1#4, .guardNever), (d.getLsbD 0, .oddPair), (a.getLsbD 0, .oddPair), (b.getLsbD 0, .oddPair)]
  | .fsubF64 g b a d _ => firstFailing [(g = 1#4, .guardNever), (d.getLsbD 0, .oddPair), (a.getLsbD 0, .oddPair), (b.getLsbD 0, .oddPair)]
  | .fmulF64 g b a d _ => firstFailing [(g = 1#4, .guardNever), (d.getLsbD 0, .oddPair), (a.getLsbD 0, .oddPair), (b.getLsbD 0, .oddPair)]
  | .fminF64 g b a d _ => firstFailing [(g = 1#4, .guardNever), (d.getLsbD 0, .oddPair), (a.getLsbD 0, .oddPair), (b.getLsbD 0, .oddPair)]
  | .fmaxF64 g b a d _ => firstFailing [(g = 1#4, .guardNever), (d.getLsbD 0, .oddPair), (a.getLsbD 0, .oddPair), (b.getLsbD 0, .oddPair)]
  | .faddRzF64 g b a d _ => firstFailing [(g = 1#4, .guardNever), (d.getLsbD 0, .oddPair), (a.getLsbD 0, .oddPair), (b.getLsbD 0, .oddPair)]
  | .fmulRzF64 g b a d _ => firstFailing [(g = 1#4, .guardNever), (d.getLsbD 0, .oddPair), (a.getLsbD 0, .oddPair), (b.getLsbD 0, .oddPair)]
  | .fsgnjF64 g b a d _ => firstFailing [(g = 1#4, .guardNever), (d.getLsbD 0, .oddPair), (a.getLsbD 0, .oddPair), (b.getLsbD 0, .oddPair)]
  | .faddF16x2 g _ _ _ _ => firstFailing [(g = 1#4, .guardNever)]
  | .fmulF16x2 g _ _ _ _ => firstFailing [(g = 1#4, .guardNever)]
  | .ffmaF16x2 g _ _ _ _ => firstFailing [(g = 1#4, .guardNever)]
  | .fmaxF16x2 g _ _ _ _ => firstFailing [(g = 1#4, .guardNever)]
  | .faddBf16x2 g _ _ _ _ => firstFailing [(g = 1#4, .guardNever)]
  | .fmulBf16x2 g _ _ _ _ => firstFailing [(g = 1#4, .guardNever)]
  | .ffmaBf16x2 g _ _ _ _ => firstFailing [(g = 1#4, .guardNever)]
  | .fmaxBf16x2 g _ _ _ _ => firstFailing [(g = 1#4, .guardNever)]
  | .ffmaF64 c b a d _ => firstFailing [(d.getLsbD 0, .oddPair), (a.getLsbD 0, .oddPair), (b.getLsbD 0, .oddPair), (c.getLsbD 0, .oddPair)]
  | .cvtF32F64 a _ _ => firstFailing [(a.getLsbD 0, .oddPair)]
  | .cvtRzF32F64 a _ _ => firstFailing [(a.getLsbD 0, .oddPair)]
  | .cvtF64F32 _ d _ => firstFailing [(d.getLsbD 0, .oddPair)]
  | .cvtF64S32 _ d _ => firstFailing [(d.getLsbD 0, .oddPair)]
  | .cvtS32F64 a _ _ => firstFailing [(a.getLsbD 0, .oddPair)]
  | .cvtRzS32F64 a _ _ => firstFailing [(a.getLsbD 0, .oddPair)]
  | .frcpF64 a d _ => firstFailing [(d.getLsbD 0, .oddPair), (a.getLsbD 0, .oddPair)]
  | .fsqrtF64 a d _ => firstFailing [(d.getLsbD 0, .oddPair), (a.getLsbD 0, .oddPair)]
  | .fdivF64 b a d _ => firstFailing [(d.getLsbD 0, .oddPair), (a.getLsbD 0, .oddPair), (b.getLsbD 0, .oddPair)]
  | .lswap m _ _ _ _ => firstFailing [(12#4 ≤ m, .maskRange)]
  | .shfl m _ _ _ _ => firstFailing [(12#4 ≤ m, .maskRange)]
  | .bcast m _ _ _ _ => firstFailing [(12#4 ≤ m, .maskRange)]
  | .ballot m _ d _ => firstFailing [(12#4 ≤ m, .maskRange), (d.getLsbD 0, .oddPair)]
  | .redOp m _ _ _ _ => firstFailing [(12#4 ≤ m, .maskRange)]
  | .redFopF32 m o _ _ _ => firstFailing [(12#4 ≤ m, .maskRange), (o = 3#2, .operation)]
  | .scanAdd m _ _ _ => firstFailing [(12#4 ≤ m, .maskRange)]
  | .redFopF64 m o a d _ => firstFailing [(12#4 ≤ m, .maskRange), (o = 3#2, .operation), (d.getLsbD 0, .oddPair), (a.getLsbD 0, .oddPair)]
  | .br _ v q _ => firstFailing [(q = 0#3 ∧ v = 1#1, .callSpelling)]
  | .jr a _ => firstFailing [(a.getLsbD 0, .oddPair)]
  | .jalr a d _ => firstFailing [(d.getLsbD 0, .oddPair), (a.getLsbD 0, .oddPair)]
  | .ret a _ => firstFailing [(a.getLsbD 0, .oddPair)]
  | .join d _ => firstFailing [(12#6 ≤ d, .maskRange)]
  | .leave d _ => firstFailing [(12#6 ≤ d, .maskRange)]
  | .waitm d _ => firstFailing [(12#6 ≤ d, .maskRange)]
  | .mrd a d _ => firstFailing [(d.getLsbD 0, .oddPair), (12#6 ≤ a, .maskRange)]
  | .hzwait a _ => firstFailing [(17#6 ≤ a, .immediateRange)]
  | .ld _ w p a d _ => firstFailing [(5#3 ≤ p, .space), (6#3 ≤ w, .width), (a.getLsbD 0, .oddPair), (d.toNat % spanOfWidth w ≠ 0, .misalignedSpan)]
  | .ldSx _ w p a d _ => firstFailing [(5#3 ≤ p, .space), (6#3 ≤ w, .width), (2#3 ≤ w, .width), (a.getLsbD 0, .oddPair), (d.toNat % spanOfWidth w ≠ 0, .misalignedSpan)]
  | .st _ w p a d _ => firstFailing [(5#3 ≤ p, .space), (6#3 ≤ w, .width), (a.getLsbD 0, .oddPair), (d.toNat % spanOfWidth w ≠ 0, .misalignedSpan)]
  | .ldS _ w p a d _ => firstFailing [(5#3 ≤ p, .space), (6#3 ≤ w, .width), (a.getLsbD 0, .oddPair), (d.toNat % spanOfWidth w ≠ 0, .misalignedSpan)]
  | .ldSxS _ w p a d _ => firstFailing [(5#3 ≤ p, .space), (6#3 ≤ w, .width), (2#3 ≤ w, .width), (a.getLsbD 0, .oddPair), (d.toNat % spanOfWidth w ≠ 0, .misalignedSpan)]
  | .stS _ w p a d _ => firstFailing [(5#3 ≤ p, .space), (6#3 ≤ w, .width), (a.getLsbD 0, .oddPair), (d.toNat % spanOfWidth w ≠ 0, .misalignedSpan)]
  | .atomAdd w p b a d _ => firstFailing [(p = 3#2, .space), (a.getLsbD 0, .oddPair), (w = 1#1 ∧ (d.getLsbD 0 ∨ b.getLsbD 0), .oddPair)]
  | .atomMin w p b a d _ => firstFailing [(p = 3#2, .space), (a.getLsbD 0, .oddPair), (w = 1#1 ∧ (d.getLsbD 0 ∨ b.getLsbD 0), .oddPair)]
  | .atomMax w p b a d _ => firstFailing [(p = 3#2, .space), (a.getLsbD 0, .oddPair), (w = 1#1 ∧ (d.getLsbD 0 ∨ b.getLsbD 0), .oddPair)]
  | .atomMinu w p b a d _ => firstFailing [(p = 3#2, .space), (a.getLsbD 0, .oddPair), (w = 1#1 ∧ (d.getLsbD 0 ∨ b.getLsbD 0), .oddPair)]
  | .atomMaxu w p b a d _ => firstFailing [(p = 3#2, .space), (a.getLsbD 0, .oddPair), (w = 1#1 ∧ (d.getLsbD 0 ∨ b.getLsbD 0), .oddPair)]
  | .atomAnd w p b a d _ => firstFailing [(p = 3#2, .space), (a.getLsbD 0, .oddPair), (w = 1#1 ∧ (d.getLsbD 0 ∨ b.getLsbD 0), .oddPair)]
  | .atomOr w p b a d _ => firstFailing [(p = 3#2, .space), (a.getLsbD 0, .oddPair), (w = 1#1 ∧ (d.getLsbD 0 ∨ b.getLsbD 0), .oddPair)]
  | .atomXor w p b a d _ => firstFailing [(p = 3#2, .space), (a.getLsbD 0, .oddPair), (w = 1#1 ∧ (d.getLsbD 0 ∨ b.getLsbD 0), .oddPair)]
  | .atomExch w p b a d _ => firstFailing [(p = 3#2, .space), (a.getLsbD 0, .oddPair), (w = 1#1 ∧ (d.getLsbD 0 ∨ b.getLsbD 0), .oddPair)]
  | .atomCas w p b a d _ => firstFailing [(p = 3#2, .space), (a.getLsbD 0, .oddPair), (w = 1#1 ∧ (d.getLsbD 0 ∨ b.getLsbD 0), .oddPair)]
  | .atomFadd w p b a d _ => firstFailing [(p = 3#2, .space), (a.getLsbD 0, .oddPair), (w = 1#1 ∧ (d.getLsbD 0 ∨ b.getLsbD 0), .oddPair)]
  | .atomFaddRa w p b a d _ => firstFailing [(p = 3#2, .space), (a.getLsbD 0, .oddPair), (w = 1#1 ∧ (d.getLsbD 0 ∨ b.getLsbD 0), .oddPair)]
  | .atomFmin w p b a d _ => firstFailing [(p = 3#2, .space), (a.getLsbD 0, .oddPair), (w = 1#1 ∧ (d.getLsbD 0 ∨ b.getLsbD 0), .oddPair)]
  | .atomFmax w p b a d _ => firstFailing [(p = 3#2, .space), (a.getLsbD 0, .oddPair), (w = 1#1 ∧ (d.getLsbD 0 ∨ b.getLsbD 0), .oddPair)]
  | .stf w b a d _ => firstFailing [(a.getLsbD 0, .oddPair), (b.getLsbD 0, .oddPair), (w = 1#1 ∧ d.getLsbD 0, .oddPair)]
  | .barTrain d _ => firstFailing [(12#6 ≤ d, .maskRange)]
  | .rflushDev _ a _ => firstFailing [(a.getLsbD 0, .oddPair)]
  | .rflushRem _ a _ => firstFailing [(a.getLsbD 0, .oddPair)]
  | .rflushHost _ a _ => firstFailing [(a.getLsbD 0, .oddPair)]
  | .rinvalDev _ a _ => firstFailing [(a.getLsbD 0, .oddPair)]
  | .rinvalRem _ a _ => firstFailing [(a.getLsbD 0, .oddPair)]
  | .rinvalHost _ a _ => firstFailing [(a.getLsbD 0, .oddPair)]
  | .prsWait _ a _ => firstFailing [(a.getLsbD 0, .oddPair)]
  | .prsTest a _ _ => firstFailing [(a.getLsbD 0, .oddPair)]
  | .mxOp a _ => firstFailing [(a.getLsbD 0, .oddPair)]
  | .mxWait i _ => firstFailing [(9#6 ≤ i, .immediateRange)]
  | .mxRd t _ _ _ => firstFailing [(16#6 ≤ t, .tileRange)]
  | .mxWr _ _ t _ => firstFailing [(16#6 ≤ t, .tileRange)]
  | .mxRd64 t _ d _ => firstFailing [(16#6 ≤ t, .tileRange), (t.getLsbD 0, .oddPair), (d.getLsbD 0, .oddPair)]
  | .mxWr64 b _ t _ => firstFailing [(16#6 ≤ t, .tileRange), (t.getLsbD 0, .oddPair), (b.getLsbD 0, .oddPair)]
  | .mxZero t _ => firstFailing [(16#6 ≤ t, .tileRange)]
  | .cpTileLd _ a d _ => firstFailing [(a.getLsbD 0, .oddPair), (d.getLsbD 0, .oddPair)]
  | .cpTileSt _ a d _ => firstFailing [(a.getLsbD 0, .oddPair), (d.getLsbD 0, .oddPair)]
  | .rnext d _ => firstFailing [(d.getLsbD 0, .oddPair)]
  | .rjoinAdd b _ _ => firstFailing [(16#6 ≤ b, .helperRegister)]
  | .rjoinMin b _ _ => firstFailing [(16#6 ≤ b, .helperRegister)]
  | .rjoinMax b _ _ => firstFailing [(16#6 ≤ b, .helperRegister)]
  | .rjoinMinu b _ _ => firstFailing [(16#6 ≤ b, .helperRegister)]
  | .rjoinMaxu b _ _ => firstFailing [(16#6 ≤ b, .helperRegister)]
  | .rjoinAnd b _ _ => firstFailing [(16#6 ≤ b, .helperRegister)]
  | .rjoinOr b _ _ => firstFailing [(16#6 ≤ b, .helperRegister)]
  | .rjoinXor b _ _ => firstFailing [(16#6 ≤ b, .helperRegister)]
  | .rjoinFaddF32 b _ _ => firstFailing [(16#6 ≤ b, .helperRegister)]
  | .rjoinFminF32 b _ _ => firstFailing [(16#6 ≤ b, .helperRegister)]
  | .rjoinFmaxF32 b _ _ => firstFailing [(16#6 ≤ b, .helperRegister)]
  | .rjoinFaddF64 b d _ => firstFailing [(16#6 ≤ b, .helperRegister), (d.getLsbD 0, .oddPair), (b.getLsbD 0, .oddPair)]
  | .rjoinFminF64 b d _ => firstFailing [(16#6 ≤ b, .helperRegister), (d.getLsbD 0, .oddPair), (b.getLsbD 0, .oddPair)]
  | .rjoinFmaxF64 b d _ => firstFailing [(16#6 ≤ b, .helperRegister), (d.getLsbD 0, .oddPair), (b.getLsbD 0, .oddPair)]
  | .recruit _ b _ _ _ => firstFailing [(b.getLsbD 0, .oddPair)]
  | .escOpen d _ => firstFailing [(8#6 ≤ d, .streamRange)]
  | .escIn b _ _ _ _ => firstFailing [(b.toNat % 4 ≠ 0, .misalignedSpan)]
  | .escEnd d _ => firstFailing [(8#6 ≤ d, .streamRange)]
  | .escNext a d _ => firstFailing [(8#6 ≤ a, .streamRange), (d.getLsbD 0, .oddPair)]
  | .escDone _ a _ => firstFailing [(8#6 ≤ a, .streamRange)]
  | .xqCfg a _ => firstFailing [(a.getLsbD 0, .oddPair)]
  | .xqIn b _ _ => firstFailing [(b.toNat % 8 ≠ 0, .misalignedSpan)]
  | .xqTake a _ _ => firstFailing [(a.getLsbD 0, .oddPair)]
  | .xqDone b a _ => firstFailing [(a.getLsbD 0, .oddPair), (b.getLsbD 0, .oddPair)]
  | .tkSpawn _ a _ => firstFailing [(a.getLsbD 0, .oddPair)]
  | .tkHand a _ => firstFailing [(a.getLsbD 0, .oddPair)]
  | .krd a _ _ => firstFailing [(32#6 ≤ a, .uniformRange)]
  | .rgSend _ d _ => firstFailing [(4#6 ≤ d, .ringRange)]
  | .rgRecv a d _ => firstFailing [(4#6 ≤ a, .ringRange), (d.getLsbD 0, .oddPair)]
  | .rgEos d _ => firstFailing [(4#6 ≤ d, .ringRange)]
  | .srd a d _ => firstFailing [(9#6 ≤ a, .selector), (a = 8#6 ∧ d.getLsbD 0, .oddPair)]
  | .csrr a _ _ => firstFailing [(¬ csrReadable a, .controlRegister)]
  | .csrw _ a _ => firstFailing [(¬ csrWritable a, .controlRegister)]
  | .csrs _ a _ => firstFailing [(¬ csrWritable a, .controlRegister)]
  | .csrc _ a _ => firstFailing [(¬ csrWritable a, .controlRegister)]
  | _ => none

/-- A well-formed instruction: one that passes every check on its fields. -/
def Instr.wf (i : Instr) : Bool := i.check = none

end Sys2Proof
end

