-- ==== Sys2Proof/Decode.lean ====
section
/-! DEFINITION. The decoder, total on any bytes and rejecting by name, and the encoder (R187 to R201, Tables 7-1 to 7-11 and the
sub-op tables of the instruction chapters). -/

namespace Sys2Proof

/-- The bits [hi:lo] of a word, lo = `lo`, as a field of `n` bits. -/
abbrev bitsAt {w : Nat} (x : BitVec w) (lo n : Nat) : BitVec n := x.extractLsb' lo n

/-- Form H (R189): the operation field selects, the two 5-bit fields name registers or hold the immediate. (DEDUCED, log entry 10.) -/
def decodeFormH (w : BitVec 16) : Except IllFormed Instr :=
  if w = 0#16 then .error .zeroHalfword
  else if bitsAt w 2 4 = 0x0#4 then .ok (.movFormH (bitsAt w 11 5) (bitsAt w 6 5) (bitsAt w 1 1))
  else if bitsAt w 2 4 = 0x1#4 then .ok (.addFormH (bitsAt w 11 5) (bitsAt w 6 5) (bitsAt w 1 1))
  else if bitsAt w 2 4 = 0x2#4 then .ok (.subFormH (bitsAt w 11 5) (bitsAt w 6 5) (bitsAt w 1 1))
  else if bitsAt w 2 4 = 0x3#4 then .ok (.andFormH (bitsAt w 11 5) (bitsAt w 6 5) (bitsAt w 1 1))
  else if bitsAt w 2 4 = 0x4#4 then .ok (.orFormH (bitsAt w 11 5) (bitsAt w 6 5) (bitsAt w 1 1))
  else if bitsAt w 2 4 = 0x5#4 then .ok (.xorFormH (bitsAt w 11 5) (bitsAt w 6 5) (bitsAt w 1 1))
  else if bitsAt w 2 4 = 0x6#4 then .ok (.shlFormH (bitsAt w 11 5) (bitsAt w 6 5) (bitsAt w 1 1))
  else if bitsAt w 2 4 = 0x7#4 then .ok (.shrFormH (bitsAt w 11 5) (bitsAt w 6 5) (bitsAt w 1 1))
  else if bitsAt w 2 4 = 0x8#4 then .ok (.addiFormH (bitsAt w 11 5) (bitsAt w 6 5) (bitsAt w 1 1))
  else if bitsAt w 2 4 = 0x9#4 then .ok (.mulFormH (bitsAt w 11 5) (bitsAt w 6 5) (bitsAt w 1 1))
  else if bitsAt w 2 4 = 0xa#4 then .ok (.faddF32FormH (bitsAt w 11 5) (bitsAt w 6 5) (bitsAt w 1 1))
  else if bitsAt w 2 4 = 0xb#4 then .ok (.fsubF32FormH (bitsAt w 11 5) (bitsAt w 6 5) (bitsAt w 1 1))
  else if bitsAt w 2 4 = 0xc#4 then .ok (.fmulF32FormH (bitsAt w 11 5) (bitsAt w 6 5) (bitsAt w 1 1))
  else if bitsAt w 2 4 = 0xd#4 then .ok (.fmaxF32FormH (bitsAt w 11 5) (bitsAt w 6 5) (bitsAt w 1 1))
  else if bitsAt w 2 4 = 0xe#4 then .ok (.fminF32FormH (bitsAt w 11 5) (bitsAt w 6 5) (bitsAt w 1 1))
  else if bitsAt w 2 4 = 0xf#4 then .ok (.moviFormH (bitsAt w 11 5) (bitsAt w 6 5) (bitsAt w 1 1))
  else .error .unallocated

/-- Major opcode 0x00 (Table 7-10). -/
def decodeMaj00 (w : BitVec 32) : Except IllFormed Instr :=
  if bitsAt w 25 3 = 0x0#3 then .ok (.add (bitsAt w 28 4) (bitsAt w 19 6) (bitsAt w 13 6) (bitsAt w 7 6) (bitsAt w 1 1))
  else if bitsAt w 25 3 = 0x1#3 then .ok (.sub (bitsAt w 28 4) (bitsAt w 19 6) (bitsAt w 13 6) (bitsAt w 7 6) (bitsAt w 1 1))
  else if bitsAt w 25 3 = 0x2#3 then .ok (.mul (bitsAt w 28 4) (bitsAt w 19 6) (bitsAt w 13 6) (bitsAt w 7 6) (bitsAt w 1 1))
  else if bitsAt w 25 3 = 0x3#3 then .ok (.mulhi (bitsAt w 28 4) (bitsAt w 19 6) (bitsAt w 13 6) (bitsAt w 7 6) (bitsAt w 1 1))
  else if bitsAt w 25 3 = 0x4#3 then .ok (.mulhu (bitsAt w 28 4) (bitsAt w 19 6) (bitsAt w 13 6) (bitsAt w 7 6) (bitsAt w 1 1))
  else if bitsAt w 25 3 = 0x5#3 then .ok (.and (bitsAt w 28 4) (bitsAt w 19 6) (bitsAt w 13 6) (bitsAt w 7 6) (bitsAt w 1 1))
  else if bitsAt w 25 3 = 0x6#3 then .ok (.or (bitsAt w 28 4) (bitsAt w 19 6) (bitsAt w 13 6) (bitsAt w 7 6) (bitsAt w 1 1))
  else if bitsAt w 25 3 = 0x7#3 then .ok (.xor (bitsAt w 28 4) (bitsAt w 19 6) (bitsAt w 13 6) (bitsAt w 7 6) (bitsAt w 1 1))
  else .error .unallocated

/-- Major opcode 0x01 (Table 7-10). -/
def decodeMaj01 (w : BitVec 32) : Except IllFormed Instr :=
  if bitsAt w 25 3 = 0x0#3 then .ok (.shl (bitsAt w 28 4) (bitsAt w 19 6) (bitsAt w 13 6) (bitsAt w 7 6) (bitsAt w 1 1))
  else if bitsAt w 25 3 = 0x1#3 then .ok (.shr (bitsAt w 28 4) (bitsAt w 19 6) (bitsAt w 13 6) (bitsAt w 7 6) (bitsAt w 1 1))
  else if bitsAt w 25 3 = 0x2#3 then .ok (.sar (bitsAt w 28 4) (bitsAt w 19 6) (bitsAt w 13 6) (bitsAt w 7 6) (bitsAt w 1 1))
  else if bitsAt w 25 3 = 0x3#3 then .ok (.min (bitsAt w 28 4) (bitsAt w 19 6) (bitsAt w 13 6) (bitsAt w 7 6) (bitsAt w 1 1))
  else if bitsAt w 25 3 = 0x4#3 then .ok (.max (bitsAt w 28 4) (bitsAt w 19 6) (bitsAt w 13 6) (bitsAt w 7 6) (bitsAt w 1 1))
  else if bitsAt w 25 3 = 0x5#3 then .ok (.minu (bitsAt w 28 4) (bitsAt w 19 6) (bitsAt w 13 6) (bitsAt w 7 6) (bitsAt w 1 1))
  else if bitsAt w 25 3 = 0x6#3 then .ok (.maxu (bitsAt w 28 4) (bitsAt w 19 6) (bitsAt w 13 6) (bitsAt w 7 6) (bitsAt w 1 1))
  else if bitsAt w 25 3 = 0x7#3 then .ok (.mov (bitsAt w 28 4) (bitsAt w 19 6) (bitsAt w 13 6) (bitsAt w 7 6) (bitsAt w 1 1))
  else .error .unallocated

/-- Major opcode 0x02 (Table 7-10). -/
def decodeMaj02 (w : BitVec 32) : Except IllFormed Instr :=
  if bitsAt w 25 3 = 0x0#3 then .ok (.add64 (bitsAt w 28 4) (bitsAt w 19 6) (bitsAt w 13 6) (bitsAt w 7 6) (bitsAt w 1 1))
  else if bitsAt w 25 3 = 0x1#3 then .ok (.sub64 (bitsAt w 28 4) (bitsAt w 19 6) (bitsAt w 13 6) (bitsAt w 7 6) (bitsAt w 1 1))
  else if bitsAt w 25 3 = 0x2#3 then .ok (.addw (bitsAt w 28 4) (bitsAt w 19 6) (bitsAt w 13 6) (bitsAt w 7 6) (bitsAt w 1 1))
  else if bitsAt w 25 3 = 0x3#3 then .ok (.adduw (bitsAt w 28 4) (bitsAt w 19 6) (bitsAt w 13 6) (bitsAt w 7 6) (bitsAt w 1 1))
  else if bitsAt w 25 3 = 0x4#3 then .ok (.shl64 (bitsAt w 28 4) (bitsAt w 19 6) (bitsAt w 13 6) (bitsAt w 7 6) (bitsAt w 1 1))
  else if bitsAt w 25 3 = 0x5#3 then .ok (.shr64 (bitsAt w 28 4) (bitsAt w 19 6) (bitsAt w 13 6) (bitsAt w 7 6) (bitsAt w 1 1))
  else if bitsAt w 25 3 = 0x6#3 then .ok (.sar64 (bitsAt w 28 4) (bitsAt w 19 6) (bitsAt w 13 6) (bitsAt w 7 6) (bitsAt w 1 1))
  else if bitsAt w 25 3 = 0x7#3 then .ok (.mulw (bitsAt w 28 4) (bitsAt w 19 6) (bitsAt w 13 6) (bitsAt w 7 6) (bitsAt w 1 1))
  else .error .unallocated

/-- Major opcode 0x03 (Table 7-10). -/
def decodeMaj03 (w : BitVec 32) : Except IllFormed Instr :=
  .ok (.addi (bitsAt w 19 13) (bitsAt w 13 6) (bitsAt w 7 6) (bitsAt w 1 1))

/-- Major opcode 0x04 (Table 7-10). -/
def decodeMaj04 (w : BitVec 32) : Except IllFormed Instr :=
  .ok (.andi (bitsAt w 19 13) (bitsAt w 13 6) (bitsAt w 7 6) (bitsAt w 1 1))

/-- Major opcode 0x05 (Table 7-10). -/
def decodeMaj05 (w : BitVec 32) : Except IllFormed Instr :=
  if bitsAt w 25 7 = 0x0#7 then (if bitsAt w 19 6 = 0x0#6 then .ok (.clz (bitsAt w 13 6) (bitsAt w 7 6) (bitsAt w 1 1)) else .error .reservedField)
  else if bitsAt w 25 7 = 0x1#7 then (if bitsAt w 19 6 = 0x0#6 then .ok (.ctz (bitsAt w 13 6) (bitsAt w 7 6) (bitsAt w 1 1)) else .error .reservedField)
  else if bitsAt w 25 7 = 0x2#7 then (if bitsAt w 19 6 = 0x0#6 then .ok (.popc (bitsAt w 13 6) (bitsAt w 7 6) (bitsAt w 1 1)) else .error .reservedField)
  else if bitsAt w 25 7 = 0x3#7 then (if bitsAt w 19 6 = 0x0#6 then .ok (.brev (bitsAt w 13 6) (bitsAt w 7 6) (bitsAt w 1 1)) else .error .reservedField)
  else if bitsAt w 25 7 = 0x4#7 then (if bitsAt w 19 6 = 0x0#6 then .ok (.sext8 (bitsAt w 13 6) (bitsAt w 7 6) (bitsAt w 1 1)) else .error .reservedField)
  else if bitsAt w 25 7 = 0x5#7 then (if bitsAt w 19 6 = 0x0#6 then .ok (.sext16 (bitsAt w 13 6) (bitsAt w 7 6) (bitsAt w 1 1)) else .error .reservedField)
  else if bitsAt w 25 7 = 0x8#7 then .ok (.addsat (bitsAt w 19 6) (bitsAt w 13 6) (bitsAt w 7 6) (bitsAt w 1 1))
  else if bitsAt w 25 7 = 0x9#7 then .ok (.subsat (bitsAt w 19 6) (bitsAt w 13 6) (bitsAt w 7 6) (bitsAt w 1 1))
  else if bitsAt w 25 7 = 0xa#7 then .ok (.addsatu (bitsAt w 19 6) (bitsAt w 13 6) (bitsAt w 7 6) (bitsAt w 1 1))
  else if bitsAt w 25 7 = 0xb#7 then .ok (.subsatu (bitsAt w 19 6) (bitsAt w 13 6) (bitsAt w 7 6) (bitsAt w 1 1))
  else if bitsAt w 25 7 = 0xc#7 then .ok (.rol (bitsAt w 19 6) (bitsAt w 13 6) (bitsAt w 7 6) (bitsAt w 1 1))
  else if bitsAt w 25 7 = 0xd#7 then .ok (.bfx (bitsAt w 19 6) (bitsAt w 13 6) (bitsAt w 7 6) (bitsAt w 1 1))
  else .error .unallocated

/-- Major opcode 0x06 (Table 7-10). -/
def decodeMaj06 (w : BitVec 32) : Except IllFormed Instr :=
  if bitsAt w 31 1 = 0x0#1 then (if bitsAt w 29 2 = 0x0#2 then .ok (.liLo (bitsAt w 13 16) (bitsAt w 7 6) (bitsAt w 1 1)) else .error .reservedField)
  else if bitsAt w 31 1 = 0x1#1 then (if bitsAt w 29 2 = 0x0#2 then .ok (.liHi (bitsAt w 13 16) (bitsAt w 7 6) (bitsAt w 1 1)) else .error .reservedField)
  else .error .unallocated

/-- Major opcode 0x07 (Table 7-10). -/
def decodeMaj07 (w : BitVec 32) : Except IllFormed Instr :=
  if bitsAt w 25 3 = 0x0#3 then .ok (.icmp (bitsAt w 28 4) (bitsAt w 19 6) (bitsAt w 13 6) (bitsAt w 10 3) (bitsAt w 7 3) (bitsAt w 1 1))
  else if bitsAt w 25 3 = 0x1#3 then .ok (.ucmp (bitsAt w 28 4) (bitsAt w 19 6) (bitsAt w 13 6) (bitsAt w 10 3) (bitsAt w 7 3) (bitsAt w 1 1))
  else if bitsAt w 25 3 = 0x2#3 then .ok (.fcmpF32 (bitsAt w 28 4) (bitsAt w 19 6) (bitsAt w 13 6) (bitsAt w 10 3) (bitsAt w 7 3) (bitsAt w 1 1))
  else if bitsAt w 25 3 = 0x3#3 then .ok (.fcmpF64 (bitsAt w 28 4) (bitsAt w 19 6) (bitsAt w 13 6) (bitsAt w 10 3) (bitsAt w 7 3) (bitsAt w 1 1))
  else if bitsAt w 25 3 = 0x4#3 ∧ bitsAt w 10 3 = 0x0#3 then (if bitsAt w 16 3 = 0x0#3 ∧ bitsAt w 22 3 = 0x0#3 then .ok (.pand (bitsAt w 28 4) (bitsAt w 19 3) (bitsAt w 13 3) (bitsAt w 7 3) (bitsAt w 1 1)) else .error .reservedField)
  else if bitsAt w 25 3 = 0x4#3 ∧ bitsAt w 10 3 = 0x1#3 then (if bitsAt w 16 3 = 0x0#3 ∧ bitsAt w 22 3 = 0x0#3 then .ok (.por (bitsAt w 28 4) (bitsAt w 19 3) (bitsAt w 13 3) (bitsAt w 7 3) (bitsAt w 1 1)) else .error .reservedField)
  else if bitsAt w 25 3 = 0x4#3 ∧ bitsAt w 10 3 = 0x2#3 then (if bitsAt w 16 3 = 0x0#3 ∧ bitsAt w 22 3 = 0x0#3 then .ok (.pxor (bitsAt w 28 4) (bitsAt w 19 3) (bitsAt w 13 3) (bitsAt w 7 3) (bitsAt w 1 1)) else .error .reservedField)
  else if bitsAt w 25 3 = 0x4#3 ∧ bitsAt w 10 3 = 0x3#3 then (if bitsAt w 16 3 = 0x0#3 ∧ bitsAt w 22 3 = 0x0#3 then .ok (.pandn (bitsAt w 28 4) (bitsAt w 19 3) (bitsAt w 13 3) (bitsAt w 7 3) (bitsAt w 1 1)) else .error .reservedField)
  else if bitsAt w 25 3 = 0x4#3 ∧ bitsAt w 10 3 = 0x4#3 then (if bitsAt w 16 3 = 0x0#3 ∧ bitsAt w 19 6 = 0x0#6 then .ok (.pnot (bitsAt w 28 4) (bitsAt w 13 3) (bitsAt w 7 3) (bitsAt w 1 1)) else .error .reservedField)
  else if bitsAt w 25 3 = 0x4#3 ∧ bitsAt w 10 3 = 0x5#3 then (if bitsAt w 16 3 = 0x0#3 ∧ bitsAt w 19 6 = 0x0#6 then .ok (.pmov (bitsAt w 28 4) (bitsAt w 13 3) (bitsAt w 7 3) (bitsAt w 1 1)) else .error .reservedField)
  else if bitsAt w 25 3 = 0x5#3 then (if bitsAt w 13 6 = 0x0#6 ∧ bitsAt w 19 6 = 0x0#6 then .ok (.pget (bitsAt w 28 4) (bitsAt w 7 6) (bitsAt w 1 1)) else .error .reservedField)
  else if bitsAt w 25 3 = 0x6#3 then (if bitsAt w 7 6 = 0x0#6 ∧ bitsAt w 19 6 = 0x0#6 then .ok (.pset (bitsAt w 28 4) (bitsAt w 13 6) (bitsAt w 1 1)) else .error .reservedField)
  else .error .unallocated

/-- Major opcode 0x08 (Table 7-10). -/
def decodeMaj08 (w : BitVec 32) : Except IllFormed Instr :=
  if bitsAt w 25 3 = 0x0#3 then .ok (.faddF32 (bitsAt w 28 4) (bitsAt w 19 6) (bitsAt w 13 6) (bitsAt w 7 6) (bitsAt w 1 1))
  else if bitsAt w 25 3 = 0x1#3 then .ok (.fsubF32 (bitsAt w 28 4) (bitsAt w 19 6) (bitsAt w 13 6) (bitsAt w 7 6) (bitsAt w 1 1))
  else if bitsAt w 25 3 = 0x2#3 then .ok (.fmulF32 (bitsAt w 28 4) (bitsAt w 19 6) (bitsAt w 13 6) (bitsAt w 7 6) (bitsAt w 1 1))
  else if bitsAt w 25 3 = 0x3#3 then .ok (.fminF32 (bitsAt w 28 4) (bitsAt w 19 6) (bitsAt w 13 6) (bitsAt w 7 6) (bitsAt w 1 1))
  else if bitsAt w 25 3 = 0x4#3 then .ok (.fmaxF32 (bitsAt w 28 4) (bitsAt w 19 6) (bitsAt w 13 6) (bitsAt w 7 6) (bitsAt w 1 1))
  else if bitsAt w 25 3 = 0x5#3 then .ok (.faddRzF32 (bitsAt w 28 4) (bitsAt w 19 6) (bitsAt w 13 6) (bitsAt w 7 6) (bitsAt w 1 1))
  else if bitsAt w 25 3 = 0x6#3 then .ok (.fmulRzF32 (bitsAt w 28 4) (bitsAt w 19 6) (bitsAt w 13 6) (bitsAt w 7 6) (bitsAt w 1 1))
  else if bitsAt w 25 3 = 0x7#3 then .ok (.fsgnjF32 (bitsAt w 28 4) (bitsAt w 19 6) (bitsAt w 13 6) (bitsAt w 7 6) (bitsAt w 1 1))
  else .error .unallocated

/-- Major opcode 0x09 (Table 7-10). -/
def decodeMaj09 (w : BitVec 32) : Except IllFormed Instr :=
  if bitsAt w 25 3 = 0x0#3 then .ok (.faddF64 (bitsAt w 28 4) (bitsAt w 19 6) (bitsAt w 13 6) (bitsAt w 7 6) (bitsAt w 1 1))
  else if bitsAt w 25 3 = 0x1#3 then .ok (.fsubF64 (bitsAt w 28 4) (bitsAt w 19 6) (bitsAt w 13 6) (bitsAt w 7 6) (bitsAt w 1 1))
  else if bitsAt w 25 3 = 0x2#3 then .ok (.fmulF64 (bitsAt w 28 4) (bitsAt w 19 6) (bitsAt w 13 6) (bitsAt w 7 6) (bitsAt w 1 1))
  else if bitsAt w 25 3 = 0x3#3 then .ok (.fminF64 (bitsAt w 28 4) (bitsAt w 19 6) (bitsAt w 13 6) (bitsAt w 7 6) (bitsAt w 1 1))
  else if bitsAt w 25 3 = 0x4#3 then .ok (.fmaxF64 (bitsAt w 28 4) (bitsAt w 19 6) (bitsAt w 13 6) (bitsAt w 7 6) (bitsAt w 1 1))
  else if bitsAt w 25 3 = 0x5#3 then .ok (.faddRzF64 (bitsAt w 28 4) (bitsAt w 19 6) (bitsAt w 13 6) (bitsAt w 7 6) (bitsAt w 1 1))
  else if bitsAt w 25 3 = 0x6#3 then .ok (.fmulRzF64 (bitsAt w 28 4) (bitsAt w 19 6) (bitsAt w 13 6) (bitsAt w 7 6) (bitsAt w 1 1))
  else if bitsAt w 25 3 = 0x7#3 then .ok (.fsgnjF64 (bitsAt w 28 4) (bitsAt w 19 6) (bitsAt w 13 6) (bitsAt w 7 6) (bitsAt w 1 1))
  else .error .unallocated

/-- Major opcode 0x0A (Table 7-10). -/
def decodeMaj0A (w : BitVec 32) : Except IllFormed Instr :=
  if bitsAt w 25 3 = 0x0#3 then .ok (.faddF16x2 (bitsAt w 28 4) (bitsAt w 19 6) (bitsAt w 13 6) (bitsAt w 7 6) (bitsAt w 1 1))
  else if bitsAt w 25 3 = 0x1#3 then .ok (.fmulF16x2 (bitsAt w 28 4) (bitsAt w 19 6) (bitsAt w 13 6) (bitsAt w 7 6) (bitsAt w 1 1))
  else if bitsAt w 25 3 = 0x2#3 then .ok (.ffmaF16x2 (bitsAt w 28 4) (bitsAt w 19 6) (bitsAt w 13 6) (bitsAt w 7 6) (bitsAt w 1 1))
  else if bitsAt w 25 3 = 0x3#3 then .ok (.fmaxF16x2 (bitsAt w 28 4) (bitsAt w 19 6) (bitsAt w 13 6) (bitsAt w 7 6) (bitsAt w 1 1))
  else if bitsAt w 25 3 = 0x4#3 then .ok (.faddBf16x2 (bitsAt w 28 4) (bitsAt w 19 6) (bitsAt w 13 6) (bitsAt w 7 6) (bitsAt w 1 1))
  else if bitsAt w 25 3 = 0x5#3 then .ok (.fmulBf16x2 (bitsAt w 28 4) (bitsAt w 19 6) (bitsAt w 13 6) (bitsAt w 7 6) (bitsAt w 1 1))
  else if bitsAt w 25 3 = 0x6#3 then .ok (.ffmaBf16x2 (bitsAt w 28 4) (bitsAt w 19 6) (bitsAt w 13 6) (bitsAt w 7 6) (bitsAt w 1 1))
  else if bitsAt w 25 3 = 0x7#3 then .ok (.fmaxBf16x2 (bitsAt w 28 4) (bitsAt w 19 6) (bitsAt w 13 6) (bitsAt w 7 6) (bitsAt w 1 1))
  else .error .unallocated

/-- Major opcode 0x0B (Table 7-10). -/
def decodeMaj0B (w : BitVec 32) : Except IllFormed Instr :=
  if bitsAt w 31 1 = 0x0#1 then .ok (.ffmaF32 (bitsAt w 25 6) (bitsAt w 19 6) (bitsAt w 13 6) (bitsAt w 7 6) (bitsAt w 1 1))
  else if bitsAt w 31 1 = 0x1#1 then .ok (.ffmaF64 (bitsAt w 25 6) (bitsAt w 19 6) (bitsAt w 13 6) (bitsAt w 7 6) (bitsAt w 1 1))
  else .error .unallocated

/-- Major opcode 0x0C (Table 7-10). -/
def decodeMaj0C (w : BitVec 32) : Except IllFormed Instr :=
  if bitsAt w 25 7 = 0x0#7 then (if bitsAt w 19 6 = 0x0#6 then .ok (.cvtF32F64 (bitsAt w 13 6) (bitsAt w 7 6) (bitsAt w 1 1)) else .error .reservedField)
  else if bitsAt w 25 7 = 0x1#7 then (if bitsAt w 19 6 = 0x0#6 then .ok (.cvtRzF32F64 (bitsAt w 13 6) (bitsAt w 7 6) (bitsAt w 1 1)) else .error .reservedField)
  else if bitsAt w 25 7 = 0x2#7 then (if bitsAt w 19 6 = 0x0#6 then .ok (.cvtF64F32 (bitsAt w 13 6) (bitsAt w 7 6) (bitsAt w 1 1)) else .error .reservedField)
  else if bitsAt w 25 7 = 0x3#7 then (if bitsAt w 19 6 = 0x0#6 then .ok (.cvtF32S32 (bitsAt w 13 6) (bitsAt w 7 6) (bitsAt w 1 1)) else .error .reservedField)
  else if bitsAt w 25 7 = 0x4#7 then (if bitsAt w 19 6 = 0x0#6 then .ok (.cvtF32Uns32 (bitsAt w 13 6) (bitsAt w 7 6) (bitsAt w 1 1)) else .error .reservedField)
  else if bitsAt w 25 7 = 0x5#7 then (if bitsAt w 19 6 = 0x0#6 then .ok (.cvtS32F32 (bitsAt w 13 6) (bitsAt w 7 6) (bitsAt w 1 1)) else .error .reservedField)
  else if bitsAt w 25 7 = 0x6#7 then (if bitsAt w 19 6 = 0x0#6 then .ok (.cvtRzS32F32 (bitsAt w 13 6) (bitsAt w 7 6) (bitsAt w 1 1)) else .error .reservedField)
  else if bitsAt w 25 7 = 0x7#7 then (if bitsAt w 19 6 = 0x0#6 then .ok (.cvtF64S32 (bitsAt w 13 6) (bitsAt w 7 6) (bitsAt w 1 1)) else .error .reservedField)
  else if bitsAt w 25 7 = 0x8#7 then (if bitsAt w 19 6 = 0x0#6 then .ok (.cvtS32F64 (bitsAt w 13 6) (bitsAt w 7 6) (bitsAt w 1 1)) else .error .reservedField)
  else if bitsAt w 25 7 = 0x9#7 then (if bitsAt w 19 6 = 0x0#6 then .ok (.cvtRzS32F64 (bitsAt w 13 6) (bitsAt w 7 6) (bitsAt w 1 1)) else .error .reservedField)
  else if bitsAt w 25 7 = 0xa#7 then .ok (.cvtF16x2F32 (bitsAt w 19 6) (bitsAt w 13 6) (bitsAt w 7 6) (bitsAt w 1 1))
  else if bitsAt w 25 7 = 0xb#7 then .ok (.cvtBf16x2F32 (bitsAt w 19 6) (bitsAt w 13 6) (bitsAt w 7 6) (bitsAt w 1 1))
  else if bitsAt w 25 7 = 0xc#7 then .ok (.cvtRzBf16x2F32 (bitsAt w 19 6) (bitsAt w 13 6) (bitsAt w 7 6) (bitsAt w 1 1))
  else if bitsAt w 25 7 = 0xd#7 then (if bitsAt w 20 5 = 0x0#5 then .ok (.cvtF32F16 (bitsAt w 19 1) (bitsAt w 13 6) (bitsAt w 7 6) (bitsAt w 1 1)) else .error .reservedField)
  else if bitsAt w 25 7 = 0xe#7 then (if bitsAt w 20 5 = 0x0#5 then .ok (.cvtF32Bf16 (bitsAt w 19 1) (bitsAt w 13 6) (bitsAt w 7 6) (bitsAt w 1 1)) else .error .reservedField)
  else if bitsAt w 25 7 = 0x10#7 then (if bitsAt w 21 4 = 0x0#4 then .ok (.d8Pack (bitsAt w 19 2) (bitsAt w 13 6) (bitsAt w 7 6) (bitsAt w 1 1)) else .error .reservedField)
  else if bitsAt w 25 7 = 0x11#7 then (if bitsAt w 21 4 = 0x0#4 then .ok (.d8Unpack (bitsAt w 19 2) (bitsAt w 13 6) (bitsAt w 7 6) (bitsAt w 1 1)) else .error .reservedField)
  else if bitsAt w 25 7 = 0x12#7 then (if bitsAt w 21 4 = 0x0#4 then .ok (.cvtS8F32 (bitsAt w 19 2) (bitsAt w 13 6) (bitsAt w 7 6) (bitsAt w 1 1)) else .error .reservedField)
  else if bitsAt w 25 7 = 0x13#7 then (if bitsAt w 21 4 = 0x0#4 then .ok (.cvtF32S8 (bitsAt w 19 2) (bitsAt w 13 6) (bitsAt w 7 6) (bitsAt w 1 1)) else .error .reservedField)
  else .error .unallocated

/-- Major opcode 0x0D (Table 7-10). -/
def decodeMaj0D (w : BitVec 32) : Except IllFormed Instr :=
  if bitsAt w 25 7 = 0x0#7 then (if bitsAt w 19 6 = 0x0#6 then .ok (.fsint (bitsAt w 13 6) (bitsAt w 7 6) (bitsAt w 1 1)) else .error .reservedField)
  else if bitsAt w 25 7 = 0x1#7 then (if bitsAt w 19 6 = 0x0#6 then .ok (.fcost (bitsAt w 13 6) (bitsAt w 7 6) (bitsAt w 1 1)) else .error .reservedField)
  else if bitsAt w 25 7 = 0x2#7 then (if bitsAt w 19 6 = 0x0#6 then .ok (.fexp2 (bitsAt w 13 6) (bitsAt w 7 6) (bitsAt w 1 1)) else .error .reservedField)
  else if bitsAt w 25 7 = 0x3#7 then (if bitsAt w 19 6 = 0x0#6 then .ok (.flog2 (bitsAt w 13 6) (bitsAt w 7 6) (bitsAt w 1 1)) else .error .reservedField)
  else if bitsAt w 25 7 = 0x4#7 then (if bitsAt w 19 6 = 0x0#6 then .ok (.frcp (bitsAt w 13 6) (bitsAt w 7 6) (bitsAt w 1 1)) else .error .reservedField)
  else if bitsAt w 25 7 = 0x5#7 then (if bitsAt w 19 6 = 0x0#6 then .ok (.frsq (bitsAt w 13 6) (bitsAt w 7 6) (bitsAt w 1 1)) else .error .reservedField)
  else if bitsAt w 25 7 = 0x6#7 then (if bitsAt w 19 6 = 0x0#6 then .ok (.fsqrt (bitsAt w 13 6) (bitsAt w 7 6) (bitsAt w 1 1)) else .error .reservedField)
  else if bitsAt w 25 7 = 0x7#7 then .ok (.fdiv (bitsAt w 19 6) (bitsAt w 13 6) (bitsAt w 7 6) (bitsAt w 1 1))
  else if bitsAt w 25 7 = 0x8#7 then (if bitsAt w 19 6 = 0x0#6 then .ok (.frcpF64 (bitsAt w 13 6) (bitsAt w 7 6) (bitsAt w 1 1)) else .error .reservedField)
  else if bitsAt w 25 7 = 0x9#7 then (if bitsAt w 19 6 = 0x0#6 then .ok (.fsqrtF64 (bitsAt w 13 6) (bitsAt w 7 6) (bitsAt w 1 1)) else .error .reservedField)
  else if bitsAt w 25 7 = 0xa#7 then .ok (.fdivF64 (bitsAt w 19 6) (bitsAt w 13 6) (bitsAt w 7 6) (bitsAt w 1 1))
  else .error .unallocated

/-- Major opcode 0x0E (Table 7-10). -/
def decodeMaj0E (w : BitVec 32) : Except IllFormed Instr :=
  if bitsAt w 29 3 = 0x0#3 then .ok (.lswap (bitsAt w 25 4) (bitsAt w 19 6) (bitsAt w 13 6) (bitsAt w 7 6) (bitsAt w 1 1))
  else if bitsAt w 29 3 = 0x1#3 then .ok (.shfl (bitsAt w 25 4) (bitsAt w 19 6) (bitsAt w 13 6) (bitsAt w 7 6) (bitsAt w 1 1))
  else if bitsAt w 29 3 = 0x2#3 then .ok (.bcast (bitsAt w 25 4) (bitsAt w 19 6) (bitsAt w 13 6) (bitsAt w 7 6) (bitsAt w 1 1))
  else if bitsAt w 29 3 = 0x3#3 then (if bitsAt w 16 3 = 0x0#3 ∧ bitsAt w 19 6 = 0x0#6 then .ok (.ballot (bitsAt w 25 4) (bitsAt w 13 3) (bitsAt w 7 6) (bitsAt w 1 1)) else .error .reservedField)
  else if bitsAt w 29 3 = 0x4#3 then (if bitsAt w 22 3 = 0x0#3 then .ok (.redOp (bitsAt w 25 4) (bitsAt w 19 3) (bitsAt w 13 6) (bitsAt w 7 6) (bitsAt w 1 1)) else .error .reservedField)
  else if bitsAt w 29 3 = 0x5#3 then (if bitsAt w 21 4 = 0x0#4 then .ok (.redFopF32 (bitsAt w 25 4) (bitsAt w 19 2) (bitsAt w 13 6) (bitsAt w 7 6) (bitsAt w 1 1)) else .error .reservedField)
  else if bitsAt w 29 3 = 0x6#3 then (if bitsAt w 19 6 = 0x0#6 then .ok (.scanAdd (bitsAt w 25 4) (bitsAt w 13 6) (bitsAt w 7 6) (bitsAt w 1 1)) else .error .reservedField)
  else if bitsAt w 29 3 = 0x7#3 then (if bitsAt w 21 4 = 0x0#4 then .ok (.redFopF64 (bitsAt w 25 4) (bitsAt w 19 2) (bitsAt w 13 6) (bitsAt w 7 6) (bitsAt w 1 1)) else .error .reservedField)
  else .error .unallocated

/-- Major opcode 0x0F (Table 7-10). -/
def decodeMaj0F (w : BitVec 32) : Except IllFormed Instr :=
  if bitsAt w 7 3 = 0#3 ∧ bitsAt w 10 1 = 1#1 then .ok (.call (bitsAt w 11 21) (bitsAt w 1 1))
  else .ok (.br (bitsAt w 11 21) (bitsAt w 10 1) (bitsAt w 7 3) (bitsAt w 1 1))

/-- Major opcode 0x10 (Table 7-10). -/
def decodeMaj10 (w : BitVec 32) : Except IllFormed Instr :=
  if bitsAt w 25 7 = 0x0#7 then (if bitsAt w 7 6 = 0x0#6 ∧ bitsAt w 13 6 = 0x0#6 ∧ bitsAt w 19 6 = 0x0#6 then .ok (.exit (bitsAt w 1 1)) else .error .reservedField)
  else if bitsAt w 25 7 = 0x1#7 then (if bitsAt w 7 6 = 0x0#6 ∧ bitsAt w 19 6 = 0x0#6 then .ok (.jr (bitsAt w 13 6) (bitsAt w 1 1)) else .error .reservedField)
  else if bitsAt w 25 7 = 0x2#7 then (if bitsAt w 19 6 = 0x0#6 then .ok (.jalr (bitsAt w 13 6) (bitsAt w 7 6) (bitsAt w 1 1)) else .error .reservedField)
  else if bitsAt w 25 7 = 0x3#7 then (if bitsAt w 7 6 = 0x0#6 ∧ bitsAt w 19 6 = 0x0#6 then .ok (.ret (bitsAt w 13 6) (bitsAt w 1 1)) else .error .reservedField)
  else if bitsAt w 25 7 = 0x4#7 then (if bitsAt w 7 6 = 0x0#6 ∧ bitsAt w 13 6 = 0x0#6 ∧ bitsAt w 19 6 = 0x0#6 then .ok (.land (bitsAt w 1 1)) else .error .reservedField)
  else .error .unallocated

/-- Major opcode 0x11 (Table 7-10). -/
def decodeMaj11 (w : BitVec 32) : Except IllFormed Instr :=
  if bitsAt w 25 7 = 0x0#7 then (if bitsAt w 13 6 = 0x0#6 ∧ bitsAt w 19 6 = 0x0#6 then .ok (.join (bitsAt w 7 6) (bitsAt w 1 1)) else .error .reservedField)
  else if bitsAt w 25 7 = 0x1#7 then (if bitsAt w 13 6 = 0x0#6 ∧ bitsAt w 19 6 = 0x0#6 then .ok (.leave (bitsAt w 7 6) (bitsAt w 1 1)) else .error .reservedField)
  else if bitsAt w 25 7 = 0x2#7 then (if bitsAt w 13 6 = 0x0#6 ∧ bitsAt w 19 6 = 0x0#6 then .ok (.waitm (bitsAt w 7 6) (bitsAt w 1 1)) else .error .reservedField)
  else if bitsAt w 25 7 = 0x3#7 then (if bitsAt w 19 6 = 0x0#6 then .ok (.mrd (bitsAt w 13 6) (bitsAt w 7 6) (bitsAt w 1 1)) else .error .reservedField)
  else if bitsAt w 25 7 = 0x8#7 then (if bitsAt w 13 6 = 0x0#6 ∧ bitsAt w 19 6 = 0x0#6 then .ok (.hzrd (bitsAt w 7 6) (bitsAt w 1 1)) else .error .reservedField)
  else if bitsAt w 25 7 = 0x9#7 then (if bitsAt w 7 6 = 0x0#6 ∧ bitsAt w 19 6 = 0x0#6 then .ok (.hzwait (bitsAt w 13 6) (bitsAt w 1 1)) else .error .reservedField)
  else if bitsAt w 25 7 = 0xa#7 then .ok (.hzbr (bitsAt w 7 18) (bitsAt w 1 1))
  else if bitsAt w 25 7 = 0xb#7 then .ok (.hzbrn (bitsAt w 7 18) (bitsAt w 1 1))
  else if bitsAt w 25 7 = 0xc#7 then (if bitsAt w 7 6 = 0x0#6 ∧ bitsAt w 13 6 = 0x0#6 ∧ bitsAt w 19 6 = 0x0#6 then .ok (.hzreplay (bitsAt w 1 1)) else .error .reservedField)
  else .error .unallocated

/-- Major opcode 0x12 (Table 7-10). -/
def decodeMaj12 (w : BitVec 32) : Except IllFormed Instr :=
  if bitsAt w 25 3 = 0x0#3 then .ok (.ld (bitsAt w 28 4) (bitsAt w 22 3) (bitsAt w 19 3) (bitsAt w 13 6) (bitsAt w 7 6) (bitsAt w 1 1))
  else if bitsAt w 25 3 = 0x1#3 then .ok (.ldSx (bitsAt w 28 4) (bitsAt w 22 3) (bitsAt w 19 3) (bitsAt w 13 6) (bitsAt w 7 6) (bitsAt w 1 1))
  else .error .unallocated

/-- Major opcode 0x13 (Table 7-10). -/
def decodeMaj13 (w : BitVec 32) : Except IllFormed Instr :=
  if bitsAt w 25 3 = 0x0#3 then .ok (.st (bitsAt w 28 4) (bitsAt w 22 3) (bitsAt w 19 3) (bitsAt w 13 6) (bitsAt w 7 6) (bitsAt w 1 1))
  else .error .unallocated

/-- Major opcode 0x14 (Table 7-10). -/
def decodeMaj14 (w : BitVec 32) : Except IllFormed Instr :=
  if bitsAt w 25 3 = 0x0#3 then .ok (.ldS (bitsAt w 28 4) (bitsAt w 22 3) (bitsAt w 19 3) (bitsAt w 13 6) (bitsAt w 7 6) (bitsAt w 1 1))
  else if bitsAt w 25 3 = 0x1#3 then .ok (.ldSxS (bitsAt w 28 4) (bitsAt w 22 3) (bitsAt w 19 3) (bitsAt w 13 6) (bitsAt w 7 6) (bitsAt w 1 1))
  else .error .unallocated

/-- Major opcode 0x15 (Table 7-10). -/
def decodeMaj15 (w : BitVec 32) : Except IllFormed Instr :=
  if bitsAt w 25 3 = 0x0#3 then .ok (.stS (bitsAt w 28 4) (bitsAt w 22 3) (bitsAt w 19 3) (bitsAt w 13 6) (bitsAt w 7 6) (bitsAt w 1 1))
  else .error .unallocated

/-- Major opcode 0x16 (Table 7-10). -/
def decodeMaj16 (w : BitVec 32) : Except IllFormed Instr :=
  if bitsAt w 25 4 = 0x0#4 then .ok (.atomAdd (bitsAt w 31 1) (bitsAt w 29 2) (bitsAt w 19 6) (bitsAt w 13 6) (bitsAt w 7 6) (bitsAt w 1 1))
  else if bitsAt w 25 4 = 0x1#4 then .ok (.atomMin (bitsAt w 31 1) (bitsAt w 29 2) (bitsAt w 19 6) (bitsAt w 13 6) (bitsAt w 7 6) (bitsAt w 1 1))
  else if bitsAt w 25 4 = 0x2#4 then .ok (.atomMax (bitsAt w 31 1) (bitsAt w 29 2) (bitsAt w 19 6) (bitsAt w 13 6) (bitsAt w 7 6) (bitsAt w 1 1))
  else if bitsAt w 25 4 = 0x3#4 then .ok (.atomMinu (bitsAt w 31 1) (bitsAt w 29 2) (bitsAt w 19 6) (bitsAt w 13 6) (bitsAt w 7 6) (bitsAt w 1 1))
  else if bitsAt w 25 4 = 0x4#4 then .ok (.atomMaxu (bitsAt w 31 1) (bitsAt w 29 2) (bitsAt w 19 6) (bitsAt w 13 6) (bitsAt w 7 6) (bitsAt w 1 1))
  else if bitsAt w 25 4 = 0x5#4 then .ok (.atomAnd (bitsAt w 31 1) (bitsAt w 29 2) (bitsAt w 19 6) (bitsAt w 13 6) (bitsAt w 7 6) (bitsAt w 1 1))
  else if bitsAt w 25 4 = 0x6#4 then .ok (.atomOr (bitsAt w 31 1) (bitsAt w 29 2) (bitsAt w 19 6) (bitsAt w 13 6) (bitsAt w 7 6) (bitsAt w 1 1))
  else if bitsAt w 25 4 = 0x7#4 then .ok (.atomXor (bitsAt w 31 1) (bitsAt w 29 2) (bitsAt w 19 6) (bitsAt w 13 6) (bitsAt w 7 6) (bitsAt w 1 1))
  else if bitsAt w 25 4 = 0x8#4 then .ok (.atomExch (bitsAt w 31 1) (bitsAt w 29 2) (bitsAt w 19 6) (bitsAt w 13 6) (bitsAt w 7 6) (bitsAt w 1 1))
  else if bitsAt w 25 4 = 0x9#4 then .ok (.atomCas (bitsAt w 31 1) (bitsAt w 29 2) (bitsAt w 19 6) (bitsAt w 13 6) (bitsAt w 7 6) (bitsAt w 1 1))
  else if bitsAt w 25 4 = 0xa#4 then .ok (.atomFadd (bitsAt w 31 1) (bitsAt w 29 2) (bitsAt w 19 6) (bitsAt w 13 6) (bitsAt w 7 6) (bitsAt w 1 1))
  else if bitsAt w 25 4 = 0xb#4 then .ok (.atomFaddRa (bitsAt w 31 1) (bitsAt w 29 2) (bitsAt w 19 6) (bitsAt w 13 6) (bitsAt w 7 6) (bitsAt w 1 1))
  else if bitsAt w 25 4 = 0xc#4 then .ok (.atomFmin (bitsAt w 31 1) (bitsAt w 29 2) (bitsAt w 19 6) (bitsAt w 13 6) (bitsAt w 7 6) (bitsAt w 1 1))
  else if bitsAt w 25 4 = 0xd#4 then .ok (.atomFmax (bitsAt w 31 1) (bitsAt w 29 2) (bitsAt w 19 6) (bitsAt w 13 6) (bitsAt w 7 6) (bitsAt w 1 1))
  else if bitsAt w 25 4 = 0xe#4 then (if bitsAt w 29 2 = 0x1#2 then .ok (.stf (bitsAt w 31 1) (bitsAt w 19 6) (bitsAt w 13 6) (bitsAt w 7 6) (bitsAt w 1 1)) else .error .reservedField)
  else .error .unallocated

/-- Major opcode 0x17 (Table 7-10). -/
def decodeMaj17 (w : BitVec 32) : Except IllFormed Instr :=
  if bitsAt w 25 7 = 0x0#7 then (if bitsAt w 7 6 = 0x0#6 ∧ bitsAt w 13 6 = 0x0#6 ∧ bitsAt w 19 6 = 0x0#6 then .ok (.phaseTrain (bitsAt w 1 1)) else .error .reservedField)
  else if bitsAt w 25 7 = 0x1#7 then (if bitsAt w 7 6 = 0x0#6 ∧ bitsAt w 13 6 = 0x0#6 ∧ bitsAt w 19 6 = 0x0#6 then .ok (.phaseMovement (bitsAt w 1 1)) else .error .reservedField)
  else if bitsAt w 25 7 = 0x2#7 then (if bitsAt w 7 6 = 0x0#6 ∧ bitsAt w 13 6 = 0x0#6 ∧ bitsAt w 19 6 = 0x0#6 then .ok (.phaseCalibre (bitsAt w 1 1)) else .error .reservedField)
  else if bitsAt w 25 7 = 0x3#7 then (if bitsAt w 7 6 = 0x0#6 ∧ bitsAt w 13 6 = 0x0#6 ∧ bitsAt w 19 6 = 0x0#6 then .ok (.phaseDevice (bitsAt w 1 1)) else .error .reservedField)
  else if bitsAt w 25 7 = 0x4#7 then (if bitsAt w 7 6 = 0x0#6 ∧ bitsAt w 13 6 = 0x0#6 ∧ bitsAt w 19 6 = 0x0#6 then .ok (.phaseDomain (bitsAt w 1 1)) else .error .reservedField)
  else if bitsAt w 25 7 = 0x8#7 then (if bitsAt w 7 6 = 0x0#6 ∧ bitsAt w 13 6 = 0x0#6 ∧ bitsAt w 19 6 = 0x0#6 then .ok (.fenceTrain (bitsAt w 1 1)) else .error .reservedField)
  else if bitsAt w 25 7 = 0x9#7 then (if bitsAt w 7 6 = 0x0#6 ∧ bitsAt w 13 6 = 0x0#6 ∧ bitsAt w 19 6 = 0x0#6 then .ok (.fenceMovement (bitsAt w 1 1)) else .error .reservedField)
  else if bitsAt w 25 7 = 0xa#7 then (if bitsAt w 7 6 = 0x0#6 ∧ bitsAt w 13 6 = 0x0#6 ∧ bitsAt w 19 6 = 0x0#6 then .ok (.fenceCalibre (bitsAt w 1 1)) else .error .reservedField)
  else if bitsAt w 25 7 = 0xb#7 then (if bitsAt w 7 6 = 0x0#6 ∧ bitsAt w 13 6 = 0x0#6 ∧ bitsAt w 19 6 = 0x0#6 then .ok (.fenceDevice (bitsAt w 1 1)) else .error .reservedField)
  else if bitsAt w 25 7 = 0xc#7 then (if bitsAt w 7 6 = 0x0#6 ∧ bitsAt w 13 6 = 0x0#6 ∧ bitsAt w 19 6 = 0x0#6 then .ok (.fenceDomain (bitsAt w 1 1)) else .error .reservedField)
  else if bitsAt w 25 7 = 0x10#7 then (if bitsAt w 13 6 = 0x0#6 ∧ bitsAt w 19 6 = 0x0#6 then .ok (.barTrain (bitsAt w 7 6) (bitsAt w 1 1)) else .error .reservedField)
  else if bitsAt w 25 7 = 0x11#7 then (if bitsAt w 7 6 = 0x0#6 ∧ bitsAt w 23 2 = 0x0#2 then .ok (.barMovement (bitsAt w 19 4) (bitsAt w 13 6) (bitsAt w 1 1)) else .error .reservedField)
  else if bitsAt w 25 7 = 0x12#7 then (if bitsAt w 7 6 = 0x0#6 ∧ bitsAt w 23 2 = 0x0#2 then .ok (.barCalibre (bitsAt w 19 4) (bitsAt w 13 6) (bitsAt w 1 1)) else .error .reservedField)
  else if bitsAt w 25 7 = 0x13#7 then (if bitsAt w 7 6 = 0x0#6 ∧ bitsAt w 23 2 = 0x0#2 then .ok (.barDevice (bitsAt w 19 4) (bitsAt w 13 6) (bitsAt w 1 1)) else .error .reservedField)
  else if bitsAt w 25 7 = 0x18#7 then (if bitsAt w 7 6 = 0x0#6 then .ok (.rflushDev (bitsAt w 19 6) (bitsAt w 13 6) (bitsAt w 1 1)) else .error .reservedField)
  else if bitsAt w 25 7 = 0x19#7 then (if bitsAt w 7 6 = 0x0#6 then .ok (.rflushRem (bitsAt w 19 6) (bitsAt w 13 6) (bitsAt w 1 1)) else .error .reservedField)
  else if bitsAt w 25 7 = 0x1a#7 then (if bitsAt w 7 6 = 0x0#6 then .ok (.rflushHost (bitsAt w 19 6) (bitsAt w 13 6) (bitsAt w 1 1)) else .error .reservedField)
  else if bitsAt w 25 7 = 0x1c#7 then (if bitsAt w 7 6 = 0x0#6 then .ok (.rinvalDev (bitsAt w 19 6) (bitsAt w 13 6) (bitsAt w 1 1)) else .error .reservedField)
  else if bitsAt w 25 7 = 0x1d#7 then (if bitsAt w 7 6 = 0x0#6 then .ok (.rinvalRem (bitsAt w 19 6) (bitsAt w 13 6) (bitsAt w 1 1)) else .error .reservedField)
  else if bitsAt w 25 7 = 0x1e#7 then (if bitsAt w 7 6 = 0x0#6 then .ok (.rinvalHost (bitsAt w 19 6) (bitsAt w 13 6) (bitsAt w 1 1)) else .error .reservedField)
  else if bitsAt w 25 7 = 0x20#7 then (if bitsAt w 7 6 = 0x0#6 then .ok (.prsWait (bitsAt w 19 6) (bitsAt w 13 6) (bitsAt w 1 1)) else .error .reservedField)
  else if bitsAt w 25 7 = 0x21#7 then (if bitsAt w 10 3 = 0x0#3 ∧ bitsAt w 19 6 = 0x0#6 then .ok (.prsTest (bitsAt w 13 6) (bitsAt w 7 3) (bitsAt w 1 1)) else .error .reservedField)
  else .error .unallocated

/-- Major opcode 0x18 (Table 7-10). -/
def decodeMaj18 (w : BitVec 32) : Except IllFormed Instr :=
  if bitsAt w 25 7 = 0x0#7 then (if bitsAt w 7 6 = 0x0#6 ∧ bitsAt w 19 6 = 0x0#6 then .ok (.mxOp (bitsAt w 13 6) (bitsAt w 1 1)) else .error .reservedField)
  else if bitsAt w 25 7 = 0x1#7 then (if bitsAt w 13 6 = 0x0#6 ∧ bitsAt w 19 6 = 0x0#6 then .ok (.mxCommit (bitsAt w 7 6) (bitsAt w 1 1)) else .error .reservedField)
  else if bitsAt w 25 7 = 0x2#7 then (if bitsAt w 7 6 = 0x0#6 ∧ bitsAt w 19 6 = 0x0#6 then .ok (.mxWait (bitsAt w 13 6) (bitsAt w 1 1)) else .error .reservedField)
  else if bitsAt w 25 7 = 0x3#7 then .ok (.mxRd (bitsAt w 19 6) (bitsAt w 13 6) (bitsAt w 7 6) (bitsAt w 1 1))
  else if bitsAt w 25 7 = 0x4#7 then .ok (.mxWr (bitsAt w 19 6) (bitsAt w 13 6) (bitsAt w 7 6) (bitsAt w 1 1))
  else if bitsAt w 25 7 = 0x5#7 then .ok (.mxRd64 (bitsAt w 19 6) (bitsAt w 13 6) (bitsAt w 7 6) (bitsAt w 1 1))
  else if bitsAt w 25 7 = 0x6#7 then .ok (.mxWr64 (bitsAt w 19 6) (bitsAt w 13 6) (bitsAt w 7 6) (bitsAt w 1 1))
  else if bitsAt w 25 7 = 0x7#7 then (if bitsAt w 13 6 = 0x0#6 ∧ bitsAt w 19 6 = 0x0#6 then .ok (.mxZero (bitsAt w 7 6) (bitsAt w 1 1)) else .error .reservedField)
  else .error .unallocated

/-- Major opcode 0x19 (Table 7-10). -/
def decodeMaj19 (w : BitVec 32) : Except IllFormed Instr :=
  if bitsAt w 25 7 = 0x0#7 then .ok (.cpTileLd (bitsAt w 19 6) (bitsAt w 13 6) (bitsAt w 7 6) (bitsAt w 1 1))
  else if bitsAt w 25 7 = 0x1#7 then .ok (.cpTileSt (bitsAt w 19 6) (bitsAt w 13 6) (bitsAt w 7 6) (bitsAt w 1 1))
  else .error .unallocated

/-- Major opcode 0x1A (Table 7-10). -/
def decodeMaj1A (w : BitVec 32) : Except IllFormed Instr :=
  if bitsAt w 31 1 = 0x1#1 then .ok (.recruit (bitsAt w 25 6) (bitsAt w 19 6) (bitsAt w 13 6) (bitsAt w 7 6) (bitsAt w 1 1))
  else if bitsAt w 25 7 = 0x0#7 then (if bitsAt w 13 6 = 0x0#6 ∧ bitsAt w 19 6 = 0x0#6 then .ok (.rnext (bitsAt w 7 6) (bitsAt w 1 1)) else .error .reservedField)
  else if bitsAt w 25 7 = 0x1#7 then (if bitsAt w 7 6 = 0x0#6 ∧ bitsAt w 13 6 = 0x0#6 ∧ bitsAt w 19 6 = 0x0#6 then .ok (.rleave (bitsAt w 1 1)) else .error .reservedField)
  else if bitsAt w 25 7 = 0x2#7 then (if bitsAt w 7 6 = 0x0#6 ∧ bitsAt w 13 6 = 0x0#6 ∧ bitsAt w 19 6 = 0x0#6 then .ok (.rjoin (bitsAt w 1 1)) else .error .reservedField)
  else if bitsAt w 25 7 = 0x8#7 then (if bitsAt w 13 6 = 0x0#6 then .ok (.rjoinAdd (bitsAt w 19 6) (bitsAt w 7 6) (bitsAt w 1 1)) else .error .reservedField)
  else if bitsAt w 25 7 = 0x9#7 then (if bitsAt w 13 6 = 0x0#6 then .ok (.rjoinMin (bitsAt w 19 6) (bitsAt w 7 6) (bitsAt w 1 1)) else .error .reservedField)
  else if bitsAt w 25 7 = 0xa#7 then (if bitsAt w 13 6 = 0x0#6 then .ok (.rjoinMax (bitsAt w 19 6) (bitsAt w 7 6) (bitsAt w 1 1)) else .error .reservedField)
  else if bitsAt w 25 7 = 0xb#7 then (if bitsAt w 13 6 = 0x0#6 then .ok (.rjoinMinu (bitsAt w 19 6) (bitsAt w 7 6) (bitsAt w 1 1)) else .error .reservedField)
  else if bitsAt w 25 7 = 0xc#7 then (if bitsAt w 13 6 = 0x0#6 then .ok (.rjoinMaxu (bitsAt w 19 6) (bitsAt w 7 6) (bitsAt w 1 1)) else .error .reservedField)
  else if bitsAt w 25 7 = 0xd#7 then (if bitsAt w 13 6 = 0x0#6 then .ok (.rjoinAnd (bitsAt w 19 6) (bitsAt w 7 6) (bitsAt w 1 1)) else .error .reservedField)
  else if bitsAt w 25 7 = 0xe#7 then (if bitsAt w 13 6 = 0x0#6 then .ok (.rjoinOr (bitsAt w 19 6) (bitsAt w 7 6) (bitsAt w 1 1)) else .error .reservedField)
  else if bitsAt w 25 7 = 0xf#7 then (if bitsAt w 13 6 = 0x0#6 then .ok (.rjoinXor (bitsAt w 19 6) (bitsAt w 7 6) (bitsAt w 1 1)) else .error .reservedField)
  else if bitsAt w 25 7 = 0x10#7 then (if bitsAt w 13 6 = 0x0#6 then .ok (.rjoinFaddF32 (bitsAt w 19 6) (bitsAt w 7 6) (bitsAt w 1 1)) else .error .reservedField)
  else if bitsAt w 25 7 = 0x11#7 then (if bitsAt w 13 6 = 0x0#6 then .ok (.rjoinFminF32 (bitsAt w 19 6) (bitsAt w 7 6) (bitsAt w 1 1)) else .error .reservedField)
  else if bitsAt w 25 7 = 0x12#7 then (if bitsAt w 13 6 = 0x0#6 then .ok (.rjoinFmaxF32 (bitsAt w 19 6) (bitsAt w 7 6) (bitsAt w 1 1)) else .error .reservedField)
  else if bitsAt w 25 7 = 0x13#7 then (if bitsAt w 13 6 = 0x0#6 then .ok (.rjoinFaddF64 (bitsAt w 19 6) (bitsAt w 7 6) (bitsAt w 1 1)) else .error .reservedField)
  else if bitsAt w 25 7 = 0x14#7 then (if bitsAt w 13 6 = 0x0#6 then .ok (.rjoinFminF64 (bitsAt w 19 6) (bitsAt w 7 6) (bitsAt w 1 1)) else .error .reservedField)
  else if bitsAt w 25 7 = 0x15#7 then (if bitsAt w 13 6 = 0x0#6 then .ok (.rjoinFmaxF64 (bitsAt w 19 6) (bitsAt w 7 6) (bitsAt w 1 1)) else .error .reservedField)
  else .error .unallocated

/-- Major opcode 0x1B (Table 7-10). -/
def decodeMaj1B (w : BitVec 32) : Except IllFormed Instr :=
  if bitsAt w 25 7 = 0x0#7 then (if bitsAt w 13 6 = 0x0#6 ∧ bitsAt w 19 6 = 0x0#6 then .ok (.escOpen (bitsAt w 7 6) (bitsAt w 1 1)) else .error .reservedField)
  else if bitsAt w 25 7 = 0x1#7 then .ok (.escIn (bitsAt w 19 6) (bitsAt w 13 6) (bitsAt w 10 3) (bitsAt w 7 3) (bitsAt w 1 1))
  else if bitsAt w 25 7 = 0x2#7 then (if bitsAt w 13 6 = 0x0#6 ∧ bitsAt w 19 6 = 0x0#6 then .ok (.escEnd (bitsAt w 7 6) (bitsAt w 1 1)) else .error .reservedField)
  else if bitsAt w 25 7 = 0x3#7 then (if bitsAt w 19 6 = 0x0#6 then .ok (.escNext (bitsAt w 13 6) (bitsAt w 7 6) (bitsAt w 1 1)) else .error .reservedField)
  else if bitsAt w 25 7 = 0x4#7 then (if bitsAt w 7 6 = 0x0#6 then .ok (.escDone (bitsAt w 19 6) (bitsAt w 13 6) (bitsAt w 1 1)) else .error .reservedField)
  else if bitsAt w 25 7 = 0x8#7 then (if bitsAt w 7 6 = 0x0#6 ∧ bitsAt w 19 6 = 0x0#6 then .ok (.xqCfg (bitsAt w 13 6) (bitsAt w 1 1)) else .error .reservedField)
  else if bitsAt w 25 7 = 0x9#7 then (if bitsAt w 7 6 = 0x0#6 then .ok (.xqIn (bitsAt w 19 6) (bitsAt w 13 6) (bitsAt w 1 1)) else .error .reservedField)
  else if bitsAt w 25 7 = 0xa#7 then (if bitsAt w 19 6 = 0x0#6 then .ok (.xqTake (bitsAt w 13 6) (bitsAt w 7 6) (bitsAt w 1 1)) else .error .reservedField)
  else if bitsAt w 25 7 = 0xb#7 then (if bitsAt w 7 6 = 0x0#6 then .ok (.xqDone (bitsAt w 19 6) (bitsAt w 13 6) (bitsAt w 1 1)) else .error .reservedField)
  else .error .unallocated

/-- Major opcode 0x1C (Table 7-10). -/
def decodeMaj1C (w : BitVec 32) : Except IllFormed Instr :=
  if bitsAt w 25 7 = 0x0#7 then (if bitsAt w 7 6 = 0x0#6 then .ok (.tkSpawn (bitsAt w 19 6) (bitsAt w 13 6) (bitsAt w 1 1)) else .error .reservedField)
  else if bitsAt w 25 7 = 0x1#7 then (if bitsAt w 7 6 = 0x0#6 ∧ bitsAt w 19 6 = 0x0#6 then .ok (.tkHand (bitsAt w 13 6) (bitsAt w 1 1)) else .error .reservedField)
  else if bitsAt w 25 7 = 0x2#7 then (if bitsAt w 19 6 = 0x0#6 then .ok (.krd (bitsAt w 13 6) (bitsAt w 7 6) (bitsAt w 1 1)) else .error .reservedField)
  else if bitsAt w 25 7 = 0x8#7 then (if bitsAt w 19 6 = 0x0#6 then .ok (.rgSend (bitsAt w 13 6) (bitsAt w 7 6) (bitsAt w 1 1)) else .error .reservedField)
  else if bitsAt w 25 7 = 0x9#7 then (if bitsAt w 19 6 = 0x0#6 then .ok (.rgRecv (bitsAt w 13 6) (bitsAt w 7 6) (bitsAt w 1 1)) else .error .reservedField)
  else if bitsAt w 25 7 = 0xa#7 then (if bitsAt w 13 6 = 0x0#6 ∧ bitsAt w 19 6 = 0x0#6 then .ok (.rgEos (bitsAt w 7 6) (bitsAt w 1 1)) else .error .reservedField)
  else if bitsAt w 25 7 = 0x10#7 then (if bitsAt w 13 6 = 0x0#6 ∧ bitsAt w 19 6 = 0x0#6 then .ok (.phEnd (bitsAt w 7 6) (bitsAt w 1 1)) else .error .reservedField)
  else .error .unallocated

/-- Major opcode 0x1D (Table 7-10). (DEDUCED, log entry 11.) -/
def decodeMaj1D (w : BitVec 32) : Except IllFormed Instr :=
  if bitsAt w 25 7 = 0x0#7 then (if bitsAt w 19 6 = 0x0#6 then .ok (.srd (bitsAt w 13 6) (bitsAt w 7 6) (bitsAt w 1 1)) else .error .reservedField)
  else if bitsAt w 25 7 = 0x1#7 then (if bitsAt w 19 6 = 0x0#6 then .ok (.csrr (bitsAt w 13 6) (bitsAt w 7 6) (bitsAt w 1 1)) else .error .reservedField)
  else if bitsAt w 25 7 = 0x2#7 then (if bitsAt w 7 6 = 0x0#6 then .ok (.csrw (bitsAt w 19 6) (bitsAt w 13 6) (bitsAt w 1 1)) else .error .reservedField)
  else if bitsAt w 25 7 = 0x3#7 then (if bitsAt w 7 6 = 0x0#6 then .ok (.csrs (bitsAt w 19 6) (bitsAt w 13 6) (bitsAt w 1 1)) else .error .reservedField)
  else if bitsAt w 25 7 = 0x4#7 then (if bitsAt w 7 6 = 0x0#6 then .ok (.csrc (bitsAt w 19 6) (bitsAt w 13 6) (bitsAt w 1 1)) else .error .reservedField)
  else if bitsAt w 25 7 = 0x8#7 then (if bitsAt w 7 6 = 0x0#6 ∧ bitsAt w 13 6 = 0x0#6 ∧ bitsAt w 19 6 = 0x0#6 then .ok (.eret (bitsAt w 1 1)) else .error .reservedField)
  else if bitsAt w 25 7 = 0x9#7 then (if bitsAt w 7 6 = 0x0#6 ∧ bitsAt w 19 6 = 0x0#6 then .ok (.brk (bitsAt w 13 6) (bitsAt w 1 1)) else .error .reservedField)
  else .error .unallocated

/-- The row of the opcode map that a 32-bit instruction falls under (R191, R199, R200). -/
def decodeRow (w : BitVec 32) : Except IllFormed Instr :=
  if bitsAt w 2 5 = 0x00#5 then decodeMaj00 w
  else if bitsAt w 2 5 = 0x01#5 then decodeMaj01 w
  else if bitsAt w 2 5 = 0x02#5 then decodeMaj02 w
  else if bitsAt w 2 5 = 0x03#5 then decodeMaj03 w
  else if bitsAt w 2 5 = 0x04#5 then decodeMaj04 w
  else if bitsAt w 2 5 = 0x05#5 then decodeMaj05 w
  else if bitsAt w 2 5 = 0x06#5 then decodeMaj06 w
  else if bitsAt w 2 5 = 0x07#5 then decodeMaj07 w
  else if bitsAt w 2 5 = 0x08#5 then decodeMaj08 w
  else if bitsAt w 2 5 = 0x09#5 then decodeMaj09 w
  else if bitsAt w 2 5 = 0x0a#5 then decodeMaj0A w
  else if bitsAt w 2 5 = 0x0b#5 then decodeMaj0B w
  else if bitsAt w 2 5 = 0x0c#5 then decodeMaj0C w
  else if bitsAt w 2 5 = 0x0d#5 then decodeMaj0D w
  else if bitsAt w 2 5 = 0x0e#5 then decodeMaj0E w
  else if bitsAt w 2 5 = 0x0f#5 then decodeMaj0F w
  else if bitsAt w 2 5 = 0x10#5 then decodeMaj10 w
  else if bitsAt w 2 5 = 0x11#5 then decodeMaj11 w
  else if bitsAt w 2 5 = 0x12#5 then decodeMaj12 w
  else if bitsAt w 2 5 = 0x13#5 then decodeMaj13 w
  else if bitsAt w 2 5 = 0x14#5 then decodeMaj14 w
  else if bitsAt w 2 5 = 0x15#5 then decodeMaj15 w
  else if bitsAt w 2 5 = 0x16#5 then decodeMaj16 w
  else if bitsAt w 2 5 = 0x17#5 then decodeMaj17 w
  else if bitsAt w 2 5 = 0x18#5 then decodeMaj18 w
  else if bitsAt w 2 5 = 0x19#5 then decodeMaj19 w
  else if bitsAt w 2 5 = 0x1a#5 then decodeMaj1A w
  else if bitsAt w 2 5 = 0x1b#5 then decodeMaj1B w
  else if bitsAt w 2 5 = 0x1c#5 then decodeMaj1C w
  else if bitsAt w 2 5 = 0x1d#5 then decodeMaj1D w
  else .error .reservedMajor

/-- A decoded row that passes the checks of Table 7-11 on its fields is an instruction (R200). -/
def checked : Except IllFormed Instr → Except IllFormed Instr
  | .ok i =>
    match i.check with
    | none => .ok i
    | some e => .error e
  | .error e => .error e

/-- The instruction of a halfword whose bit 0 is 0 (R187, R189). -/
def decode16 (w : BitVec 16) : Except IllFormed Instr := checked (decodeFormH w)

/-- The instruction of two halfwords, the first fetched in the low half (R187, R8). -/
def decode32 (w : BitVec 32) : Except IllFormed Instr := checked (decodeRow w)

/-- Decoding at the front of a list of bytes: the instruction, its length in bytes, and what follows (R187). -/
def decodeBytes : List Byte → Except IllFormed (Instr × Nat × List Byte)
  | b0 :: b1 :: rest =>
    if b0.getLsbD 0 then
      match rest with
      | b2 :: b3 :: rest' =>
        match decode32 (b3 ++ b2 ++ b1 ++ b0) with
        | .ok i => .ok (i, 4, rest')
        | .error e => .error e
      | _ => .error .truncated
    else
      match decode16 (b1 ++ b0) with
      | .ok i => .ok (i, 2, rest)
      | .error e => .error e
  | _ => .error .truncated

/-- The bits of a 16-bit instruction (Table 7-1). -/
def encode16 : Instr → BitVec 16
  | .movFormH b d s => b ++ d ++ 0x0#4 ++ s ++ 0x0#1
  | .addFormH b d s => b ++ d ++ 0x1#4 ++ s ++ 0x0#1
  | .subFormH b d s => b ++ d ++ 0x2#4 ++ s ++ 0x0#1
  | .andFormH b d s => b ++ d ++ 0x3#4 ++ s ++ 0x0#1
  | .orFormH b d s => b ++ d ++ 0x4#4 ++ s ++ 0x0#1
  | .xorFormH b d s => b ++ d ++ 0x5#4 ++ s ++ 0x0#1
  | .shlFormH b d s => b ++ d ++ 0x6#4 ++ s ++ 0x0#1
  | .shrFormH b d s => b ++ d ++ 0x7#4 ++ s ++ 0x0#1
  | .addiFormH i d s => i ++ d ++ 0x8#4 ++ s ++ 0x0#1
  | .mulFormH b d s => b ++ d ++ 0x9#4 ++ s ++ 0x0#1
  | .faddF32FormH b d s => b ++ d ++ 0xa#4 ++ s ++ 0x0#1
  | .fsubF32FormH b d s => b ++ d ++ 0xb#4 ++ s ++ 0x0#1
  | .fmulF32FormH b d s => b ++ d ++ 0xc#4 ++ s ++ 0x0#1
  | .fmaxF32FormH b d s => b ++ d ++ 0xd#4 ++ s ++ 0x0#1
  | .fminF32FormH b d s => b ++ d ++ 0xe#4 ++ s ++ 0x0#1
  | .moviFormH i d s => i ++ d ++ 0xf#4 ++ s ++ 0x0#1
  | _ => 0#16

/-- The bits of a 32-bit instruction (Tables 7-3 to 7-10 and the sub-op tables). -/
def encode32 : Instr → BitVec 32
  | .add g b a d s => g ++ 0x0#3 ++ b ++ a ++ d ++ 0x0#5 ++ s ++ 0x1#1
  | .sub g b a d s => g ++ 0x1#3 ++ b ++ a ++ d ++ 0x0#5 ++ s ++ 0x1#1
  | .mul g b a d s => g ++ 0x2#3 ++ b ++ a ++ d ++ 0x0#5 ++ s ++ 0x1#1
  | .mulhi g b a d s => g ++ 0x3#3 ++ b ++ a ++ d ++ 0x0#5 ++ s ++ 0x1#1
  | .mulhu g b a d s => g ++ 0x4#3 ++ b ++ a ++ d ++ 0x0#5 ++ s ++ 0x1#1
  | .and g b a d s => g ++ 0x5#3 ++ b ++ a ++ d ++ 0x0#5 ++ s ++ 0x1#1
  | .or g b a d s => g ++ 0x6#3 ++ b ++ a ++ d ++ 0x0#5 ++ s ++ 0x1#1
  | .xor g b a d s => g ++ 0x7#3 ++ b ++ a ++ d ++ 0x0#5 ++ s ++ 0x1#1
  | .shl g b a d s => g ++ 0x0#3 ++ b ++ a ++ d ++ 0x1#5 ++ s ++ 0x1#1
  | .shr g b a d s => g ++ 0x1#3 ++ b ++ a ++ d ++ 0x1#5 ++ s ++ 0x1#1
  | .sar g b a d s => g ++ 0x2#3 ++ b ++ a ++ d ++ 0x1#5 ++ s ++ 0x1#1
  | .min g b a d s => g ++ 0x3#3 ++ b ++ a ++ d ++ 0x1#5 ++ s ++ 0x1#1
  | .max g b a d s => g ++ 0x4#3 ++ b ++ a ++ d ++ 0x1#5 ++ s ++ 0x1#1
  | .minu g b a d s => g ++ 0x5#3 ++ b ++ a ++ d ++ 0x1#5 ++ s ++ 0x1#1
  | .maxu g b a d s => g ++ 0x6#3 ++ b ++ a ++ d ++ 0x1#5 ++ s ++ 0x1#1
  | .mov g b a d s => g ++ 0x7#3 ++ b ++ a ++ d ++ 0x1#5 ++ s ++ 0x1#1
  | .add64 g b a d s => g ++ 0x0#3 ++ b ++ a ++ d ++ 0x2#5 ++ s ++ 0x1#1
  | .sub64 g b a d s => g ++ 0x1#3 ++ b ++ a ++ d ++ 0x2#5 ++ s ++ 0x1#1
  | .addw g b a d s => g ++ 0x2#3 ++ b ++ a ++ d ++ 0x2#5 ++ s ++ 0x1#1
  | .adduw g b a d s => g ++ 0x3#3 ++ b ++ a ++ d ++ 0x2#5 ++ s ++ 0x1#1
  | .shl64 g b a d s => g ++ 0x4#3 ++ b ++ a ++ d ++ 0x2#5 ++ s ++ 0x1#1
  | .shr64 g b a d s => g ++ 0x5#3 ++ b ++ a ++ d ++ 0x2#5 ++ s ++ 0x1#1
  | .sar64 g b a d s => g ++ 0x6#3 ++ b ++ a ++ d ++ 0x2#5 ++ s ++ 0x1#1
  | .mulw g b a d s => g ++ 0x7#3 ++ b ++ a ++ d ++ 0x2#5 ++ s ++ 0x1#1
  | .addi i a d s => i ++ a ++ d ++ 0x3#5 ++ s ++ 0x1#1
  | .andi i a d s => i ++ a ++ d ++ 0x4#5 ++ s ++ 0x1#1
  | .clz a d s => 0x0#7 ++ 0x0#6 ++ a ++ d ++ 0x5#5 ++ s ++ 0x1#1
  | .ctz a d s => 0x1#7 ++ 0x0#6 ++ a ++ d ++ 0x5#5 ++ s ++ 0x1#1
  | .popc a d s => 0x2#7 ++ 0x0#6 ++ a ++ d ++ 0x5#5 ++ s ++ 0x1#1
  | .brev a d s => 0x3#7 ++ 0x0#6 ++ a ++ d ++ 0x5#5 ++ s ++ 0x1#1
  | .sext8 a d s => 0x4#7 ++ 0x0#6 ++ a ++ d ++ 0x5#5 ++ s ++ 0x1#1
  | .sext16 a d s => 0x5#7 ++ 0x0#6 ++ a ++ d ++ 0x5#5 ++ s ++ 0x1#1
  | .addsat b a d s => 0x8#7 ++ b ++ a ++ d ++ 0x5#5 ++ s ++ 0x1#1
  | .subsat b a d s => 0x9#7 ++ b ++ a ++ d ++ 0x5#5 ++ s ++ 0x1#1
  | .addsatu b a d s => 0xa#7 ++ b ++ a ++ d ++ 0x5#5 ++ s ++ 0x1#1
  | .subsatu b a d s => 0xb#7 ++ b ++ a ++ d ++ 0x5#5 ++ s ++ 0x1#1
  | .rol b a d s => 0xc#7 ++ b ++ a ++ d ++ 0x5#5 ++ s ++ 0x1#1
  | .bfx b a d s => 0xd#7 ++ b ++ a ++ d ++ 0x5#5 ++ s ++ 0x1#1
  | .liLo i d s => 0x0#1 ++ 0x0#2 ++ i ++ d ++ 0x6#5 ++ s ++ 0x1#1
  | .liHi i d s => 0x1#1 ++ 0x0#2 ++ i ++ d ++ 0x6#5 ++ s ++ 0x1#1
  | .icmp g b a c q s => g ++ 0x0#3 ++ b ++ a ++ c ++ q ++ 0x7#5 ++ s ++ 0x1#1
  | .ucmp g b a c q s => g ++ 0x1#3 ++ b ++ a ++ c ++ q ++ 0x7#5 ++ s ++ 0x1#1
  | .fcmpF32 g b a c q s => g ++ 0x2#3 ++ b ++ a ++ c ++ q ++ 0x7#5 ++ s ++ 0x1#1
  | .fcmpF64 g b a c q s => g ++ 0x3#3 ++ b ++ a ++ c ++ q ++ 0x7#5 ++ s ++ 0x1#1
  | .pand g b a q s => g ++ 0x4#3 ++ 0x0#3 ++ b ++ 0x0#3 ++ a ++ 0x0#3 ++ q ++ 0x7#5 ++ s ++ 0x1#1
  | .por g b a q s => g ++ 0x4#3 ++ 0x0#3 ++ b ++ 0x0#3 ++ a ++ 0x1#3 ++ q ++ 0x7#5 ++ s ++ 0x1#1
  | .pxor g b a q s => g ++ 0x4#3 ++ 0x0#3 ++ b ++ 0x0#3 ++ a ++ 0x2#3 ++ q ++ 0x7#5 ++ s ++ 0x1#1
  | .pandn g b a q s => g ++ 0x4#3 ++ 0x0#3 ++ b ++ 0x0#3 ++ a ++ 0x3#3 ++ q ++ 0x7#5 ++ s ++ 0x1#1
  | .pnot g a q s => g ++ 0x4#3 ++ 0x0#6 ++ 0x0#3 ++ a ++ 0x4#3 ++ q ++ 0x7#5 ++ s ++ 0x1#1
  | .pmov g a q s => g ++ 0x4#3 ++ 0x0#6 ++ 0x0#3 ++ a ++ 0x5#3 ++ q ++ 0x7#5 ++ s ++ 0x1#1
  | .pget g d s => g ++ 0x5#3 ++ 0x0#6 ++ 0x0#6 ++ d ++ 0x7#5 ++ s ++ 0x1#1
  | .pset g a s => g ++ 0x6#3 ++ 0x0#6 ++ a ++ 0x0#6 ++ 0x7#5 ++ s ++ 0x1#1
  | .faddF32 g b a d s => g ++ 0x0#3 ++ b ++ a ++ d ++ 0x8#5 ++ s ++ 0x1#1
  | .fsubF32 g b a d s => g ++ 0x1#3 ++ b ++ a ++ d ++ 0x8#5 ++ s ++ 0x1#1
  | .fmulF32 g b a d s => g ++ 0x2#3 ++ b ++ a ++ d ++ 0x8#5 ++ s ++ 0x1#1
  | .fminF32 g b a d s => g ++ 0x3#3 ++ b ++ a ++ d ++ 0x8#5 ++ s ++ 0x1#1
  | .fmaxF32 g b a d s => g ++ 0x4#3 ++ b ++ a ++ d ++ 0x8#5 ++ s ++ 0x1#1
  | .faddRzF32 g b a d s => g ++ 0x5#3 ++ b ++ a ++ d ++ 0x8#5 ++ s ++ 0x1#1
  | .fmulRzF32 g b a d s => g ++ 0x6#3 ++ b ++ a ++ d ++ 0x8#5 ++ s ++ 0x1#1
  | .fsgnjF32 g b a d s => g ++ 0x7#3 ++ b ++ a ++ d ++ 0x8#5 ++ s ++ 0x1#1
  | .faddF64 g b a d s => g ++ 0x0#3 ++ b ++ a ++ d ++ 0x9#5 ++ s ++ 0x1#1
  | .fsubF64 g b a d s => g ++ 0x1#3 ++ b ++ a ++ d ++ 0x9#5 ++ s ++ 0x1#1
  | .fmulF64 g b a d s => g ++ 0x2#3 ++ b ++ a ++ d ++ 0x9#5 ++ s ++ 0x1#1
  | .fminF64 g b a d s => g ++ 0x3#3 ++ b ++ a ++ d ++ 0x9#5 ++ s ++ 0x1#1
  | .fmaxF64 g b a d s => g ++ 0x4#3 ++ b ++ a ++ d ++ 0x9#5 ++ s ++ 0x1#1
  | .faddRzF64 g b a d s => g ++ 0x5#3 ++ b ++ a ++ d ++ 0x9#5 ++ s ++ 0x1#1
  | .fmulRzF64 g b a d s => g ++ 0x6#3 ++ b ++ a ++ d ++ 0x9#5 ++ s ++ 0x1#1
  | .fsgnjF64 g b a d s => g ++ 0x7#3 ++ b ++ a ++ d ++ 0x9#5 ++ s ++ 0x1#1
  | .faddF16x2 g b a d s => g ++ 0x0#3 ++ b ++ a ++ d ++ 0xa#5 ++ s ++ 0x1#1
  | .fmulF16x2 g b a d s => g ++ 0x1#3 ++ b ++ a ++ d ++ 0xa#5 ++ s ++ 0x1#1
  | .ffmaF16x2 g b a d s => g ++ 0x2#3 ++ b ++ a ++ d ++ 0xa#5 ++ s ++ 0x1#1
  | .fmaxF16x2 g b a d s => g ++ 0x3#3 ++ b ++ a ++ d ++ 0xa#5 ++ s ++ 0x1#1
  | .faddBf16x2 g b a d s => g ++ 0x4#3 ++ b ++ a ++ d ++ 0xa#5 ++ s ++ 0x1#1
  | .fmulBf16x2 g b a d s => g ++ 0x5#3 ++ b ++ a ++ d ++ 0xa#5 ++ s ++ 0x1#1
  | .ffmaBf16x2 g b a d s => g ++ 0x6#3 ++ b ++ a ++ d ++ 0xa#5 ++ s ++ 0x1#1
  | .fmaxBf16x2 g b a d s => g ++ 0x7#3 ++ b ++ a ++ d ++ 0xa#5 ++ s ++ 0x1#1
  | .ffmaF32 c b a d s => 0x0#1 ++ c ++ b ++ a ++ d ++ 0xb#5 ++ s ++ 0x1#1
  | .ffmaF64 c b a d s => 0x1#1 ++ c ++ b ++ a ++ d ++ 0xb#5 ++ s ++ 0x1#1
  | .cvtF32F64 a d s => 0x0#7 ++ 0x0#6 ++ a ++ d ++ 0xc#5 ++ s ++ 0x1#1
  | .cvtRzF32F64 a d s => 0x1#7 ++ 0x0#6 ++ a ++ d ++ 0xc#5 ++ s ++ 0x1#1
  | .cvtF64F32 a d s => 0x2#7 ++ 0x0#6 ++ a ++ d ++ 0xc#5 ++ s ++ 0x1#1
  | .cvtF32S32 a d s => 0x3#7 ++ 0x0#6 ++ a ++ d ++ 0xc#5 ++ s ++ 0x1#1
  | .cvtF32Uns32 a d s => 0x4#7 ++ 0x0#6 ++ a ++ d ++ 0xc#5 ++ s ++ 0x1#1
  | .cvtS32F32 a d s => 0x5#7 ++ 0x0#6 ++ a ++ d ++ 0xc#5 ++ s ++ 0x1#1
  | .cvtRzS32F32 a d s => 0x6#7 ++ 0x0#6 ++ a ++ d ++ 0xc#5 ++ s ++ 0x1#1
  | .cvtF64S32 a d s => 0x7#7 ++ 0x0#6 ++ a ++ d ++ 0xc#5 ++ s ++ 0x1#1
  | .cvtS32F64 a d s => 0x8#7 ++ 0x0#6 ++ a ++ d ++ 0xc#5 ++ s ++ 0x1#1
  | .cvtRzS32F64 a d s => 0x9#7 ++ 0x0#6 ++ a ++ d ++ 0xc#5 ++ s ++ 0x1#1
  | .cvtF16x2F32 b a d s => 0xa#7 ++ b ++ a ++ d ++ 0xc#5 ++ s ++ 0x1#1
  | .cvtBf16x2F32 b a d s => 0xb#7 ++ b ++ a ++ d ++ 0xc#5 ++ s ++ 0x1#1
  | .cvtRzBf16x2F32 b a d s => 0xc#7 ++ b ++ a ++ d ++ 0xc#5 ++ s ++ 0x1#1
  | .cvtF32F16 h a d s => 0xd#7 ++ 0x0#5 ++ h ++ a ++ d ++ 0xc#5 ++ s ++ 0x1#1
  | .cvtF32Bf16 h a d s => 0xe#7 ++ 0x0#5 ++ h ++ a ++ d ++ 0xc#5 ++ s ++ 0x1#1
  | .d8Pack y a d s => 0x10#7 ++ 0x0#4 ++ y ++ a ++ d ++ 0xc#5 ++ s ++ 0x1#1
  | .d8Unpack y a d s => 0x11#7 ++ 0x0#4 ++ y ++ a ++ d ++ 0xc#5 ++ s ++ 0x1#1
  | .cvtS8F32 y a d s => 0x12#7 ++ 0x0#4 ++ y ++ a ++ d ++ 0xc#5 ++ s ++ 0x1#1
  | .cvtF32S8 y a d s => 0x13#7 ++ 0x0#4 ++ y ++ a ++ d ++ 0xc#5 ++ s ++ 0x1#1
  | .fsint a d s => 0x0#7 ++ 0x0#6 ++ a ++ d ++ 0xd#5 ++ s ++ 0x1#1
  | .fcost a d s => 0x1#7 ++ 0x0#6 ++ a ++ d ++ 0xd#5 ++ s ++ 0x1#1
  | .fexp2 a d s => 0x2#7 ++ 0x0#6 ++ a ++ d ++ 0xd#5 ++ s ++ 0x1#1
  | .flog2 a d s => 0x3#7 ++ 0x0#6 ++ a ++ d ++ 0xd#5 ++ s ++ 0x1#1
  | .frcp a d s => 0x4#7 ++ 0x0#6 ++ a ++ d ++ 0xd#5 ++ s ++ 0x1#1
  | .frsq a d s => 0x5#7 ++ 0x0#6 ++ a ++ d ++ 0xd#5 ++ s ++ 0x1#1
  | .fsqrt a d s => 0x6#7 ++ 0x0#6 ++ a ++ d ++ 0xd#5 ++ s ++ 0x1#1
  | .fdiv b a d s => 0x7#7 ++ b ++ a ++ d ++ 0xd#5 ++ s ++ 0x1#1
  | .frcpF64 a d s => 0x8#7 ++ 0x0#6 ++ a ++ d ++ 0xd#5 ++ s ++ 0x1#1
  | .fsqrtF64 a d s => 0x9#7 ++ 0x0#6 ++ a ++ d ++ 0xd#5 ++ s ++ 0x1#1
  | .fdivF64 b a d s => 0xa#7 ++ b ++ a ++ d ++ 0xd#5 ++ s ++ 0x1#1
  | .lswap m i a d s => 0x0#3 ++ m ++ i ++ a ++ d ++ 0xe#5 ++ s ++ 0x1#1
  | .shfl m b a d s => 0x1#3 ++ m ++ b ++ a ++ d ++ 0xe#5 ++ s ++ 0x1#1
  | .bcast m i a d s => 0x2#3 ++ m ++ i ++ a ++ d ++ 0xe#5 ++ s ++ 0x1#1
  | .ballot m a d s => 0x3#3 ++ m ++ 0x0#6 ++ 0x0#3 ++ a ++ d ++ 0xe#5 ++ s ++ 0x1#1
  | .redOp m o a d s => 0x4#3 ++ m ++ 0x0#3 ++ o ++ a ++ d ++ 0xe#5 ++ s ++ 0x1#1
  | .redFopF32 m o a d s => 0x5#3 ++ m ++ 0x0#4 ++ o ++ a ++ d ++ 0xe#5 ++ s ++ 0x1#1
  | .scanAdd m a d s => 0x6#3 ++ m ++ 0x0#6 ++ a ++ d ++ 0xe#5 ++ s ++ 0x1#1
  | .redFopF64 m o a d s => 0x7#3 ++ m ++ 0x0#4 ++ o ++ a ++ d ++ 0xe#5 ++ s ++ 0x1#1
  | .br x v q s => x ++ v ++ q ++ 0xf#5 ++ s ++ 0x1#1
  | .call x s => x ++ 0x8#4 ++ 0xf#5 ++ s ++ 0x1#1
  | .exit s => 0x0#7 ++ 0x0#6 ++ 0x0#6 ++ 0x0#6 ++ 0x10#5 ++ s ++ 0x1#1
  | .jr a s => 0x1#7 ++ 0x0#6 ++ a ++ 0x0#6 ++ 0x10#5 ++ s ++ 0x1#1
  | .jalr a d s => 0x2#7 ++ 0x0#6 ++ a ++ d ++ 0x10#5 ++ s ++ 0x1#1
  | .ret a s => 0x3#7 ++ 0x0#6 ++ a ++ 0x0#6 ++ 0x10#5 ++ s ++ 0x1#1
  | .land s => 0x4#7 ++ 0x0#6 ++ 0x0#6 ++ 0x0#6 ++ 0x10#5 ++ s ++ 0x1#1
  | .join d s => 0x0#7 ++ 0x0#6 ++ 0x0#6 ++ d ++ 0x11#5 ++ s ++ 0x1#1
  | .leave d s => 0x1#7 ++ 0x0#6 ++ 0x0#6 ++ d ++ 0x11#5 ++ s ++ 0x1#1
  | .waitm d s => 0x2#7 ++ 0x0#6 ++ 0x0#6 ++ d ++ 0x11#5 ++ s ++ 0x1#1
  | .mrd a d s => 0x3#7 ++ 0x0#6 ++ a ++ d ++ 0x11#5 ++ s ++ 0x1#1
  | .hzrd d s => 0x8#7 ++ 0x0#6 ++ 0x0#6 ++ d ++ 0x11#5 ++ s ++ 0x1#1
  | .hzwait a s => 0x9#7 ++ 0x0#6 ++ a ++ 0x0#6 ++ 0x11#5 ++ s ++ 0x1#1
  | .hzbr x s => 0xa#7 ++ x ++ 0x11#5 ++ s ++ 0x1#1
  | .hzbrn x s => 0xb#7 ++ x ++ 0x11#5 ++ s ++ 0x1#1
  | .hzreplay s => 0xc#7 ++ 0x0#6 ++ 0x0#6 ++ 0x0#6 ++ 0x11#5 ++ s ++ 0x1#1
  | .ld o w p a d s => o ++ 0x0#3 ++ w ++ p ++ a ++ d ++ 0x12#5 ++ s ++ 0x1#1
  | .ldSx o w p a d s => o ++ 0x1#3 ++ w ++ p ++ a ++ d ++ 0x12#5 ++ s ++ 0x1#1
  | .st o w p a d s => o ++ 0x0#3 ++ w ++ p ++ a ++ d ++ 0x13#5 ++ s ++ 0x1#1
  | .ldS o w p a d s => o ++ 0x0#3 ++ w ++ p ++ a ++ d ++ 0x14#5 ++ s ++ 0x1#1
  | .ldSxS o w p a d s => o ++ 0x1#3 ++ w ++ p ++ a ++ d ++ 0x14#5 ++ s ++ 0x1#1
  | .stS o w p a d s => o ++ 0x0#3 ++ w ++ p ++ a ++ d ++ 0x15#5 ++ s ++ 0x1#1
  | .atomAdd w p b a d s => w ++ p ++ 0x0#4 ++ b ++ a ++ d ++ 0x16#5 ++ s ++ 0x1#1
  | .atomMin w p b a d s => w ++ p ++ 0x1#4 ++ b ++ a ++ d ++ 0x16#5 ++ s ++ 0x1#1
  | .atomMax w p b a d s => w ++ p ++ 0x2#4 ++ b ++ a ++ d ++ 0x16#5 ++ s ++ 0x1#1
  | .atomMinu w p b a d s => w ++ p ++ 0x3#4 ++ b ++ a ++ d ++ 0x16#5 ++ s ++ 0x1#1
  | .atomMaxu w p b a d s => w ++ p ++ 0x4#4 ++ b ++ a ++ d ++ 0x16#5 ++ s ++ 0x1#1
  | .atomAnd w p b a d s => w ++ p ++ 0x5#4 ++ b ++ a ++ d ++ 0x16#5 ++ s ++ 0x1#1
  | .atomOr w p b a d s => w ++ p ++ 0x6#4 ++ b ++ a ++ d ++ 0x16#5 ++ s ++ 0x1#1
  | .atomXor w p b a d s => w ++ p ++ 0x7#4 ++ b ++ a ++ d ++ 0x16#5 ++ s ++ 0x1#1
  | .atomExch w p b a d s => w ++ p ++ 0x8#4 ++ b ++ a ++ d ++ 0x16#5 ++ s ++ 0x1#1
  | .atomCas w p b a d s => w ++ p ++ 0x9#4 ++ b ++ a ++ d ++ 0x16#5 ++ s ++ 0x1#1
  | .atomFadd w p b a d s => w ++ p ++ 0xa#4 ++ b ++ a ++ d ++ 0x16#5 ++ s ++ 0x1#1
  | .atomFaddRa w p b a d s => w ++ p ++ 0xb#4 ++ b ++ a ++ d ++ 0x16#5 ++ s ++ 0x1#1
  | .atomFmin w p b a d s => w ++ p ++ 0xc#4 ++ b ++ a ++ d ++ 0x16#5 ++ s ++ 0x1#1
  | .atomFmax w p b a d s => w ++ p ++ 0xd#4 ++ b ++ a ++ d ++ 0x16#5 ++ s ++ 0x1#1
  | .stf w b a d s => w ++ 0x1#2 ++ 0xe#4 ++ b ++ a ++ d ++ 0x16#5 ++ s ++ 0x1#1
  | .phaseTrain s => 0x0#7 ++ 0x0#6 ++ 0x0#6 ++ 0x0#6 ++ 0x17#5 ++ s ++ 0x1#1
  | .phaseMovement s => 0x1#7 ++ 0x0#6 ++ 0x0#6 ++ 0x0#6 ++ 0x17#5 ++ s ++ 0x1#1
  | .phaseCalibre s => 0x2#7 ++ 0x0#6 ++ 0x0#6 ++ 0x0#6 ++ 0x17#5 ++ s ++ 0x1#1
  | .phaseDevice s => 0x3#7 ++ 0x0#6 ++ 0x0#6 ++ 0x0#6 ++ 0x17#5 ++ s ++ 0x1#1
  | .phaseDomain s => 0x4#7 ++ 0x0#6 ++ 0x0#6 ++ 0x0#6 ++ 0x17#5 ++ s ++ 0x1#1
  | .fenceTrain s => 0x8#7 ++ 0x0#6 ++ 0x0#6 ++ 0x0#6 ++ 0x17#5 ++ s ++ 0x1#1
  | .fenceMovement s => 0x9#7 ++ 0x0#6 ++ 0x0#6 ++ 0x0#6 ++ 0x17#5 ++ s ++ 0x1#1
  | .fenceCalibre s => 0xa#7 ++ 0x0#6 ++ 0x0#6 ++ 0x0#6 ++ 0x17#5 ++ s ++ 0x1#1
  | .fenceDevice s => 0xb#7 ++ 0x0#6 ++ 0x0#6 ++ 0x0#6 ++ 0x17#5 ++ s ++ 0x1#1
  | .fenceDomain s => 0xc#7 ++ 0x0#6 ++ 0x0#6 ++ 0x0#6 ++ 0x17#5 ++ s ++ 0x1#1
  | .barTrain d s => 0x10#7 ++ 0x0#6 ++ 0x0#6 ++ d ++ 0x17#5 ++ s ++ 0x1#1
  | .barMovement i a s => 0x11#7 ++ 0x0#2 ++ i ++ a ++ 0x0#6 ++ 0x17#5 ++ s ++ 0x1#1
  | .barCalibre i a s => 0x12#7 ++ 0x0#2 ++ i ++ a ++ 0x0#6 ++ 0x17#5 ++ s ++ 0x1#1
  | .barDevice i a s => 0x13#7 ++ 0x0#2 ++ i ++ a ++ 0x0#6 ++ 0x17#5 ++ s ++ 0x1#1
  | .rflushDev b a s => 0x18#7 ++ b ++ a ++ 0x0#6 ++ 0x17#5 ++ s ++ 0x1#1
  | .rflushRem b a s => 0x19#7 ++ b ++ a ++ 0x0#6 ++ 0x17#5 ++ s ++ 0x1#1
  | .rflushHost b a s => 0x1a#7 ++ b ++ a ++ 0x0#6 ++ 0x17#5 ++ s ++ 0x1#1
  | .rinvalDev b a s => 0x1c#7 ++ b ++ a ++ 0x0#6 ++ 0x17#5 ++ s ++ 0x1#1
  | .rinvalRem b a s => 0x1d#7 ++ b ++ a ++ 0x0#6 ++ 0x17#5 ++ s ++ 0x1#1
  | .rinvalHost b a s => 0x1e#7 ++ b ++ a ++ 0x0#6 ++ 0x17#5 ++ s ++ 0x1#1
  | .prsWait b a s => 0x20#7 ++ b ++ a ++ 0x0#6 ++ 0x17#5 ++ s ++ 0x1#1
  | .prsTest a q s => 0x21#7 ++ 0x0#6 ++ a ++ 0x0#3 ++ q ++ 0x17#5 ++ s ++ 0x1#1
  | .mxOp a s => 0x0#7 ++ 0x0#6 ++ a ++ 0x0#6 ++ 0x18#5 ++ s ++ 0x1#1
  | .mxCommit d s => 0x1#7 ++ 0x0#6 ++ 0x0#6 ++ d ++ 0x18#5 ++ s ++ 0x1#1
  | .mxWait i s => 0x2#7 ++ 0x0#6 ++ i ++ 0x0#6 ++ 0x18#5 ++ s ++ 0x1#1
  | .mxRd t a d s => 0x3#7 ++ t ++ a ++ d ++ 0x18#5 ++ s ++ 0x1#1
  | .mxWr b a t s => 0x4#7 ++ b ++ a ++ t ++ 0x18#5 ++ s ++ 0x1#1
  | .mxRd64 t a d s => 0x5#7 ++ t ++ a ++ d ++ 0x18#5 ++ s ++ 0x1#1
  | .mxWr64 b a t s => 0x6#7 ++ b ++ a ++ t ++ 0x18#5 ++ s ++ 0x1#1
  | .mxZero t s => 0x7#7 ++ 0x0#6 ++ 0x0#6 ++ t ++ 0x18#5 ++ s ++ 0x1#1
  | .cpTileLd b a d s => 0x0#7 ++ b ++ a ++ d ++ 0x19#5 ++ s ++ 0x1#1
  | .cpTileSt b a d s => 0x1#7 ++ b ++ a ++ d ++ 0x19#5 ++ s ++ 0x1#1
  | .rnext d s => 0x0#7 ++ 0x0#6 ++ 0x0#6 ++ d ++ 0x1a#5 ++ s ++ 0x1#1
  | .rleave s => 0x1#7 ++ 0x0#6 ++ 0x0#6 ++ 0x0#6 ++ 0x1a#5 ++ s ++ 0x1#1
  | .rjoin s => 0x2#7 ++ 0x0#6 ++ 0x0#6 ++ 0x0#6 ++ 0x1a#5 ++ s ++ 0x1#1
  | .rjoinAdd b d s => 0x8#7 ++ b ++ 0x0#6 ++ d ++ 0x1a#5 ++ s ++ 0x1#1
  | .rjoinMin b d s => 0x9#7 ++ b ++ 0x0#6 ++ d ++ 0x1a#5 ++ s ++ 0x1#1
  | .rjoinMax b d s => 0xa#7 ++ b ++ 0x0#6 ++ d ++ 0x1a#5 ++ s ++ 0x1#1
  | .rjoinMinu b d s => 0xb#7 ++ b ++ 0x0#6 ++ d ++ 0x1a#5 ++ s ++ 0x1#1
  | .rjoinMaxu b d s => 0xc#7 ++ b ++ 0x0#6 ++ d ++ 0x1a#5 ++ s ++ 0x1#1
  | .rjoinAnd b d s => 0xd#7 ++ b ++ 0x0#6 ++ d ++ 0x1a#5 ++ s ++ 0x1#1
  | .rjoinOr b d s => 0xe#7 ++ b ++ 0x0#6 ++ d ++ 0x1a#5 ++ s ++ 0x1#1
  | .rjoinXor b d s => 0xf#7 ++ b ++ 0x0#6 ++ d ++ 0x1a#5 ++ s ++ 0x1#1
  | .rjoinFaddF32 b d s => 0x10#7 ++ b ++ 0x0#6 ++ d ++ 0x1a#5 ++ s ++ 0x1#1
  | .rjoinFminF32 b d s => 0x11#7 ++ b ++ 0x0#6 ++ d ++ 0x1a#5 ++ s ++ 0x1#1
  | .rjoinFmaxF32 b d s => 0x12#7 ++ b ++ 0x0#6 ++ d ++ 0x1a#5 ++ s ++ 0x1#1
  | .rjoinFaddF64 b d s => 0x13#7 ++ b ++ 0x0#6 ++ d ++ 0x1a#5 ++ s ++ 0x1#1
  | .rjoinFminF64 b d s => 0x14#7 ++ b ++ 0x0#6 ++ d ++ 0x1a#5 ++ s ++ 0x1#1
  | .rjoinFmaxF64 b d s => 0x15#7 ++ b ++ 0x0#6 ++ d ++ 0x1a#5 ++ s ++ 0x1#1
  | .recruit c b a d s => 0x1#1 ++ c ++ b ++ a ++ d ++ 0x1a#5 ++ s ++ 0x1#1
  | .escOpen d s => 0x0#7 ++ 0x0#6 ++ 0x0#6 ++ d ++ 0x1b#5 ++ s ++ 0x1#1
  | .escIn b a k i s => 0x1#7 ++ b ++ a ++ k ++ i ++ 0x1b#5 ++ s ++ 0x1#1
  | .escEnd d s => 0x2#7 ++ 0x0#6 ++ 0x0#6 ++ d ++ 0x1b#5 ++ s ++ 0x1#1
  | .escNext a d s => 0x3#7 ++ 0x0#6 ++ a ++ d ++ 0x1b#5 ++ s ++ 0x1#1
  | .escDone b a s => 0x4#7 ++ b ++ a ++ 0x0#6 ++ 0x1b#5 ++ s ++ 0x1#1
  | .xqCfg a s => 0x8#7 ++ 0x0#6 ++ a ++ 0x0#6 ++ 0x1b#5 ++ s ++ 0x1#1
  | .xqIn b a s => 0x9#7 ++ b ++ a ++ 0x0#6 ++ 0x1b#5 ++ s ++ 0x1#1
  | .xqTake a d s => 0xa#7 ++ 0x0#6 ++ a ++ d ++ 0x1b#5 ++ s ++ 0x1#1
  | .xqDone b a s => 0xb#7 ++ b ++ a ++ 0x0#6 ++ 0x1b#5 ++ s ++ 0x1#1
  | .tkSpawn b a s => 0x0#7 ++ b ++ a ++ 0x0#6 ++ 0x1c#5 ++ s ++ 0x1#1
  | .tkHand a s => 0x1#7 ++ 0x0#6 ++ a ++ 0x0#6 ++ 0x1c#5 ++ s ++ 0x1#1
  | .krd a d s => 0x2#7 ++ 0x0#6 ++ a ++ d ++ 0x1c#5 ++ s ++ 0x1#1
  | .rgSend a d s => 0x8#7 ++ 0x0#6 ++ a ++ d ++ 0x1c#5 ++ s ++ 0x1#1
  | .rgRecv a d s => 0x9#7 ++ 0x0#6 ++ a ++ d ++ 0x1c#5 ++ s ++ 0x1#1
  | .rgEos d s => 0xa#7 ++ 0x0#6 ++ 0x0#6 ++ d ++ 0x1c#5 ++ s ++ 0x1#1
  | .phEnd d s => 0x10#7 ++ 0x0#6 ++ 0x0#6 ++ d ++ 0x1c#5 ++ s ++ 0x1#1
  | .srd a d s => 0x0#7 ++ 0x0#6 ++ a ++ d ++ 0x1d#5 ++ s ++ 0x1#1
  | .csrr a d s => 0x1#7 ++ 0x0#6 ++ a ++ d ++ 0x1d#5 ++ s ++ 0x1#1
  | .csrw b a s => 0x2#7 ++ b ++ a ++ 0x0#6 ++ 0x1d#5 ++ s ++ 0x1#1
  | .csrs b a s => 0x3#7 ++ b ++ a ++ 0x0#6 ++ 0x1d#5 ++ s ++ 0x1#1
  | .csrc b a s => 0x4#7 ++ b ++ a ++ 0x0#6 ++ 0x1d#5 ++ s ++ 0x1#1
  | .eret s => 0x8#7 ++ 0x0#6 ++ 0x0#6 ++ 0x0#6 ++ 0x1d#5 ++ s ++ 0x1#1
  | .brk a s => 0x9#7 ++ 0x0#6 ++ a ++ 0x0#6 ++ 0x1d#5 ++ s ++ 0x1#1
  | _ => 0#32

/-- The length of an instruction in bytes, 0 for a step that has no encoding (R187). -/
def Instr.length : Instr → Nat
  | .movFormH .. => 2
  | .addFormH .. => 2
  | .subFormH .. => 2
  | .andFormH .. => 2
  | .orFormH .. => 2
  | .xorFormH .. => 2
  | .shlFormH .. => 2
  | .shrFormH .. => 2
  | .addiFormH .. => 2
  | .mulFormH .. => 2
  | .faddF32FormH .. => 2
  | .fsubF32FormH .. => 2
  | .fmulF32FormH .. => 2
  | .fmaxF32FormH .. => 2
  | .fminF32FormH .. => 2
  | .moviFormH .. => 2
  | .starvedListJoin .. => 0
  | .loadResultArrival .. => 0
  | .translationWalkComplete .. => 0
  | .serviceableFaultServiced .. => 0
  | .translationShootdown .. => 0
  | .classifierRun .. => 0
  | .rebase => 0
  | .ltTick .. => 0
  | .overflowAreaServiced .. => 0
  | .scratchFillArrival .. => 0
  | .engineReadDone .. => 0
  | .fillFailure .. => 0
  | .rangeWalkStart .. => 0
  | .gets .. => 0
  | .getx .. => 0
  | .upg .. => 0
  | .data .. => 0
  | .fwds .. => 0
  | .fwdx .. => 0
  | .fdata .. => 0
  | .fack .. => 0
  | .inv .. => 0
  | .iack .. => 0
  | .recalls .. => 0
  | .recalli .. => 0
  | .rdata .. => 0
  | .wb .. => 0
  | .evict .. => 0
  | .wback .. => 0
  | .claim .. => 0
  | .claimok .. => 0
  | .merge .. => 0
  | .mdata .. => 0
  | .edone .. => 0
  | .serviceTrainAtomic .. => 0
  | .dieLinkLaneFailure .. => 0
  | .patrolScrub .. => 0
  | .fabricRequest .. => 0
  | .fabricReply .. => 0
  | .fabricAcknowledgement .. => 0
  | .noreply .. => 0
  | .idleFlit .. => 0
  | .remoteGiveUp .. => 0
  | .replyCacheExpiry .. => 0
  | .serialLaneRetirement .. => 0
  | .linkRetrainComplete .. => 0
  | .linkDown .. => 0
  | .linkUp .. => 0
  | .timeFlit .. => 0
  | .timeBroadcast => 0
  | .timeFlitTimeout => 0
  | .migrationForwardEnd .. => 0
  | .writebackFailure .. => 0
  | .snpdata .. => 0
  | .snpinv .. => 0
  | .snpcur .. => 0
  | .cxlResponse .. => 0
  | .hostInboundRead .. => 0
  | .hostInboundWrite .. => 0
  | .mxAccept .. => 0
  | .mxCommandDone .. => 0
  | .mxOperandFault .. => 0
  | .cpAccept .. => 0
  | .cpCommandDone .. => 0
  | .cpFault .. => 0
  | .escapementArrival .. => 0
  | .pushWatchdogExpiry .. => 0
  | .tokenAcceptance .. => 0
  | .queueFiring .. => 0
  | .gangPlacement .. => 0
  | .unitMigration .. => 0
  | .taskDispatch .. => 0
  | .trainRetire .. => 0
  | .domainSweep .. => 0
  | .trapDelivery .. => 0
  | .helperFailure .. => 0
  | .watchdogExpiry .. => 0
  | .timeSliceExpiry .. => 0
  | .partialEviction .. => 0
  | .trainRestoration .. => 0
  | .breakpointMatch .. => 0
  | .traceSample .. => 0
  | .checkpointCut .. => 0
  | .logAreaThreshold .. => 0
  | .replayGateTimeout .. => 0
  | .junction105c .. => 0
  | .thermalRecovery .. => 0
  | .junction115c .. => 0
  | .deviceReset .. => 0
  | .newFirmwareImage .. => 0
  | .submitLaunch .. => 0
  | .setLease .. => 0
  | .readCounters .. => 0
  | .setTraceRing .. => 0
  | .setSampling .. => 0
  | .setBreakpoint .. => 0
  | .haltRequest .. => 0
  | .debugResume .. => 0
  | .setCheckpointPeriod .. => 0
  | .replay .. => 0
  | .setHostWindow .. => 0
  | .setInboundWindow .. => 0
  | .pageMigration .. => 0
  | .regionModeChange .. => 0
  | .ownerTagChange .. => 0
  | .attestationReport .. => 0
  | .registerWrite .. => 0
  | .illegalInstruction => 0
  | .variableLatencyResultArrival .. => 0
  | .atomicReplyArrival .. => 0
  | .performedAcknowledgement .. => 0
  | .dieLinkCrcFailure .. => 0
  | .dieLinkRetrainComplete .. => 0
  | .flitCrcFailure .. => 0
  | _ => 4

/-- The halfwords of an instruction, the one fetched first at the front (R8, R187). -/
def encode (i : Instr) : List (BitVec 16) :=
  if i.length = 2 then [encode16 i]
  else if i.length = 4 then [(encode32 i).extractLsb' 0 16, (encode32 i).extractLsb' 16 16]
  else []

/-- The instruction word as the trap record holds it (R246, Table 9-14). -/
def encodeWord (i : Instr) : BitVec 32 :=
  if i.length = 2 then (encode16 i).setWidth 32 else encode32 i

/-- The `n` low bytes of a number, least significant first. -/
def bytesOfNat : Nat → Nat → List Byte
  | 0, _ => []
  | n + 1, v => BitVec.ofNat 8 v :: bytesOfNat n (v / 256)

/-- The number whose little-endian bytes are given. -/
def natOfBytes : List Byte → Nat
  | [] => 0
  | b :: bs => b.toNat + 256 * natOfBytes bs

/-- The decoder's answer for an instruction whose bits are `w` (bit 0 is the least significant bit of the first
halfword); the bits above `nbits` are zero. -/
def decodeTableWord (nbits w : Nat) : Option Instr :=
  match decodeBytes (bytesOfNat 4 (w % 2 ^ nbits)) with
  | .ok (i, _, _) => some i
  | .error _ => none

/-- The instruction that a captured instruction word describes (R246, R249). -/
def decodeWord (w : BitVec 32) : Option Instr := decodeTableWord 32 w.toNat

end Sys2Proof
end

