-- ==== Sys2Proof/Config.lean ====
section
/-! DEFINITION. What an implementation fixes, and the free values: constants without a body, so that nothing can lean on a
value of theirs. -/

namespace Sys2Proof.Config

/-- The pair of contributions that the service train combines next in `atom.fadd.ra` (R286 permits any grouping and order). -/
opaque raPick : Nat → Nat
/-- Which line of a full L1 or L2 set is evicted (R54 names a rule for the remote-data cache only). -/
opaque victim : Nat → Nat
/-- The signature of a digest under the device's private key, which never leaves the security block (R422). -/
opaque sign : BitVec 256 → BitVec 512
/-- The device serial number of an attestation report (Table 22-5). -/
opaque serial : BitVec 128
/-- The version counter fused in the security block (R421). -/
opaque fusedVersion : Nat
/-- Which clocks the issue units of a hot die skip, by die and clock (R423). -/
opaque skips : Nat → Nat → Bool
/-- The eight bytes of a report that hold a partition's die mask and the fused version counter, whose layout the spec does not
give (Table 22-5). -/
opaque maskField : Nat → Nat → DWord
/-- The capacity of a die's log area in chunks, which the spec does not give (R408). -/
opaque logChunks : Nat

/-- The codes of the types of flit, which Table 22-1 names without codes. -/
opaque flitCode : Nat → BitVec 8
/-- The five bytes of a request header that hold a kind and a byte count (R412). -/
opaque headerEnd : Nat → Nat → BitVec 40

/-- The position of the device in the domain, row x 24 + column (R5): this device's id. -/
opaque deviceIdRaw : Nat
/-- The id of the modelled device, in the range 0 to 383 (R5). -/
def deviceId : Nat := deviceIdRaw % 384
/-- The device bandwidth constants of Table 0-1: cores of the device. -/
def numCores : Nat := 96
/-- Cores on a die (R2). -/
def coresPerDie : Nat := 24
/-- Bytes of scratchpad of a core (Table 2-1). -/
def scratchBytes : Nat := 0x300000
/-- Bytes of a channel's DRAM (Table 2-1). -/
def channelBytes : Nat := 0xA0000000

end Sys2Proof.Config
end

