-- ==== Sys2Proof/Machine/State.lean ====
section
/-! DEFINITION. The state of one SZ96 device as plain data, the reasons a step can stop, and the state after reset. -/

namespace Sys2Proof.Machine
open Sys2Proof

/-- The reasons a step stops with a fault. -/
inductive Fault where
  /-- Raised by every step but a reset while the device stands in a device-level fault: the device does nothing until it is
  reset (R381). Safe: the hardware makes no such step. -/
  | deviceFault
  /-- Raised by every step but a reset or a new image while the device stands in recovery (R421). Safe. -/
  | recovery
  deriving DecidableEq, Repr

/-- The reasons a step has no meaning. -/
inductive Refusal where
  /-- Raised by an arm of `exec` whose instruction has no meaning yet. Safe. -/
  | notModelled (mnemonic : String)
  /-- Raised by a step without an encoding whose occasion does not hold in the state (no such message, request, thread or
  timer): the hardware makes no such step there. Safe. -/
  | notEnabled (step : String)
  deriving DecidableEq, Repr

/-- Memory as (address, byte) pairs: addresses strictly rising, no pair holding the byte an unlisted address reads as. -/
abbrev Memory := List Host.Cell

/-- What holds a thread (Tables 2-6 and 6-7). -/
inductive Wait where
  | none                                  -- not held
  | results                               -- a marked instruction with results outstanding (R183)
  | missRoom                              -- all 128 miss entries of the core busy (R19)
  | window                                -- a seventeenth unresolved operation (R240)
  | scratch (lo hi : Nat) (pins : Bool)   -- an absent line, or with `pins` a store to a pinned one (R46, R47)
  | reads                                 -- a scratch store behind older reads of its thread that have no value yet (R121)
  | horizon (n : Nat)                     -- hzwait n (R244)
  | ownHorizon                            -- a helper's rnext (R325)
  | gather (mask : Nat)                   -- a cross-lane gathering at the PC (R178)
  | boundaryStart (domain : Bool)         -- step 1 of a boundary (R126)
  | boundary                              -- steps 2 to 4 of a boundary (R126)
  | fence (domain : Bool)                 -- R128
  | barrier (generation : Nat)            -- R293
  | helpers                               -- helpers have not all left (R327)
  | batches (n : Nat)                     -- mx.wait (R308)
  | commit                                -- a ninth incomplete batch (R307)
  | tiles                                 -- an mx.op neither accepted nor failed (R309)
  | streamRoom (stream k : Nat)           -- esc.in to a full stream (R335)
  | streamNext (stream : Nat)             -- esc.next (R337)
  | taskRoom (core : Nat)                 -- a full task queue (R357)
  | handOver                              -- tk.hand waiting for state P (R358)
  | ringRoom (ring : Nat)                 -- R362
  | ringData (ring : Nat)                 -- R362
  | phaseEnd                              -- ph.end (R366)
  | together (mates : List Nat)           -- the boundaries of a train's threads at one instruction (R362)
  deriving DecidableEq, Repr

/-- A result on its way: registers, predicates and flags it writes when it arrives (R182, R217). -/
structure Result where
  regs : List (Nat × Word)
  preds : List (Nat × Bool)
  flags : Word
  /-- The result of a scratch load, or of any other instruction (R182, R279). -/
  load : Bool := false
  /-- The bundle that issued a scratch load: its results are delivered together (R51). -/
  group : Nat := 0
  /-- Engine commands that must be accepted or have failed before it arrives, and the batch whose number it is (R307). -/
  after : List Nat := []
  batch : Option (BitVec 16) := none
  deriving DecidableEq, Repr

/-- Where a failable operation stands. -/
inductive OpPhase where
  | walk         -- waits for a translation (R19)
  | ready        -- translated, not performed
  | sent         -- requests have left the device or wait at the port
  | unitWait     -- waits for acceptance by an engine, a stream or the Regulator
  | roomWait     -- a replayed push waiting for room (R335)
  | started      -- a range walk under way (R62)
  | resolved     -- resolved (R239)
  | failed (cause : Nat)
  | held         -- cancelled, or failed behind another failure (R241)
  | indeterminate
  deriving DecidableEq, Repr

/-- An entry of the phase write set (R79). -/
structure WsEntry where
  line : Nat
  handler : Bool
  bytes : SMap Byte
  cls : Nat
  /-- The virtual page that the line was stored to through (Table 3-1). -/
  page : Nat := 0
  /-- Moved to the overflow area (R80). -/
  moved : Bool := false
  /-- The clock at which the entry was made, for the choice of the oldest (R80). -/
  born : Nat := 0
  deriving DecidableEq, Repr

/-- A failable operation of a thread's window (R238, R239, R246). -/
structure Op where
  seq : BitVec 16
  kind : Nat
  pc : Addr
  insn : Instr
  addr : DWord
  data : List Byte
  /-- The upper bytes of the register of an 8- or 16-bit store, which are captured and not stored (R248). -/
  cap : List Byte := []
  phase : OpPhase := .ready
  /-- The place of its translation: home and channel offset (R17). -/
  pa : Nat := 0
  /-- The class bits of the leaf it translated under (Table 1-4). -/
  cls : Nat := 2
  /-- Its effect has been performed (R117). -/
  performed : Bool := false
  /-- Its value is bound: the target has performed the read, and the answer is on its way (row 2 of Table 4-4). -/
  bound : Bool := false
  /-- Its value returned with the reply and not yet delivered. -/
  value : List Byte := []
  faddr : DWord := 0
  /-- Members still to answer and answers so far, by device (R28, R29). -/
  answers : List (Nat × FabAns) := []
  since : Nat := 0
  /-- The bundle that issued it: the accesses of one bundle to one line are one request (R56, R286). -/
  group : Nat := 0
  /-- Its line was held in the L1 at the lookup: it belongs to the hit split of its bundle (R57). -/
  hit : Bool := false
  /-- Its store has entered the running CRC (R409). -/
  hashed : Bool := false
  /-- The stores to scratch that its thread has made after it, by address and data, while they have not entered the running CRC (R409). -/
  tail : List (DWord × List Byte) := []
  /-- The write set as a load or range operation finds it, once a younger instruction of its thread has changed it (R81, R119). -/
  seen : Option (List WsEntry) := none
  deriving DecidableEq, Repr

/-- The state of a boundary under way (R126). -/
structure Boundary where
  scope : Nat
  tmax : Nat
  pc : Addr
  done : Bool := false
  deriving DecidableEq, Repr

/-- A trap awaiting delivery that did not come through the horizon (R367, R369). -/
structure TrapReq where
  cause : Nat
  pc : Addr
  rpc : Addr
  faddr : DWord
  deriving DecidableEq, Repr

/-- The 1,088 bytes of a trap record (R246) and its cause. -/
structure Record where
  cause : Nat
  bytes : List Byte
  deriving DecidableEq, Repr

/-- A recruitment of a thread (R321 to R330). -/
structure Bank where
  n : Nat
  /-- Helpers of the recruitment that have not ended, by thread key. -/
  live : List Nat
  /-- The h registers of departed helpers, by 16 x index + register (R327). -/
  regs : SMap Word
  flags : Word
  forced : Bool
  /-- Traps charged to the recruiter, oldest first, by helper index (R330). -/
  charged : List Record
  /-- The copy of the recruiter's g0 to g47 (R321). -/
  copy : SMap Word := []
  deriving DecidableEq, Repr

/-- A thread (R166 to R186, Table 15-4). -/
structure Thread where
  train : Nat := 0
  tidx : Nat := 0
  lane : Nat := 0
  /-- The recruiter's key and the helper index, for a helper (R323). -/
  helper : Option (Nat × Nat) := none
  pc : Addr := 0
  g : SMap Word := []
  q : BitVec 8 := 1
  pendG : BitVec 64 := 0
  pendQ : BitVec 8 := 0
  results : List Result := []
  seq : BitVec 16 := 0
  hz : BitVec 16 := 0
  ops : List Op := []
  fstat : Word := 0
  /-- The flags that hardware has ORed into FSTAT in the present clock (R217; the model's own field). -/
  flagsNow : Word := 0
  tvec : Addr := 0
  tarea : Addr := 0
  tpend : Word := 0
  hm : Bool := false
  recHeld : Bool := false
  wdog : Word := 2048
  /-- Clocks counted by the watchdog, and the clock at which the current wait began (R375). -/
  since : Nat := 0
  park : Wait := .none
  bnd : Option Boundary := none
  /-- Steps an instruction of several stages has taken at its PC. -/
  stage : Nat := 0
  trap : Option TrapReq := none
  heldRec : Option Record := none
  /-- The FADDR of the breakpoint cause that TPEND holds (R404, Table 15-5). -/
  heldBp : DWord := 0
  ws : List WsEntry := []
  w : Nat := 0
  /-- It was runnable in the last issue clock of its quarter, and was not issued (R172; the model's own field). -/
  late : Bool := false
  /-- The clock after the one in which it last issued, 0 before its first (R406; the model's own field). -/
  issuedAt : Nat := 0
  slot : Nat := 0
  halted : Bool := false
  exited : Bool := false
  stopped : Bool := false
  next : Word := 0
  endIter : Word := 0
  chunk : Nat := 0
  armed : Bool := false
  returns : List (Word × Word) := []
  /-- The chunk a helper last claimed (R330). -/
  claimed : Option (Word × Word) := none
  bank : Option Bank := none
  crc : DWord := 0
  stores : Nat := 0
  /-- The breakpoints whose match at the PC has been taken or passed (R403), one bit each (the model's own field). -/
  passed : BitVec 8 := 0
  /-- In replay: the store counts at which the CRC is compared, with the logged values (R410). -/
  logged : List (Nat × DWord) := []
  /-- A comparison has failed and the cause is not set yet (R410). -/
  diverged : Bool := false
  deriving DecidableEq, Repr

/-- A committed batch (R307): its number and the commands of it that are not complete. -/
structure Batch where
  number : BitVec 16
  cmds : List Nat
  /-- Its number has been returned (R307). -/
  returned : Bool := false
  deriving DecidableEq, Repr

/-- The task a train runs (R353 to R359). -/
structure Task where
  record : BitVec 512
  number : Nat
  /-- The address that its record was read from, for the trace (Table 21-3). -/
  addr : Nat := 0
  /-- The queue and fired-list index of the firing that made it (R343), and whether it has been taken. -/
  fired : Option (Nat × Nat) := none
  taken : Bool := false
  /-- Entries of the batch that an `xq.take` which waits has written (R48; the model's own field). -/
  wrote : Nat := 0
  /-- The scratch range handed to it (R358). -/
  range : Option (Nat × Nat) := none
  deriving DecidableEq, Repr

/-- A train (R166, R177, R298, R307). -/
structure Train where
  launch : Nat := 0
  ctx : Nat := 0
  core : Nat := 0
  quarter : Nat := 0
  lane : Nat := 0
  row : Nat := 0
  width : Nat := 8
  regs : Nat := 64
  kregs : Nat := 0
  acc : Nat := 0
  tile : Nat := 0
  /-- The value of TRAIN (Table 6-1). -/
  number : Word := 0
  gang : Nat := 0
  role : Nat := 0
  kind : Nat := 0
  index : Nat := 0
  task : Option Task := none
  masks : SMap DWord := []
  k : SMap Word := []
  sbase : Nat := 0
  slen : Nat := 0
  batch : BitVec 16 := 0
  /-- Commands issued since the last commit (R307), by command id. -/
  open' : List Nat := []
  committed : List Batch := []
  slot : Nat := 0
  /-- Taken out of the issue table for eviction or migration (R378, R352). -/
  stopped : Bool := false
  /-- The train key's place in memory while it is evicted (R379). -/
  evicted : Option Nat := none
  /-- The order of its latest placement on a core (R378; the model's own field). -/
  placed : Nat := 0
  deriving DecidableEq, Repr

/-- A slot of a stage ring (R361). -/
structure Ring where
  nprod : Nat
  depth : Nat
  /-- Values with slot index and phase, oldest first. -/
  data : List (Word × Nat × Bool)
  sent : Nat
  taken : Nat
  producers : List Nat
  ended : List Nat
  deriving DecidableEq, Repr

/-- The state of a launch. -/
inductive LaunchState where
  | queued | running | done
  | failed (code : Nat)
  deriving DecidableEq, Repr

/-- A launch (R348 to R350, R363 to R365, R406). -/
structure Launch where
  ctx : Nat
  part : Nat
  header : BitVec 512
  roles : List (BitVec 256)
  state : LaunchState
  nextGang : Nat
  tasks : Nat
  /-- Rings by gang x 4 + number. -/
  rings : SMap Ring
  submitted : Nat
  wall : Nat
  exec : Nat
  wait : Nat
  fsvc : Nat
  queue : Nat
  entry : Nat
  order : Nat
  deriving DecidableEq, Repr

/-- An L1 line (Table 3-1). -/
structure L1Line where
  /-- Leased, or Plain (PRIVATE and READONLY pages). -/
  leased : Bool
  data : List Byte
  wts : Nat
  rts : Nat
  dirty : Bool
  /-- The virtual pages, with their context, that it was reached through (Table 3-1, shootdown). -/
  tags : List (Nat × Nat) := []
  deriving DecidableEq, Repr

/-- A line of an instruction cache, with the pages that it was fetched through (R425). -/
structure ILine where
  data : List Byte
  tags : List (Nat × Nat) := []
  deriving DecidableEq, Repr

/-- A scratch line's presence and pin counts (R45, R46) and its pending fill. -/
structure ScrLine where
  present : Bool := true
  early : Nat := 0
  late : Nat := 0
  /-- The command whose fill is pending, if any. -/
  fill : Option Nat := none
  /-- The cause of its last fill, where that fill failed (R50, R320). -/
  cause : Nat := 0
  deriving DecidableEq, Repr

/-- A matrix command (R303, R311). -/
structure MxCmd where
  id : Nat
  train : Nat
  thread : Nat
  seq : BitVec 16
  block : DWord
  accepted : Bool := false
  pb : BitVec 512 := 0
  /-- The sampled scale bytes of A rows and B columns (R304). -/
  sa : List Byte := []
  sb : List Byte := []
  /-- Scratch lines still pinned, as 2 x line, plus 1 under a late pin (R45, R305), and the bytes already read. -/
  pins : List Nat := []
  read : Memory := []
  done : Bool := false
  flags : Word := 0
  /-- Its block has been read and its scales sampled: steps 3 to 5 of R303 are behind it. -/
  sampled : Bool := false
  /-- An operand line that it waited for under a late pin will not come: the cause and the line's scratch address (R50). -/
  lost : Option (Nat × Nat) := none
  deriving DecidableEq, Repr

/-- A copy command (R315 to R320). -/
structure CpCmd where
  id : Nat
  train : Nat
  thread : Nat
  seq : BitVec 16
  store : Bool
  record : DWord
  coords : List Word
  counter : DWord
  accepted : Bool := false
  shape : BitVec 512 := 0
  /-- Device destination lines owned, each physical line with its virtual one; scratch lines to fill; scratch lines pinned. -/
  owned : List (Nat × Nat) := []
  fills : List Nat := []
  pins : List Nat := []
  read : Memory := []
  /-- A failed fill or a fault has stopped it, with the cause and the address (R320). -/
  stop : Option (Nat × Nat) := none
  deriving DecidableEq, Repr

/-- A barrier of a launch in one scope group (R293). -/
structure Barrier where
  need : Nat
  arrived : List Nat
  /-- Generations completed so far. -/
  generation : Nat
  deriving DecidableEq, Repr

/-- A translation held in a core's translation caches (R18, R20). -/
structure TlbEntry where
  ctx : Nat
  page : Nat
  leaf : DWord
  big : Bool
  /-- Where the leaf stands, for the update of A and D (R20). -/
  entry : Nat
  deriving DecidableEq, Repr

/-- A table entry held in a die's walk cache: a level-3 entry by virtual address / 2^21, or a level-4 entry by address / 2^16 (R18). -/
structure WalkEntry where
  ctx : Nat
  level : Nat
  page : Nat
  /-- The entry's contents, and where it stands. -/
  e : DWord
  entry : Nat
  deriving DecidableEq, Repr

/-- A miss entry of a core (R18, R19). -/
structure Miss where
  ctx : Nat
  page : Nat
  write : Bool
  /-- A serviceable fault is being serviced (R424). -/
  faulted : Bool := false
  /-- What met the fault: the range operations, by thread and number, and with 2^16 and above in place of the number the agents of
  `metFetch` and after. -/
  met : List (Nat × Nat) := []
  deriving DecidableEq, Repr

/-- A core (Table 0-1). -/
structure Core where
  lt : Nat := 0
  /-- The rises of LT with the clock made since reset (R71; the model's own field). -/
  ticks : Nat := 0
  /-- In clock `slotClk` the quarters below `slotQ` have had their turn to issue (R170; the model's own fields). -/
  slotClk : Nat := 0
  slotQ : Nat := 0
  l1 : SMap L1Line := []
  icache : SMap ILine := []
  /-- Translations held by each quarter, at most 32 (R18). -/
  qtlb : SMap (List TlbEntry) := []
  /-- Translations held by the core, in 256 sets of 8 ways (R18). -/
  tlb : List TlbEntry := []
  misses : List Miss := []
  scratch : Memory := []
  lines : SMap ScrLine := []
  /-- Accumulator words by tile x 4096 + row x 64 + column. -/
  acc : SMap Word := []
  mxq : List MxCmd := []
  cpq : List CpCmd := []
  /-- Values left in unoccupied register rows, by quarter x 2^17 + row x 64 + lane (R44). -/
  bankLeft : SMap Word := []
  /-- Owners of register rows, scratch KiB and tiles: partition x 2^32 + context + 1 (R380). -/
  rowOwner : SMap Nat := []
  kibOwner : SMap Nat := []
  tileOwner : SMap Nat := []
  /-- Starved list of each quarter (R172). -/
  starved : SMap (List Nat) := []
  /-- Gathered groups of each quarter in order of completion (R181). -/
  groups : SMap (List (List Nat)) := []
  /-- Task queue of each launch (R355). -/
  taskq : SMap (List Task) := []
  /-- Stalled for a serviceable fault, charged to this context and launch (R376). -/
  stall : Option (Nat × Nat) := none
  /-- The write-set overflow area: its channel offset and its length in bytes (R80). -/
  overflowBase : Nat := 0
  overflowLen : Nat := 0x200000
  overflowFull : Bool := false
  /-- A pre-emption is pending (R322 code 3, R377). -/
  preempt : Option Nat := none
  /-- The clocks of its time slice that each context has used on the core (R376, R377). -/
  slices : SMap Nat := []
  /-- Pages, with their context, whose serviceable fault was declined, each with an agent that met it and whose access has not failed yet
  (R424). -/
  declined : List ((Nat × Nat) × (Nat × Nat)) := []
  /-- Engine commands issued so far on the core, which numbers them (the model's own field). -/
  cmdCount : Nat := 0
  /-- The samples due in this clock, by quarter: the home lane of the thread named, and the record (R402; the model's own field). -/
  samples : SMap (Nat × List Byte) := []
  deriving DecidableEq, Repr

/-- A line of an L2 (R54, R72). -/
structure L2Line where
  data : List Byte
  wts : Nat
  rts : Nat
  dirty : Bool
  deriving DecidableEq, Repr

/-- The state of an RDC line. -/
inductive RdcSt where
  | s | e | m | o | p
  | untracked   -- PRIVATE, READONLY, remote or host line (R41)
  deriving DecidableEq, Repr

/-- A line of a remote-data cache. -/
structure RdcLine where
  st : RdcSt
  data : List Byte
  wts : Nat
  rts : Nat
  /-- Bytes to write back (R103); all ones for a dirty tracked line. -/
  dirty : BitVec 128
  failed : Bool := false
  /-- A writeback of it is on its way (R103). -/
  leaving : Bool := false
  /-- A host line that was taken with RdOwn (R105). -/
  owned : Bool := false
  /-- For a line that the loop-back of R12 filled: the device line that it is a copy of (R39). -/
  home : Option Nat := none
  deriving DecidableEq, Repr

/-- The stable states of a directory entry (Table 3-3). -/
inductive DirSt where
  | i | s | e | m | o | p
  deriving DecidableEq, Repr

/-- The kinds of message of Table 3-4. -/
inductive MsgKind where
  | getS | getX | upg | data | fwdS | fwdX | fData | fAck | inv | iAck | recallS | recallI | rData | wb | evict | wbAck
  | claim | claimOK | merge | mData | eDone
  deriving DecidableEq, Repr

/-- A message between dies (Table 3-4). -/
structure Msg where
  kind : MsgKind
  line : Nat
  lt : Nat := 0
  data : List Byte := []
  wts : Nat := 0
  rts : Nat := 0
  /-- The state granted by Data, FData; the owner's new state in FAck. -/
  grant : Option RdcSt := none
  mask : BitVec 128 := 0
  write : Bool := false
  /-- The die that a forward is for, or that a message is from. -/
  die : Nat := 0
  /-- The command that an EDone names. -/
  cmd : Nat := 0
  /-- Delivered once more after a replay of its link, or the answer to such a message (R89, R100). -/
  again : Bool := false
  deriving DecidableEq, Repr

/-- What waits at a busy line in arrival order (R86): a message of a remote-data cache, or an access of a core of the device, by the
operation of a thread, the boundary of a thread, or the number of an atomic request. -/
inductive Waiter where
  | msg (m : Msg)
  | op (t seq : Nat)
  | boundary (t : Nat)
  | atoms (group : Nat)
  deriving DecidableEq, Repr

/-- What a transient line does once every answer has arrived (R86). -/
inductive Trans where
  | toI                                   -- collapse to I (strong access, atomic, engine write, eviction)
  | toS                                   -- RecallS under way
  | grantM (die : Nat) (withData : Bool)  -- invalidations before a grant of M
  | fwd (die : Nat) (excl : Bool)         -- a forward until FAck
  | invFwd (die lt : Nat)                 -- O, GetX: invalidations, then FwdX
  | toP (die : Nat)                       -- privatisation entry
  deriving DecidableEq, Repr

/-- A directory entry (Table 3-2) with the transaction its line has open, if any. -/
structure DirEntry where
  st : DirSt := .i
  hold : BitVec 4 := 0
  own : Nat := 0
  xfer : Nat := 0
  eo : Bool := false
  ecore : Nat := 0
  pidx : Nat := 0
  trans : Option Trans := none
  /-- Dies whose answer is awaited. -/
  await : List Nat := []
  /-- Requests that wait in arrival order (R86). -/
  waiting : List Waiter := []
  deriving DecidableEq, Repr

/-- A privatisation table entry: access and write masks of the four dies (R94). -/
structure PrivEntry where
  access : SMap (BitVec 128)
  write : SMap (BitVec 128)
  /-- Its index in the table of 2,048 entries (PIDX). -/
  idx : Nat := 0
  deriving DecidableEq, Repr

/-- A constraint of a stream (R333, R334). -/
structure Constraint where
  slot : Nat
  handle : Word
  bodies : List Nat
  given : Bool := false
  deriving DecidableEq, Repr

/-- Stream states (Table 13-4). -/
inductive StreamSt where
  | idle | open' | ended | drained
  deriving DecidableEq, Repr

/-- An Escapement stream (R333 to R338). -/
structure Stream where
  st : StreamSt := .idle
  launch : Option Nat := none
  /-- Constraints reserved by pushes that have not arrived, with their bodies count (R335). -/
  reserved : Nat := 0
  reservedBodies : Nat := 0
  wait : List Constraint := []
  openBatch : List Constraint := []
  closed : List (List Constraint) := []
  released : List Constraint := []
  batches : Nat := 0
  /-- Threads parked in esc.next, earliest first. -/
  parked : List Nat := []
  deriving DecidableEq, Repr

/-- A serial link between dies (R99). -/
structure DieLink where
  fifo : List Msg := []
  spares : Nat := 2
  lanes : Nat := 32
  retraining : Bool := false
  /-- Replays in a row that each lane has failed (R99). -/
  replays : SMap Nat := []
  /-- The last message taken from the link, where it is one that is answered alike when it comes again, and its answer (R89). -/
  last : Option (Msg × Msg) := none
  deriving DecidableEq, Repr

/-- A compute die. -/
structure Die where
  mt : Nat := 0
  lease : Nat := 16
  cpc : Nat := 0
  l2 : SMap L2Line := []
  rdc : SMap RdcLine := []
  /-- RDC lines, least recently used first, by key (R54). -/
  rdcLru : List Nat := []
  /-- Lines requested and not yet filled. -/
  rdcPending : List Nat := []
  /-- The eviction buffer: the copies of a line that have left and are not acknowledged, oldest first (R89). -/
  evicting : SMap (List RdcLine) := []
  /-- Fills that no way is free for: they serve the access that waits for them, and enter a way that a writeback under way leaves
  (R32, R54, R103; the model's own field). -/
  fills : SMap RdcLine := []
  /-- Forwards, recalls and invalidations that reached the die before the FData they follow, by line, with their sender (R90; the model's
  own field). -/
  early : SMap (List (Nat × Msg)) := []
  /-- The walk cache of the die, at most 16,384 entries (R18). -/
  walks : List WalkEntry := []
  dir : SMap DirEntry := []
  /-- Directory lines, least recently used first (R97). -/
  dirLru : List Nat := []
  priv : SMap PrivEntry := []
  streams : SMap Stream := []
  /-- Entries of the queue pool in use (R342). -/
  pool : Nat := 0
  /-- The clock after the one in which the die last fired a queue, 0 before the first (R343; the model's own field). -/
  firedAt : Nat := 0
  traceBase : Nat := 0
  traceLen : Nat := 0
  traceHead : Nat := 0
  traceDrop : Nat := 0
  /-- The records of this clock, by core x 64 + home lane, in the order in which the ring takes them (R400; the model's own field). -/
  tracePend : List (Nat × List Byte) := []
  sper : Nat := 0
  corrected : SMap Nat := []
  wbFailed : Nat := 0
  throttled : Bool := false
  /-- The logs of the units of the die since the last cut, by gate (R408). -/
  log : SMap (List (BitVec 128)) := []
  logging : Bool := false
  logStopped : Bool := false
  deriving DecidableEq, Repr

/-- A request waiting at a home service train (R286): one lane's contribution, in arrival order. -/
structure AtomReq where
  thread : Nat
  seq : BitVec 16
  /-- Requests of one bundle to one line share a number (R286). -/
  group : Nat
  pa : Nat
  op : BitVec 4
  w64 : Bool
  b : DWord
  cmp : DWord
  lane : Nat
  deriving DecidableEq, Repr

/-- A request of this device that has left or waits at the fabric port (R140, R145). -/
structure OutReq where
  /-- The operations whose accesses it carries, lane by lane, each by thread and number; none for a writeback of an eviction. -/
  who : List (Nat × BitVec 16)
  dst : Nat
  lane : Nat
  tag : Nat
  issue : Nat
  kind : ReqKind
  va : Nat
  len : Nat
  data : List Byte
  aux : DWord
  /-- The accesses of the further lanes of one bundle that the request carries: address, length and data (R56). -/
  more : List (Nat × Nat × List Byte) := []
  copies : Nat
  /-- The RDC key the request fills or writes back, by die (R103). -/
  line : Option (Nat × Nat) := none
  host : Bool := false
  /-- Its target has performed the read that it asks for (row 2 of Table 4-4). -/
  bound : Bool := false
  /-- The clock at which it was put at the port, or last left. -/
  left : Nat := 0
  /-- Its lane was rebound while it could not be sent: it leaves again when it can (R415, R417). -/
  again : Bool := false
  deriving DecidableEq, Repr

/-- A reply-cache entry (R146). -/
structure ReplyEntry where
  src : Nat
  tag : Nat
  issue : Nat
  ans : FabAns
  deriving DecidableEq, Repr

/-- A token of a Regulator queue (R341, Table 13-7). -/
structure Token where
  words : List Word
  src : Nat
  at' : Nat
  spilled : Bool
  /-- Its place in the spill area (R342). -/
  spot : Nat := 0
  deriving DecidableEq, Repr

/-- An expert queue (R340 to R343). -/
structure XQueue where
  cfg : BitVec 256 := 0
  launch : Nat := 0
  tokens : List Token := []
  /-- The eight fired-list entries, by index. -/
  fired : SMap (List Token × Nat) := []
  deriving DecidableEq, Repr

/-- A context: its root pointer, host windows and time slice (R15, R30, R377). -/
structure Context where
  part : Nat := 0
  root : DWord := 0
  windows : SMap (BitVec 128) := []
  slice : Nat := 5000000
  deriving DecidableEq, Repr

/-- A breakpoint's setting (Table 21-4). -/
abbrev Breakpoint := BitVec 128

/-- The owner tag of a frame (R38). -/
structure Tag where
  part : Nat
  ctx : Nat
  deriving DecidableEq, Repr

/-- An addition at an event word, or with bytes a store in an event area, that waits for the engine that owns its line (R91, R364). -/
structure EventDue where
  ctx : Nat
  va : Nat
  store : List Byte
  /-- The name under which an addition is logged (R408). -/
  name : DWord := 0
  deriving DecidableEq, Repr

/-- A page whose old home forwards (R36). -/
structure Forward where
  ctx : Nat
  page : Nat
  since : Nat
  /-- The old place, the new place and the length of the page. -/
  src : Nat := 0
  dst : Nat := 0
  len : Nat := 0
  deriving DecidableEq, Repr

/-- A checkpoint taken at a cut (R407): memory, and what the record of trains and queues holds. -/
structure Checkpoint where
  number : Nat
  mem : Memory
  threads : SMap Thread
  trains : SMap Train
  queues : SMap XQueue
  scratch : SMap Memory
  acc : SMap (SMap Word)
  tasks : SMap (SMap (List Task))
  streams : SMap (SMap Stream)
  launches : SMap Launch
  barriers : SMap Barrier
  frames : SMap Tag
  ctx : Context
  /-- CRC and store count of each thread at the cut (R409). -/
  crcs : SMap (DWord × Nat)
  /-- The logs of the interval that the cut ends, by gate (R408). -/
  log : SMap (List (BitVec 128))
  replayable : Bool
  deriving DecidableEq, Repr

/-- The types of flit (Table 22-1). -/
inductive FlitType where
  | request | reply | acknowledgement | noreply | time | idle
  deriving DecidableEq, Repr

/-- A flit (Table 22-1). -/
structure Flit where
  hops : Nat := 0
  type : FlitType
  lane : Nat
  dest : Nat
  src : Nat
  lsn : Nat
  ack : Nat
  payload : List Byte
  deriving DecidableEq, Repr

/-- A fabric link (R411, R416). -/
structure FabLink where
  up : Bool := true
  /-- Serial lanes of the four that are retired. -/
  retired : List Nat := []
  retraining : Bool := false
  /-- The clock at which it began to retrain. -/
  since : Nat := 0
  /-- Replays in a row that each serial lane has failed. -/
  replays : SMap Nat := []
  /-- The number of the next flit, and the replay buffer: the flits sent and not acknowledged, oldest first. -/
  next : Nat := 0
  buffer : List Flit := []
  /-- The highest number that the peer has acknowledged, and the highest received from it in order, before the first the one before 0. -/
  acked : Nat := 0xFFFF
  recv : Nat := 0xFFFF
  deriving DecidableEq, Repr

/-- What a step may be: an issue of a quarter, or a step without an encoding. -/
inductive Act where
  | issue (core quarter : Nat)
  | event (i : Instr)
  /-- The steps that come of themselves, by the core or the thread they name: LT_TICK, STARVED_LIST_JOIN, REBASE. -/
  | rise (core : Nat)
  | join (thread : Nat)
  | rebase
  /-- The firing of a queue of a die, and the sample of a quarter: QUEUE_FIRING, TRACE_SAMPLE. -/
  | fire (die : Nat)
  | sample (core quarter : Nat)
  /-- A link whose retraining has not completed in time goes down (R416). -/
  | dropLink (port : Nat)
  deriving DecidableEq, Repr

/-- An entry of the agenda: the clocks that pass before it, and what then happens. -/
structure Sched where
  dt : Nat
  act : Act
  deriving DecidableEq, Repr

/-- What the device has shown the outside: mailbox answers, interrupts, host reads (R420, R364, R419). -/
inductive Out where
  | launchId (lid : Nat)
  | rejected (code : Nat)
  | refusedRequest (status : Nat)
  | irq (vector : Nat)
  | hostData (bytes : List Byte)
  | completerAbort
  | hostWriteDone
  | counters (values : List Nat)
  /-- A halted thread's state, or a launch's time record, as bytes (R404, R406). -/
  | readout (bytes : List Byte)
  | report (bytes : List Byte)
  /-- An answer and a refusal: they return on the lane of the request (R413). -/
  | fabAnswer (dst tag : Nat) (ans : FabAns)
  | noReply (dst tag : Nat)
  /-- Flits sent over a port, for the first time or again (R412, R416). -/
  | flits (port : Nat) (l : List Flit)
  | snoopData (line : Nat) (bytes : List Byte)
  | snoopMiss (line : Nat)
  | timeFlit (value : Nat)
  | linkReport (a b : Nat)
  /-- No line of a region of another home is left here (step 3 of R34). -/
  | regionFlushed (home page count : Nat)
  | faultReport
  | imageAccepted
  deriving DecidableEq, Repr

/-- One SZ96 device. -/
structure State where
  /-- Which step comes next (the model's own field). -/
  agenda : List Sched := []
  /-- The threads that issue together in this step, by key in ascending home lane (the model's own field). -/
  bundle : List Nat := []
  /-- A counter that the free values are applied to (the model's own field). -/
  free : Nat := 0
  /-- Clocks since device reset (R374 CLK). -/
  clk : Nat := 0
  threads : SMap Thread := []
  trains : SMap Train := []
  launches : SMap Launch := []
  cores : SMap Core := []
  dies : SMap Die := []
  /-- DRAM by device physical address HOME x 2^32 + offset (R17). -/
  mem : Memory := []
  /-- Owner tag of each frame that has one, by HOME x 2^16 + FRAME (R38). -/
  frames : SMap Tag := []
  ctxs : SMap Context := []
  links : SMap DieLink := []
  dpc : Nat := 0
  atoms : List AtomReq := []
  out : SMap OutReq := []
  outCount : Nat := 0
  nextTag : Nat := 0
  replies : List ReplyEntry := []
  floors : SMap Nat := []
  /-- Requests of other devices that wait here, in arrival order (R141). -/
  arrivals : List FabReq := []
  /-- The last tagged request performed of each source and lane, by source x 8 + lane: issue time x 2^24 + tag (R141). -/
  laneTags : SMap Nat := []
  /-- Words that a hand-over has written, by address: the scope of its boundary and the value a strong read of it sees (R132). -/
  handOvers : SMap (Nat × DWord) := []
  /-- Event words and event-area stores that wait (R91, R364). -/
  events : List EventDue := []
  /-- Members of the domain job (R12). -/
  members : List Nat := []
  /-- The context of the domain job on this device, in which remote requests are translated (R12). -/
  jobCtx : Nat := 0
  /-- Aperture descriptors (R26). -/
  apertures : SMap (BitVec 512) := []
  queues : SMap XQueue := []
  barriers : SMap Barrier := []
  forwards : List Forward := []
  fabLinks : SMap FabLink := []
  /-- Links down elsewhere or here, by device pair a x 512 + b (R414, R415). -/
  down : List Nat := []
  /-- Lanes rebound to another path, by destination x 8 + lane, with the path taken (R415). -/
  rebound : SMap (List Nat) := []
  dt : Nat := 0
  lastTime : Nat := 0
  injectStopped : Bool := false
  /-- Counts of the domain phase end (R366). -/
  sCount : Nat := 0
  rCount : Nat := 0
  /-- The requests that rCount has counted, as (source, tag, issue time). -/
  counted : List (Nat × Nat × Nat) := []
  lastSweep : Option (Nat × Nat) := none
  phase : Nat := 0
  breakpoints : SMap Breakpoint := []
  inbound : SMap (BitVec 128) := []
  /-- Dies of each partition, one bit a die (R380). -/
  parts : SMap (BitVec 4) := [(0, 15)]
  nextThread : Nat := 0
  nextTrain : Nat := 0
  nextLaunch : Nat := 0
  /-- Launches submitted whose block is not in the launch queue yet: partition, context, address, and the clock of the submission
  (R348, R406). -/
  submits : List (Nat × Nat × Nat × Nat) := []
  ckptPeriod : Nat := 50
  ckptOn : Bool := false
  ckpts : List Checkpoint := []
  /-- The number of a cut that has begun: issue and dispatch stand still until it is complete (R407). -/
  cutDue : Option Nat := none
  /-- The totals of the last sweep of the cut, and whether two in a row have agreed (R407). -/
  cutSweep : Option (Nat × Nat) := none
  cutSwept : Bool := false
  replaying : Bool := false
  /-- The logs that the order gates follow, by gate (R410). -/
  gates : SMap (List (BitVec 128)) := []
  gateSince : SMap Nat := []
  sysRegs : SMap DWord := []
  /-- The measurements of the firmware, of the hypervisor, and of each partition's system image (R421). -/
  firmware : BitVec 256 := 0
  hypervisor : BitVec 256 := 0
  systems : SMap (BitVec 256) := []
  recovery : Bool := false
  deviceFault : Bool := false
  outs : List Out := []
  deriving DecidableEq, Repr

/-- The machine right after reset: no launch, no thread, memory listing nothing, every clock and counter at zero. -/
def State.reset : State := {}

end Sys2Proof.Machine
end

