-- ==== Sys2Proof/Machine/Maps.lean ====
section
/-! DEFINITION. Sparse maps, memory in canonical form, and the accessors of the state's parts. -/

namespace Sys2Proof.Machine
open Sys2Proof

/-! Sparse maps. -/

/-- The value at a key. -/
def mapGet? {α : Type} : SMap α → Nat → Option α
  | [], _ => none
  | (k, v) :: m, i => if k = i then some v else mapGet? m i

/-- The value at a key, `d` where the key is absent. -/
def mapGetD {α : Type} (m : SMap α) (i : Nat) (d : α) : α := (mapGet? m i).getD d

/-- The map with one key removed. -/
def mapDel {α : Type} : SMap α → Nat → SMap α
  | [], _ => []
  | (k, v) :: m, i => if k = i then mapDel m i else (k, v) :: mapDel m i

/-- Insertion before the first larger key. -/
def mapIns {α : Type} : SMap α → Nat → α → SMap α
  | [], i, x => [(i, x)]
  | (k, v) :: m, i, x => if i < k then (i, x) :: (k, v) :: m else (k, v) :: mapIns m i x

/-- The map with `x` at key `i`. -/
def mapSet {α : Type} (m : SMap α) (i : Nat) (x : α) : SMap α := mapIns (mapDel m i) i x

/-- Every value changed, with its key. -/
def mapEach {α : Type} (f : Nat → α → α) : SMap α → SMap α
  | [] => []
  | (k, v) :: m => (k, f k v) :: mapEach f m

/-! Memory (R4, R109): little-endian, unlisted bytes read as zero. -/

/-- What a byte that nothing has written reads as: a frame is zeroed before its owner's first access (R39). (DESIGN CHOICE, log entry 3.) -/
def memDefault : Byte := 0

/-- One byte of a memory. -/
def memRead (m : Memory) (a : Nat) : Byte := mapGetD m a memDefault

/-- Writing one byte keeps the canonical form: the byte an unlisted address reads as is not listed. -/
def memWrite (m : Memory) (a : Nat) (v : Byte) : Memory :=
  if v = memDefault then mapDel m a else mapSet m a v

/-- `n` bytes from an address upward. -/
def memReadN (m : Memory) (a : Nat) : Nat → List Byte
  | 0 => []
  | n + 1 => memRead m a :: memReadN m (a + 1) n

/-- Bytes written from an address upward. -/
def memWriteN (m : Memory) (a : Nat) : List Byte → Memory
  | [] => m
  | b :: bs => memWriteN (memWrite m a b) (a + 1) bs

/-- Addresses strictly rising, and no listed byte reads as an unlisted one. -/
def memWf : Memory → Bool
  | [] => true
  | [(_, v)] => v != memDefault
  | (a, v) :: (b, w) :: m => v != memDefault && decide (a < b) && memWf ((b, w) :: m)

/-! Lists of bytes and words. -/

/-- The little-endian bytes of a word. -/
def bytesOfWord (w : Word) : List Byte := bytesOfNat 4 w.toNat
/-- The little-endian bytes of a 64-bit value. -/
def bytesOfDWord (w : DWord) : List Byte := bytesOfNat 8 w.toNat
/-- The word of the first four bytes. -/
def wordOfBytes (b : List Byte) : Word := BitVec.ofNat 32 (natOfBytes (b.take 4))
/-- The 64-bit value of the first eight bytes. -/
def dwordOfBytes (b : List Byte) : DWord := BitVec.ofNat 64 (natOfBytes (b.take 8))
/-- The words of a list of bytes, four bytes each. -/
def wordsOfBytes : Nat → List Byte → List Word
  | 0, _ => []
  | n + 1, b => wordOfBytes b :: wordsOfBytes n (b.drop 4)
/-- Bytes overwritten from an index upward. -/
def spliceBytes (l : List Byte) (i : Nat) : List Byte → List Byte
  | [] => l
  | b :: bs => spliceBytes (l.set i b) (i + 1) bs
/-- The field [hi:lo] of a record. -/
def fld {w : Nat} (x : BitVec w) (hi lo : Nat) : Nat := (x.extractLsb' lo (hi + 1 - lo)).toNat
/-- The list 0 .. n - 1. -/
def upTo (n : Nat) : List Nat := List.range n
/-- The first key from `n` upward, at most `fuel` further, that a test accepts. -/
def firstFrom (p : Nat → Bool) : Nat → Nat → Option Nat
  | 0, _ => none
  | fuel + 1, n => if p n then some n else firstFrom p fuel (n + 1)

/-! The parts of the state. -/

/-- A thread by key. -/
def State.thread (s : State) (t : Nat) : Thread := mapGetD s.threads t {}
/-- A thread replaced. -/
def State.setThread (s : State) (t : Nat) (th : Thread) : State := { s with threads := mapSet s.threads t th }
/-- A thread changed. -/
def State.modThread (s : State) (t : Nat) (f : Thread → Thread) : State := s.setThread t (f (s.thread t))
/-- A train by key. -/
def State.train (s : State) (i : Nat) : Train := mapGetD s.trains i {}
/-- A train changed. -/
def State.modTrain (s : State) (i : Nat) (f : Train → Train) : State :=
  { s with trains := mapSet s.trains i (f (s.train i)) }
/-- The train of a thread. -/
def State.trainOf (s : State) (t : Nat) : Train := s.train (s.thread t).train
/-- A core by number. -/
def State.core (s : State) (c : Nat) : Core := mapGetD s.cores c {}
/-- A core changed. -/
def State.modCore (s : State) (c : Nat) (f : Core → Core) : State :=
  { s with cores := mapSet s.cores c (f (s.core c)) }
/-- A die by number. -/
def State.die (s : State) (d : Nat) : Die := mapGetD s.dies d {}
/-- A die changed. -/
def State.modDie (s : State) (d : Nat) (f : Die → Die) : State :=
  { s with dies := mapSet s.dies d (f (s.die d)) }
/-- A context by number. -/
def State.ctx (s : State) (i : Nat) : Context := mapGetD s.ctxs i {}
/-- A launch, if there is one of that id. -/
def State.launch? (s : State) (l : Nat) : Option Launch := mapGet? s.launches l
/-- A launch changed, if there is one of that id. -/
def State.modLaunch (s : State) (l : Nat) (f : Launch → Launch) : State :=
  match s.launch? l with
  | some x => { s with launches := mapSet s.launches l (f x) }
  | none => s
/-- The core a thread runs on. -/
def State.coreOf (s : State) (t : Nat) : Nat := (s.trainOf t).core
/-- The die of a core (R2). -/
def dieOfCore (c : Nat) : Nat := c / Config.coresPerDie
/-- The die a thread runs on. -/
def State.dieOf (s : State) (t : Nat) : Nat := dieOfCore (s.coreOf t)
/-- The launch of a thread. -/
def State.launchOf (s : State) (t : Nat) : Nat := (s.trainOf t).launch
/-- The context of a thread. -/
def State.ctxOf (s : State) (t : Nat) : Nat := (s.trainOf t).ctx
/-- The keys of the threads of a train, helpers apart. -/
def State.membersOf (s : State) (tr : Nat) : List Nat :=
  (s.threads.filter fun p => p.2.train = tr && p.2.helper.isNone).map (·.1)
/-- The thread of a train with a train index. -/
def State.byIndex? (s : State) (tr i : Nat) : Option Nat :=
  (s.threads.find? fun p => p.2.train = tr && p.2.tidx = i && p.2.helper.isNone).map (·.1)

/-! Registers of a thread (Table 7-12). In a helper, g0 to g47 hold the bank's copy and g48 to g63 are h0 to h15 (R324). -/

/-- A general register. -/
def getG (th : Thread) (i : Nat) : Word := mapGetD th.g i 0
/-- A general register written. -/
def setG (th : Thread) (i : Nat) (v : Word) : Thread := { th with g := mapSet th.g i v }
/-- A pair, the even register as the low word (R253). -/
def getX (th : Thread) (i : Nat) : DWord := getG th (i + 1) ++ getG th i
/-- A pair written. -/
def setX (th : Thread) (i : Nat) (v : DWord) : Thread :=
  setG (setG th i (v.setWidth 32)) (i + 1) (v.extractLsb' 32 32)
/-- A predicate; q0 reads as true (R226). -/
def getQ (th : Thread) (i : Nat) : Bool := i = 0 || th.q.getLsbD i
/-- A predicate written; a write to q0 is discarded (R226). -/
def setQ (th : Thread) (i : Nat) (v : Bool) : Thread :=
  if i = 0 then th
  else { th with q := if v then th.q ||| (1#8 <<< i) else th.q &&& ~~~(1#8 <<< i) }
/-- Several registers written. -/
def setGs (th : Thread) : List (Nat × Word) → Thread
  | [] => th
  | (i, v) :: r => setGs (setG th i v) r
/-- Several predicates written. -/
def setQs (th : Thread) : List (Nat × Bool) → Thread
  | [] => th
  | (i, v) :: r => setQs (setQ th i v) r

end Sys2Proof.Machine
end

