-- ==== Sys2Proof/Machine/Float.lean ====
section
/-! DEFINITION. Number formats and rounding (spec/08): exact values as signed fractions, and the one rounding rule. -/

namespace Sys2Proof.Machine
open Sys2Proof

/-- An IEEE format of Table 8-1: exponent and fraction bits. -/
structure Fmt where
  eb : Nat
  fb : Nat
  deriving DecidableEq, Repr

/-- The formats of Table 8-1. -/
def fp64 : Fmt := ⟨11, 52⟩
/-- FP32. -/
def fp32 : Fmt := ⟨8, 23⟩
/-- FP16. -/
def fp16 : Fmt := ⟨5, 10⟩
/-- BF16. -/
def bf16 : Fmt := ⟨8, 7⟩

/-- The bias of a format. -/
def Fmt.bias (f : Fmt) : Nat := 2 ^ (f.eb - 1) - 1
/-- The encoding of +infinity. -/
def Fmt.infBits (f : Fmt) : Nat := (2 ^ f.eb - 1) * 2 ^ f.fb
/-- The canonical NaN (R211). -/
def Fmt.nanBits (f : Fmt) : Nat := f.infBits + 2 ^ (f.fb - 1)
/-- The weight of the sign bit. -/
def Fmt.signBit (f : Fmt) : Nat := 2 ^ (f.eb + f.fb)

/-- A value: a NaN (signalling or not), an infinity, or a finite value (-1)^neg * num / den. -/
inductive FV where
  | nan (sig : Bool)
  | inf (neg : Bool)
  | fin (neg : Bool) (num den : Nat)
  deriving DecidableEq, Repr

/-! The flags of FSTAT (Table 8-2). -/

/-- Invalid operation. -/
def fNV : Word := 1
/-- Division of a finite nonzero value by zero. -/
def fDZ : Word := 2
/-- Overflow. -/
def fOF : Word := 4
/-- Underflow. -/
def fUF : Word := 8
/-- Inexact. -/
def fNX : Word := 16
/-- Saturated. -/
def fSAT : Word := 32
/-- A flag raised where a condition holds. -/
def flagIf (b : Bool) (f : Word) : Word := if b then f else 0

/-- num / den scaled by 2^k, as numerator and denominator. -/
def scale2 (num den : Nat) (k : Int) : Nat × Nat :=
  if 0 ≤ k then (num * 2 ^ k.toNat, den) else (num, den * 2 ^ (-k).toNat)

/-- The exponent e with 2^e ≤ num / den < 2^(e+1), for num and den nonzero. -/
def expOf (num den : Nat) : Int :=
  let e : Int := (Nat.log2 num : Int) - (Nat.log2 den : Int)
  let p := scale2 num den (-e)
  if p.1 < p.2 then e - 1 else e

/-- An integer nearest num / den (ties to even), or its truncation; and whether it differs from num / den (R212). -/
def roundInt (rz : Bool) (num den : Nat) : Nat × Bool :=
  let m := num / den
  let r := num % den
  let up := !rz && (decide (den < 2 * r) || (decide (2 * r = den) && decide (m % 2 = 1)))
  (if up then m + 1 else m, decide (r ≠ 0))

/-- Rounding of a nonzero magnitude num / den to a format: the encoding without its sign, and the flags (R212 to R214).
(DEDUCED, log entry 22.) -/
def roundMag (f : Fmt) (rz : Bool) (num den : Nat) : Nat × Word :=
  let e := expOf num den
  let emin : Int := 1 - (f.bias : Int)
  let ee := if e < emin then emin else e
  let p := scale2 num den ((f.fb : Int) - ee)
  let q := roundInt rz p.1 p.2
  let bits := if e < emin then q.1 else (ee + (f.bias : Int)).toNat * 2 ^ f.fb + q.1 - 2 ^ f.fb
  -- at least the largest finite value plus half a unit in the last place (R213)
  let big := decide (f.infBits ≤ bits) ||
    (decide (e = (f.bias : Int)) && decide ((2 ^ (f.fb + 2) - 1) * p.2 ≤ 2 * p.1))
  if big then (if rz then f.infBits - 1 else f.infBits, fOF ||| fNX)
  else
    let p' := scale2 num den ((f.fb : Int) - e)
    let tiny := decide (e < emin) &&
      !(decide (e = emin - 1) && decide ((roundInt rz p'.1 p'.2).1 = 2 ^ (f.fb + 1)))
    (bits, flagIf q.2 fNX ||| flagIf (q.2 && tiny) fUF)

/-- A value rounded to a format: its encoding and the flags of the rounding (R211 to R214). -/
def packFV (f : Fmt) (rz : Bool) : FV → Nat × Word
  | .nan _ => (f.nanBits, 0)
  | .inf neg => ((if neg then f.signBit else 0) + f.infBits, 0)
  | .fin neg num den =>
    if num = 0 then (if neg then f.signBit else 0, 0)
    else
      let r := roundMag f rz num den
      ((if neg then f.signBit else 0) + r.1, r.2)

/-- The value that an encoding stands for (R210). -/
def unpackFV (f : Fmt) (bits : Nat) : FV :=
  let neg := decide (bits / f.signBit % 2 = 1)
  let e := bits / 2 ^ f.fb % 2 ^ f.eb
  let m := bits % 2 ^ f.fb
  if e = 2 ^ f.eb - 1 then
    if m = 0 then .inf neg else .nan (decide (m < 2 ^ (f.fb - 1)))
  else
    let m' := if e = 0 then m else m + 2 ^ f.fb
    let e' := if e = 0 then 1 else e
    if f.bias + f.fb ≤ e' then .fin neg (m' * 2 ^ (e' - f.bias - f.fb)) 1
    else .fin neg m' (2 ^ (f.bias + f.fb - e'))

/-- Whether a value is a signalling NaN. -/
def isSig : FV → Bool
  | .nan s => s
  | _ => false
/-- Whether a value is a NaN. -/
def isNaN : FV → Bool
  | .nan _ => true
  | _ => false
/-- The sign of a value; a NaN counts as positive. -/
def fvNeg : FV → Bool
  | .nan _ => false
  | .inf n => n
  | .fin n _ _ => n
/-- A value with its sign inverted. -/
def fvNegate : FV → FV
  | .nan s => .nan s
  | .inf n => .inf (!n)
  | .fin n a b => .fin (!n) a b

/-- The sum of two finite values; an exact zero of opposite signs is +0 (R214). -/
def addFin (n1 : Bool) (a1 d1 : Nat) (n2 : Bool) (a2 d2 : Nat) : FV :=
  let x := a1 * d2
  let y := a2 * d1
  if n1 = n2 then .fin n1 (x + y) (d1 * d2)
  else if y < x then .fin n1 (x - y) (d1 * d2)
  else if x < y then .fin n2 (y - x) (d1 * d2)
  else .fin false 0 1

/-- Exact sum, with NV raised (R261). -/
def fvAdd : FV → FV → FV × Word
  | .nan s, y => (.nan false, flagIf (s || isSig y) fNV)
  | x, .nan s => (.nan false, flagIf (s || isSig x) fNV)
  | .inf n, .inf m => if n = m then (.inf n, 0) else (.nan false, fNV)
  | .inf n, _ => (.inf n, 0)
  | _, .inf n => (.inf n, 0)
  | .fin n1 a1 d1, .fin n2 a2 d2 => (addFin n1 a1 d1 n2 a2 d2, 0)

/-- Exact product, with NV raised (R261). -/
def fvMul : FV → FV → FV × Word
  | .nan s, y => (.nan false, flagIf (s || isSig y) fNV)
  | x, .nan s => (.nan false, flagIf (s || isSig x) fNV)
  | .inf n, .inf m => (.inf (n != m), 0)
  | .inf n, .fin m a _ => if a = 0 then (.nan false, fNV) else (.inf (n != m), 0)
  | .fin n a _, .inf m => if a = 0 then (.nan false, fNV) else (.inf (n != m), 0)
  | .fin n1 a1 d1, .fin n2 a2 d2 => (.fin (n1 != n2) (a1 * a2) (d1 * d2), 0)

/-- Exact quotient, with NV or DZ raised (R271). -/
def fvDiv : FV → FV → FV × Word
  | .nan s, y => (.nan false, flagIf (s || isSig y) fNV)
  | x, .nan s => (.nan false, flagIf (s || isSig x) fNV)
  | .inf _, .inf _ => (.nan false, fNV)
  | .inf n, .fin m _ _ => (.inf (n != m), 0)
  | .fin n _ _, .inf m => (.fin (n != m) 0 1, 0)
  | .fin n1 a1 d1, .fin n2 a2 d2 =>
    if a2 = 0 then (if a1 = 0 then (.nan false, fNV) else (.inf (n1 != n2), fDZ))
    else (.fin (n1 != n2) (a1 * d2) (d1 * a2), 0)

/-- A pair of a value and flags rounded to a format. -/
def packOut (f : Fmt) (rz : Bool) (r : FV × Word) : Nat × Word :=
  let p := packFV f rz r.1
  (p.1, p.2 ||| r.2)

/-- a + b in a format (R262). -/
def fAdd (f : Fmt) (rz : Bool) (a b : Nat) : Nat × Word := packOut f rz (fvAdd (unpackFV f a) (unpackFV f b))
/-- a - b in a format. -/
def fSub (f : Fmt) (rz : Bool) (a b : Nat) : Nat × Word :=
  packOut f rz (fvAdd (unpackFV f a) (fvNegate (unpackFV f b)))
/-- a * b in a format. -/
def fMul (f : Fmt) (rz : Bool) (a b : Nat) : Nat × Word := packOut f rz (fvMul (unpackFV f a) (unpackFV f b))
/-- a / b in a format. -/
def fDiv (f : Fmt) (a b : Nat) : Nat × Word := packOut f false (fvDiv (unpackFV f a) (unpackFV f b))
/-- a * b + c with one rounding (R266); 0 x infinity raises NV whatever c holds. -/
def fFma (f : Fmt) (a b c : Nat) : Nat × Word :=
  let p := fvMul (unpackFV f a) (unpackFV f b)
  let r := fvAdd p.1 (unpackFV f c)
  packOut f false (r.1, r.2 ||| p.2)

/-- The order of two values with -0 below +0; neither is a NaN. -/
def fvBefore : FV → FV → Bool
  | .inf true, .inf true => false
  | .inf true, _ => true
  | _, .inf true => false
  | .inf false, _ => false
  | _, .inf false => true
  | .fin n1 a1 d1, .fin n2 a2 d2 =>
    let x := a1 * d2
    let y := a2 * d1
    match n1, n2 with
    | false, false => decide (x < y)
    | true, true => decide (y < x)
    | true, false => true
    | false, true => false
  | _, _ => false

/-- `fmin` (R263). -/
def fMin (f : Fmt) (a b : Nat) : Nat × Word :=
  let x := unpackFV f a
  let y := unpackFV f b
  let fl := flagIf (isSig x || isSig y) fNV
  if isNaN x && isNaN y then (f.nanBits, fl) else if isNaN x then (b, fl) else if isNaN y then (a, fl)
  else (if fvBefore y x then b else a, fl)
/-- `fmax` (R263). -/
def fMax (f : Fmt) (a b : Nat) : Nat × Word :=
  let x := unpackFV f a
  let y := unpackFV f b
  let fl := flagIf (isSig x || isSig y) fNV
  if isNaN x && isNaN y then (f.nanBits, fl) else if isNaN x then (b, fl) else if isNaN y then (a, fl)
  else (if fvBefore x y then b else a, fl)
/-- `fsgnj` (R264). -/
def fSgnj (f : Fmt) (a b : Nat) : Nat :=
  if isNaN (unpackFV f a) then f.nanBits else a % f.signBit + b / f.signBit % 2 * f.signBit

/-- How two values compare: less, equal, greater; none where either is a NaN. -/
def fvCmp (x y : FV) : Option Ordering :=
  if isNaN x || isNaN y then none
  else
    match x, y with
    | .fin _ 0 _, .fin _ 0 _ => some .eq
    | _, _ => if fvBefore x y then some .lt else if fvBefore y x then some .gt else some .eq

/-- A conversion between formats (R267, R268). -/
def fCvt (src dst : Fmt) (rz : Bool) (a : Nat) : Nat × Word :=
  let x := unpackFV src a
  packOut dst rz (x, flagIf (isSig x) fNV)

/-- A conversion to a signed integer of `w` bits (R215). -/
def fToInt (src : Fmt) (w : Nat) (rz : Bool) (a : Nat) : BitVec w × Word :=
  let top : Nat := 2 ^ (w - 1)
  match unpackFV src a with
  | .nan _ => (0, fNV)
  | .inf neg => (BitVec.ofNat w (if neg then top else top - 1), fNV)
  | .fin neg num den =>
    let r := roundInt rz num den
    if neg then
      if top < r.1 then (BitVec.ofNat w top, fNV) else (-BitVec.ofNat w r.1, flagIf r.2 fNX)
    else
      if top ≤ r.1 then (BitVec.ofNat w (top - 1), fNV) else (BitVec.ofNat w r.1, flagIf r.2 fNX)

/-- An integer as a value. -/
def fvOfInt (i : Int) : FV := .fin (decide (i < 0)) i.natAbs 1

/-! The decade format (R219 to R221). -/

/-- The decimal exponents of Table 8-3 for a count of leading zeros. -/
def d8Exps : Nat → List Int
  | 0 => [-1, 0]
  | 1 => [-3, -2, 1, 2]
  | 2 => [-5, -4, 3, 4]
  | 3 => [-7, -6, 5, 6]
  | 4 => [-8, 7]
  | 5 => [-9, 8]
  | _ => [9]

/-- The exponent width of Table 8-3. -/
def d8ExpBits : Nat → Nat
  | 0 => 1
  | 1 => 2
  | 2 => 2
  | 3 => 2
  | 4 => 1
  | 5 => 1
  | _ => 0

/-- num / den times 10^e. -/
def scale10 (num den : Nat) (e : Int) : Nat × Nat :=
  if 0 ≤ e then (num * 10 ^ e.toNat, den) else (num, den * 10 ^ (-e).toNat)

/-- The magnitude of a nonzero payload (R219). -/
def d8Mag (p : Nat) : Nat × Nat :=
  let k := 6 - Nat.log2 p
  let n := 6 - k
  let we := d8ExpBits k
  let wf := n - we
  let x := p / 2 ^ wf % 2 ^ we
  let fr := p % 2 ^ wf
  scale10 (2 ^ wf + 9 * fr) (2 ^ wf) ((d8Exps k).getD x 0)

/-- The value of a D8 code; NaR stands as a quiet NaN (R219, R220). -/
def d8Value (c : Byte) : FV :=
  let p := c.toNat % 128
  let neg := decide (128 ≤ c.toNat)
  if p = 0 then (if neg then .nan false else .fin false 0 1)
  else .fin neg (d8Mag p).1 (d8Mag p).2

/-- |x - v| for two magnitudes, as a fraction. -/
def absDiff (a b : Nat × Nat) : Nat × Nat :=
  let x := a.1 * b.2
  let y := b.1 * a.2
  (if x < y then y - x else x - y, a.2 * b.2)
/-- Whether one fraction is less than another. -/
def fracLt (a b : Nat × Nat) : Bool := decide (a.1 * b.2 < b.1 * a.2)
/-- The magnitude of a payload, zero included. -/
def d8Mag0 (p : Nat) : Nat × Nat := if p = 0 then (0, 1) else d8Mag p

/-- The better of two payloads for a magnitude: the nearer; on a tie the one whose bit 0 alone is clear, else the smaller
magnitude (R221). -/
def d8Better (x : Nat × Nat) (p q : Nat) : Nat :=
  let dp := absDiff x (d8Mag0 p)
  let dq := absDiff x (d8Mag0 q)
  if fracLt dp dq then p
  else if fracLt dq dp then q
  else if p % 2 = 0 ∧ q % 2 = 1 then p
  else if p % 2 = 1 ∧ q % 2 = 0 then q
  else if fracLt (d8Mag0 q) (d8Mag0 p) then q else p

/-- The payload that encodes a magnitude. -/
def d8Nearest (x : Nat × Nat) : Nat := (upTo 128).foldl (d8Better x) 0

/-- Encoding a value to D8 (R221). -/
def d8Encode : FV → Byte × Word
  | .nan s => (0x80, flagIf s fNV)
  | .inf neg => (if neg then 0x81 else 0x01, fSAT ||| fNX)
  | .fin neg num den =>
    let sg : Nat := if neg then 0x80 else 0
    if 1000000000 * den < num then (BitVec.ofNat 8 (sg + 1), fSAT ||| fNX)
    else
      let p := d8Nearest (num, den)
      let v := d8Mag0 p
      let inexact := decide (v.1 * den ≠ num * v.2)
      let uf := decide (0 < num) && decide (num * 1000000000 < den) && inexact
      (if p = 0 then 0 else BitVec.ofNat 8 (sg + p), flagIf inexact fNX ||| flagIf uf fUF)

/-! Exact sums of many values (R223). -/

/-- The exact sum of products of a group, with NV (R223). -/
def fvSum : List (FV × Word) → FV × Word
  | [] => (.fin false 0 1, 0)
  | [x] => x
  | x :: xs =>
    let r := fvSum xs
    let s := fvAdd x.1 r.1
    (s.1, s.2 ||| x.2 ||| r.2)

/-- A value times a power of ten. -/
def fvScale10 (e : Int) : FV → FV
  | .fin n a d => .fin n (scale10 a d e).1 (scale10 a d e).2
  | x => x

/-! Combination in the fixed tree of R29. -/

/-- One level of the tree: adjacent pairs combined, an odd last value carried. -/
def treeLevel {α : Type} (f : α → α → α) : List α → List α
  | a :: b :: r => f a b :: treeLevel f r
  | l => l

/-- The fixed tree of R29 over a list, with at most `fuel` levels. -/
def treeFold {α : Type} (f : α → α → α) (d : α) : Nat → List α → α
  | _, [] => d
  | _, [a] => a
  | 0, a :: _ => a
  | n + 1, l => treeFold f d n (treeLevel f l)

end Sys2Proof.Machine
end

