-- ==== Sys2Proof/Machine/Transcend.lean ====
section
/-! DEFINITION. Square roots and the transcendental functions (R269 to R271), by integer series of 512 fraction bits. Exact
cases are taken apart; every other result carries a low bit of one below the last digit, so that it is never taken for
representable. UNVERIFIED: no operand's result lies within 2^-480 of a rounding boundary without being on it. -/

namespace Sys2Proof.Machine
open Sys2Proof

/-- Fraction bits of the series. -/
def fixBits : Nat := 512
/-- One, as a fixed-point number. -/
def fixOne : Nat := 2 ^ fixBits

/-- A fixed-point result that is not exact: half a unit above its last digit. -/
def inexactFix (neg : Bool) (x : Nat) : FV := .fin neg (2 * x + 1) (2 ^ (fixBits + 1))

/-! Integer square root, bit by bit. -/

/-- The bits below `i` of the square root of `n`, above `r`. -/
def isqrtLoop (n : Nat) : Nat → Nat → Nat
  | 0, r => r
  | i + 1, r =>
    let r' := r + 2 ^ i
    if r' * r' ≤ n then isqrtLoop n i r' else isqrtLoop n i r
/-- The integer square root. -/
def isqrt (n : Nat) : Nat := isqrtLoop n (Nat.log2 n / 2 + 1) 0

/-- √(num/den) to `k` fraction bits, with a low bit of one where it is not exact. -/
def sqrtFV (k num den : Nat) : FV :=
  let s := isqrt (num * 2 ^ (2 * k) / den)
  if s * s * den = num * 2 ^ (2 * k) then .fin false s (2 ^ k) else .fin false (2 * s + 1) (2 ^ (k + 1))

/-- Fraction bits that a square root of a format needs. -/
def Fmt.rootBits (f : Fmt) : Nat := f.bias + f.fb + 60

/-- √a (Table 10-13). -/
def fSqrt (f : Fmt) (a : Nat) : Nat × Word :=
  match unpackFV f a with
  | .nan s => packOut f false (.nan false, flagIf s fNV)
  | .inf neg => packOut f false (if neg then (.nan false, fNV) else (.inf false, 0))
  | .fin neg n d =>
    if n = 0 then packOut f false (.fin neg 0 1, 0)
    else if neg then packOut f false (.nan false, fNV)
    else packOut f false (sqrtFV f.rootBits n d, 0)

/-- 1 / √a (Table 10-13). -/
def fRsq (f : Fmt) (a : Nat) : Nat × Word :=
  match unpackFV f a with
  | .nan s => packOut f false (.nan false, flagIf s fNV)
  | .inf neg => packOut f false (if neg then (.nan false, fNV) else (.fin false 0 1, 0))
  | .fin neg n d =>
    if n = 0 then packOut f false (.inf neg, fDZ)
    else if neg then packOut f false (.nan false, fNV)
    else packOut f false (sqrtFV f.rootBits d n, 0)

/-- 1 / a (Table 10-13). -/
def fRcp (f : Fmt) (a : Nat) : Nat × Word := packOut f false (fvDiv (.fin false 1 1) (unpackFV f a))

/-! Series. -/

/-- Σ (±1)^i (one / k^(2i+1)) / (2i+1): arctangent (alternating) or its hyperbolic form of p/q, by powers of (p/q)^2. -/
def atanLoop (alt : Bool) (p2 q2 : Nat) : Nat → Nat → Nat → Nat × Nat → Nat × Nat
  | 0, _, _, acc => acc
  | n + 1, i, pw, acc =>
    let term := pw / (2 * i + 1)
    let acc' := if alt && i % 2 = 1 then (acc.1, acc.2 + term) else (acc.1 + term, acc.2)
    atanLoop alt p2 q2 n (i + 1) (pw * p2 / q2) acc'

/-- atan(1/k). -/
def atanInv (k : Nat) : Nat :=
  let r := atanLoop true 1 (k * k) 130 0 (fixOne / k) (0, 0)
  r.1 - r.2
/-- atanh(p/q) for p/q at most 1/3. -/
def atanhFix (p q : Nat) : Nat := (atanLoop false (p * p) (q * q) 180 0 (fixOne * p / q) (0, 0)).1
/-- π. -/
def piFix : Nat := 16 * atanInv 5 - 4 * atanInv 239
/-- ln 2. -/
def ln2Fix : Nat := 2 * atanhFix 1 3

/-- Σ x^k / k!, with signs alternating every two terms kept apart: even and odd powers, by sign. -/
def expLoop (x : Nat) : Nat → Nat → Nat → Nat → Nat
  | 0, _, _, acc => acc
  | n + 1, k, term, acc => expLoop x n (k + 1) (term * x / fixOne / k) (acc + term)
/-- e^x for x below one. -/
def expFix (x : Nat) : Nat := expLoop x 130 1 fixOne 0

/-- Alternating series with term(k+1) = term(k) x^2 / ((m+1)(m+2)). -/
def trigLoop (x2 : Nat) : Nat → Nat → Nat → Nat × Nat → Nat × Nat
  | 0, _, _, acc => acc
  | n + 1, m, term, acc =>
    trigLoop x2 n (m + 2) (term * x2 / fixOne / ((m + 1) * (m + 2))) (acc.2, acc.1 + term)
/-- sin x for x at most π/4. -/
def sinFix (x : Nat) : Nat :=
  let r := trigLoop (x * x / fixOne) 64 1 x (0, 0)
  if r.1 < r.2 then r.2 - r.1 else r.1 - r.2
/-- cos x for x at most π/4. -/
def cosFix (x : Nat) : Nat :=
  let r := trigLoop (x * x / fixOne) 64 0 fixOne (0, 0)
  if r.1 < r.2 then r.2 - r.1 else r.1 - r.2

/-- sin((π/2)(r/d)) for 0 ≤ r ≤ d. -/
def sinQuarter (neg : Bool) (r d : Nat) : FV :=
  if r = 0 then .fin neg 0 1
  else if r = d then .fin neg 1 1
  else if 2 * r ≤ d then inexactFix neg (sinFix (piFix * r / (2 * d)))
  else inexactFix neg (cosFix (piFix * (d - r) / (2 * d)))

/-- `fsint` (R270): sin of a turn count. -/
def fSint (a : Nat) : Nat × Word :=
  match unpackFV fp32 a with
  | .nan s => packOut fp32 false (.nan false, flagIf s fNV)
  | .inf _ => packOut fp32 false (.nan false, fNV)
  | .fin neg n d =>
    let n4 := 4 * (n % d)
    let q := n4 / d
    let r := n4 % d
    let v := if q % 2 = 0 then sinQuarter (neg != decide (q = 2)) r d else sinQuarter (neg != decide (q = 3)) (d - r) d
    match v with
    | .fin _ 0 _ => packOut fp32 false (.fin (neg && decide (n = 0)) 0 1, 0)
    | v => packOut fp32 false (v, 0)

/-- `fcost` (R270): cos of a turn count; an exact zero is +0 (R271). -/
def fCost (a : Nat) : Nat × Word :=
  match unpackFV fp32 a with
  | .nan s => packOut fp32 false (.nan false, flagIf s fNV)
  | .inf _ => packOut fp32 false (.nan false, fNV)
  | .fin _ n d =>
    let n4 := 4 * (n % d)
    let q := n4 / d
    let r := n4 % d
    let v := if q % 2 = 0 then sinQuarter (decide (q = 2)) (d - r) d else sinQuarter (decide (q = 1)) r d
    match v with
    | .fin _ 0 _ => packOut fp32 false (.fin false 0 1, 0)
    | v => packOut fp32 false (v, 0)

/-- 2^i times a magnitude of 512 fraction bits, exponents beyond every FP32 result clamped. -/
def pow2FV (i : Int) : FV :=
  let i' := if 400 < i then 400 else if i < -400 then -400 else i
  .fin false (scale2 1 1 i').1 (scale2 1 1 i').2

/-- `fexp2` (Table 10-13). -/
def fExp2 (a : Nat) : Nat × Word :=
  match unpackFV fp32 a with
  | .nan s => packOut fp32 false (.nan false, flagIf s fNV)
  | .inf neg => packOut fp32 false (if neg then (.fin false 0 1, 0) else (.inf false, 0))
  | .fin neg n d =>
    let q := n / d
    let r := n % d
    if r = 0 then packOut fp32 false (pow2FV (if neg then -(q : Int) else q), 0)
    else if 300 ≤ q then packOut fp32 false (pow2FV (if neg then -400 else 400), 0)
    else
      let i : Int := if neg then -(q : Int) - 1 else q
      let fr := if neg then d - r else r
      let m := 2 * expFix (ln2Fix * fr / d) + 1
      let p := scale2 m (2 ^ (fixBits + 1)) i
      packOut fp32 false (.fin false p.1 p.2, 0)

/-- `flog2` (Table 10-13). -/
def fLog2 (a : Nat) : Nat × Word :=
  match unpackFV fp32 a with
  | .nan s => packOut fp32 false (.nan false, flagIf s fNV)
  | .inf neg => packOut fp32 false (if neg then (.nan false, fNV) else (.inf false, 0))
  | .fin neg n d =>
    if n = 0 then packOut fp32 false (.inf true, fDZ)
    else if neg then packOut fp32 false (.nan false, fNV)
    else
      let e := expOf n d
      let m := scale2 n d (-e)
      if m.1 = m.2 then packOut fp32 false (fvOfInt e, 0)
      else
        let l : Int := ((2 * atanhFix (m.1 - m.2) (m.1 + m.2)) * fixOne / ln2Fix : Nat)
        let v : Int := e * (fixOne : Int) + l
        packOut fp32 false (inexactFix (decide (v < 0)) v.natAbs, 0)

end Sys2Proof.Machine
end

