-- ==== Sys2Proof/Machine/Flags.lean ====
section
/-! DEFINITION. Sticky flags, conditions and predicates (R216, R217, R226 to R228, R260). -/

namespace Sys2Proof.Machine
open Sys2Proof

/-- Flags ORed into FSTAT: a set flag is never lost (R217). -/
def orFlags (th : Thread) (f : Word) : Thread := { th with fstat := th.fstat ||| f, flagsNow := th.flagsNow ||| f }

/-- The conditions 0 to 5 on an ordering: eq, ne, lt, le, gt, ge (Table 9-1). -/
def condHolds (c : BitVec 3) (o : Ordering) : Bool :=
  match c.toNat, o with
  | 0, .eq => true
  | 1, .lt => true
  | 1, .gt => true
  | 2, .lt => true
  | 3, .lt => true
  | 3, .eq => true
  | 4, .gt => true
  | 5, .gt => true
  | 5, .eq => true
  | _, _ => false

/-- The order of two words as signed integers. -/
def cmpSigned (a b : Word) : Ordering := if a.slt b then .lt else if a = b then .eq else .gt
/-- The order of two words as unsigned integers. -/
def cmpUnsigned (a b : Word) : Ordering := if a < b then .lt else if a = b then .eq else .gt

/-- `fcmp` in a format: the predicate and the flags (R228). -/
def fCmp (f : Fmt) (c : BitVec 3) (a b : Nat) : Bool × Word :=
  let x := unpackFV f a
  let y := unpackFV f b
  match fvCmp x y with
  | none => (c = 1 || c = 6, flagIf (isSig x || isSig y || (2 ≤ c.toNat && c.toNat ≤ 5)) fNV)
  | some o => (if c = 6 then false else condHolds c o, 0)

/-- A sum or difference clamped to a range, with SAT where it clamps (R260). -/
def clampTo (lo hi x : Int) : Word × Word :=
  if x < lo then (BitVec.ofInt 32 lo, fSAT) else if hi < x then (BitVec.ofInt 32 hi, fSAT) else (BitVec.ofInt 32 x, 0)

/-- The word of the predicates: bit 0 reads 1 (R228). -/
def predWord (th : Thread) : Word := (th.q ||| 1#8).setWidth 32

/-- q1 to q7 written from a word (R228). -/
def predSet (th : Thread) (w : Word) : Thread := { th with q := w.setWidth 8 ||| 1#8 }

end Sys2Proof.Machine
end

