-- ==== Sys2Proof/Machine/Operands.lean ====
section
/-! DEFINITION. What each instruction names: the registers and predicates it reads and writes, its guard and its marker (R184,
R188, R192), whether a helper may execute it (R324), and whether it is a failable operation (Table 9-9). -/

namespace Sys2Proof.Machine
open Sys2Proof

/-- The operands of an instruction, for the checks of R188. -/
structure Opnds where
  guard : BitVec 4 := 0
  mark : Bool := false
  rd : List Nat := []
  wr : List Nat := []
  prd : List Nat := []
  pwr : List Nat := []
  barred : Bool := false
  failable : Bool := false
  deriving DecidableEq, Repr

/-- `n` registers from one on. -/
def spanFrom (b : Nat) : Nat → List Nat
  | 0 => []
  | n + 1 => b :: spanFrom (b + 1) n
/-- The registers of a span. -/
def spanOf (d : BitVec 6) (n : Nat) : List Nat := spanFrom d.toNat n
/-- The two registers of a pair (R253). -/
def pairOf (d : BitVec 6) : List Nat := [d.toNat, d.toNat + 1]
/-- One register, or a pair where W64 = 1 (Table 11-6). -/
def wordOrPair (w : BitVec 1) (d : BitVec 6) : List Nat := if w = 1 then pairOf d else [d.toNat]
/-- The body registers of `esc.in` that the register bound covers (R335). -/
def bodiesOf (b : BitVec 6) (k : BitVec 3) : List Nat := if 1 ≤ k.toNat ∧ k.toNat ≤ 4 then spanOf b k.toNat else []

/-- The operands of every instruction; a step without an encoding names none. -/
def operands : Instr → Opnds
  | .movFormH b d s => { mark := s = 1, rd := [b.toNat], wr := [d.toNat] }
  | .addFormH b d s => { mark := s = 1, rd := [d.toNat, b.toNat], wr := [d.toNat] }
  | .subFormH b d s => { mark := s = 1, rd := [d.toNat, b.toNat], wr := [d.toNat] }
  | .andFormH b d s => { mark := s = 1, rd := [d.toNat, b.toNat], wr := [d.toNat] }
  | .orFormH b d s => { mark := s = 1, rd := [d.toNat, b.toNat], wr := [d.toNat] }
  | .xorFormH b d s => { mark := s = 1, rd := [d.toNat, b.toNat], wr := [d.toNat] }
  | .shlFormH b d s => { mark := s = 1, rd := [d.toNat, b.toNat], wr := [d.toNat] }
  | .shrFormH b d s => { mark := s = 1, rd := [d.toNat, b.toNat], wr := [d.toNat] }
  | .addiFormH _ d s => { mark := s = 1, rd := [d.toNat], wr := [d.toNat] }
  | .mulFormH b d s => { mark := s = 1, rd := [d.toNat, b.toNat], wr := [d.toNat] }
  | .faddF32FormH b d s => { mark := s = 1, rd := [d.toNat, b.toNat], wr := [d.toNat] }
  | .fsubF32FormH b d s => { mark := s = 1, rd := [d.toNat, b.toNat], wr := [d.toNat] }
  | .fmulF32FormH b d s => { mark := s = 1, rd := [d.toNat, b.toNat], wr := [d.toNat] }
  | .fmaxF32FormH b d s => { mark := s = 1, rd := [d.toNat, b.toNat], wr := [d.toNat] }
  | .fminF32FormH b d s => { mark := s = 1, rd := [d.toNat, b.toNat], wr := [d.toNat] }
  | .moviFormH _ d s => { mark := s = 1, wr := [d.toNat] }
  | .add g b a d s => { guard := g, mark := s = 1, rd := [a.toNat, b.toNat], wr := [d.toNat] }
  | .sub g b a d s => { guard := g, mark := s = 1, rd := [a.toNat, b.toNat], wr := [d.toNat] }
  | .mul g b a d s => { guard := g, mark := s = 1, rd := [a.toNat, b.toNat], wr := [d.toNat] }
  | .mulhi g b a d s => { guard := g, mark := s = 1, rd := [a.toNat, b.toNat], wr := [d.toNat] }
  | .mulhu g b a d s => { guard := g, mark := s = 1, rd := [a.toNat, b.toNat], wr := [d.toNat] }
  | .and g b a d s => { guard := g, mark := s = 1, rd := [a.toNat, b.toNat], wr := [d.toNat] }
  | .or g b a d s => { guard := g, mark := s = 1, rd := [a.toNat, b.toNat], wr := [d.toNat] }
  | .xor g b a d s => { guard := g, mark := s = 1, rd := [a.toNat, b.toNat], wr := [d.toNat] }
  | .shl g b a d s => { guard := g, mark := s = 1, rd := [a.toNat, b.toNat], wr := [d.toNat] }
  | .shr g b a d s => { guard := g, mark := s = 1, rd := [a.toNat, b.toNat], wr := [d.toNat] }
  | .sar g b a d s => { guard := g, mark := s = 1, rd := [a.toNat, b.toNat], wr := [d.toNat] }
  | .min g b a d s => { guard := g, mark := s = 1, rd := [a.toNat, b.toNat], wr := [d.toNat] }
  | .max g b a d s => { guard := g, mark := s = 1, rd := [a.toNat, b.toNat], wr := [d.toNat] }
  | .minu g b a d s => { guard := g, mark := s = 1, rd := [a.toNat, b.toNat], wr := [d.toNat] }
  | .maxu g b a d s => { guard := g, mark := s = 1, rd := [a.toNat, b.toNat], wr := [d.toNat] }
  | .mov g b _ d s => { guard := g, mark := s = 1, rd := [b.toNat], wr := [d.toNat] }
  | .add64 g b a d s => { guard := g, mark := s = 1, rd := pairOf a ++ pairOf b, wr := pairOf d }
  | .sub64 g b a d s => { guard := g, mark := s = 1, rd := pairOf a ++ pairOf b, wr := pairOf d }
  | .addw g b a d s => { guard := g, mark := s = 1, rd := pairOf a ++ [b.toNat], wr := pairOf d }
  | .adduw g b a d s => { guard := g, mark := s = 1, rd := pairOf a ++ [b.toNat], wr := pairOf d }
  | .shl64 g b a d s => { guard := g, mark := s = 1, rd := pairOf a ++ [b.toNat], wr := pairOf d }
  | .shr64 g b a d s => { guard := g, mark := s = 1, rd := pairOf a ++ [b.toNat], wr := pairOf d }
  | .sar64 g b a d s => { guard := g, mark := s = 1, rd := pairOf a ++ [b.toNat], wr := pairOf d }
  | .mulw g b a d s => { guard := g, mark := s = 1, rd := [a.toNat, b.toNat], wr := pairOf d }
  | .addi _ a d s => { mark := s = 1, rd := [a.toNat], wr := [d.toNat] }
  | .andi _ a d s => { mark := s = 1, rd := [a.toNat], wr := [d.toNat] }
  | .clz a d s => { mark := s = 1, rd := [a.toNat], wr := [d.toNat] }
  | .ctz a d s => { mark := s = 1, rd := [a.toNat], wr := [d.toNat] }
  | .popc a d s => { mark := s = 1, rd := [a.toNat], wr := [d.toNat] }
  | .brev a d s => { mark := s = 1, rd := [a.toNat], wr := [d.toNat] }
  | .sext8 a d s => { mark := s = 1, rd := [a.toNat], wr := [d.toNat] }
  | .sext16 a d s => { mark := s = 1, rd := [a.toNat], wr := [d.toNat] }
  | .addsat b a d s => { mark := s = 1, rd := [a.toNat, b.toNat], wr := [d.toNat] }
  | .subsat b a d s => { mark := s = 1, rd := [a.toNat, b.toNat], wr := [d.toNat] }
  | .addsatu b a d s => { mark := s = 1, rd := [a.toNat, b.toNat], wr := [d.toNat] }
  | .subsatu b a d s => { mark := s = 1, rd := [a.toNat, b.toNat], wr := [d.toNat] }
  | .rol b a d s => { mark := s = 1, rd := [a.toNat, b.toNat], wr := [d.toNat] }
  | .bfx b a d s => { mark := s = 1, rd := [a.toNat, b.toNat], wr := [d.toNat] }
  | .liLo _ d s => { mark := s = 1, wr := [d.toNat] }
  | .liHi _ d s => { mark := s = 1, rd := [d.toNat], wr := [d.toNat] }
  | .icmp g b a _ q s => { guard := g, mark := s = 1, rd := [a.toNat, b.toNat], pwr := [q.toNat] }
  | .ucmp g b a _ q s => { guard := g, mark := s = 1, rd := [a.toNat, b.toNat], pwr := [q.toNat] }
  | .fcmpF32 g b a _ q s => { guard := g, mark := s = 1, rd := [a.toNat, b.toNat], pwr := [q.toNat] }
  | .fcmpF64 g b a _ q s => { guard := g, mark := s = 1, rd := pairOf a ++ pairOf b, pwr := [q.toNat] }
  | .pand g b a q s => { guard := g, mark := s = 1, prd := [a.toNat, b.toNat], pwr := [q.toNat] }
  | .por g b a q s => { guard := g, mark := s = 1, prd := [a.toNat, b.toNat], pwr := [q.toNat] }
  | .pxor g b a q s => { guard := g, mark := s = 1, prd := [a.toNat, b.toNat], pwr := [q.toNat] }
  | .pandn g b a q s => { guard := g, mark := s = 1, prd := [a.toNat, b.toNat], pwr := [q.toNat] }
  | .pnot g a q s => { guard := g, mark := s = 1, prd := [a.toNat], pwr := [q.toNat] }
  | .pmov g a q s => { guard := g, mark := s = 1, prd := [a.toNat], pwr := [q.toNat] }
  | .pget g d s => { guard := g, mark := s = 1, wr := [d.toNat], prd := [1, 2, 3, 4, 5, 6, 7] }
  | .pset g a s => { guard := g, mark := s = 1, rd := [a.toNat], pwr := [1, 2, 3, 4, 5, 6, 7] }
  | .faddF32 g b a d s => { guard := g, mark := s = 1, rd := [a.toNat, b.toNat], wr := [d.toNat] }
  | .fsubF32 g b a d s => { guard := g, mark := s = 1, rd := [a.toNat, b.toNat], wr := [d.toNat] }
  | .fmulF32 g b a d s => { guard := g, mark := s = 1, rd := [a.toNat, b.toNat], wr := [d.toNat] }
  | .fminF32 g b a d s => { guard := g, mark := s = 1, rd := [a.toNat, b.toNat], wr := [d.toNat] }
  | .fmaxF32 g b a d s => { guard := g, mark := s = 1, rd := [a.toNat, b.toNat], wr := [d.toNat] }
  | .faddRzF32 g b a d s => { guard := g, mark := s = 1, rd := [a.toNat, b.toNat], wr := [d.toNat] }
  | .fmulRzF32 g b a d s => { guard := g, mark := s = 1, rd := [a.toNat, b.toNat], wr := [d.toNat] }
  | .fsgnjF32 g b a d s => { guard := g, mark := s = 1, rd := [a.toNat, b.toNat], wr := [d.toNat] }
  | .faddF64 g b a d s => { guard := g, mark := s = 1, rd := pairOf a ++ pairOf b, wr := pairOf d }
  | .fsubF64 g b a d s => { guard := g, mark := s = 1, rd := pairOf a ++ pairOf b, wr := pairOf d }
  | .fmulF64 g b a d s => { guard := g, mark := s = 1, rd := pairOf a ++ pairOf b, wr := pairOf d }
  | .fminF64 g b a d s => { guard := g, mark := s = 1, rd := pairOf a ++ pairOf b, wr := pairOf d }
  | .fmaxF64 g b a d s => { guard := g, mark := s = 1, rd := pairOf a ++ pairOf b, wr := pairOf d }
  | .faddRzF64 g b a d s => { guard := g, mark := s = 1, rd := pairOf a ++ pairOf b, wr := pairOf d }
  | .fmulRzF64 g b a d s => { guard := g, mark := s = 1, rd := pairOf a ++ pairOf b, wr := pairOf d }
  | .fsgnjF64 g b a d s => { guard := g, mark := s = 1, rd := pairOf a ++ pairOf b, wr := pairOf d }
  | .faddF16x2 g b a d s => { guard := g, mark := s = 1, rd := [a.toNat, b.toNat], wr := [d.toNat] }
  | .fmulF16x2 g b a d s => { guard := g, mark := s = 1, rd := [a.toNat, b.toNat], wr := [d.toNat] }
  | .ffmaF16x2 g b a d s => { guard := g, mark := s = 1, rd := [a.toNat, b.toNat, d.toNat], wr := [d.toNat] }
  | .fmaxF16x2 g b a d s => { guard := g, mark := s = 1, rd := [a.toNat, b.toNat], wr := [d.toNat] }
  | .faddBf16x2 g b a d s => { guard := g, mark := s = 1, rd := [a.toNat, b.toNat], wr := [d.toNat] }
  | .fmulBf16x2 g b a d s => { guard := g, mark := s = 1, rd := [a.toNat, b.toNat], wr := [d.toNat] }
  | .ffmaBf16x2 g b a d s => { guard := g, mark := s = 1, rd := [a.toNat, b.toNat, d.toNat], wr := [d.toNat] }
  | .fmaxBf16x2 g b a d s => { guard := g, mark := s = 1, rd := [a.toNat, b.toNat], wr := [d.toNat] }
  | .ffmaF32 c b a d s => { mark := s = 1, rd := [a.toNat, b.toNat, c.toNat], wr := [d.toNat] }
  | .ffmaF64 c b a d s => { mark := s = 1, rd := pairOf a ++ pairOf b ++ pairOf c, wr := pairOf d }
  | .cvtF32F64 a d s => { mark := s = 1, rd := pairOf a, wr := [d.toNat] }
  | .cvtRzF32F64 a d s => { mark := s = 1, rd := pairOf a, wr := [d.toNat] }
  | .cvtF64F32 a d s => { mark := s = 1, rd := [a.toNat], wr := pairOf d }
  | .cvtF32S32 a d s => { mark := s = 1, rd := [a.toNat], wr := [d.toNat] }
  | .cvtF32Uns32 a d s => { mark := s = 1, rd := [a.toNat], wr := [d.toNat] }
  | .cvtS32F32 a d s => { mark := s = 1, rd := [a.toNat], wr := [d.toNat] }
  | .cvtRzS32F32 a d s => { mark := s = 1, rd := [a.toNat], wr := [d.toNat] }
  | .cvtF64S32 a d s => { mark := s = 1, rd := [a.toNat], wr := pairOf d }
  | .cvtS32F64 a d s => { mark := s = 1, rd := pairOf a, wr := [d.toNat] }
  | .cvtRzS32F64 a d s => { mark := s = 1, rd := pairOf a, wr := [d.toNat] }
  | .cvtF16x2F32 b a d s => { mark := s = 1, rd := [a.toNat, b.toNat], wr := [d.toNat] }
  | .cvtBf16x2F32 b a d s => { mark := s = 1, rd := [a.toNat, b.toNat], wr := [d.toNat] }
  | .cvtRzBf16x2F32 b a d s => { mark := s = 1, rd := [a.toNat, b.toNat], wr := [d.toNat] }
  | .cvtF32F16 _ a d s => { mark := s = 1, rd := [a.toNat], wr := [d.toNat] }
  | .cvtF32Bf16 _ a d s => { mark := s = 1, rd := [a.toNat], wr := [d.toNat] }
  | .d8Pack _ a d s => { mark := s = 1, rd := [a.toNat, d.toNat], wr := [d.toNat] }
  | .d8Unpack _ a d s => { mark := s = 1, rd := [a.toNat], wr := [d.toNat] }
  | .cvtS8F32 _ a d s => { mark := s = 1, rd := [a.toNat, d.toNat], wr := [d.toNat] }
  | .cvtF32S8 _ a d s => { mark := s = 1, rd := [a.toNat], wr := [d.toNat] }
  | .fsint a d s => { mark := s = 1, rd := [a.toNat], wr := [d.toNat] }
  | .fcost a d s => { mark := s = 1, rd := [a.toNat], wr := [d.toNat] }
  | .fexp2 a d s => { mark := s = 1, rd := [a.toNat], wr := [d.toNat] }
  | .flog2 a d s => { mark := s = 1, rd := [a.toNat], wr := [d.toNat] }
  | .frcp a d s => { mark := s = 1, rd := [a.toNat], wr := [d.toNat] }
  | .frsq a d s => { mark := s = 1, rd := [a.toNat], wr := [d.toNat] }
  | .fsqrt a d s => { mark := s = 1, rd := [a.toNat], wr := [d.toNat] }
  | .fdiv b a d s => { mark := s = 1, rd := [a.toNat, b.toNat], wr := [d.toNat] }
  | .frcpF64 a d s => { mark := s = 1, rd := pairOf a, wr := pairOf d }
  | .fsqrtF64 a d s => { mark := s = 1, rd := pairOf a, wr := pairOf d }
  | .fdivF64 b a d s => { mark := s = 1, rd := pairOf a ++ pairOf b, wr := pairOf d }
  | .lswap _ _ a d s => { mark := s = 1, rd := [a.toNat], wr := [d.toNat], barred := true }
  | .shfl _ b a d s => { mark := s = 1, rd := [a.toNat, b.toNat], wr := [d.toNat], barred := true }
  | .bcast _ _ a d s => { mark := s = 1, rd := [a.toNat], wr := [d.toNat], barred := true }
  | .ballot _ a d s => { mark := s = 1, wr := pairOf d, prd := [a.toNat], barred := true }
  | .redOp _ _ a d s => { mark := s = 1, rd := [a.toNat], wr := [d.toNat], barred := true }
  | .redFopF32 _ _ a d s => { mark := s = 1, rd := [a.toNat], wr := [d.toNat], barred := true }
  | .scanAdd _ a d s => { mark := s = 1, rd := [a.toNat], wr := [d.toNat], barred := true }
  | .redFopF64 _ _ a d s => { mark := s = 1, rd := pairOf a, wr := pairOf d, barred := true }
  | .br _ _ q s => { mark := s = 1, prd := [q.toNat] }
  | .call _ s => { mark := s = 1, wr := [0, 1] }
  | .exit s => { mark := s = 1, barred := true }
  | .jr a s => { mark := s = 1, rd := pairOf a }
  | .jalr a d s => { mark := s = 1, rd := pairOf a, wr := pairOf d }
  | .ret a s => { mark := s = 1, rd := pairOf a }
  | .land s => { mark := s = 1 }
  | .join _ s => { mark := s = 1, barred := true }
  | .leave _ s => { mark := s = 1, barred := true }
  | .waitm _ s => { mark := s = 1, barred := true }
  | .mrd _ d s => { mark := s = 1, wr := pairOf d, barred := true }
  | .hzrd d s => { mark := s = 1, wr := [d.toNat] }
  | .hzwait _ s => { mark := s = 1 }
  | .hzbr _ s => { mark := s = 1 }
  | .hzbrn _ s => { mark := s = 1 }
  | .hzreplay s => { mark := s = 1, barred := true }
  | .ld _ w p a d s => { mark := s = 1, rd := pairOf a, wr := spanOf d (spanOfWidth w), failable := decide (p ≠ 0) }
  | .ldSx _ w p a d s => { mark := s = 1, rd := pairOf a, wr := spanOf d (spanOfWidth w), failable := decide (p ≠ 0) }
  | .st _ w p a d s => { mark := s = 1, rd := pairOf a ++ spanOf d (spanOfWidth w), failable := decide (p ≠ 0) }
  | .ldS _ w p a d s => { mark := s = 1, rd := pairOf a, wr := spanOf d (spanOfWidth w), failable := decide (p ≠ 0) }
  | .ldSxS _ w p a d s => { mark := s = 1, rd := pairOf a, wr := spanOf d (spanOfWidth w), failable := decide (p ≠ 0) }
  | .stS _ w p a d s => { mark := s = 1, rd := pairOf a ++ spanOf d (spanOfWidth w), failable := decide (p ≠ 0) }
  | .atomAdd w _ b a d s => { mark := s = 1, rd := pairOf a ++ wordOrPair w b, wr := wordOrPair w d, failable := true }
  | .atomMin w _ b a d s => { mark := s = 1, rd := pairOf a ++ wordOrPair w b, wr := wordOrPair w d, failable := true }
  | .atomMax w _ b a d s => { mark := s = 1, rd := pairOf a ++ wordOrPair w b, wr := wordOrPair w d, failable := true }
  | .atomMinu w _ b a d s => { mark := s = 1, rd := pairOf a ++ wordOrPair w b, wr := wordOrPair w d, failable := true }
  | .atomMaxu w _ b a d s => { mark := s = 1, rd := pairOf a ++ wordOrPair w b, wr := wordOrPair w d, failable := true }
  | .atomAnd w _ b a d s => { mark := s = 1, rd := pairOf a ++ wordOrPair w b, wr := wordOrPair w d, failable := true }
  | .atomOr w _ b a d s => { mark := s = 1, rd := pairOf a ++ wordOrPair w b, wr := wordOrPair w d, failable := true }
  | .atomXor w _ b a d s => { mark := s = 1, rd := pairOf a ++ wordOrPair w b, wr := wordOrPair w d, failable := true }
  | .atomExch w _ b a d s => { mark := s = 1, rd := pairOf a ++ wordOrPair w b, wr := wordOrPair w d, failable := true }
  | .atomCas w _ b a d s => { mark := s = 1, rd := pairOf a ++ wordOrPair w b ++ wordOrPair w d, wr := wordOrPair w d, failable := true }
  | .atomFadd w _ b a d s => { mark := s = 1, rd := pairOf a ++ wordOrPair w b, wr := wordOrPair w d, failable := true }
  | .atomFaddRa w _ b a d s => { mark := s = 1, rd := pairOf a ++ wordOrPair w b, wr := wordOrPair w d, failable := true }
  | .atomFmin w _ b a d s => { mark := s = 1, rd := pairOf a ++ wordOrPair w b, wr := wordOrPair w d, failable := true }
  | .atomFmax w _ b a d s => { mark := s = 1, rd := pairOf a ++ wordOrPair w b, wr := wordOrPair w d, failable := true }
  | .stf w b a d s => { mark := s = 1, rd := pairOf a ++ wordOrPair w d ++ pairOf b, failable := true }
  | .phaseTrain s => { mark := s = 1 }
  | .phaseMovement s => { mark := s = 1 }
  | .phaseCalibre s => { mark := s = 1 }
  | .phaseDevice s => { mark := s = 1 }
  | .phaseDomain s => { mark := s = 1 }
  | .fenceTrain s => { mark := s = 1 }
  | .fenceMovement s => { mark := s = 1 }
  | .fenceCalibre s => { mark := s = 1 }
  | .fenceDevice s => { mark := s = 1 }
  | .fenceDomain s => { mark := s = 1 }
  | .barTrain _ s => { mark := s = 1, barred := true }
  | .barMovement _ a s => { mark := s = 1, rd := [a.toNat], barred := true }
  | .barCalibre _ a s => { mark := s = 1, rd := [a.toNat], barred := true }
  | .barDevice _ a s => { mark := s = 1, rd := [a.toNat], barred := true }
  | .rflushDev b a s => { mark := s = 1, rd := pairOf a ++ [b.toNat], failable := true }
  | .rflushRem b a s => { mark := s = 1, rd := pairOf a ++ [b.toNat], failable := true }
  | .rflushHost b a s => { mark := s = 1, rd := pairOf a ++ [b.toNat], failable := true }
  | .rinvalDev b a s => { mark := s = 1, rd := pairOf a ++ [b.toNat], failable := true }
  | .rinvalRem b a s => { mark := s = 1, rd := pairOf a ++ [b.toNat], failable := true }
  | .rinvalHost b a s => { mark := s = 1, rd := pairOf a ++ [b.toNat], failable := true }
  | .prsWait b a s => { mark := s = 1, rd := pairOf a ++ [b.toNat] }
  | .prsTest a q s => { mark := s = 1, rd := pairOf a, pwr := [q.toNat] }
  | .mxOp a s => { mark := s = 1, rd := pairOf a, barred := true }
  | .mxCommit d s => { mark := s = 1, wr := [d.toNat], barred := true }
  | .mxWait _ s => { mark := s = 1, barred := true }
  | .mxRd _ a d s => { mark := s = 1, rd := [a.toNat], wr := [d.toNat], barred := true }
  | .mxWr b a _ s => { mark := s = 1, rd := [a.toNat, b.toNat], barred := true }
  | .mxRd64 _ a d s => { mark := s = 1, rd := [a.toNat], wr := pairOf d, barred := true }
  | .mxWr64 b a _ s => { mark := s = 1, rd := [a.toNat] ++ pairOf b, barred := true }
  | .mxZero _ s => { mark := s = 1, barred := true }
  | .cpTileLd b a d s => { mark := s = 1, rd := pairOf a ++ spanOf b 6 ++ pairOf d, barred := true }
  | .cpTileSt b a d s => { mark := s = 1, rd := pairOf a ++ spanOf b 6 ++ pairOf d, barred := true }
  | .rnext d s => { mark := s = 1, wr := pairOf d }
  | .rleave s => { mark := s = 1 }
  | .rjoin s => { mark := s = 1, pwr := [7], barred := true }
  | .rjoinAdd _ d s => { mark := s = 1, rd := [d.toNat], wr := [d.toNat], pwr := [7], barred := true }
  | .rjoinMin _ d s => { mark := s = 1, rd := [d.toNat], wr := [d.toNat], pwr := [7], barred := true }
  | .rjoinMax _ d s => { mark := s = 1, rd := [d.toNat], wr := [d.toNat], pwr := [7], barred := true }
  | .rjoinMinu _ d s => { mark := s = 1, rd := [d.toNat], wr := [d.toNat], pwr := [7], barred := true }
  | .rjoinMaxu _ d s => { mark := s = 1, rd := [d.toNat], wr := [d.toNat], pwr := [7], barred := true }
  | .rjoinAnd _ d s => { mark := s = 1, rd := [d.toNat], wr := [d.toNat], pwr := [7], barred := true }
  | .rjoinOr _ d s => { mark := s = 1, rd := [d.toNat], wr := [d.toNat], pwr := [7], barred := true }
  | .rjoinXor _ d s => { mark := s = 1, rd := [d.toNat], wr := [d.toNat], pwr := [7], barred := true }
  | .rjoinFaddF32 _ d s => { mark := s = 1, rd := [d.toNat], wr := [d.toNat], pwr := [7], barred := true }
  | .rjoinFminF32 _ d s => { mark := s = 1, rd := [d.toNat], wr := [d.toNat], pwr := [7], barred := true }
  | .rjoinFmaxF32 _ d s => { mark := s = 1, rd := [d.toNat], wr := [d.toNat], pwr := [7], barred := true }
  | .rjoinFaddF64 _ d s => { mark := s = 1, rd := pairOf d, wr := pairOf d, pwr := [7], barred := true }
  | .rjoinFminF64 _ d s => { mark := s = 1, rd := pairOf d, wr := pairOf d, pwr := [7], barred := true }
  | .rjoinFmaxF64 _ d s => { mark := s = 1, rd := pairOf d, wr := pairOf d, pwr := [7], barred := true }
  | .recruit _ b a d s => { mark := s = 1, rd := [d.toNat] ++ [a.toNat] ++ pairOf b, wr := [d.toNat] }
  | .escOpen _ s => { mark := s = 1, barred := true, failable := true }
  | .escIn b a k _ s => { mark := s = 1, rd := [a.toNat] ++ bodiesOf b k, failable := true }
  | .escEnd _ s => { mark := s = 1, barred := true, failable := true }
  | .escNext _ d s => { mark := s = 1, wr := pairOf d }
  | .escDone b _ s => { mark := s = 1, rd := [b.toNat] }
  | .xqCfg a s => { mark := s = 1, rd := pairOf a, barred := true, failable := true }
  | .xqIn b a s => { mark := s = 1, rd := [a.toNat] ++ spanOf b 8, failable := true }
  | .xqTake a d s => { mark := s = 1, rd := pairOf a, wr := [d.toNat], barred := true }
  | .xqDone b a s => { mark := s = 1, rd := pairOf a ++ pairOf b, failable := true }
  | .tkSpawn b a s => { mark := s = 1, rd := pairOf a ++ [b.toNat], barred := true }
  | .tkHand a s => { mark := s = 1, rd := pairOf a, barred := true }
  | .krd _ d s => { mark := s = 1, wr := [d.toNat], barred := true }
  | .rgSend a _ s => { mark := s = 1, rd := [a.toNat], barred := true }
  | .rgRecv _ d s => { mark := s = 1, wr := pairOf d, barred := true }
  | .rgEos _ s => { mark := s = 1, barred := true }
  | .phEnd d s => { mark := s = 1, wr := [d.toNat], barred := true }
  | .srd a d s => { mark := s = 1, wr := (if a = 8 then pairOf d else [d.toNat]) }
  | .csrr _ d s => { mark := s = 1, wr := [d.toNat] }
  | .csrw b _ s => { mark := s = 1, rd := [b.toNat], barred := true }
  | .csrs b _ s => { mark := s = 1, rd := [b.toNat], barred := true }
  | .csrc b _ s => { mark := s = 1, rd := [b.toNat], barred := true }
  | .eret s => { mark := s = 1, barred := true }
  | .brk _ s => { mark := s = 1 }
  | .starvedListJoin _ => {}
  | .loadResultArrival _ _ => {}
  | .translationWalkComplete _ _ _ => {}
  | .serviceableFaultServiced _ _ => {}
  | .translationShootdown _ _ _ _ => {}
  | .classifierRun _ _ => {}
  | .rebase => {}
  | .ltTick _ => {}
  | .overflowAreaServiced _ _ => {}
  | .scratchFillArrival _ _ => {}
  | .engineReadDone _ _ => {}
  | .fillFailure _ _ _ => {}
  | .rangeWalkStart _ _ => {}
  | .gets _ _ => {}
  | .getx _ _ => {}
  | .upg _ _ => {}
  | .data _ _ => {}
  | .fwds _ _ => {}
  | .fwdx _ _ => {}
  | .fdata _ _ => {}
  | .fack _ _ => {}
  | .inv _ _ => {}
  | .iack _ _ => {}
  | .recalls _ _ => {}
  | .recalli _ _ => {}
  | .rdata _ _ => {}
  | .wb _ _ => {}
  | .evict _ _ => {}
  | .wback _ _ => {}
  | .claim _ _ => {}
  | .claimok _ _ => {}
  | .merge _ _ => {}
  | .mdata _ _ => {}
  | .edone _ _ => {}
  | .serviceTrainAtomic _ => {}
  | .dieLinkLaneFailure _ _ => {}
  | .patrolScrub _ => {}
  | .fabricRequest _ => {}
  | .fabricReply _ _ => {}
  | .fabricAcknowledgement _ _ => {}
  | .noreply _ => {}
  | .idleFlit _ _ => {}
  | .remoteGiveUp _ => {}
  | .replyCacheExpiry _ _ => {}
  | .serialLaneRetirement _ => {}
  | .linkRetrainComplete _ => {}
  | .linkDown _ _ => {}
  | .linkUp _ _ => {}
  | .timeFlit _ _ => {}
  | .timeBroadcast => {}
  | .timeFlitTimeout => {}
  | .migrationForwardEnd _ => {}
  | .writebackFailure _ _ => {}
  | .snpdata _ => {}
  | .snpinv _ => {}
  | .snpcur _ => {}
  | .cxlResponse _ _ => {}
  | .hostInboundRead _ _ => {}
  | .hostInboundWrite _ _ => {}
  | .mxAccept _ => {}
  | .mxCommandDone _ => {}
  | .mxOperandFault _ => {}
  | .cpAccept _ _ => {}
  | .cpCommandDone _ => {}
  | .cpFault _ => {}
  | .escapementArrival _ _ => {}
  | .pushWatchdogExpiry _ _ => {}
  | .tokenAcceptance _ _ => {}
  | .queueFiring _ => {}
  | .gangPlacement _ => {}
  | .unitMigration _ _ _ _ _ => {}
  | .taskDispatch _ _ => {}
  | .trainRetire _ => {}
  | .domainSweep _ => {}
  | .trapDelivery _ => {}
  | .helperFailure _ => {}
  | .watchdogExpiry _ => {}
  | .timeSliceExpiry _ _ => {}
  | .partialEviction _ _ => {}
  | .trainRestoration _ => {}
  | .breakpointMatch _ _ _ => {}
  | .traceSample _ _ => {}
  | .checkpointCut _ => {}
  | .logAreaThreshold _ => {}
  | .replayGateTimeout _ => {}
  | .junction105c _ => {}
  | .thermalRecovery _ => {}
  | .junction115c _ => {}
  | .deviceReset _ => {}
  | .newFirmwareImage _ => {}
  | .submitLaunch _ _ _ => {}
  | .setLease _ _ _ => {}
  | .readCounters _ _ => {}
  | .setTraceRing _ _ _ _ => {}
  | .setSampling _ _ _ => {}
  | .setBreakpoint _ _ _ => {}
  | .haltRequest _ _ => {}
  | .debugResume _ _ => {}
  | .setCheckpointPeriod _ _ => {}
  | .replay _ _ => {}
  | .setHostWindow _ _ _ _ => {}
  | .setInboundWindow _ _ _ => {}
  | .pageMigration _ _ _ _ _ => {}
  | .regionModeChange _ _ _ _ _ => {}
  | .ownerTagChange _ _ _ _ => {}
  | .attestationReport _ _ => {}
  | .registerWrite _ _ => {}
  | .illegalInstruction => {}
  | .variableLatencyResultArrival _ _ => {}
  | .atomicReplyArrival _ _ => {}
  | .performedAcknowledgement _ _ => {}
  | .dieLinkCrcFailure _ _ => {}
  | .dieLinkRetrainComplete _ _ => {}
  | .flitCrcFailure _ => {}

/-! The forms of the memory instructions. -/

/-- What a load or store is: a store or a load, strong or weak by its major, sign-extended, its width code, space and data
register. -/
structure MemForm where
  store : Bool
  strong : Bool
  sx : Bool
  width : Nat
  space : Nat
  d : Nat
  deriving DecidableEq, Repr

/-- The form of a load or store (Table 11-1). -/
def memForm? : Instr → Option MemForm
  | .ld _ w p _ d _ => some ⟨false, false, false, w.toNat, p.toNat, d.toNat⟩
  | .ldSx _ w p _ d _ => some ⟨false, false, true, w.toNat, p.toNat, d.toNat⟩
  | .st _ w p _ d _ => some ⟨true, false, false, w.toNat, p.toNat, d.toNat⟩
  | .ldS _ w p _ d _ => some ⟨false, true, false, w.toNat, p.toNat, d.toNat⟩
  | .ldSxS _ w p _ d _ => some ⟨false, true, true, w.toNat, p.toNat, d.toNat⟩
  | .stS _ w p _ d _ => some ⟨true, true, false, w.toNat, p.toNat, d.toNat⟩
  | _ => none

/-- What an atomic is: its operation (Table 11-7), width, space and result register. -/
structure AtomForm where
  op : BitVec 4
  w64 : Bool
  space : Nat
  d : Nat
  deriving DecidableEq, Repr

/-- The space of SP (Table 11-6). -/
def atomSpace (p : BitVec 2) : Nat := if p = 0 then 1 else if p = 1 then 2 else 4
/-- The form of an atomic. -/
def atomForm? : Instr → Option AtomForm
  | .atomAdd w p _ _ d _ => some ⟨0, w == 1, atomSpace p, d.toNat⟩
  | .atomMin w p _ _ d _ => some ⟨1, w == 1, atomSpace p, d.toNat⟩
  | .atomMax w p _ _ d _ => some ⟨2, w == 1, atomSpace p, d.toNat⟩
  | .atomMinu w p _ _ d _ => some ⟨3, w == 1, atomSpace p, d.toNat⟩
  | .atomMaxu w p _ _ d _ => some ⟨4, w == 1, atomSpace p, d.toNat⟩
  | .atomAnd w p _ _ d _ => some ⟨5, w == 1, atomSpace p, d.toNat⟩
  | .atomOr w p _ _ d _ => some ⟨6, w == 1, atomSpace p, d.toNat⟩
  | .atomXor w p _ _ d _ => some ⟨7, w == 1, atomSpace p, d.toNat⟩
  | .atomExch w p _ _ d _ => some ⟨8, w == 1, atomSpace p, d.toNat⟩
  | .atomCas w p _ _ d _ => some ⟨9, w == 1, atomSpace p, d.toNat⟩
  | .atomFadd w p _ _ d _ => some ⟨10, w == 1, atomSpace p, d.toNat⟩
  | .atomFaddRa w p _ _ d _ => some ⟨11, w == 1, atomSpace p, d.toNat⟩
  | .atomFmin w p _ _ d _ => some ⟨12, w == 1, atomSpace p, d.toNat⟩
  | .atomFmax w p _ _ d _ => some ⟨13, w == 1, atomSpace p, d.toNat⟩
  | _ => none

/-- The bytes of a form's access. -/
def MemForm.bytes (f : MemForm) : Nat := 2 ^ f.width
/-- The bytes of an atomic's word. -/
def AtomForm.bytes (f : AtomForm) : Nat := if f.w64 then 8 else 4
/-- The bytes that an operation reads or writes at its address. -/
def accessLen (i : Instr) : Nat :=
  match memForm? i with
  | some f => f.bytes
  | none =>
    match atomForm? i with
    | some f => f.bytes
    | none => match i with
      | .stf w _ _ _ _ => if w = 1 then 8 else 4
      | _ => 0

/-- The KIND of a memory instruction, for one that is failable (Tables 9-9 and 11-3). -/
def memKind? (i : Instr) : Option Nat :=
  match memForm? i with
  | some f =>
    if f.space = 0 then none
    else if f.space = 1 then some ((if f.store then 0x20 else 0x10) + (if f.strong then 1 else 0))
    else some (if f.store then 0x22 else 0x11)
  | none =>
    match atomForm? i with
    | some f => some (if f.space = 1 then 0x30 else 0x31)
    | none => match i with
      | .stf _ _ _ _ _ => some 0x23
      | _ => none
/-- The space of a failable memory instruction. -/
def memSpace (i : Instr) : Nat :=
  match memForm? i with
  | some f => f.space
  | none => match atomForm? i with
    | some f => f.space
    | none => 2

end Sys2Proof.Machine
end

