-- ==== Sys2Proof/Machine/Routes.lean ====
section
/-! DEFINITION. The paths of requests through the fabric (R411, R413 to R415). -/

namespace Sys2Proof.Machine
open Sys2Proof

/-- The device at a row and a column (R5). -/
def deviceAt (row col : Nat) : Nat := row * 24 + col
/-- The row of a device. -/
def rowOf (d : Nat) : Nat := d / 24
/-- The column of a device. -/
def colOf (d : Nat) : Nat := d % 24
/-- The key of a link between two devices. -/
def linkKey (a b : Nat) : Nat := min a b * 512 + max a b
/-- A path without repeated devices in a row. -/
def compress : List Nat → List Nat
  | a :: b :: r => if a = b then compress (b :: r) else a :: compress (b :: r)
  | l => l
/-- The links of a path. -/
def pathLinks : List Nat → List Nat
  | a :: b :: r => linkKey a b :: pathLinks (b :: r)
  | _ => []
/-- Whether every link of a path is up. -/
def pathUp (s : State) (p : List Nat) : Bool := (pathLinks p).all fun k => !s.down.contains k

/-- The paths of a lane from a source to a destination in the order of R413 and R414. For a pair that shares a row or a column the moves
that R414 lists for three-hop detours collapse to two hops, and are kept so. (DEDUCED, log entry 44.) -/
def pathsOf (src dst lane : Nat) : List (List Nat) :=
  let r := rowOf src
  let c := colOf src
  let r' := rowOf dst
  let c' := colOf dst
  let viaRow := [src, deviceAt r c', dst]
  let viaCol := [src, deviceAt r' c, dst]
  let through := if c = c' then
      (upTo 16).map fun x => compress [src, deviceAt x c, deviceAt x c', dst]
    else (upTo 24).map fun x => compress [src, deviceAt r x, deviceAt r' x, dst]
  if r = r' ∨ c = c' then
    let peers := (upTo 384).filter fun d => decide (d ≠ src) && decide (d ≠ dst) &&
      (if r = r' then decide (rowOf d = r) else decide (colOf d = c))
    [src, dst] :: peers.map (fun d => [src, d, dst]) ++ through
  else (if lane < 4 then [viaRow, viaCol] else [viaCol, viaRow]) ++ through
/-- The path that a lane to a destination takes while it has no request outstanding: the first with every link up. -/
def freshPath (s : State) (dst lane : Nat) : Option (List Nat) :=
  (pathsOf Config.deviceId dst lane).find? (pathUp s)
/-- Whether a request of a lane to a destination is outstanding. -/
def laneBusy (s : State) (dst lane : Nat) : Bool :=
  s.out.any fun p => p.2.host = false && p.2.dst = dst && p.2.lane = lane && decide (0 < p.2.copies)
/-- The path of a lane: the one it was rebound to while that lane is busy (R415). -/
def pathOf (s : State) (dst lane : Nat) : Option (List Nat) :=
  match mapGet? s.rebound (dst * 8 + lane) with
  | some p => if laneBusy s dst lane && pathUp s p then some p else freshPath s dst lane
  | none => freshPath s dst lane
/-- Whether a request to a destination can leave this device: the loop-back always can (R12, R414). -/
def reachable (s : State) (dst lane : Nat) : Bool := decide (dst = Config.deviceId) || (pathOf s dst lane).isSome

end Sys2Proof.Machine
end

