-- ==== Sys2Proof/Machine/Link.lean ====
section
/-! DEFINITION. The fabric links of the device: flits, replay buffers and serial lanes (R411, R412, R416). -/

namespace Sys2Proof.Machine
open Sys2Proof

/-- The device that a port of this device leads to (R411). -/
def portPeer (p : Nat) : Nat :=
  let me := Config.deviceId
  if p < 23 then deviceAt (rowOf me) (if p < colOf me then p else p + 1)
  else deviceAt (if p - 23 < rowOf me then p - 23 else p - 22) (colOf me)
/-- The port of this device that leads to a peer. -/
def portTo (d : Nat) : Option Nat := (upTo 38).find? fun p => portPeer p = d
/-- A link of this device by port. -/
def fabLink (s : State) (p : Nat) : FabLink := mapGetD s.fabLinks p {}
/-- A link of this device put in place. -/
def fabLinkPut (s : State) (p : Nat) (l : FabLink) : State := { s with fabLinks := mapSet s.fabLinks p l }
/-- The port that a path takes from this device. -/
def firstPort : Option (List Nat) → Option Nat
  | some (_ :: d :: _) => portTo d
  | _ => none

/-! Flits (R412, Table 22-1). -/

/-- One byte taken into a CRC-32C: polynomial 0x1EDC_6F41, low bit first. -/
def crc32cByte (c : Word) (b : Byte) : Word :=
  (upTo 8).foldl (fun (c : Word) _ => if c.getLsbD 0 then (c >>> 1) ^^^ 0x82F63B78 else c >>> 1) (c ^^^ b.setWidth 32)
/-- The CRC-32C of bytes, as the name is used elsewhere: low bit first, from ones, complemented. (PRESUMED, log entry 84.) -/
def crc32c (l : List Byte) : Word := ~~~ (l.foldl crc32cByte 0xFFFFFFFF)
/-- The code of a type of flit, which the spec does not give (Table 22-1). (DESIGN CHOICE, log entry 83.) -/
def FlitType.code : FlitType → BitVec 8
  | .request => Config.flitCode 0
  | .reply => Config.flitCode 1
  | .acknowledgement => Config.flitCode 2
  | .noreply => Config.flitCode 3
  | .time => Config.flitCode 4
  | .idle => Config.flitCode 5
/-- Bits [479:0] of a flit as bytes. -/
def Flit.body (f : Flit) : List Byte :=
  bytesOfNat 8 (f.hops % 8 + f.src % 512 * 2 ^ 3 + f.dest % 512 * 2 ^ 12 + f.lane % 8 * 2 ^ 21 + f.type.code.toNat * 2 ^ 24 + f.lsn % 2 ^ 16 * 2 ^ 32 +
    f.ack % 2 ^ 16 * 2 ^ 48) ++ (f.payload ++ List.replicate 52 0).take 52
/-- The 512 bits of a flit. -/
def Flit.word (f : Flit) : BitVec 512 := BitVec.ofNat 512 (natOfBytes (f.body ++ bytesOfNat 4 (crc32c f.body).toNat))
/-- The flits that bytes fill, 52 to each; there is one at least. -/
def flitCount (n : Nat) : Nat := max 1 ((n + 51) / 52)
/-- Bytes cut into payloads. -/
def payloads : Nat → List Byte → List (List Byte)
  | 0, _ => []
  | n + 1, b => (b ++ List.replicate 52 0).take 52 :: payloads n (b.drop 52)
/-- The flits of a message in the order in which a link sends them, numbered on from its last, with the highest number it has received. -/
def flitsOf (l : FabLink) (type : FlitType) (dest lane : Nat) (bytes : List Byte) : List Flit :=
  (payloads (flitCount bytes.length) bytes).zipIdx.map fun p =>
    { type := type, lane := lane, dest := dest, src := Config.deviceId, lsn := (l.next + p.2) % 2 ^ 16, ack := l.recv, payload := p.1 }
/-- A message sent over a port: its flits stay in the replay buffer until they are acknowledged (R416). -/
def sendFlits (s : State) (port : Option Nat) (type : FlitType) (dest lane : Nat) (bytes : List Byte) : State :=
  let fs := fun (p : Nat) => flitsOf (fabLink s p) type dest lane bytes
  { s with
    fabLinks := match port with
      | some p => mapSet s.fabLinks p
          { fabLink s p with next := ((fabLink s p).next + (fs p).length) % 2 ^ 16, buffer := (fabLink s p).buffer ++ fs p }
      | none => s.fabLinks
    outs := match port with
      | some p => s.outs ++ [.flits p (fs p)]
      | none => s.outs }
/-- The code of a kind of request. -/
def kindIndex : ReqKind → Nat
  | .load => 0
  | .fill => 1
  | .store => 2
  | .masked _ => 3
  | .atomic op w64 => 16 + 2 * op.toNat + (if w64 then 1 else 0)
  | .stf => 4
  | .push => 5
  | .xqDone => 6
/-- The bytes of a request: its 24-byte header (address, tag, issue time, kind and byte count), then its data. How the last five bytes of the
header hold the kind and the count the spec does not say. (DESIGN CHOICE, log entry 83.) -/
def requestBytes (r : OutReq) : List Byte :=
  bytesOfNat 8 r.va ++ bytesOfNat 3 r.tag ++ bytesOfNat 8 r.issue ++ bytesOfNat 5 (Config.headerEnd (kindIndex r.kind) r.len).toNat ++ r.data ++
    (match r.kind with
     | .masked m => bytesOfNat 16 m.toNat
     | .stf => bytesOfDWord r.aux
     | .xqDone => bytesOfDWord r.aux
     | _ => r.more.flatMap (·.2.2))
/-- The bytes of an answer. -/
def ansBytes : FabAns → List Byte
  | .ok b => b
  | .noRetain b => b
  | .fail _ => []
  | .bound => []
/-- The port by which a request to a destination leaves; the loop-back has none (R12, R413). -/
def outPort (s : State) (dst lane : Nat) : Option Nat := if dst = Config.deviceId then none else firstPort (pathOf s dst lane)
/-- The path by which a request of another device comes here, on its lane (R413, R414). (DEDUCED, log entry 44.) -/
def pathFrom (s : State) (src lane : Nat) : Option (List Nat) := (pathsOf src Config.deviceId lane).find? (pathUp s)
/-- The path by which its answer returns: the same reversed, on the same lane (R413). -/
def pathBack (s : State) (src lane : Nat) : Option (List Nat) := (pathFrom s src lane).map List.reverse
/-- The port by which it comes, and by which its answer returns. -/
def inPort (s : State) (src lane : Nat) : Option Nat := firstPort (pathBack s src lane)
/-- Flits received in order over a port (R416). -/
def receiveFlits (s : State) (port : Option Nat) (n : Nat) : State :=
  { s with fabLinks := match port with
    | some p => mapSet s.fabLinks p { fabLink s p with recv := ((fabLink s p).recv + n) % 2 ^ 16 }
    | none => s.fabLinks }

/-! Serial lanes (R416). -/

/-- The serial lanes that a link has left. -/
def FabLink.lanes (l : FabLink) : Nat := 4 - l.retired.length
/-- Whether a link holds its traffic: it retrains, or a lane of it is to be retired. -/
def FabLink.held (l : FabLink) : Bool := l.retraining || l.replays.any fun p => decide (8 ≤ p.2)
/-- Whether a port, if there is one, holds its traffic. -/
def portHeld (s : State) (port : Option Nat) : Bool := match port with
  | some p => (fabLink s p).held
  | none => false
/-- An acknowledgement: the flits up to it leave the replay buffer, and where some do the lanes' failures are over (R416). -/
def FabLink.ackTo (l : FabLink) (ack : Nat) : FabLink :=
  let rest := l.buffer.dropWhile fun f => decide ((ack + 2 ^ 16 - f.lsn) % 2 ^ 16 < 2 ^ 15)
  { l with acked := ack % 2 ^ 16, buffer := rest, replays := if rest.length < l.buffer.length then [] else l.replays }
/-- The first port whose link has retrained for more than 25,000 clocks: it is down (R416). -/
def retrainOver (s : State) : Option Nat :=
  (s.fabLinks.find? fun p => p.2.retraining && decide (p.2.since + 25000 < s.clk)).map (·.1)
/-- The clocks until a retraining link is down. -/
def untilDown (s : State) : List Nat := (s.fabLinks.filter fun p => p.2.retraining).map fun p => p.2.since + 25001 - s.clk

end Sys2Proof.Machine
end

