-- ==== Sys2Proof/Machine/Coherence.lean ====
section
/-! DEFINITION. Logical time, the L2 and the remote-data caches, the home directory and its messages (spec/03). A line is named
by its device physical address divided by 128; the key of a line in a remote-data cache is that number for a line of the
device, 2^50 + device x 2^41 + va / 128 for a remote line and 2^60 + address / 128 for a host line. -/

namespace Sys2Proof.Machine
open Sys2Proof

/-! Names of lines. -/

/-- The home core of a line (R17). -/
def homeCore (line : Nat) : Nat := line / 2 ^ 25
/-- The home die of a line (R17). -/
def homeDie (line : Nat) : Nat := dieOfCore (homeCore line)
/-- The key of a remote line (R54). -/
def remoteKey (dev va : Nat) : Nat := 2 ^ 50 + dev * 2 ^ 41 + va / 128
/-- The key of a host line (R54). -/
def hostKey (addr : Nat) : Nat := 2 ^ 60 + addr / 128
/-- A mask of `n` bytes from an index. -/
def byteMask (i n : Nat) : BitVec 128 := BitVec.ofNat 128 ((2 ^ n - 1) * 2 ^ i)
/-- The mask of a list of indexed bytes. -/
def maskOf (b : SMap Byte) : BitVec 128 := b.foldl (fun m p => m ||| (1#128 <<< p.1)) 0
/-- Indexed bytes written over a line. -/
def applyBytes (data : List Byte) (b : SMap Byte) : List Byte := b.foldl (fun l p => l.set p.1 p.2) data
/-- The indexed bytes of a line under a mask. -/
def bytesUnder (data : List Byte) (m : BitVec 128) : SMap Byte :=
  ((upTo 128).filter fun i => m.getLsbD i).map fun i => (i, data.getD i 0)
/-- A die in a four-bit set. -/
def inSet (m : BitVec 4) (d : Nat) : Bool := m.getLsbD d
/-- A die added to a set. -/
def setAdd (m : BitVec 4) (d : Nat) : BitVec 4 := m ||| (1#4 <<< d)
/-- A die removed from a set. -/
def setDel (m : BitVec 4) (d : Nat) : BitVec 4 := m &&& ~~~(1#4 <<< d)
/-- The members of a set of dies. -/
def setList (m : BitVec 4) : List Nat := (upTo 4).filter fun d => inSet m d

/-! Logical time (R71). -/

/-- A core's logical time raised to at least a value. -/
def raiseLt (s : State) (c t : Nat) : State := s.modCore c fun k => { k with lt := max k.lt t }

/-! The L2 (R54, R72). -/

/-- The next free value number, consumed. (DESIGN CHOICE, log entry 2.) -/
def State.fresh (s : State) : State := { s with free := s.free + 1 }

/-- A line taken out of an L2: written to DRAM if dirty, and MT raised (R72). -/
def l2Evict (s : State) (h line : Nat) : State :=
  match mapGet? (s.die h).l2 line with
  | none => s
  | some x =>
    let s := s.modDie h fun d => { d with l2 := mapDel d.l2 line, mt := max d.mt x.rts }
    if x.dirty then { s with mem := memWriteN s.mem (line * 128) x.data } else s

/-- Room in the L2 set of a line: 24 ways (Table 2-1). (DESIGN CHOICE, log entry 7.) -/
def l2Room (s : State) (h line : Nat) : State :=
  let set := ((s.die h).l2.filter fun p => p.1 % 16384 = line % 16384).map (·.1)
  if 24 ≤ set.length then l2Evict s.fresh h (set.getD (Config.victim s.free % set.length) 0) else s

/-- A line brought into its home L2 from DRAM, with wts = rts = MT (R72). -/
def l2Fill (s : State) (line : Nat) : State :=
  let h := homeDie line
  if (mapGet? (s.die h).l2 line).isSome then s
  else
    let s := l2Room s h line
    s.modDie h fun d =>
      { d with l2 := mapSet d.l2 line { data := memReadN s.mem (line * 128) 128, wts := d.mt, rts := d.mt, dirty := false } }

/-- A line of an L2, brought in if need be. -/
def l2Get (s : State) (line : Nat) : L2Line :=
  mapGetD (s.die (homeDie line)).l2 line { data := memReadN s.mem (line * 128) 128, wts := 0, rts := 0, dirty := false }

/-- A line of an L2 replaced. -/
def l2Put (s : State) (line : Nat) (x : L2Line) : State :=
  (l2Fill s line).modDie (homeDie line) fun d => { d with l2 := mapSet d.l2 line x }

/-! Links and messages (R88, R99). -/

/-- A message appended to the link between two dies. -/
def sendMsg (s : State) (src dst : Nat) (m : Msg) : State :=
  let k := src * 4 + dst
  let l := mapGetD s.links k {}
  { s with links := mapSet s.links k { l with fifo := l.fifo ++ [{ m with die := m.die }] } }

/-- Messages to several dies. -/
def sendAll (s : State) (src : Nat) (m : Msg) : List Nat → State
  | [] => s
  | d :: ds => sendAll (sendMsg s src d m) src m ds

/-- A directory entry. -/
def dirGet (s : State) (line : Nat) : DirEntry := mapGetD (s.die (homeDie line)).dir line {}
/-- A directory entry changed; an idle entry in state I is free (R85). An answer, the close of a transaction, an eviction notice and a
place taken in the queue are no use of the entry, so that its place in the order of R97 stays (R382). -/
def dirSet (s : State) (line : Nat) (e : DirEntry) : State :=
  s.modDie (homeDie line) fun d =>
    { d with
      dir := if e = {} then mapDel d.dir line else mapSet d.dir line e
      dirLru := if e = {} then d.dirLru.filter (· != line) else if d.dirLru.contains line then d.dirLru else d.dirLru ++ [line] }
/-- A directory entry changed by a use of it: a request of a remote-data cache that is served, or an access that opens a transaction, makes
it most recently used; a read served at the L2 changes no entry and is no use (R97). (DESIGN CHOICE, log entry 74.) -/
def dirPut (s : State) (line : Nat) (e : DirEntry) : State :=
  (dirSet s line e).modDie (homeDie line) fun d =>
    { d with dirLru := if e = {} then d.dirLru else d.dirLru.filter (· != line) ++ [line] }

/-! Remote-data caches (R54, R89). -/

/-- A line of a remote-data cache, or one that waits there for a way. -/
def rdcGet? (s : State) (d key : Nat) : Option RdcLine :=
  match mapGet? (s.die d).rdc key with
  | some x => some x
  | none => mapGet? (s.die d).fills key
/-- A line held in a way and made most recently used (R54). -/
def rdcWay (k : Die) (key : Nat) (x : RdcLine) : Die :=
  { k with rdc := mapSet k.rdc key x, rdcLru := k.rdcLru.filter (· != key) ++ [key] }
/-- The keys held in the ways of the set of a key, least recently used first (R54). -/
def rdcSet (k : Die) (key : Nat) : List Nat := k.rdcLru.filter fun i => i % 8192 = key % 8192
/-- A held line changed; one that is held in a way becomes most recently used. -/
def rdcPut (s : State) (d key : Nat) (x : RdcLine) : State :=
  s.modDie d fun k =>
    if (mapGet? k.rdc key).isNone && (mapGet? k.fills key).isSome then { k with fills := mapSet k.fills key x } else rdcWay k key x
/-- A held line used: it becomes most recently used (R54). -/
def rdcTouch (s : State) (d key : Nat) : State :=
  match rdcGet? s d key with
  | some x => rdcPut s d key x
  | none => s
/-- A fill that waits for a way of a set enters one that is free (R54). -/
def rdcPromote (k : Die) (key : Nat) : Die :=
  if 16 ≤ (rdcSet k key).length then k
  else
    match k.fills.find? fun p => p.1 % 8192 = key % 8192 with
    | some p => rdcWay { k with fills := mapDel k.fills p.1 } p.1 p.2
    | none => k
/-- A line dropped from a remote-data cache. -/
def rdcDrop (s : State) (d key : Nat) : State :=
  s.modDie d fun k =>
    rdcPromote { k with rdc := mapDel k.rdc key, fills := mapDel k.fills key, rdcLru := k.rdcLru.filter (· != key) } key
/-- Whether a die other than one holds a line. -/
def heldElsewhere (s : State) (d key : Nat) : Bool := s.dies.any fun p => p.1 != d && (rdcGet? s p.1 key).isSome
/-- A line dropped from every remote-data cache but one. -/
def dropElsewhere (s : State) (d key : Nat) : State :=
  ((s.dies.filter fun p => p.1 != d && (rdcGet? s p.1 key).isSome).map (·.1)).foldl (fun s e => rdcDrop s e key) s

/-- The lane of a remote-class address (R140): the exclusive or of the octal digits of its line address. -/
def laneOf (addr : Nat) : Nat :=
  let a := addr / 128
  (upTo 20).foldl (fun x i => x ^^^ (a / 8 ^ i % 8)) 0

/-- A request put at the fabric or host port, untagged; the number of the request is the old value of `outCount`. -/
def pushOut (s : State) (r : OutReq) : State :=
  { s with out := mapSet s.out s.outCount r, outCount := s.outCount + 1 }

/-- Whether a request of a kind carries a tag: stores, stf, atomics, pushes and their like (R145). -/
def tagged : ReqKind → Bool
  | .load => false
  | .fill => false
  | _ => true

/-- Whether a request may be injected now: its destination can be reached, its link does not retrain, and a tagged one waits while no time
flit arrives (R414, R416, R417). -/
def injectable (s : State) (r : OutReq) : Bool :=
  reachable s r.dst r.lane && !portHeld s (outPort s r.dst r.lane) && !(tagged r.kind && s.injectStopped)
/-- Whether a request of a lane to a destination waits at the port before a number: later ones of the lane stay behind it (R141). -/
def lanePortHeld (s : State) (rid dst lane : Nat) : Bool :=
  s.out.any fun p => decide (p.1 < rid) && !p.2.host && (p.2.copies = 0 || p.2.again) && p.2.dst = dst && p.2.lane = lane
/-- A request sent over its port, where it goes now. -/
def sendRequest (s : State) (go : Bool) (r : OutReq) : State :=
  sendFlits s (if go then outPort s r.dst r.lane else none) .request r.dst r.lane (requestBytes r)
/-- A request put at the port: tagged where its kind asks for it, stamped with the domain time, and injected, which counts it in S,
unless it must wait there (R141, R145, R366). -/
def sendOut (s : State) (r : OutReq) : State :=
  let r := { r with left := s.clk }
  if r.host then pushOut s r
  else
    let go := injectable s r && !lanePortHeld s s.outCount r.dst r.lane
    let r := { r with issue := s.dt, copies := if go then 1 else 0, again := false }
    if tagged r.kind then
      let r := { r with tag := s.nextTag }
      pushOut { sendRequest s go r with nextTag := (s.nextTag + 1) % 2 ^ 24, sCount := s.sCount + (if go then 1 else 0) } r
    else pushOut (sendRequest s go r) r
/-- Requests that waited at the port leave where they now can, in their order (R145, R415, R417). -/
def sendHeld (s : State) : State :=
  s.out.foldl (fun s p =>
    if p.2.host = false ∧ (p.2.copies = 0 ∨ p.2.again = true) ∧ injectable s p.2 ∧ lanePortHeld s p.1 p.2.dst p.2.lane = false then
      { sendRequest s true p.2 with
        out := mapSet s.out p.1 { p.2 with copies := p.2.copies + 1, left := s.clk, again := false }
        sCount := s.sCount + (if tagged p.2.kind ∧ p.2.copies = 0 then 1 else 0) }
    else s) s

/-- The masked writeback of a dirty remote or host line (R103, R105). -/
def writebackReq (d key : Nat) (x : RdcLine) : OutReq :=
  let host := decide (2 ^ 60 ≤ key)
  let va := if host then (key - 2 ^ 60) * 128 else key % 2 ^ 41 * 128
  { who := [], dst := if host then 0 else key / 2 ^ 41 % 512, lane := laneOf va, tag := 0, issue := 0, kind := .masked x.dirty,
    va := va, len := 128, data := x.data, aux := 0, copies := 0,
    line := some (d, key), host := host }

/-- A dirty copy of a line of the device that no directory tracks written back to its home L2 (R76). -/
def plainHome (s : State) (line : Nat) (data : List Byte) : State :=
  let s := l2Fill s line
  l2Put s line { l2Get s line with data := data, dirty := true }

/-- A tracked line leaves: it stays in the eviction buffer until the home has acknowledged it (R89). The notice carries its timestamps,
which the home takes over (R72). (DEDUCED, log entry 68.) -/
def evictNotice (s : State) (d key : Nat) (x : RdcLine) (k : MsgKind) : State :=
  sendMsg ((rdcDrop s d key).modDie d fun k => { k with evicting := mapSet k.evicting key (mapGetD k.evicting key [] ++ [x]) }) d (homeDie key)
    { kind := k, line := key, data := (if k = .wb then x.data else []), wts := x.wts, rts := x.rts, die := d }

/-- A line leaving a remote-data cache for want of room (R54, R89, R103). A dirty remote or host line stays in its way until its
writeback is answered. -/
def rdcEvict (s : State) (d key : Nat) (x : RdcLine) : State :=
  match x.st with
  | .untracked =>
    if key < 2 ^ 50 then
      -- a line of a PRIVATE or READONLY page goes back to its home L2 (R76)
      if x.dirty = 0 then rdcDrop s d key else rdcDrop (plainHome s key x.data) d key
    else if x.dirty = 0 then
      -- a clean host line leaves with CleanEvict, the last copy of the device (R105)
      if 2 ^ 60 ≤ key ∧ heldElsewhere s d key = false then sendOut (rdcDrop s d key) { writebackReq d key x with line := none }
      else rdcDrop s d key
    else
      let s := if 2 ^ 60 ≤ key then dropElsewhere s d key else s
      sendOut (rdcPut s d key { x with leaving := true }) (writebackReq d key x)
  | .m => evictNotice s d key x .wb
  | .o => evictNotice s d key x .wb
  | _ => evictNotice s d key x .evict

/-- Whether an engine of the device owns the line of a key (R91). -/
def eoKey (s : State) (key : Nat) : Bool := decide (key < 2 ^ 50) && (dirGet s key).eo

/-- The line of a full set that leaves for a fill: the least recently used one that is not marked, not on its way out, owned by no
engine, and that no request of the die is under way for (R54, R103). (DESIGN CHOICE, log entry 59.) -/
def rdcVictim (s : State) (d key : Nat) : Option (Nat × RdcLine) :=
  let k := s.die d
  match (rdcSet k key).find? fun i => match mapGet? k.rdc i with
      | some x => !x.failed && !x.leaving && !eoKey s i && !k.rdcPending.contains i
      | none => false with
  | some i => (mapGet? k.rdc i).map fun x => (i, x)
  | none => none
/-- Whether every way of a set holds a line whose writeback failed (R103). -/
def rdcAllFailed (s : State) (d key : Nat) : Bool :=
  let k := s.die d
  (rdcSet k key).all fun i => match mapGet? k.rdc i with
    | some x => x.failed
    | none => false
/-- A fill that has no way: it waits beside the cache. -/
def rdcWaits (s : State) (d key : Nat) (x : RdcLine) : State := s.modDie d fun k => { k with fills := mapSet k.fills key x }
/-- A fill put in a way of its set, which is not full, or beside the cache until one is free. -/
def rdcEnter (s : State) (d key : Nat) (x : RdcLine) : State :=
  if (rdcSet (s.die d) key).length < 16 then s.modDie d fun k => rdcWay k key x else rdcWaits s d key x
/-- A line installed in a remote-data cache of 16-way sets (R54). Where every way holds a marked line, an untracked fill installs
nothing, its dirty bytes going home at once (R103); the same where every way is taken for a while. A tracked one waits beside the cache
for the access that it serves. (DESIGN CHOICE, log entry 59.) -/
def rdcInstall (s : State) (d key : Nat) (x : RdcLine) : State :=
  if (rdcGet? s d key).isSome then rdcPut s d key x
  else if (rdcSet (s.die d) key).length < 16 then s.modDie d fun k => rdcWay k key x
  else
    match rdcVictim s d key with
    | some (i, y) => rdcEnter (rdcEvict s d i y) d key x
    | none =>
      if x.st = .untracked then
        if x.dirty = 0 then s
        else if key < 2 ^ 50 then plainHome s key x.data
        else sendOut s (writebackReq d key x)
      else rdcWaits s d key x
/-- The access that a fill without a way was for has been made: the fill takes the way of a line that can leave, or leaves again, so that
it serves no other access (R54, R103). (DESIGN CHOICE, log entry 59.) -/
def rdcUsed (s : State) (d key : Nat) : State :=
  match mapGet? (s.die d).fills key with
  | none => s
  | some x =>
    if eoKey s key || (s.die d).rdcPending.contains key then s
    else
      match rdcVictim s d key with
      | some (i, y) => rdcEvict s d i y
      | none => rdcEvict s d key x

/-! The granting of leases (R73). -/

/-- The lease that an owner of a line grants: its new read timestamp. -/
def leaseRts (rts wts lt lease : Nat) : Nat := max rts (max lt wts + lease)

/-! Transactions of the directory (R86, R90, R94, R96). -/

/-- Whether requests for a line wait: a transaction is open, or an engine owns the line (R86, R91). -/
def dirBusy (e : DirEntry) : Bool := e.trans.isSome || e.eo
/-- Whether a line has an entry of the snoop filter: it is tracked, transient, or owned by an engine (R85, R97). -/
def dirUsed (e : DirEntry) : Bool := e.st != .i || dirBusy e

/-- The ST code of a state (Table 3-2). -/
def stCode : DirSt → Nat
  | .i => 0 | .s => 1 | .e => 2 | .m => 3 | .o => 4 | .p => 5
/-- The 64-bit word of a directory entry (Table 3-2); a free entry reads as zero, and the transient codes are 8 plus the state that the
transaction leaves. (DESIGN CHOICE, log entry 60.) -/
def dirWord (line : Nat) (e : DirEntry) : DWord :=
  if !dirUsed e then 0
  else
    let a := homeCore line % 24 * 2 ^ 25 + line % 2 ^ 25
    BitVec.ofNat 64 (a / 2 ^ 14 % 2 ^ 16 * 2 ^ 48 + (stCode e.st + (if e.trans.isSome then 8 else 0)) * 2 ^ 44 + e.hold.toNat * 2 ^ 40
      + e.own % 4 * 2 ^ 38 + e.xfer % 8 * 2 ^ 35 + (if e.eo then 1 else 0) * 2 ^ 34 + e.ecore % 128 * 2 ^ 27
      + (if e.st = .p then e.pidx % 2048 else 0) * 2 ^ 16)

/-! What waits at a line in arrival order (R86). -/

/-- Whether what waits is still to be served: a message; an operation that is not performed; a boundary with an entry of the line to
publish; an atomic request. -/
def waiterLive (s : State) (line : Nat) : Waiter → Bool
  | .msg _ => true
  | .op t seq => match mapGet? s.threads t with
    | some th => !th.stopped && th.ops.any fun o =>
        o.seq.toNat = seq && decide (o.pa / 128 = line) && !o.performed && (o.phase = .ready || o.phase = .resolved || o.phase = .sent)
    | none => false
  | .boundary t => match mapGet? s.threads t with
    | some th => !th.stopped && (match th.bnd with
      | some b => !b.done
      | none => false) && th.ws.any fun e => e.line = line
    | none => false
  | .atoms g => s.atoms.any fun r => r.group = g && decide (r.pa / 128 = line)
/-- Whether an access of a core may be made at a line now: the line is not busy, and nothing waits before it (R86, R91). -/
def myTurn (s : State) (line : Nat) (w : Waiter) : Bool :=
  let e := dirGet s line
  !dirBusy e && (match e.waiting.filter (waiterLive s line) with
    | [] => true
    | x :: _ => x = w)
/-- An access waits at a line, behind what arrived before it. -/
def lineUp (s : State) (line : Nat) (w : Waiter) : State :=
  let e := dirGet s line
  if e.waiting.contains w then s else dirSet s line { e with waiting := e.waiting ++ [w] }
/-- An access whose recalls are under way is the first to go on. -/
def lineFirst (s : State) (line : Nat) (w : Waiter) : State :=
  let e := dirGet s line
  dirSet s line { e with waiting := w :: e.waiting.filter (· != w) }

/-- The participants' answers written into the L2 line once a merge is complete: nothing is left to do but free the entry. -/
def privFree (s : State) (line : Nat) : State := s.modDie (homeDie line) fun d => { d with priv := mapDel d.priv line }

/-- The copy of a line that a die answers from: its cache, else its eviction buffer, where the latest that left stands last (R89). -/
def copyOf? (s : State) (d line : Nat) : Option RdcLine :=
  match rdcGet? s d line with
  | some x => some x
  | none => (mapGetD (s.die d).evicting line []).getLast?
/-- The acknowledgement of the oldest eviction of a line that has none yet: its buffer is free (R89). -/
def evictAcked (k : Die) (line : Nat) : Die :=
  match (mapGetD k.evicting line []).drop 1 with
  | [] => { k with evicting := mapDel k.evicting line }
  | l => { k with evicting := mapSet k.evicting line l }

/-- The home die's own privatised copy written back and dropped (R96). -/
def mergeHome (s : State) (line : Nat) : State :=
  let h := homeDie line
  match copyOf? s h line with
  | some x =>
    if x.st = .p && inSet (dirGet s line).hold h then
      let w := mapGetD (mapGetD (s.die h).priv line { access := [], write := [] }).write h 0
      let s := l2Fill s line
      let o := l2Get s line
      let o' : L2Line :=
        { data := applyBytes o.data (bytesUnder x.data w), wts := max o.wts x.wts, rts := max o.rts x.rts, dirty := true }
      rdcDrop (l2Put s line o') h line
    else s
  | none => s

/-- A grant of a copy in state M, E or S to a die, from the home's L2. -/
def grantData (s : State) (line d : Nat) (g : RdcSt) (withData : Bool) (rts : Nat) : State :=
  let s := l2Fill s line
  let x := l2Get s line
  sendMsg s (homeDie line) d
    { kind := .data, line := line, data := (if withData then x.data else []), wts := x.wts, rts := rts, grant := some g, die := d }

/-- What a closed transaction leaves (Table 3-5). -/
def closeTrans (s : State) (line : Nat) : State :=
  let h := homeDie line
  let e := dirGet s line
  match e.trans with
  | none => s
  | some .toI =>
    let s := if e.st = .p then privFree s line else s
    dirSet s line { e with st := .i, hold := 0, own := 0, xfer := 0, pidx := 0, trans := none }
  | some .toS => dirSet s line { e with st := .s, hold := setAdd e.hold e.own, own := 0, trans := none }
  | some (.grantM d wd) =>
    let s := l2Fill s line
    let s := grantData s line d .m wd (l2Get s line).rts
    dirSet s line { e with st := .m, hold := setAdd 0 d, own := d, trans := none }
  | some (.invFwd d lt) =>
    let s := sendMsg s h e.own { kind := .fwdX, line := line, die := d, lt := lt }
    dirSet s line { e with hold := setAdd 0 e.own, trans := some (.fwd d true) }
  | some (.toP d) =>
    let s := l2Fill s line
    let s := grantData s line e.own .p true (l2Get s line).rts
    let s := grantData s line d .p true (l2Get s line).rts
    let s := sendMsg s h d { kind := .claimOK, line := line, mask := mapGetD (mapGetD (s.die h).priv line { access := [], write := [] }).access d 0, die := d }
    dirSet s line
      { e with
        st := .p, hold := setAdd (setAdd 0 e.own) d, trans := none
        pidx := (mapGetD (s.die h).priv line { access := [], write := [] }).idx }
  | some (.fwd _ _) => s

/-- A transaction opened: it closes at once where no answer is awaited. -/
def openTrans (s : State) (line : Nat) (t : Trans) (await : List Nat) : State :=
  let s := dirPut s line { dirGet s line with trans := some t, await := await }
  if await = [] then closeTrans s line else s

/-- Every copy collapsed into the home's L2 (Table 3-5, strong-store rows; R96). -/
def collapse (s : State) (line : Nat) : State :=
  let h := homeDie line
  let e := dirGet s line
  match e.st with
  | .i => s
  | .s => openTrans (sendAll s h { kind := .inv, line := line } (setList e.hold)) line .toI (setList e.hold)
  | .e => openTrans (sendMsg s h e.own { kind := .recallI, line := line }) line .toI [e.own]
  | .m => openTrans (sendMsg s h e.own { kind := .recallI, line := line }) line .toI [e.own]
  | .o =>
    let sh := setList (setDel e.hold e.own)
    openTrans (sendAll (sendMsg s h e.own { kind := .recallI, line := line }) h { kind := .inv, line := line } sh) line .toI
      (e.own :: sh)
  | .p =>
    let ds := setList (setDel e.hold h)
    openTrans (sendAll (mergeHome s line) h { kind := .merge, line := line } ds) line .toI ds

/-- Dirty data returned to the home's L2, a clean copy kept (RecallS rows). -/
def recallShared (s : State) (line : Nat) : State :=
  let e := dirGet s line
  openTrans (sendMsg s (homeDie line) e.own { kind := .recallS, line := line }) line .toS [e.own]

/-! Snoop filter (R97). -/

/-- The lines of the filter set of a line that have an entry, least recently used first (R85, R97). -/
def filterSet (d : Die) (line : Nat) : List Nat :=
  d.dirLru.filter fun i => i % 16384 = line % 16384 && dirUsed (mapGetD d.dir i {})
/-- The entry of a full filter set that is evicted for a line: the least recently used that is not busy, a privatised one last (R97). -/
def filterVictim (d : Die) (line : Nat) : Option Nat :=
  let set := filterSet d line
  let free := fun (i : Nat) => !dirBusy (mapGetD d.dir i {})
  match set.find? fun i => free i && (mapGetD d.dir i {}).st != .p with
  | some i => some i
  | none => set.find? free
/-- A way of the filter set of a line: one that the line has, one that is free, or one whose entry is evicted, which takes until every
copy has answered; none while every way is transient or engine-owned. The flag says whether the request may go on. -/
def filterRoom (s : State) (line : Nat) : State × Bool :=
  let d := s.die (homeDie line)
  let set := filterSet d line
  if dirUsed (dirGet s line) || decide (set.length < 32) then (s, true)
  else if set.any fun i => (mapGetD d.dir i {}).trans = some .toI then (s, false)
  else
    match filterVictim d line with
    | some i =>
      let s := collapse s i
      (s, decide ((filterSet (s.die (homeDie line)) line).length < 32))
    | none => (s, false)

/-! Requests of remote-data caches at the home (Table 3-5). -/

/-- Whether a claim meets no conflicting mask of another die (R95). -/
def claimDisjoint (p : PrivEntry) (d : Nat) (m : BitVec 128) (write : Bool) : Bool :=
  (upTo 4).all fun o => o = d || ((if write then mapGetD p.access o 0 else mapGetD p.write o 0) &&& m) = 0
/-- A claim recorded in the masks of a die. -/
def claimAdd (p : PrivEntry) (d : Nat) (m : BitVec 128) (write : Bool) : PrivEntry :=
  { p with
    access := mapSet p.access d (mapGetD p.access d 0 ||| m)
    write := if write then mapSet p.write d (mapGetD p.write d 0 ||| m) else p.write }
/-- The privatisation table entry of a line. -/
def privGet (s : State) (line : Nat) : PrivEntry := mapGetD (s.die (homeDie line)).priv line { access := [], write := [] }
/-- The privatisation table entry of a line replaced. -/
def privPut (s : State) (line : Nat) (p : PrivEntry) : State :=
  s.modDie (homeDie line) fun d => { d with priv := mapSet d.priv line p }
/-- A free entry of the table of 2,048 entries (R94). -/
def privRoom (s : State) (line : Nat) : Bool := decide ((s.die (homeDie line)).priv.length < 2048)
/-- The lowest index of the table that is free (R85, R94). -/
def privIdx (s : State) (line : Nat) : Nat :=
  ((upTo 2048).find? fun i => !((s.die (homeDie line)).priv.any fun p => p.2.idx = i)).getD 0

/-- A request put before those that wait, to be served once the transaction under way has closed (R96). -/
def requeue (s : State) (line : Nat) (m : Msg) : State :=
  let e := dirGet s line
  dirSet s line { e with waiting := .msg m :: e.waiting }

/-- GetS from a die at a line that is not busy. One that was sent before the line was privatised forces the merge, for it claims no
bytes. (DESIGN CHOICE, log entry 61.) -/
def homeGetS (s : State) (line d lt : Nat) : State :=
  let h := homeDie line
  let e := dirGet s line
  match e.st with
  | .i =>
    let s := l2Fill s line
    dirPut (grantData s line d .e true (l2Get s line).rts) line { e with st := .e, hold := setAdd 0 d, own := d }
  | .s =>
    let s := l2Fill s line
    let x := l2Get s line
    let r := leaseRts x.rts x.wts lt (s.die h).lease
    dirPut (grantData (l2Put s line { x with rts := r }) line d .s true r) line { e with hold := setAdd e.hold d }
  | .e => dirPut (sendMsg s h e.own { kind := .fwdS, line := line, die := d, lt := lt }) line
      { e with trans := some (.fwd d false), await := [e.own] }
  | .m => dirPut (sendMsg s h e.own { kind := .fwdS, line := line, die := d, lt := lt }) line
      { e with trans := some (.fwd d false), await := [e.own] }
  | .o => dirPut (sendMsg s h e.own { kind := .fwdS, line := line, die := d, lt := lt }) line
      { e with trans := some (.fwd d false), await := [e.own] }
  | .p => requeue (collapse s line) line { kind := .getS, line := line, die := d, lt := lt }

/-- The line enters privatisation: OWN writes back, sharers drop, and the requester's store is its first claim (R94). -/
def enterPriv (s : State) (line d : Nat) (m : BitVec 128) : State :=
  let h := homeDie line
  let e := dirGet s line
  let sh := setList (setDel (setDel e.hold e.own) d)
  let s := sendMsg s h e.own { kind := .recallI, line := line }
  let s := sendAll s h { kind := .inv, line := line } sh
  openTrans (privPut s line (claimAdd { access := [], write := [], idx := privIdx s line } d m true)) line (.toP d) (e.own :: sh)

/-- GetX or Upg from a die at a line that is not busy; `m` is the bytes of the waiting store. (DESIGN CHOICE, log entry 27.) An Upg of a
sharer at a line in O that another die owns, which has no row of Table 3-5, is taken as the GetX of step 3 of Table 16-2. (DESIGN
CHOICE, log entry 74.) -/
def homeGetX (s : State) (line d lt : Nat) (m : BitVec 128) (upg : Bool) : State :=
  let h := homeDie line
  let e := dirGet s line
  let wd := !(upg && inSet e.hold d)
  match e.st with
  | .i => openTrans s line (.grantM d true) []
  | .s =>
    let sh := setList (setDel e.hold d)
    openTrans (sendAll s h { kind := .inv, line := line } sh) line (.grantM d wd) sh
  | .p => requeue (collapse s line) line { kind := .getX, line := line, die := d, lt := lt, mask := m, write := true }
  | _ =>
    if d = e.own then
      let sh := setList (setDel e.hold d)
      openTrans (sendAll s h { kind := .inv, line := line } sh) line (.grantM d false) sh
    else if 4 ≤ e.xfer ∧ privRoom s line then enterPriv s line d m
    else if e.st = .o then
      let sh := setList (setDel (setDel e.hold e.own) d)
      openTrans (sendAll s h { kind := .inv, line := line } sh) line (.invFwd d lt) sh
    else dirPut (sendMsg s h e.own { kind := .fwdX, line := line, die := d, lt := lt }) line
      { e with trans := some (.fwd d true), await := [e.own] }

/-- A claim from a die (R95); where the line is no longer privatised it is served as the request it stands for, and one of a die that has
become the owner meanwhile is met by the copy that the die holds. -/
def homeClaim (s : State) (line d lt : Nat) (m : BitVec 128) (write : Bool) : State :=
  let h := homeDie line
  let e := dirGet s line
  if e.st = .p then
    let p := privGet s line
    if claimDisjoint p d m write then
      let s := privPut s line (claimAdd p d m write)
      let s := if inSet e.hold d then s
        else
          let s := l2Fill s line
          dirPut (grantData s line d .p true (l2Get s line).rts) line { e with hold := setAdd e.hold d }
      sendMsg s h d { kind := .claimOK, line := line, mask := m, die := d }
    else
      requeue (collapse s line) line
        { kind := if write then .getX else .getS, line := line, die := d, lt := lt, mask := m, write := write }
  else if write then homeGetX s line d lt m false
  else if (e.st = .e || e.st = .m || e.st = .o) && e.own = d then sendMsg s h d { kind := .claimOK, line := line, mask := m, die := d }
  else homeGetS s line d lt

/-- The timestamps of a line at its home L2 raised to those of a copy that leaves or ends (R72, R74): no lease that the copy granted
outlives the home's rts. (DEDUCED, log entry 68.) -/
def l2Times (s : State) (line wts rts : Nat) : State :=
  let s := l2Fill s line
  let x := l2Get s line
  l2Put s line { x with wts := max x.wts wts, rts := max x.rts rts }

/-- A dirty or clean eviction notice at the home (Table 3-5, R89, R91). -/
def homeEvict (s : State) (m : Msg) : State :=
  let line := m.line
  let d := m.die
  let h := homeDie line
  let e := dirGet s line
  let ack := fun s => sendMsg s h d { kind := .wbAck, line := line, die := d }
  let store := fun (s : State) =>
    if m.kind = .wb then l2Put s line { data := m.data, wts := m.wts, rts := m.rts, dirty := true } else l2Times s line m.wts m.rts
  if !inSet e.hold d then ack s
  else
    match e.st with
    | .i => ack s
    | .p => ack (collapse s line)
    | .s =>
      let hold := setDel e.hold d
      ack (dirSet s line { e with st := (if hold = 0 then .i else .s), hold := hold, xfer := (if hold = 0 then 0 else e.xfer) })
    | .o =>
      if d = e.own then
        let hold := setDel e.hold d
        ack (dirSet (store s) line
          { e with st := (if hold = 0 then .i else .s), hold := hold, own := 0, xfer := (if hold = 0 then 0 else e.xfer) })
      else ack (dirSet s line { e with hold := setDel e.hold d })
    | _ => if d = e.own then ack (dirSet (store s) line { e with st := .i, hold := 0, own := 0, xfer := 0 }) else ack s

/-- A request of a die taken by a directory whose line is not busy. -/
def homeRequest (s : State) (m : Msg) : State :=
  match m.kind with
  | .getS => homeGetS s m.line m.die m.lt
  | .getX => homeGetX s m.line m.die m.lt m.mask false
  | .upg => homeGetX s m.line m.die m.lt m.mask true
  | .claim => homeClaim s m.line m.die m.lt m.mask m.write
  | .wb => homeEvict s m
  | .evict => homeEvict s m
  | _ => s

/-- What waits at a line taken in arrival order until something opens a transaction, is to be done by a core, or needs a way of the
filter (R86, R97), at most `fuel` of them. -/
def drain (s : State) (line : Nat) : Nat → State
  | 0 => s
  | n + 1 =>
    let e := dirGet s line
    if dirBusy e then s
    else
      match e.waiting with
      | [] => s
      | w :: r =>
        if !waiterLive s line w then drain (dirSet s line { e with waiting := r }) line n
        else
          match w with
          | .msg m =>
            if m.kind = .wb ∨ m.kind = .evict then drain (homeRequest (dirSet s line { e with waiting := r }) m) line n
            else
              let q := filterRoom s line
              if q.2 then drain (homeRequest (dirSet q.1 line { dirGet q.1 line with waiting := r }) m) line n else q.1
          | _ => s

/-- What waits at a line taken, if it is not busy. -/
def drainAll (s : State) (line : Nat) : State := drain s line (2 * (dirGet s line).waiting.length + 2)

/-- A request arriving at the home: it takes its place in arrival order (R86, R91, R97). An eviction notice at an engine's line does not
wait (R91). -/
def arriveRequest (s : State) (m : Msg) : State :=
  let e := dirGet s m.line
  if (m.kind = .wb ∨ m.kind = .evict) ∧ e.trans.isNone ∧ e.eo = true then homeRequest s m
  else drainAll (dirSet s m.line { e with waiting := e.waiting ++ [.msg m] }) m.line

/-- The lines of a die at which something waits that nothing but a way of the filter holds back. -/
def filterWaiters (s : State) (h : Nat) : List Nat :=
  ((s.die h).dir.filter fun p => !dirUsed p.2 && !p.2.waiting.isEmpty).map (·.1)
/-- A line goes on after its transaction, or its engine, and with it what waited for a way of the filter. -/
def goOn (s : State) (line : Nat) : State :=
  let s := drainAll s line
  (filterWaiters s (homeDie line)).foldl drainAll s

/-- An answer to the home: one die fewer is awaited, and the transaction closes with the last (R86, R100). -/
def answer (s : State) (line d : Nat) : State :=
  let e := dirGet s line
  let aw := e.await.filter (· != d)
  let s := dirSet s line { e with await := aw }
  if e.trans.isSome && aw.isEmpty then goOn (closeTrans s line) line else s

/-! The handling of each message by its receiver (Tables 3-4 and 3-5). -/

/-- Whether a copy is dirty with respect to the home. -/
def isDirtySt (x : RdcLine) : Bool := x.st = .m || x.st = .o

/-- FwdS at the owner: the requester gets a read copy, and the owner keeps O, or S if it was clean. The acknowledgement carries the
owner's timestamps. (DEDUCED, log entry 68.) A copy that stands in the eviction buffer alone grants no lease beyond the rts that its notice
took home: the die no longer holds the line (R73, R89). -/
def recvFwdS (s : State) (d : Nat) (m : Msg) : State :=
  let h := homeDie m.line
  match copyOf? s d m.line with
  | none => sendMsg s d h { kind := .fAck, line := m.line, grant := some .s, die := m.die }
  | some x =>
    let r := if (rdcGet? s d m.line).isSome then leaseRts x.rts x.wts m.lt (s.die d).lease else x.rts
    let ns : RdcSt := if isDirtySt x then .o else .s
    let s := if (rdcGet? s d m.line).isSome then rdcPut s d m.line { x with st := ns, rts := r } else s
    let s := sendMsg s d m.die { kind := .fData, line := m.line, data := x.data, wts := x.wts, rts := r, grant := some .s, die := d }
    sendMsg s d h { kind := .fAck, line := m.line, wts := x.wts, rts := r, grant := some ns, die := m.die }

/-- FwdX at the owner: ownership passes to the requester. -/
def recvFwdX (s : State) (d : Nat) (m : Msg) : State :=
  let h := homeDie m.line
  match copyOf? s d m.line with
  | none => sendMsg s d h { kind := .fAck, line := m.line, grant := some .m, die := m.die }
  | some x =>
    let s := if (rdcGet? s d m.line).isSome then rdcDrop s d m.line else s
    let s := sendMsg s d m.die
      { kind := .fData, line := m.line, data := x.data, wts := x.wts, rts := x.rts, grant := some .m, die := d }
    sendMsg s d h { kind := .fAck, line := m.line, grant := some .m, die := m.die }

/-- FAck at the home: a forward closes (Table 3-5). -/
def recvFAck (s : State) (m : Msg) : State :=
  let e := dirGet s m.line
  match e.trans with
  | some (.fwd d excl) =>
    if excl then
      goOn (dirSet s m.line
        { e with st := .m, own := d, hold := setAdd 0 d, xfer := min 7 (e.xfer + 1), trans := none, await := [] }) m.line
    else if m.grant = some .o then
      goOn (dirSet s m.line { e with st := .o, hold := setAdd (setAdd e.hold e.own) d, trans := none, await := [] }) m.line
    else
      goOn (dirSet (l2Times s m.line m.wts m.rts) m.line
        { e with st := .s, hold := setAdd (setAdd e.hold e.own) d, own := 0, trans := none, await := [] }) m.line
  | _ => s

/-- Inv at a sharer. -/
def recvInv (s : State) (d : Nat) (m : Msg) : State :=
  let s := match rdcGet? s d m.line with
    | some x => if x.st = .s then rdcDrop s d m.line else s
    | none => s
  sendMsg s d (homeDie m.line) { kind := .iAck, line := m.line, die := d }

/-- RecallS or RecallI at the owner; a line no longer held answers empty (R89). -/
def recvRecall (s : State) (d : Nat) (m : Msg) (drop : Bool) : State :=
  let h := homeDie m.line
  match copyOf? s d m.line with
  | none => sendMsg s d h { kind := .rData, line := m.line, die := d }
  | some x =>
    let s := match rdcGet? s d m.line with
      | some y => if drop then rdcDrop s d m.line else rdcPut s d m.line { y with st := .s, dirty := 0 }
      | none => s
    sendMsg s d h { kind := .rData, line := m.line, data := x.data, wts := x.wts, rts := x.rts, die := d }

/-- RData at the home: the L2 takes the data and its timestamps (R72). -/
def recvRData (s : State) (d : Nat) (m : Msg) : State :=
  answer (if m.data = [] then s else l2Put s m.line { data := m.data, wts := m.wts, rts := m.rts, dirty := true }) m.line d

/-- Merge at a participant: its written bytes go home, from its cache or its eviction buffer, and its copy is dropped (R89, R96). -/
def recvMerge (s : State) (d : Nat) (m : Msg) : State :=
  let h := homeDie m.line
  match copyOf? s d m.line with
  | none => sendMsg s d h { kind := .mData, line := m.line, die := d }
  | some x =>
    let w := mapGetD (privGet s m.line).write d 0
    sendMsg (if (rdcGet? s d m.line).isSome then rdcDrop s d m.line else s) d h
      { kind := .mData, line := m.line, data := x.data, wts := x.wts, rts := x.rts, mask := w, die := d }

/-- MData at the home: the bytes are written, and timestamps become the maximum (R96). -/
def recvMData (s : State) (d : Nat) (m : Msg) : State :=
  if m.data = [] then answer s m.line d
  else
    let s := l2Fill s m.line
    let o := l2Get s m.line
    answer (l2Put s m.line
      { data := applyBytes o.data (bytesUnder m.data m.mask), wts := max o.wts m.wts, rts := max o.rts m.rts, dirty := true }) m.line d

/-- What a die does with a forward, an invalidation, a recall or a merge. -/
def copyMsg (s : State) (d : Nat) (m : Msg) : State :=
  match m.kind with
  | .fwdS => recvFwdS s d m
  | .fwdX => recvFwdX s d m
  | .inv => recvInv s d m
  | .recallS => recvRecall s d m false
  | .recallI => recvRecall s d m true
  | .merge => recvMerge s d m
  | _ => s
/-- Such a message at a die: where the copy that it is about is still on its way, over another link, it waits for it (R90). (DESIGN CHOICE,
log entry 62.) -/
def arriveCopy (s : State) (src d : Nat) (m : Msg) : State :=
  if (copyOf? s d m.line).isNone && (s.die d).rdcPending.contains m.line then
    s.modDie d fun k => { k with early := mapSet k.early m.line (mapGetD k.early m.line [] ++ [(src, m)]) }
  else copyMsg s d m

/-- Data or FData at a requester: the copy is installed with the state granted, its timestamps never below those it had (R72, R32), and
what came before it is handled. A grant without data finds the copy, since a line that a request is under way for is not evicted. Data(P)
answers no request by itself: a former owner asked for nothing, and a claim is answered by ClaimOK (R94, R95). -/
def recvData (s : State) (d : Nat) (m : Msg) : State :=
  let s := if m.grant = some .p then s else s.modDie d fun k => { k with rdcPending := k.rdcPending.filter (· != m.line) }
  match m.grant with
  | none => s
  | some g =>
    let dirty : BitVec 128 := if g = .m then BitVec.allOnes 128 else 0
    let s :=
      if m.data = [] then
        match copyOf? s d m.line with
        | some o => rdcInstall s d m.line { o with st := g, wts := max o.wts m.wts, rts := max o.rts m.rts, dirty := dirty ||| o.dirty }
        | none => s
      else rdcInstall s d m.line { st := g, data := m.data, wts := m.wts, rts := m.rts, dirty := dirty }
    let l := mapGetD (s.die d).early m.line []
    l.foldl (fun s x => copyMsg s d x.2) (s.modDie d fun k => { k with early := mapDel k.early m.line })

/-- An engine's ownership of a line ended: what waits for the line goes on (R91). -/
def disown (s : State) (line : Nat) : State := goOn (dirSet s line { dirGet s line with eo := false, ecore := 0 }) line

/-- A message handled by the die it reached. -/
def handleMsg (s : State) (src dst : Nat) (m : Msg) : State :=
  match m.kind with
  | .getS => arriveRequest s { m with die := src }
  | .getX => arriveRequest s { m with die := src }
  | .upg => arriveRequest s { m with die := src }
  | .claim => arriveRequest s { m with die := src }
  | .wb => arriveRequest s { m with die := src }
  | .evict => arriveRequest s { m with die := src }
  | .data => recvData s dst m
  | .fData => recvData s dst m
  | .fwdS => arriveCopy s src dst m
  | .fwdX => arriveCopy s src dst m
  | .fAck => recvFAck s m
  | .inv => arriveCopy s src dst m
  | .iAck => answer s m.line src
  | .recallS => arriveCopy s src dst m
  | .recallI => arriveCopy s src dst m
  | .rData => recvRData s src m
  | .wbAck => s.modDie dst fun k => evictAcked k m.line
  | .claimOK => s.modDie dst fun k => { k with rdcPending := k.rdcPending.filter (· != m.line) }
  | .merge => arriveCopy s src dst m
  | .mData => recvMData s src m
  | .eDone => disown s m.line

/-- Whether a message is one whose repetition is answered alike (R89). -/
def answeredAlike (k : MsgKind) : Bool := k = .inv || k = .recallS || k = .recallI || k = .merge
/-- The link from one die to another. -/
def dieLink (s : State) (src dst : Nat) : DieLink := mapGetD s.links (src * 4 + dst) {}
/-- Whether a link holds its traffic: it retrains, or a lane has failed 8 replays in a row and is to be retired (R99). -/
def linkHeld (l : DieLink) : Bool := l.retraining || l.replays.any fun p => decide (8 ≤ p.2)
/-- A link put in place. -/
def dieLinkPut (s : State) (src dst : Nat) (l : DieLink) : State := { s with links := mapSet s.links (src * 4 + dst) l }
/-- A message taken off its link by the die it reached. One that comes again gets the same answer again, which the home counts once
(R89, R100). -/
def takeMsg (s : State) (src dst : Nat) (m : Msg) : State :=
  if m.again then
    let s := dieLinkPut s src dst { dieLink s src dst with replays := [] }
    match (dieLink s src dst).last with
    | some (x, a) => if x.line = m.line ∧ x.kind = m.kind then sendMsg s dst src { a with again := true } else s
    | none => s
  else
    let n := (dieLink s dst src).fifo.length
    let s := handleMsg s src dst m
    dieLinkPut s src dst
      { dieLink s src dst with
        replays := []
        last := if answeredAlike m.kind then ((dieLink s dst src).fifo[n]?).map fun a => (m, a) else none }

/-! Whole-line settlement, for the agents that the model lets act in one step: walkers, fetch, block reads, the engines, the
trap area, event words, and requests from other devices and the host (DESIGN CHOICE, log entry 12). -/

/-- The first link that carries traffic and holds a message about a line, with its oldest message and the rest (R99). -/
def findMsg (line : Nat) : SMap DieLink → Option (Nat × Msg × List Msg)
  | [] => none
  | (k, l) :: r =>
    match l.fifo with
    | [] => findMsg line r
    | m :: rest => if !linkHeld l && l.fifo.any (fun x => x.line = line) then some (k, m, rest) else findMsg line r

/-- Links taken in their order until no message about a line is under way. -/
def deliverAll (s : State) (line : Nat) : Nat → State
  | 0 => s
  | n + 1 =>
    match findMsg line s.links with
    | none => s
    | some (k, m, rest) =>
      let l := mapGetD s.links k {}
      deliverAll (takeMsg { s with links := mapSet s.links k { l with fifo := rest } } (k / 4) (k % 4) m) line n

/-- Whether a directory entry lets the home's L2 be read, or written. -/
def settled (e : DirEntry) (write : Bool) : Bool := e.trans.isNone && (e.st = .i || (e.st = .s && !write))

/-- Rounds of settlement: messages delivered, then the copies recalled, until the line stands at the home. -/
def settleGo (s : State) (line : Nat) (write : Bool) : Nat → State
  | 0 => s
  | n + 1 =>
    let s := deliverAll s line 4096
    let e := dirGet s line
    if settled e write then s
    else if e.trans.isSome then settleGo s line write n
    else settleGo (if write || e.st = .p then collapse s line else recallShared s line) line write n

/-- A line brought to the home's L2 with no other copy that could be written: to state I for a write, to I or S for a read. -/
def settle (s : State) (line : Nat) (write : Bool) : State := l2Fill (settleGo s line write 64) line

/-- Whether something that arrived earlier waits at a line (R86). -/
def lineQueued (s : State) (line : Nat) : Bool := (dirGet s line).waiting.any (waiterLive s line)
/-- Whether such an agent has to wait for a line: an engine owns it (R91), what arrived before it waits (R86), or the messages that settle
it are held by a link (R99). -/
def lineWaits (s : State) (line : Nat) (write : Bool) : Bool :=
  (dirGet s line).eo || lineQueued s line || (!settled (dirGet s line) write && s.links.any fun l => linkHeld l.2)
/-- Whether such an agent has to wait for a line of a range of bytes. -/
def bytesWait (s : State) (pa n : Nat) (write : Bool) : Bool :=
  (upTo ((pa + n - 1) / 128 - pa / 128 + 1)).any fun i => lineWaits s (pa / 128 + i) write

/-! Readiness of a line for an access by a core. The flag says whether the access can be performed now; if not, the request or
recall it needs has been sent, or it has taken its place behind what waits, and it is tried again (R86). -/

/-- A request of a die's remote-data cache sent to the home, unless one is under way. A die without a copy asks by Claim at a line that
is privatised (R95). -/
def rdcRequest (s : State) (d line : Nat) (m : Msg) : State :=
  if (s.die d).rdcPending.contains line then s
  else
    let k := if (dirGet s line).st = .p && (dirGet s line).trans.isNone then .claim else m.kind
    sendMsg (s.modDie d fun k => { k with rdcPending := line :: k.rdcPending }) d (homeDie line) { m with kind := k, die := d }

/-- A read at the home L2 (strong loads, weak fills of the home die). (DESIGN CHOICE, log entry 13.) -/
def ensureHomeRead (s : State) (line : Nat) (w : Waiter) : State × Bool :=
  if !myTurn s line w then (lineUp s line w, false)
  else
    match (dirGet s line).st with
    | .i => (l2Fill s line, true)
    | .s => (l2Fill s line, true)
    | .p =>
      let s := collapse (lineFirst s line w) line
      if (dirGet s line).trans.isSome then (s, false) else (l2Fill s line, true)
    | _ => (recallShared (lineFirst s line w) line, false)

/-- A write at the home L2 (strong stores, atomics, publications of the home die). -/
def ensureHomeWrite (s : State) (line : Nat) (w : Waiter) : State × Bool :=
  if !myTurn s line w then (lineUp s line w, false)
  else if (dirGet s line).st = .i then (l2Fill s line, true)
  else
    let s := collapse (lineFirst s line w) line
    if (dirGet s line).trans.isSome then (s, false) else (l2Fill s line, true)

/-- Whether a die's masks cover bytes of a privatised line (R95). -/
def privCovers (s : State) (d line : Nat) (m : BitVec 128) (write : Bool) : Bool :=
  let p := privGet s line
  (m &&& ~~~(mapGetD p.access d 0)) = 0 && (!write || (m &&& ~~~(mapGetD p.write d 0)) = 0)

/-- The home die joins a privatised line, or extends its masks, without a message (R95). Where its own copy is leaving, the access waits for
the merge that its eviction notice forces (Table 3-5). -/
def ensureHomePriv (s : State) (line : Nat) (m : BitVec 128) (write : Bool) (w : Waiter) : State × Bool :=
  let h := homeDie line
  if !myTurn s line w then (lineUp s line w, false)
  else if inSet (dirGet s line).hold h && (rdcGet? s h line).isNone then (s, false)
  else if privCovers s h line m write then (s, true)
  else if claimDisjoint (privGet s line) h m write then
    let e := dirGet s line
    let s := privPut s line (claimAdd (privGet s line) h m write)
    if inSet e.hold h then (s, true)
    else
      let s := l2Fill s line
      let x := l2Get s line
      (rdcInstall (dirPut s line { e with hold := setAdd e.hold h }) h line
        { st := .p, data := x.data, wts := x.wts, rts := x.rts, dirty := 0 }, true)
  else (collapse (lineFirst s line w) line, false)

/-- A weak fill through the remote-data cache of a die that is not the home. -/
def ensureRdcRead (s : State) (c line lt : Nat) (m : BitVec 128) : State × Bool :=
  let d := dieOfCore c
  if (s.die d).rdcPending.contains line || (dirGet s line).eo then (s, false)
  else
    match rdcGet? s d line with
    | none => (rdcRequest s d line { kind := .getS, line := line, lt := lt, mask := m }, false)
    | some x =>
      match x.st with
      | .s =>
        if lt ≤ min x.rts (max lt x.wts + (s.die d).lease) then (s, true)
        else (rdcRequest s d line { kind := .getS, line := line, lt := lt, mask := m }, false)
      | .p =>
        if privCovers s d line m false then (s, true)
        else (rdcRequest s d line { kind := .claim, line := line, lt := lt, mask := m, write := false }, false)
      | .untracked => (rdcEvict s d line x, false)
      | _ => (s, true)

/-- A publication through the remote-data cache of a die that is not the home (R87, R90). -/
def ensureRdcWrite (s : State) (c line : Nat) (m : BitVec 128) : State × Bool :=
  let d := dieOfCore c
  let lt := (s.core c).lt
  if (s.die d).rdcPending.contains line || (dirGet s line).eo then (s, false)
  else
    match rdcGet? s d line with
    | none => (rdcRequest s d line { kind := .getX, line := line, lt := lt, mask := m, write := true }, false)
    | some x =>
      match x.st with
      | .m => (s, true)
      | .e => (rdcPut s d line { x with st := .m, dirty := BitVec.allOnes 128 }, true)
      | .p =>
        if privCovers s d line m true then (s, true)
        else (rdcRequest s d line { kind := .claim, line := line, lt := lt, mask := m, write := true }, false)
      | .untracked => (rdcEvict s d line x, false)
      | _ => (rdcRequest s d line { kind := .upg, line := line, lt := lt, mask := m, write := true }, false)

/-! The store rule and the reads (R73, R74, R77). -/

/-- The L1 copy of a storing core updated (R74). -/
def l1Update (s : State) (c line : Nat) (data : List Byte) (t : Nat) : State :=
  match mapGet? (s.core c).l1 line with
  | some x => if x.leased then s.modCore c fun k => { k with l1 := mapSet k.l1 line { x with data := data, wts := t, rts := t } }
              else s
  | none => s

/-- A store performed at the home L2 (R74), with its time. -/
def storeHome (s : State) (c line : Nat) (b : SMap Byte) : State × Nat :=
  let s := l2Fill s line
  let x := l2Get s line
  let t := max (s.core c).lt (x.rts + 1)
  let data := applyBytes x.data b
  let s := l2Put s line { data := data, wts := t, rts := t, dirty := true }
  (l1Update (s.modCore c fun k => { k with lt := t }) c line data t, t)

/-- A store performed in a remote-data cache or a privatised copy (R74), with its time. -/
def storeRdc (s : State) (c line : Nat) (b : SMap Byte) : State × Nat :=
  let d := dieOfCore c
  match rdcGet? s d line with
  | none => storeHome s c line b
  | some x =>
    let t := max (s.core c).lt (x.rts + 1)
    let data := applyBytes x.data b
    let s := rdcUsed (rdcPut s d line { x with data := data, wts := t, rts := t }) d line
    (l1Update (s.modCore c fun k => { k with lt := t }) c line data t, t)

/-- Room in an L1 set: 16 ways of 128 sets (Table 2-1). A dirty Plain line goes to the home L2 or the die's remote-data cache
(Table 3-1, R76). -/
def l1Drop (s : State) (c line : Nat) : State :=
  match mapGet? (s.core c).l1 line with
  | none => s
  | some x =>
    let s := s.modCore c fun k => { k with l1 := mapDel k.l1 line }
    if x.dirty then
      if homeDie line = dieOfCore c then plainHome s line x.data
      else rdcInstall s (dieOfCore c) line
        { st := .untracked, data := x.data, wts := 0, rts := 0, dirty := BitVec.allOnes 128 }
    else s

/-- The ways of an L1 set that write-set entries of the core's threads take (R53, R79). -/
def wsWays (s : State) (c line : Nat) : Nat :=
  (s.threads.map fun p => if s.coreOf p.1 = c then (p.2.ws.filter fun e => !e.moved && e.line % 128 = line % 128).length else 0).foldl (· + ·) 0
/-- The lines of an L1 set, but for one line. -/
def l1Set (k : Core) (line : Nat) : List Nat := (k.l1.filter fun p => p.1 % 128 = line % 128 && p.1 != line).map (·.1)
/-- One line of an L1 set leaves where its lines and write-set entries take all 16 ways. (DESIGN CHOICE, log entry 7.) -/
def l1Room (s : State) (c line : Nat) : State :=
  let set := l1Set (s.core c) line
  if 16 ≤ set.length + wsWays s c line ∧ set ≠ [] then l1Drop s.fresh c (set.getD (Config.victim s.free % set.length) 0) else s
/-- A line put in an L1 of 128 sets of 16 ways, a line's set being its number modulo 128; where write-set entries take every way it is not
kept. (DESIGN CHOICE, log entry 7.) -/
def l1Put (s : State) (c line : Nat) (x : L1Line) : State :=
  let s := l1Room s c line
  if 16 ≤ (l1Set (s.core c) line).length + wsWays s c line then
    (if x.dirty then l1Drop (s.modCore c fun k => { k with l1 := mapSet k.l1 line x }) c line
     else s.modCore c fun k => { k with l1 := mapDel k.l1 line })
  else s.modCore c fun k => { k with l1 := mapSet k.l1 line x }
/-- A line of an L1 is reached through a virtual page of a context (Table 3-1). -/
def l1Tag (s : State) (c line ctx page : Nat) : State :=
  match mapGet? (s.core c).l1 line with
  | some x => if x.tags.contains (ctx, page) then s
      else s.modCore c fun k => { k with l1 := mapSet k.l1 line { x with tags := x.tags ++ [(ctx, page)] } }
  | none => s

/-- The data of an untracked line for a core: from the home's L2 on its own die, else from its die's remote-data cache, which is filled
from the home (R41, R52, R76). -/
def plainData (s : State) (c line : Nat) : State × List Byte :=
  let d := dieOfCore c
  match rdcGet? s d line with
  | some x => (rdcPut s d line x, x.data)
  | none =>
    let s := l2Fill s line
    let data := (l2Get s line).data
    if homeDie line = d then (s, data)
    else (rdcInstall s d line { st := .untracked, data := data, wts := 0, rts := 0, dirty := 0 }, data)

/-- A weak load's lease and data from the granting agent (R73): home L2, or the die's remote-data cache. The line enters the L1. -/
def leaseFill (s : State) (c line : Nat) : State × List Byte :=
  let d := dieOfCore c
  let lt := (s.core c).lt
  let lease := (s.die d).lease
  let give := fun (s : State) (data : List Byte) (wts rts : Nat) =>
    (l1Put (raiseLt s c wts) c line { leased := true, data := data, wts := wts, rts := rts, dirty := false }, data)
  match rdcGet? s d line with
  | some x =>
    let r := if x.st = .s then min x.rts (max lt x.wts + lease) else leaseRts x.rts x.wts lt lease
    give (rdcUsed (rdcPut s d line (if x.st = .s then x else { x with rts := r })) d line) x.data x.wts r
  | none =>
    let s := l2Fill s line
    let x := l2Get s line
    let r := leaseRts x.rts x.wts lt lease
    give (l2Put s line { x with rts := r }) x.data x.wts r

/-! Accesses of the settling agents. -/

/-- The untracked copies of a line brought home: dirty ones are written back, and for a write every one is dropped (R76). -/
def settlePlain (s : State) (line : Nat) (write : Bool) : State :=
  let leaves := fun (dirty : Bool) => dirty || write
  let s := s.cores.foldl (fun s p => match mapGet? p.2.l1 line with
    | some x => if !x.leased && leaves x.dirty then l1Drop s p.1 line else s
    | none => s) s
  s.dies.foldl (fun s p => match rdcGet? s p.1 line with
    | some x => if x.st = .untracked && leaves (x.dirty != 0) then rdcEvict s p.1 line x else s
    | none => s) s
/-- A line brought to the home's L2 from wherever it is held. -/
def settleAll (s : State) (line : Nat) (write : Bool) : State := settle (settlePlain s line write) line write

/-- The copies that the loop-back of R12 filled of the lines of a physical range, by die and key (R39). -/
def loopCopies (s : State) (pa len : Nat) : List (Nat × Nat × RdcLine) :=
  s.dies.flatMap fun d => ((d.2.rdc ++ d.2.fills).filter fun p => match p.2.home with
    | some l => decide (pa ≤ l * 128) && decide (l * 128 < pa + len)
    | none => false).map fun p => (d.1, p.1, p.2)
/-- The loop-back copies of a physical range dropped, the bytes of a dirty one stored at their home. One whose writeback is under way stays
until that is answered (R103). -/
def loopFlush (s : State) (pa len : Nat) : State :=
  ((loopCopies s pa len).filter fun x => !x.2.2.leaving).foldl (fun s x =>
    let line := x.2.2.home.getD 0
    let s := rdcDrop s x.1 x.2.1
    if x.2.2.dirty = 0 then s
    else (storeHome (settleAll s line true) (homeCore line) line (bytesUnder x.2.2.data x.2.2.dirty)).1) s

/-! The lines of an engine (R91). -/

/-- A line obtained by a die other than its home as for a GetX: messages delivered and requests made until the die holds it in M, at most
`fuel` rounds. -/
def obtainGo (s : State) (c line : Nat) : Nat → State
  | 0 => s
  | n + 1 =>
    let s := deliverAll s line 4096
    let r := ensureRdcWrite s c line 0
    match rdcGet? r.1 (dieOfCore c) line with
    | some x => if r.2 ∧ x.st = .m then r.1 else obtainGo (if x.st = .p then collapse r.1 line else r.1) c line n
    | none => obtainGo r.1 c line n
/-- Whether a core's engine holds a line for writing: its home L2 has the only copy, or the engine's die has it in M. -/
def obtained (s : State) (c line : Nat) : Bool :=
  if homeDie line = dieOfCore c then settled (dirGet s line) true
  else (dirGet s line).trans.isNone && ((dirGet s line).st = .m || (dirGet s line).st = .e) && (match rdcGet? s (dieOfCore c) line with
    | some x => x.st = .m
    | none => false)
/-- A way of the filter made for a line by a settling agent: the copies of the entry that leaves are brought home at once (R97). -/
def filterSettle (s : State) (line : Nat) : State :=
  let d := s.die (homeDie line)
  if dirUsed (dirGet s line) || decide ((filterSet d line).length < 32) then s
  else
    match filterVictim d line with
    | some i => settle s i true
    | none => s
/-- A destination line of a command taken for a core's engine: obtained as for a GetX, then marked with EO and ECORE. The core's own
leased copy is dropped, so that its later loads wait for the command (R91, R137). -/
def takeLine (s : State) (c line : Nat) : State :=
  let s := filterSettle s line
  let s := if homeDie line = dieOfCore c then settleAll s line true else obtainGo (settlePlain s line true) c line 64
  let s := dirPut s line { dirGet s line with eo := true, ecore := c }
  s.modCore c fun k => { k with l1 := k.l1.filter fun p => !(p.1 = line && p.2.leased) }
/-- Whether a destination line can be taken now: it is settled at once but for links that retrain, and a way of the filter is free, or can
be made free. -/
def canTake (s : State) (c line : Nat) : Bool :=
  let k := s.die (homeDie line)
  let way := dirUsed (dirGet s line) || decide ((filterSet k line).length < 32)
  !(dirGet s line).eo && !lineQueued s line && ((obtained s c line && way) || !(s.links.any fun l => linkHeld l.2)) && (way || (filterVictim k line).isSome)
/-- The bytes of a line that a core's engine holds, as they stand (R91). -/
def ownBytes (s : State) (c line : Nat) : List Byte :=
  match rdcGet? s (dieOfCore c) line with
  | some x => x.data
  | none => (l2Get s line).data
/-- A line that a core's engine holds written by it, under the core's logical time (R74, R91). -/
def ownWrite (s : State) (c line : Nat) (b : SMap Byte) : State :=
  if homeDie line = dieOfCore c then (storeHome s c line b).1 else (storeRdc s c line b).1
/-- A command of a core's engine has finished with a line: EDone, which names the command, reaches the home, over the link where the home is
another die (R88, R91). -/
def engineDone (s : State) (c cmd line : Nat) : State :=
  if homeDie line = dieOfCore c then disown s line
  else sendMsg s (dieOfCore c) (homeDie line) { kind := .eDone, line := line, die := dieOfCore c, cmd := cmd }

/-- The bytes of a line as they stand, after settlement for a read. -/
def settleRead (s : State) (line : Nat) : State × List Byte :=
  let s := settleAll s line false
  (s, (l2Get s line).data)

/-- Bytes of device memory by physical address, line by line. -/
def physReadGo (s : State) (pa : Nat) : Nat → List Byte → State × List Byte
  | 0, acc => (s, acc)
  | n + 1, acc =>
    let r := if pa % 128 = 0 ∨ acc = [] then settleAll s (pa / 128) false else s
    physReadGo r (pa + 1) n (acc ++ [(l2Get r (pa / 128)).data.getD (pa % 128) 0])
/-- `n` bytes of device memory by physical address, as strong reads. -/
def physRead (s : State) (pa n : Nat) : State × List Byte := physReadGo s pa n []

/-- Bytes written line by line, at most `fuel` lines. -/
def physWriteGo (s : State) (c pa : Nat) (bs : List Byte) : Nat → State
  | 0 => s
  | f + 1 =>
    if bs = [] then s
    else
      let n := min bs.length (128 - pa % 128)
      let line := pa / 128
      let s := settleAll s line true
      let idx := (bs.take n).zipIdx.map fun p => (pa % 128 + p.2, p.1)
      physWriteGo (storeHome s c line idx).1 c (pa + n) (bs.drop n) f
/-- Bytes written to device memory by physical address, as strong writes under the logical time of core `c` (R74). -/
def physWrite (s : State) (c pa : Nat) (bs : List Byte) : State := physWriteGo s c pa bs (bs.length / 128 + 2)

end Sys2Proof.Machine
end

