-- ==== Sys2Proof/Machine/Translate.lean ====
section
/-! DEFINITION. The page tables, the walk and its outcomes, permissions, owner tags and page classification (R14 to R25, R38). -/

namespace Sys2Proof.Machine
open Sys2Proof

/-- What an access does to a page. -/
inductive Acc where
  | read | write | fetch
  deriving DecidableEq, Repr

/-- The outcome of a translation. -/
inductive TrRes where
  /-- A physical address, the leaf as it now stands, its place and its size. -/
  | ok (pa : Nat) (leaf : DWord) (entry : Nat) (big : Bool)
  /-- The page is frozen, or a table entry's line has to be waited for: the access stalls (R35, R91). -/
  | frozen
  /-- The access conflicts with the page's classification: a classifier run comes first (R22). -/
  | conflict
  /-- V = 0: a serviceable fault (R16). -/
  | missing
  /-- No translation is cached. -/
  | miss
  /-- A failure, with its cause and the faulting address. -/
  | fail (cause faddr : Nat)
  deriving DecidableEq, Repr

/-- What reading one entry of a walk gives. -/
inductive EntryRes where
  | next (base : Nat)
  | leaf (big : Bool)
  | bad (cause : Nat)
  | invalid
  deriving DecidableEq, Repr

/-- A pointer entry's checks (Table 1-3, Table 1-5): the next table's physical address. Tables lie within the channel.
(DESIGN CHOICE, log entry 25.) -/
def pointerCheck (e : DWord) (align : Nat) : EntryRes :=
  let toff := fld e 31 8 * 256
  if fld e 63 55 ≠ 0 ∨ fld e 47 32 ≠ 0 ∨ fld e 7 2 ≠ 0 ∨ 95 < fld e 54 48 ∨ toff % align ≠ 0 ∨ Config.channelBytes ≤ toff then
    .bad 5
  else .next (fld e 54 48 * 2 ^ 32 + toff)

/-- A leaf's checks (Table 1-4, Table 1-5). -/
def leafCheck (e : DWord) (big : Bool) (acc : Acc) : EntryRes :=
  if fld e 31 12 ≠ 0 ∨ fld e 3 2 ≠ 0 ∨ fld e 63 62 = 3 ∨ 95 < fld e 54 48 ∨ 0xA000 ≤ fld e 47 32 ∨
      (big = true ∧ fld e 36 32 ≠ 0) then .bad 5
  else if acc = .write ∧ fld e 4 4 = 0 then .bad 6
  else if acc = .fetch ∧ fld e 5 5 = 0 then .bad 6
  else .leaf big

/-- The first row of Table 1-5 that applies to an entry of a level. -/
def entryCheck (level : Nat) (e : DWord) (acc : Acc) : EntryRes :=
  if fld e 0 0 = 0 then .invalid
  else if level = 4 then (if fld e 1 1 = 1 then .bad 5 else leafCheck e false acc)
  else if fld e 1 1 = 1 then (if level = 3 then leafCheck e true acc else .bad 5)
  else pointerCheck e (if level = 3 then 256 else 4096)

/-- The index of a virtual address at a level (Table 1-2). -/
def levelIndex (level va : Nat) : Nat :=
  if level = 1 then va / 2 ^ 39 % 512 else if level = 2 then va / 2 ^ 30 % 512
  else if level = 3 then va / 2 ^ 21 % 512 else va / 2 ^ 16 % 32

/-- What a walk gives: the leaf with its place and size, or how it ended and at which entry. -/
inductive WalkRes where
  | leaf (e : DWord) (entry : Nat) (big : Bool)
  | invalid
  | bad (cause entry : Nat)
  /-- An engine owns the line of a table entry, or a link that it needs retrains (R91, R99). -/
  | wait
  deriving DecidableEq, Repr

/-- A walk from a level down; entries are read as strong loads at the table's home (R16, R20). The entries of levels 3 and 4 that it
passed are listed with it, for the walk cache (R18). -/
def walkFrom (s : State) (ctx va : Nat) (acc : Acc) : Nat → Nat → Nat → List WalkEntry → State × WalkRes × List WalkEntry
  | 0, _, _, l => (s, .bad 5 0, l)
  | fuel + 1, level, base, l =>
    let entry := base + 8 * levelIndex level va
    if lineWaits s (entry / 128) false then (s, .wait, l)
    else
      let r := physRead s entry 8
      let e := dwordOfBytes r.2
      let l' := if 3 ≤ level then
          { ctx := ctx, level := level, page := if level = 3 then va / 2 ^ 21 else va / 2 ^ 16, e := e, entry := entry } :: l
        else l
      match entryCheck level e acc with
      | .next b => walkFrom r.1 ctx va acc fuel (level + 1) b l'
      | .leaf big => (r.1, .leaf e entry big, l')
      | .bad c => (r.1, .bad c entry, l)
      | .invalid => (r.1, .invalid, l)

/-- The walk of a context's tables (R14, R15), with the entries of levels 3 and 4 that it passed. PS of ROOT is not looked at: Table 1-5
names levels 1, 2 and 4. (DESIGN CHOICE, log entry 63.) -/
def walkAll (s : State) (ctx va : Nat) (acc : Acc) : State × WalkRes × List WalkEntry :=
  let root := (s.ctx ctx).root
  if fld root 0 0 = 0 then (s, .invalid, [])
  else
    match pointerCheck root 4096 with
    | .next b => walkFrom s ctx va acc 4 1 b []
    | _ => (s, .bad 5 0, [])
/-- The walk of a context's tables. -/
def walk (s : State) (ctx va : Nat) (acc : Acc) : State × WalkRes :=
  let r := walkAll s ctx va acc
  (r.1, r.2.1)

/-! The walk cache of a die (R18). -/

/-- The cached entry of a level for an address. -/
def walkFind (d : Die) (ctx level page : Nat) : Option WalkEntry :=
  d.walks.find? fun e => e.ctx = ctx && e.level = level && e.page = page
/-- An entry put in a walk cache of 16,384 entries, in place of any other of its page; a full cache loses one of its entries.
(DESIGN CHOICE, log entry 26.) -/
def walkPut (s : State) (d : Nat) (x : WalkEntry) : State :=
  let keep := (s.die d).walks.filter fun e => !(e.ctx = x.ctx && e.level = x.level && e.page = x.page)
  if 16384 ≤ keep.length then s.fresh.modDie d fun k => { k with walks := x :: keep.eraseIdx (Config.victim s.free % keep.length) }
  else s.modDie d fun k => { k with walks := x :: keep }
/-- A walk by a core of a die: from the entry of level 4 that its walk cache holds, or from that of level 3, or from ROOT (R14, R18). -/
def walkCached (s : State) (d ctx va : Nat) (acc : Acc) : State × WalkRes :=
  let fill := fun (r : State × WalkRes × List WalkEntry) => (r.2.2.foldl (fun s e => walkPut s d e) r.1, r.2.1)
  match walkFind (s.die d) ctx 4 (va / 2 ^ 16) with
  | some x => match entryCheck 4 x.e acc with
    | .leaf big => (s, .leaf x.e x.entry big)
    | .bad c => (s, .bad c x.entry)
    | _ => (s, .invalid)
  | none =>
    match walkFind (s.die d) ctx 3 (va / 2 ^ 21) with
    | some x => match entryCheck 3 x.e acc with
      | .leaf big => (s, .leaf x.e x.entry big)
      | .bad c => (s, .bad c x.entry)
      | .next b => fill (walkFrom s ctx va acc 1 4 b [])
      | .invalid => (s, .invalid)
    | none => fill (walkAll s ctx va acc)
/-- The walk-cache entries of a range of virtual addresses of a context removed from every die (R21). -/
def walksDrop (s : State) (ctx lo len : Nat) : State :=
  { s with dies := mapEach (fun _ d => { d with walks := d.walks.filter fun e =>
      let sz := if e.level = 3 then 2 ^ 21 else 2 ^ 16
      !(e.ctx = ctx && decide (e.page * sz < lo + len) && decide (lo < (e.page + 1) * sz)) }) s.dies }

/-- The byte of a leaf's page that a virtual address names (R17). -/
def leafPa (leaf : DWord) (big : Bool) (va : Nat) : Nat :=
  fld leaf 54 48 * 2 ^ 32 + fld leaf 47 32 * 2 ^ 16 + (if big then va % 2 ^ 21 else va % 2 ^ 16)

/-- Whether the frame of a physical address is tagged with a context and its partition (R38). -/
def ownsFrame (s : State) (ctx pa : Nat) : Bool := mapGet? s.frames (pa / 2 ^ 16) = some { part := (s.ctx ctx).part, ctx := ctx }

/-- The bits that an access sets in a leaf: A, and D for a write (R20). -/
def accessBits (acc : Acc) : DWord := if acc = .write then 0xC0 else 0x40
/-- Whether an access claims a PRIVATE page that nobody owns: one by a core (Table 1-6). -/
def claims (leaf : DWord) (core : Option Nat) : Bool := core.isSome && fld leaf 63 62 = 0 && fld leaf 61 55 = 0x7F
/-- A leaf with its owner. -/
def setOwner (leaf : DWord) (core : Option Nat) : DWord :=
  match core with
  | some c => (leaf &&& ~~~(0x7F#64 <<< 55)) ||| (BitVec.ofNat 64 (c % 128) <<< 55)
  | none => leaf
/-- The leaf after an access by a core: A, D, and the owner of a PRIVATE page that nobody claimed (R20, Table 1-6). -/
def leafAfter (leaf : DWord) (core : Option Nat) (acc : Acc) : DWord :=
  let l := leaf ||| accessBits acc
  if claims leaf core then setOwner l core else l

/-- Whether an access conflicts with the classification of a leaf (Table 1-6); no core stands for a remote or host access. -/
def classConflict (leaf : DWord) (core : Option Nat) (acc : Acc) : Bool :=
  let cls := fld leaf 63 62
  if cls = 0 then
    match core with
    | some c => fld leaf 61 55 != 0x7F && fld leaf 61 55 != c
    | none => true
  else cls = 1 && acc = .write

/-- Where a byte of a page that moved is now: for 25,000 clocks after the switch the old home forwards to the new one (R36). -/
def forwarded (s : State) (pa : Nat) : Nat :=
  match s.forwards.find? fun f => decide (f.src ≤ pa) && decide (pa < f.src + f.len) && decide (s.clk < f.since + 25000) with
  | some f => pa - f.src + f.dst
  | none => pa

/-- The last steps of a translation under a leaf, which may be a cached one: permission, owner tag, freeze, classification, and the update
of A, D and OWNER, which is atomic on the entry as it stands at the table's home (R16, R20, R22, R35, R38). A page that the entry shows
to be claimed by another core meanwhile is in conflict. -/
def useLeaf (s : State) (core : Option Nat) (ctx va : Nat) (acc : Acc) (leaf : DWord) (entry : Nat) (big : Bool) : State × TrRes :=
  let pa := forwarded s (leafPa leaf big va)
  if acc = .write ∧ fld leaf 4 4 = 0 then (s, .fail 6 va)
  else if acc = .fetch ∧ fld leaf 5 5 = 0 then (s, .fail 6 va)
  else if !ownsFrame s ctx pa then (s, .fail 6 va)
  else if fld leaf 11 11 = 1 then (s, .frozen)
  else if classConflict leaf core acc then (s, .conflict)
  else if leafAfter leaf core acc = leaf then (s, .ok pa leaf entry big)
  else if lineWaits s (entry / 128) true then (s, .frozen)
  else
    let r := physRead s entry 8
    let now := dwordOfBytes r.2
    if claims leaf core && (fld now 63 62 != 0 || (fld now 61 55 != 0x7F && fld now 61 55 != core.getD 0)) then (r.1, .conflict)
    else
      let now' := if claims leaf core then setOwner (now ||| accessBits acc) core else now ||| accessBits acc
      (if now' = now then r.1 else physWrite r.1 (core.getD (homeCore (entry / 128))) entry (bytesOfDWord now'),
        .ok pa (leafAfter leaf core acc) entry big)

/-- A walk and its outcome for an access (R16): a core's goes through the walk cache of its die, one of the system or of another device
through none. (DESIGN CHOICE, log entry 26.) -/
def translateWalk (s : State) (core : Option Nat) (ctx va : Nat) (acc : Acc) : State × TrRes :=
  let r := match core with
    | some c => walkCached s (dieOfCore c) ctx va acc
    | none => walk s ctx va acc
  match r.2 with
  | .leaf e entry big => useLeaf r.1 core ctx va acc e entry big
  | .wait => (r.1, .frozen)
  | .invalid => (r.1, .missing)
  | .bad c entry => (r.1, .fail c (if c = 5 then entry else va))

/-- The number of a page in a translation cache. -/
def tlbPage (big : Bool) (va : Nat) : Nat := if big then va / 2 ^ 21 else va / 2 ^ 16
/-- Whether an entry of a translation cache is that of an address. -/
def tlbHit (e : TlbEntry) (ctx va : Nat) : Bool := e.ctx = ctx && e.page = tlbPage e.big va
/-- The cached translation of an address for a quarter, or with quarter 4 for an engine of the core, which looks in the core's entries
alone (R18). -/
def tlbFind (k : Core) (q ctx va : Nat) : Option TlbEntry :=
  match (mapGetD k.qtlb q []).find? fun e => tlbHit e ctx va with
  | some e => some e
  | none => k.tlb.find? fun e => tlbHit e ctx va
/-- The 32 entries of a quarter with one put first; a full quarter loses one of the others (R18). -/
def qtlbPut (s : State) (c q : Nat) (x : TlbEntry) (va : Nat) : State :=
  if 4 ≤ q then s
  else
    let keep := (mapGetD (s.core c).qtlb q []).filter fun e => !tlbHit e x.ctx va
    if 32 ≤ keep.length then
      s.fresh.modCore c fun k => { k with qtlb := mapSet k.qtlb q (x :: keep.eraseIdx (Config.victim s.free % keep.length)) }
    else s.modCore c fun k => { k with qtlb := mapSet k.qtlb q (x :: keep) }
/-- A translation cached for a quarter and its core, in place of any other of its page: 256 sets of 8 ways by page number (R18).
(DESIGN CHOICE, log entry 26.) -/
def tlbPut (s : State) (c q ctx va : Nat) (leaf : DWord) (entry : Nat) (big : Bool) : State :=
  let x : TlbEntry := { ctx := ctx, page := tlbPage big va, leaf := leaf, big := big, entry := entry }
  let s := qtlbPut s c q x va
  let keep := (s.core c).tlb.filter fun e => !tlbHit e ctx va
  let set := keep.filter fun e => e.page % 256 = x.page % 256
  if 8 ≤ set.length then
    let out := set[Config.victim s.free % set.length]?
    s.fresh.modCore c fun k => { k with tlb := x :: keep.filter fun e => some e != out }
  else s.modCore c fun k => { k with tlb := x :: keep }

/-- A translation from a core's caches alone. -/
def translateCached (s : State) (c q ctx va : Nat) (acc : Acc) : State × TrRes :=
  match tlbFind (s.core c) q ctx va with
  | none => (s, .miss)
  | some e =>
    let r := useLeaf s (some c) ctx va acc e.leaf e.entry e.big
    match r.2 with
    | .ok pa leaf entry big => (tlbPut r.1 c q ctx va leaf entry big, .ok pa leaf entry big)
    | x => (r.1, x)

/-- A translation from a core's caches, else by a walk that fills them. -/
def translateNow (s : State) (c q ctx va : Nat) (acc : Acc) : State × TrRes :=
  match tlbFind (s.core c) q ctx va with
  | some _ => translateCached s c q ctx va acc
  | none =>
    let r := translateWalk s (some c) ctx va acc
    match r.2 with
    | .ok pa leaf entry big => (tlbPut r.1 c q ctx va leaf entry big, .ok pa leaf entry big)
    | x => (r.1, x)

/-! Shootdown and classification. -/

/-- Whether a page number of a cached translation meets a range of virtual addresses. -/
def tlbMeets (e : TlbEntry) (ctx lo len : Nat) : Bool :=
  let sz := if e.big then 2 ^ 21 else 2 ^ 16
  e.ctx = ctx && decide (e.page * sz < lo + len) && decide (lo < (e.page + 1) * sz)

/-- Whether one of the pages that a line was reached through meets a range of virtual addresses. -/
def tagMeets (tags : List (Nat × Nat)) (ctx lo len : Nat) : Bool :=
  tags.any fun t => t.1 = ctx && decide (t.2 * 2 ^ 16 < lo + len) && decide (lo < (t.2 + 1) * 2 ^ 16)

/-- A shootdown on one core: its translation caches lose the range, and its instruction cache and L1 the lines of the range, dirty ones
written back (R21, R425, Table 3-1). -/
def shootCore (s : State) (ctx lo len c : Nat) : State :=
  let gone := ((s.core c).l1.filter fun p => tagMeets p.2.tags ctx lo len).map (·.1)
  (gone.foldl (fun s l => l1Drop s c l) s).modCore c fun k =>
    { k with
      qtlb := mapEach (fun _ l => l.filter fun e => !tlbMeets e ctx lo len) k.qtlb
      tlb := k.tlb.filter fun e => !tlbMeets e ctx lo len
      icache := k.icache.filter fun p => !tagMeets p.2.tags ctx lo len }
/-- A shootdown of a range on some cores: their caches, and the walk caches of the dies (R21, R425). -/
def shootdown (s : State) (ctx lo len : Nat) (cores : List Nat) : State :=
  (cores.filter fun c => (mapGet? s.cores c).isSome).foldl (shootCore · ctx lo len) (walksDrop s ctx lo len)
/-- Whether a core can acknowledge a shootdown: every request that one of its threads translated in the range has reached the home's
queue (R21). Strong stores and loads reach it as they are performed. -/
def coreAcks (s : State) (ctx lo len c : Nat) : Bool :=
  s.threads.all fun p => s.coreOf p.1 != c || s.ctxOf p.1 != ctx || p.2.ops.all fun o =>
    !((o.kind = 0x10 || o.kind = 0x11 || o.kind = 0x21) && memSpace o.insn = 1 && (o.phase = .ready || (o.phase = .resolved && !o.performed)) &&
      decide (lo < o.addr.toNat + 32) && decide (o.addr.toNat < lo + len))
/-- Whether a shootdown of a range can complete on every core named. -/
def shootAcks (s : State) (ctx lo len : Nat) (cores : List Nat) : Bool := cores.all (coreAcks s ctx lo len)

/-- Every Plain line of a physical range dropped from every L1, dirty ones written back, and every untracked copy in the
remote-data caches likewise, those that the loop-back of R12 filled among them (step 2 of R23, R76). -/
def dropPlain (s : State) (pa len : Nat) : State :=
  let inr := fun (l : Nat) => decide (pa ≤ l * 128) && decide (l * 128 < pa + len)
  let s := s.cores.foldl (fun s p => ((p.2.l1.filter fun l => inr l.1 && !l.2.leased).map (·.1)).foldl (fun s l => l1Drop s p.1 l) s) s
  let s := s.dies.foldl (fun s p => ((p.2.rdc ++ p.2.fills).filter fun l => inr l.1 && l.2.st = .untracked).foldl
    (fun s l => rdcEvict s p.1 l.1 l.2) s) s
  loopFlush s pa len

/-- What the threads hold of a physical range learns that its page is SHARED now: write-set entries and translated
operations (R24). -/
def reclassify (s : State) (pa len : Nat) : State :=
  let inr := fun (a : Nat) => decide (pa ≤ a) && decide (a < pa + len)
  let share := fun (w : List WsEntry) => w.map fun e => if inr (e.line * 128) then { e with cls := 2 } else e
  { s with threads := mapEach (fun _ th => { th with
      ws := share th.ws
      ops := th.ops.map fun o => { o with cls := if inr o.pa then 2 else o.cls, seen := o.seen.map share } }) s.threads }

/-- A classifier run for one page: frozen, written back, rewritten as SHARED, shot down, released (R23). -/
def classifierRun (s : State) (ctx va : Nat) : State :=
  let r := walk s ctx va .read
  match r.2 with
  | .leaf e entry big =>
    let len := if big then 2 ^ 21 else 2 ^ 16
    let s := reclassify (dropPlain r.1 (leafPa e big 0) len) (leafPa e big 0) len
    let e' := (e &&& ~~~(3#64 <<< 62) &&& ~~~(1#64 <<< 11)) ||| (2#64 <<< 62)
    let s := physWrite s (homeCore (entry / 128)) entry (bytesOfDWord e')
    shootdown s ctx (va / len * len) len (upTo Config.numCores)
  | _ => r.1

/-- A translation through a core's cache; a conflicting classification is changed first (R18, R22). -/
def translateRetried (s : State) (c q ctx va : Nat) (acc : Acc) : State × TrRes :=
  let r := translateNow s c q ctx va acc
  match r.2 with
  | .conflict => translateNow (classifierRun r.1 ctx va) c q ctx va acc
  | _ => r

/-- A translation for an agent that the model lets act in one step: a conflicting classification is changed first (R22). -/
def translateSettled (s : State) (core : Option Nat) (ctx va : Nat) (acc : Acc) : State × TrRes :=
  let r := translateWalk s core ctx va acc
  match r.2 with
  | .conflict =>
    let s := classifierRun r.1 ctx va
    translateWalk s core ctx va acc
  | _ => r

/-- `n` bytes at a virtual address read as a strong read, page by page at most 16 bytes apart: the bytes, or the failure. -/
def virtReadGo (s : State) (core : Option Nat) (ctx va : Nat) : Nat → List Byte → State × Except TrRes (List Byte)
  | 0, acc => (s, .ok acc)
  | n + 1, acc =>
    let r := translateSettled s core ctx va .read
    match r.2 with
    | .ok pa _ _ _ =>
      let q := physRead r.1 pa (min 8 (2 ^ 16 - va % 2 ^ 16))
      virtReadGo q.1 core ctx (va + q.2.length) n (acc ++ q.2)
    | x => (r.1, .error x)
/-- An aligned block of 8n bytes read at a virtual address. -/
def virtRead (s : State) (core : Option Nat) (ctx va n8 : Nat) : State × Except TrRes (List Byte) :=
  virtReadGo s core ctx va n8 []

/-- Aligned bytes, at most a line, written at a virtual address as a strong write. -/
def virtWrite (s : State) (core : Option Nat) (ctx va : Nat) (bs : List Byte) : State × TrRes :=
  let r := translateSettled s core ctx va .write
  match r.2 with
  | .ok pa l e b => (physWrite r.1 (core.getD (homeCore (pa / 128))) pa bs, .ok pa l e b)
  | x => (r.1, x)

/-- A strong 64-bit atomic change of an aligned word at a virtual address: the old value, or the failure. -/
def virtAtomic64 (s : State) (core : Option Nat) (ctx va : Nat) (f : DWord → DWord) : State × Except TrRes DWord :=
  let r := translateSettled s core ctx va .write
  match r.2 with
  | .ok pa _ _ _ =>
    let q := physRead r.1 pa 8
    let old := dwordOfBytes q.2
    (physWrite q.1 (core.getD (homeCore (pa / 128))) pa (bytesOfDWord (f old)), .ok old)
  | x => (r.1, .error x)

end Sys2Proof.Machine
end

