-- ==== Sys2Proof/Machine/Units.lean ====
section
/-! DEFINITION. Logical names and trace records, live counts and event words, the killing of units and the failure and
completion of launches (R313, R363 to R365, R399 to R401, R406). -/

namespace Sys2Proof.Machine
open Sys2Proof

/-- The recruiter of a helper, else the thread itself. -/
def recruiterOf (s : State) (t : Nat) : Nat :=
  match (s.thread t).helper with
  | some (r, _) => r
  | none => t

/-- The logical name of a thread (Table 21-1); a helper carries its recruiter's. -/
def nameOf (s : State) (t : Nat) : DWord :=
  let th := s.thread (recruiterOf s t)
  let tr := s.train th.train
  let block : Nat := match tr.task with
    | some k => 0x80000000 + k.number
    | none => tr.gang
  let idx := match tr.task with
    | some _ => th.tidx
    | none => (tr.role * 256 + tr.index) * 64 + th.tidx
  BitVec.ofNat 64 (tr.launch * 2 ^ 48 + block % 2 ^ 32 * 2 ^ 16 + idx % 2 ^ 16)

/-- The AUX byte of a thread's events (Table 21-2). -/
def auxOf (s : State) (t : Nat) : Nat :=
  match (s.thread t).helper with
  | some (_, i) => 0x80 + i
  | none => 0xFF

/-- The 32 bytes of a trace record (Table 21-2). -/
def traceBytes (data : DWord) (pc : Addr) (ty aux : Nat) (name : DWord) (time : Nat) : List Byte :=
  bytesOfNat 8 time ++ bytesOfDWord name ++ bytesOfNat 1 aux ++ bytesOfNat 1 ty ++ bytesOfNat 6 pc.toNat ++ bytesOfDWord data

/-- Whose a trace record is: its core, its home lane and its logical name (R399, R400). -/
structure Actor where
  core : Nat
  lane : Nat := 0
  name : DWord := 0
  deriving DecidableEq, Repr
/-- The actor of a thread's records. -/
def actorOf (s : State) (t : Nat) : Actor := { core := s.coreOf t, lane := (s.thread t).lane, name := nameOf s t }
/-- The actor of a train's records: its first thread. -/
def trainActor (s : State) (tr : Nat) : Actor := match s.membersOf tr with
  | t :: _ => { core := (s.train tr).core, lane := (s.thread t).lane, name := nameOf s t }
  | [] => { core := (s.train tr).core }

/-- One record appended to a ring, or dropped and counted where the ring is full; before the first that fits after a drop goes one of type
0x0D, with the count (R401). The ring's base is a device physical address. (DESIGN CHOICE, log entry 38.) -/
def tracePut (d : Die) (clk : Nat) (m : Memory) (rec : List Byte) : Die × Memory :=
  let lost := d.traceDrop ≠ 0
  if d.traceLen < d.traceHead + (if lost then 64 else 32) then ({ d with traceDrop := d.traceDrop + 1 }, m)
  else
    let bs := (if lost then traceBytes (BitVec.ofNat 64 d.traceDrop) 0 0x0D 0 0 clk else []) ++ rec
    ({ d with traceHead := d.traceHead + bs.length, traceDrop := 0 }, memWriteN m (d.traceBase + d.traceHead) bs)
/-- The records of a clock written to the ring of a die (R400). -/
def traceFlush (s : State) (die : Nat) : State :=
  let d := s.die die
  if d.tracePend = [] then s
  else
    let r := d.tracePend.foldl (fun (x : Die × Memory) p => tracePut x.1 s.clk x.2 p.2) ({ d with tracePend := [] }, s.mem)
    { s with mem := r.2 }.modDie die fun _ => r.1
/-- The records of a clock written to every ring, before the clock passes. -/
def traceFlushAll (s : State) : State := (upTo 4).foldl traceFlush s
/-- A record among those of its clock: by core, then by home lane, those of one lane in the order in which they are made (R400). -/
def insertRecord (key : Nat) (rec : List Byte) : List (Nat × List Byte) → List (Nat × List Byte)
  | [] => [(key, rec)]
  | x :: r => if key < x.1 then (key, rec) :: x :: r else x :: insertRecord key rec r
/-- A record for the ring of a core's die, where it has one (R400). -/
def traceRecord (s : State) (core lane : Nat) (rec : List Byte) : State :=
  if (s.die (dieOfCore core)).traceLen = 0 then s
  else s.modDie (dieOfCore core) fun d => { d with tracePend := insertRecord (core * 64 + lane) rec d.tracePend }
/-- A trace record (R400, R401). -/
def trace (s : State) (a : Actor) (ty aux : Nat) (pc : Addr) (data : DWord) : State :=
  traceRecord s a.core a.lane (traceBytes data pc ty aux a.name s.clk)

/-- A trace record of a thread. -/
def traceThread (s : State) (t ty aux : Nat) (data : DWord) : State :=
  trace s (actorOf s t) ty aux (s.thread t).pc data
/-- The FADDR of a trap record. -/
def recFaddr (bs : List Byte) : DWord := dwordOfBytes ((bs.drop 24).take 8)

/-! Order gates and logs (R408, R410). -/

/-- The gate of the service train that performs the atomics of a home core: there is one for each cluster of six cores (R2, R92, R408,
R410). -/
def trainGate (home : Nat) : Nat := home / 6
/-- The gate of a stream. -/
def streamGate (die n : Nat) : Nat := 1000 + die * 8 + n
/-- Whether an order gate admits an event of a name in replay: only the one its head names (R410). -/
def gateTakes (s : State) (gate : Nat) (name : DWord) (kind aux : Nat) : Bool :=
  !s.replaying || (match mapGetD s.gates gate [] with
    | [] => true
    | x :: _ => fld x 127 64 = name.toNat && fld x 31 24 = kind && fld x 7 0 = aux)
/-- Whether an order gate admits an event of a thread in replay. -/
def gateAdmits (s : State) (gate t kind : Nat) : Bool := gateTakes s gate (nameOf s t) kind (auxOf s t)
/-- A log chunk of one event (R408). -/
def logChunk (name : DWord) (count kind aux : Nat) : BitVec 128 :=
  name ++ BitVec.ofNat 32 count ++ BitVec.ofNat 8 kind ++ (0 : BitVec 16) ++ BitVec.ofNat 8 aux
/-- An event appended to a log, merged into the last chunk where name and kind agree (R408). -/
def logAppend (l : List (BitVec 128)) (name : DWord) (kind aux : Nat) : List (BitVec 128) :=
  match l.reverse with
  | x :: r =>
    if fld x 127 64 = name.toNat ∧ fld x 31 24 = kind ∧ fld x 7 0 = aux then
      (logChunk name (fld x 63 32 + 1) kind aux :: r).reverse
    else l ++ [logChunk name 1 kind aux]
  | [] => [logChunk name 1 kind aux]
/-- The chunks that the logs of a die hold. -/
def logLength (d : Die) : Nat := (d.log.map fun g => g.2.length).foldl (· + ·) 0
/-- An event of a name logged at a gate, where the die logs; a full log area stops the log (R408). (DEDUCED, log entry 33.) -/
def logNamed (s : State) (die gate : Nat) (name : DWord) (kind aux : Nat) : State :=
  if (s.die die).logging && !(s.die die).logStopped then
    if Config.logChunks ≤ logLength (s.die die) then s.modDie die fun d => { d with logStopped := true }
    else s.modDie die fun d => { d with log := mapSet d.log gate (logAppend (mapGetD d.log gate []) name kind aux) }
  else s
/-- An event of a thread logged at a gate. -/
def logEvent (s : State) (die gate t kind : Nat) : State := logNamed s die gate (nameOf s t) kind (auxOf s t)
/-- The gates open once every log is exhausted, and logging begins again (R410). -/
def gatesDone (s : State) : State :=
  if s.replaying && s.gates.all fun g => g.2.isEmpty then
    { s with
      replaying := false
      dies := mapEach (fun _ d => { d with logging := s.ckptOn, logStopped := false, log := [] }) s.dies }
  else s
/-- An admitted event passes its gate. -/
def gatePass (s : State) (gate : Nat) : State :=
  match mapGetD s.gates gate [] with
  | [] => s
  | x :: r =>
    let r := if fld x 63 32 ≤ 1 then r
      else (BitVec.ofNat 128 (x.toNat - 2 ^ 32)) :: r
    gatesDone { s with gates := mapSet s.gates gate r, gateSince := mapSet s.gateSince gate s.clk }

/-- Whether the service train of a line's home may perform a contribution of a name now (R410). -/
def atomAdmits (s : State) (line : Nat) (name : DWord) (aux : Nat) : Bool := gateTakes s (trainGate (homeCore line)) name 0 aux
/-- A contribution of a name logged by the service train of a line's home, and past its gate (R408, R410). -/
def atomLogged (s : State) (line : Nat) (name : DWord) (aux : Nat) : State :=
  gatePass (logNamed s (homeDie line) (trainGate (homeCore line)) name 0 aux) (trainGate (homeCore line))
/-- Whether the service train may perform the contributions of several names one after another. -/
def namesAdmit (s : State) (line : Nat) : List (DWord × Nat) → Bool
  | [] => true
  | n :: r => atomAdmits s line n.1 n.2 && namesAdmit (gatePass s (trainGate (homeCore line))) line r
/-- Contributions of several names logged. -/
def namesLogged (s : State) (line : Nat) (l : List (DWord × Nat)) : State := l.foldl (fun s n => atomLogged s line n.1 n.2) s

/-! Launch blocks (Tables 14-1 and 14-2). -/

/-- EVT. -/
def Launch.evt (l : Launch) : Nat := fld l.header 367 320
/-- NGANG. -/
def Launch.ngang (l : Launch) : Nat := fld l.header 319 304
/-- DIES. -/
def Launch.hasDie (l : Launch) (d : Nat) : Bool := l.header.getLsbD (224 + d)
/-- TTAB. -/
def Launch.ttab (l : Launch) : Nat := fld l.header 415 368
/-- A launch without roles may issue to both engines (R349). -/
def Launch.noRoles (l : Launch) : Bool := l.roles.length = 1 && (l.roles.all fun r => fld r 1 0 = 0)

/-! Live counts (R363). -/

/-- The trains of a launch on a core. -/
def trainsOn (s : State) (lid c : Nat) : List Train :=
  ((s.trains.filter fun p => p.2.launch = lid && p.2.core = c && p.2.evicted.isNone).map (·.2))
/-- The number of different values of a list. -/
def countDistinct : List Nat → Nat
  | [] => 0
  | x :: xs => (if xs.contains x then 0 else 1) + countDistinct xs
/-- Tokens of a queue accepted and not fired. -/
def XQueue.unfired (q : XQueue) : Nat := q.tokens.length
/-- The live count of a launch on a core: units, queued records, unfired tokens. An evicted train still counts. -/
def liveCore (s : State) (lid c : Nat) : Nat :=
  let ts := (s.trains.filter fun p => p.2.launch = lid && p.2.core = c).map (·.2)
  countDistinct ((ts.filter fun t => t.task.isNone).map (·.gang))
    + (ts.filter fun t => t.task.isSome).length
    + (mapGetD (s.core c).taskq lid []).length
    + (((s.queues.filter fun q => q.2.launch = lid && fld q.2.cfg 70 64 = c).map fun q => q.2.unfired).foldl (· + ·) 0)
/-- The live count of a die. -/
def liveDie (s : State) (lid d : Nat) : Nat :=
  ((upTo Config.coresPerDie).map fun i => liveCore s lid (d * Config.coresPerDie + i)).foldl (· + ·) 0
/-- The live count of the device, gangs not yet placed included. -/
def liveDevice (s : State) (lid : Nat) : Nat :=
  ((upTo 4).map fun d => liveDie s lid d).foldl (· + ·) 0
    + (match s.launch? lid with
       | some l => l.ngang - l.nextGang
       | none => 0)

/-- A strong add of 1 at an event word, or a strong store in an event area: made now, or false where the page is frozen or the line has to
be waited for (R35, R91), or an order gate of a replay holds the add (R408, R410). A page that cannot be written leaves it undone. (DESIGN CHOICE, log entry 64.) -/
def eventMade (s : State) (e : EventDue) : State × Bool :=
  let r := translateSettled s none e.ctx e.va .write
  match r.2 with
  | .ok pa _ _ _ =>
    if bytesWait r.1 pa (max 8 e.store.length) true || (e.store = [] && !atomAdmits r.1 (pa / 128) e.name 0xFF) then (r.1, false)
    else if e.store = [] then (atomLogged (virtAtomic64 r.1 none e.ctx e.va (· + 1)).1 (pa / 128) e.name 0xFF, true)
    else ((virtWrite r.1 none e.ctx e.va e.store).1, true)
  | .frozen => (r.1, false)
  | _ => (r.1, true)
/-- An event made at once, or kept until it can be made. -/
def eventDue (s : State) (e : EventDue) : State :=
  let r := eventMade s e
  if r.2 then r.1 else { r.1 with events := r.1.events ++ [e] }
/-- The events that wait made, in their order, where they now can be. -/
def settleEvents (s : State) : State := s.events.foldl eventDue { s with events := [] }
/-- The name under which the adds at a launch's event words are logged: its id before ones. (DESIGN CHOICE, log entry 85.) -/
def eventName (lid : Nat) : DWord := BitVec.ofNat 64 (lid % 2 ^ 16 * 2 ^ 48 + (2 ^ 48 - 1))
/-- A strong add of 1 at an event word, where the launch asks for it. -/
def eventWord (s : State) (lid : Nat) (l : Launch) (bit off : Nat) : State :=
  if l.evt = 0 ∨ l.header.getLsbD bit = false then s
  else eventDue s { ctx := l.ctx, va := l.evt + off, store := [], name := eventName lid }

/-- A strong store in the event area of a launch, if it has one. -/
def eventStore (s : State) (l : Launch) (off : Nat) (bs : List Byte) : State :=
  if l.evt = 0 then s else eventDue s { ctx := l.ctx, va := l.evt + off, store := bs }

/-- The time record of a launch (Table 21-5). (DESIGN CHOICE, log entry 45.) -/
def timeRecord (l : Launch) : List Byte :=
  bytesOfNat 8 l.entry ++ bytesOfNat 8 l.queue ++ bytesOfNat 8 l.fsvc ++ bytesOfNat 8 l.wait ++ bytesOfNat 8 l.exec
    ++ bytesOfNat 8 l.wall

/-- The pool entries of a die that the queues of a launch hold (R342). -/
def poolUsed (m : SMap XQueue) (lid d : Nat) : Nat :=
  match m with
  | [] => 0
  | (_, q) :: r =>
    (if q.launch = lid ∧ dieOfCore (fld q.cfg 70 64) = d then (q.tokens.filter fun k => !k.spilled).length else 0)
      + poolUsed r lid d

/-- The streams, rings and queues of a launch freed (R364, Table 13-4). -/
def freeUnits (s : State) (lid : Nat) : State :=
  let s := { s with
    queues := s.queues.filter fun q => q.2.launch != lid
    dies := mapEach (fun d x => { x with
      streams := mapEach (fun _ y => if y.launch = some lid then {} else y) x.streams
      pool := x.pool - poolUsed s.queues lid d }) s.dies }
  s.modLaunch lid fun l => { l with rings := [] }

/-- The completion of a launch whose device count has reached zero (R364, R406). -/
def completeLaunch (s : State) (lid : Nat) : State :=
  match s.launch? lid with
  | none => s
  | some l =>
    let s := eventWord s lid l 218 800
    let s := if l.header.getLsbD 219 then { s with outs := s.outs ++ [.irq (fld l.header 215 208)] } else s
    let s := eventStore s l 816 (timeRecord l)
    (freeUnits s lid).modLaunch lid fun l =>
      { l with state := match l.state with
        | .failed c => .failed c
        | _ => .done }

/-- The event words of a launch fired for every level whose count fell to zero between two states, lowest level first
(R364). -/
def settleCounts (s0 s : State) (lid : Nat) : State :=
  match s.launch? lid with
  | none => s
  | some l =>
    let s1 := (upTo Config.numCores).foldl (fun a c =>
      if liveCore s lid c = 0 && liveCore s0 lid c != 0 then eventWord a lid l 216 (8 * c) else a) s
    let s2 := (upTo 4).foldl (fun a d =>
      if liveDie s lid d = 0 && liveDie s0 lid d != 0 then eventWord a lid l 217 (8 * (96 + d)) else a) s1
    if liveDevice s lid = 0 && liveDevice s0 lid != 0 then completeLaunch s2 lid else s2

/-! Releasing what a train holds. -/

/-- The place in the bank of a register of a home lane (R44, R166). -/
def bankKey (quarter row lane : Nat) : Nat := quarter * 2 ^ 17 + row * 64 + lane
/-- The registers of a thread left in the bank for the next occupant (R44). -/
def leaveRegs (s : State) (t : Nat) : State :=
  let th := s.thread t
  let tr := s.train th.train
  if th.helper.isSome then s
  else s.modCore tr.core fun k =>
    { k with bankLeft := (upTo tr.regs).foldl (fun m i => mapSet m (bankKey tr.quarter (tr.row + i) th.lane) (getG th i)) k.bankLeft }

/-- The scratch lines of a byte range. -/
def scrLines (base len : Nat) : List Nat := (upTo (len / 128)).map fun i => base / 128 + i
/-- A scratch line's state. -/
def scrGet (k : Core) (l : Nat) : ScrLine := mapGetD k.lines l {}
/-- A scratch line's state put in place; the state P is not listed. -/
def scrPut (k : Core) (l : Nat) (x : ScrLine) : Core :=
  { k with lines := if x = {} then mapDel k.lines l else mapSet k.lines l x }
/-- A scratch line written with zeros and made present (R49). -/
def scrZero (k : Core) (l : Nat) : Core :=
  scrPut { k with scratch := memWriteN k.scratch (l * 128) (List.replicate 128 0) } l {}

/-- A pin removed: an early one, or a late one (R45). -/
def unpin (k : Core) (p : Nat) : Core :=
  let x := scrGet k (p / 2)
  scrPut k (p / 2) (if p % 2 = 0 then { x with early := x.early - 1 } else { x with late := x.late - 1 })

/-- Whether a copy command of a core that has been accepted owns a line. -/
def engineHolds (k : Core) (line : Nat) : Bool := k.cpq.any fun m => m.accepted && m.owned.any fun l => l.1 = line
/-- Lines given up by a core's engine, each by the last of the commands that gives it up, but for those that another of its commands owns
(R91). -/
def giveUp (s : State) (c : Nat) (l : List (Nat × Nat)) : State :=
  (l.map (·.2)).eraseDups.foldl (fun s i =>
    if engineHolds (s.core c) i then s
    else engineDone s c (((l.filter fun p => p.2 = i).getLast?.map (·.1)).getD 0) i) s
/-- The commands of a train discarded from both engine queues: pins removed, presence left clear, owned lines released
(R313, Tables 12-4 and 12-9). -/
def discardCommands (s : State) (tr : Nat) : State :=
  let c := (s.train tr).core
  let k := s.core c
  let mx := k.mxq.filter fun m => m.train = tr
  let cp := k.cpq.filter fun m => m.train = tr
  let k1 := (mx.flatMap (·.pins) ++ cp.flatMap (·.pins)).foldl unpin k
  let k2 := (cp.flatMap fun m => m.fills).foldl (fun k l => scrPut k l { scrGet k l with fill := none }) k1
  let s := s.modCore c fun _ =>
    { k2 with mxq := k2.mxq.filter fun m => m.train != tr, cpq := k2.cpq.filter fun m => m.train != tr }
  giveUp s c (cp.flatMap fun m => m.owned.map fun l => (m.id, l.1))

/-- A stream of a die. -/
def streamGet (s : State) (d n : Nat) : Stream := mapGetD (s.die d).streams n {}
/-- A stream of a die put in place. -/
def streamPut (s : State) (d n : Nat) (x : Stream) : State := s.modDie d fun k => { k with streams := mapSet k.streams n x }
/-- The room that pushes of a thread reserved and have not used returned to their streams (R241, R335). -/
def returnRooms (s : State) (t : Nat) : State :=
  (s.thread t).ops.foldl (fun s o =>
    match o.insn with
    | .escIn _ _ k i _ =>
      if o.phase = .unitWait then
        let x := streamGet s (s.dieOf t) i.toNat
        streamPut s (s.dieOf t) i.toNat { x with reserved := x.reserved - 1, reservedBodies := x.reservedBodies - k.toNat }
      else s
    | _ => s) s

/-- The batches of a train that are complete retired, oldest first: a batch is complete once its commands are done, or, without a
command, once its number has been returned; its flags go to the threads that issued its commands (R307, R308). -/
def settleBatches (s : State) (tr : Nat) : Nat → State
  | 0 => s
  | n + 1 =>
    let x := s.train tr
    match x.committed with
    | [] => s
    | b :: r =>
      let mine := (s.core x.core).mxq.filter fun m => b.cmds.contains m.id
      if (mine.all fun m => m.done) && (!mine.isEmpty || b.returned) then
        let s := mine.foldl (fun s m => s.modThread m.thread fun th => orFlags th m.flags) s
        let s := s.modCore x.core fun k => { k with mxq := k.mxq.filter fun m => !b.cmds.contains m.id }
        settleBatches (s.modTrain tr fun y => { y with committed := r }) tr n
      else s

/-- Words of an accumulator tile set to zero. -/
def tileZero (k : Core) (tile : Nat) : Core := { k with acc := k.acc.filter fun p => p.1 / 4096 != tile }

/-- Commands that will not be performed are in no batch of their train (R307). -/
def dropCmds (s : State) (tr : Nat) (ids : List Nat) : State :=
  s.modTrain tr fun x =>
    { x with
      open' := x.open'.filter fun i => !ids.contains i
      committed := x.committed.map fun b => { b with cmds := b.cmds.filter fun i => !ids.contains i } }

/-- The trains that are resident on a core. -/
def residents (s : State) (c : Nat) : List Train := ((s.trains.filter fun p => p.2.core = c && p.2.evicted.isNone).map (·.2))

/-- A train killed: its threads stop, its commands and write-set entries are discarded, its helpers released, its tiles set to
zero, and its scratch range and registers released (R313). One that is evicted holds none of these any more (R378). -/
def killTrain (s : State) (tr : Nat) : State :=
  let x := s.train tr
  let ts := (s.threads.filter fun p => p.2.train = tr).map (·.1)
  let s := discardCommands s tr
  let s := ts.foldl returnRooms (if x.evicted.isSome then s else ts.foldl leaveRegs s)
  let s := ts.foldl (fun s t => s.modThread t fun th =>
    { th with stopped := true, ws := [], ops := [], results := [], park := .none, bnd := none, bank := none, trap := none }) s
  let s := { s with
    atoms := s.atoms.filter fun a => !ts.contains a.thread
    dies := mapEach (fun _ d => { d with
      streams := mapEach (fun _ x => { x with parked := x.parked.filter fun t => !ts.contains t }) d.streams }) s.dies
    barriers := mapEach (fun _ b => { b with arrived := b.arrived.filter fun t => !ts.contains t }) s.barriers }
  let s := if x.evicted.isSome then s else s.modCore x.core fun k => (upTo x.acc).foldl (fun k i => tileZero k (x.tile + i)) k
  let shared := x.evicted.isSome || s.trains.any fun p => p.1 != tr && p.2.core = x.core && p.2.launch = x.launch && p.2.task.isNone
    && p.2.evicted.isNone && x.task.isNone && p.2.gang = x.gang
  let s := if shared then s
    else s.modCore x.core fun k => (scrLines x.sbase x.slen).foldl (fun k l =>
      let y := scrGet k l
      if y.present then scrPut k l {} else scrZero k l) k
  { s with
    trains := mapDel s.trains tr
    threads := s.threads.filter fun p => !(p.2.train = tr && p.2.helper.isSome) }

/-- Every unit of a launch killed and its queues discarded (R365). -/
def killLaunch (s : State) (lid : Nat) : State :=
  let s := ((s.trains.filter fun p => p.2.launch = lid).map (·.1)).foldl killTrain s
  let s := { s with
    cores := mapEach (fun _ k => { k with taskq := mapDel k.taskq lid }) s.cores
    dies := mapEach (fun d x => { x with pool := x.pool - poolUsed s.queues lid d }) s.dies
    queues := mapEach (fun _ q => if q.launch = lid then { q with tokens := [], fired := [] } else q) s.queues }
  s.modLaunch lid fun l => { l with nextGang := l.ngang }

/-- A launch fails: every unit killed, the code stored at EVT + 808, then the device event (R365); the failure is traced for the
actor named. -/
def launchFail (s : State) (lid code : Nat) (a : Actor) : State :=
  match s.launch? lid with
  | none => s
  | some l =>
    match l.state with
    | .failed _ => s
    | _ =>
      let s0 := s
      let s := killLaunch s lid
      let s := s.modLaunch lid fun l => { l with state := .failed code }
      let s := trace s a 0x05 0xFF 0 (BitVec.ofNat 64 code)
      let s := eventStore s l 808 (bytesOfNat 8 code)
      settleCounts s0 s lid

/-- A train's task killed by an engine fault (R313): relaunched if idempotent, else the launch fails with the code given. The record joins the
task queue of its core also where that holds 1,024, and a handed range is not handed again: the dispatcher allots SCRK (R355, R358).
(DESIGN CHOICE, log entry 81.) -/
def taskKill (s : State) (tr code : Nat) : State :=
  let x := s.train tr
  let a := trainActor s tr
  match x.task with
  | some k =>
    if fld k.record 304 304 = 1 then
      let s := killTrain s tr
      let s := trace s a 0x04 0xFF 0 (BitVec.ofNat 64 k.addr)
      match s.launch? x.launch with
      | some l =>
        let again : Task := { record := k.record, number := l.tasks, addr := k.addr, fired := k.fired }
        let s := s.modCore x.core fun c => { c with taskq := mapSet c.taskq x.launch (mapGetD c.taskq x.launch [] ++ [again]) }
        s.modLaunch x.launch fun l => { l with tasks := l.tasks + 1 }
      | none => s
    else launchFail s x.launch code a
  | none => launchFail s x.launch code a

end Sys2Proof.Machine
end

