-- ==== Sys2Proof/Machine/Ops.lean ====
section
/-! DEFINITION. The named operations on threads: the issue of an instruction with the checks of R188, results and pending bits,
the window of failable operations and the horizon, what holds a thread, boundaries, and the taking of a trap and the return
from one (R369 to R372). -/

namespace Sys2Proof.Machine
open Sys2Proof

/-! Program counter and parking. -/

/-- A program counter is even: bit 0 of an address that one is set from is dropped (R187). (DESIGN CHOICE, log entry 65.) -/
def evenPc (a : Nat) : Addr := BitVec.ofNat 48 (a / 2 * 2)
/-- The PC after an instruction of a length. -/
def pcAfter (th : Thread) (i : Instr) : Addr := th.pc + BitVec.ofNat 48 i.length
/-- A thread that has completed an instruction, at a new PC, held by nothing. -/
def goTo (th : Thread) (pc : Addr) : Thread := { th with pc := pc, park := .none, bnd := none, stage := 0, passed := 0 }
/-- A thread moved past its instruction. -/
def past (i : Instr) (th : Thread) : Thread := goTo th (pcAfter th i)
/-- A thread of the state moved past its instruction. -/
def advance (i : Instr) (s : State) (t : Nat) : State := s.modThread t (past i)
/-- A thread held at its instruction; a wait that goes on keeps the clock at which it began (R375). -/
def park (s : State) (t : Nat) (w : Wait) : State :=
  s.modThread t fun th => { th with park := w, since := if th.park = w then th.since else s.clk }

/-! Results and pending bits (R182 to R184). -/

/-- Registers marked pending. -/
def pendGs (th : Thread) (l : List Nat) : Thread := { th with pendG := l.foldl (fun p i => p ||| (1#64 <<< i)) th.pendG }
/-- Predicates marked pending; q0 never is. -/
def pendQs (th : Thread) (l : List Nat) : Thread :=
  { th with pendQ := l.foldl (fun p i => if i = 0 then p else p ||| (1#8 <<< i)) th.pendQ }
/-- Every pending bit cleared: a marked instruction has issued. (DEDUCED, log entry 55.) -/
def clearPending (th : Thread) : Thread := { th with pendG := 0, pendQ := 0 }
/-- A variable-latency result on its way (R183). -/
def putResult (th : Thread) (r : Result) : Thread :=
  pendQs (pendGs { th with results := th.results ++ [r] } (r.regs.map (·.1))) (r.preds.map (·.1))
/-- A result written (R182, R217). -/
def writeResult (th : Thread) (r : Result) : Thread := orFlags (setQs (setGs th r.regs) r.preds) r.flags

/-- Whether an operation delivers a register result: loads and atomics. -/
def opHasResult (o : Op) : Bool := o.kind = 0x10 || o.kind = 0x11 || o.kind = 0x30 || o.kind = 0x31
/-- Whether an operation has reached its end without effect on its registers. -/
def opDead (o : Op) : Bool :=
  match o.phase with
  | .failed _ => true
  | .held => true
  | .indeterminate => true
  | _ => false
/-- Whether a result of the thread has not arrived (R183). -/
def outstanding (th : Thread) : Bool :=
  !th.results.isEmpty || th.ops.any fun o => opHasResult o && o.phase != .resolved
/-! The horizon (R238 to R241). -/

/-- The number of the oldest unresolved operation, or SEQ. -/
def hzOf (th : Thread) : BitVec 16 :=
  match th.ops.find? fun o => o.phase != .resolved with
  | some o => o.seq
  | none => th.seq
/-- Operations before the first unresolved one that are also performed leave the window. -/
def pruneOps : List Op → List Op
  | [] => []
  | o :: r => if o.phase = .resolved then (if o.performed then pruneOps r else o :: pruneOps r) else o :: r
/-- One byte taken into a CRC-64 of the ECMA-182 polynomial (R409). -/
def crcByte (c : DWord) (b : Byte) : DWord :=
  (upTo 8).foldl (fun (c : DWord) _ => if c.getLsbD 63 then (c <<< 1) ^^^ 0x42F0E1EBA9EA3693 else c <<< 1)
    (c ^^^ (b.setWidth 64 <<< 56))
/-- Bytes taken into a running CRC. -/
def crcBytes (c : DWord) (l : List Byte) : DWord := l.foldl crcByte c
/-- The bytes a store operation writes; `stf` captures the flag address behind them (R248). -/
def storeData (o : Op) : List Byte := if o.kind = 0x23 then o.data.take (o.data.length - 8) else o.data
/-- Whether an operation is a store or `stf`. -/
def isStoreOp (o : Op) : Bool := o.kind = 0x20 || o.kind = 0x21 || o.kind = 0x22 || o.kind = 0x23
/-- A store's address, byte count and data taken into the running CRC (R409). -/
def crcStore (c a : DWord) (b : List Byte) : DWord := crcBytes c (bytesOfDWord a ++ bytesOfNat 1 b.length ++ b)
/-- Whether a CRC after `n` stores differs from the value logged at that count (R410). -/
def crcDiffers (l : List (Nat × DWord)) (c : DWord) (n : Nat) : Bool := l.any fun x => x.1 = n && x.2 != c
/-- A store taken into the CRC of its thread, which is compared with what the log has at its count (R409, R410). -/
def hashStore (th : Thread) (x : DWord × List Byte) : Thread :=
  let c := crcStore th.crc x.1 x.2
  { th with crc := c, stores := th.stores + 1, diverged := th.diverged || crcDiffers th.logged c (th.stores + 1) }
/-- The stores of the resolved prefix of a window, and those to scratch behind them, taken into the running CRC in program order (R409, R410).
(DEDUCED, log entry 29.) -/
def hashOps (th : Thread) : List Op → Thread × List Op
  | [] => (th, [])
  | o :: r =>
    if o.phase = .resolved then
      let th := if o.hashed || !isStoreOp o then th else hashStore th (o.addr, storeData o)
      let q := hashOps (o.tail.foldl hashStore th) r
      (q.1, { o with hashed := true, tail := [] } :: q.2)
    else (th, o :: r)
/-- HZ brought up to date, and the stores that have resolved taken into the CRC. -/
def settleHz (th : Thread) : Thread :=
  let h := hashOps th th.ops
  { h.1 with hz := hzOf th, ops := pruneOps h.2 }
/-- A store to scratch noted behind the last operation of a window. -/
def addTail (x : DWord × List Byte) : List Op → List Op
  | [] => []
  | [o] => [{ o with tail := o.tail ++ [x] }]
  | o :: r => o :: addTail x r
/-- A store of a thread to scratch, for its CRC: taken at once, or behind the operations that have not resolved (R409). -/
def hashScratch (th : Thread) (x : DWord × List Byte) : Thread :=
  if th.ops.all fun o => o.phase = .resolved then hashStore th x else { th with ops := addTail x th.ops }
/-- The resolved operations of a window, with the scratch stores behind those that are not given to the operation before them, or first
where there is none. -/
def keepResolved : List Op → List (DWord × List Byte) × List Op
  | [] => ([], [])
  | o :: r =>
    let q := keepResolved r
    if o.phase = .resolved then ([], { o with tail := o.tail ++ q.1 } :: q.2) else (o.tail ++ q.1, q.2)
/-- The count of unresolved operations (R238). -/
def unresolved (th : Thread) : Nat := (th.seq - th.hz).toNat
/-- Whether a seventeenth operation would be held (R240). -/
def windowFull (th : Thread) : Bool := decide (16 ≤ unresolved th)
/-- The operation of a number. -/
def opOf? (th : Thread) (seq : Nat) : Option Op := th.ops.find? fun o => o.seq.toNat = seq
/-- An operation changed. -/
def modOp (th : Thread) (seq : Nat) (f : Op → Op) : Thread :=
  settleHz { th with ops := th.ops.map fun o => if o.seq.toNat = seq then f o else o }
/-- A new operation takes the value of SEQ (R238). -/
def addOp (th : Thread) (o : Op) : Thread :=
  settleHz { th with ops := th.ops ++ [{ o with seq := th.seq }], seq := th.seq + 1 }
/-- An operation fails with a cause and a faulting address. -/
def failTh (th : Thread) (seq cause : Nat) (faddr : DWord) : Thread :=
  modOp th seq fun o => { o with phase := .failed cause, faddr := faddr }
/-- An operation of a thread fails. -/
def failOp (s : State) (t seq cause : Nat) (faddr : DWord) : State := s.modThread t fun th => failTh th seq cause faddr
/-- An operation of a thread resolves, performed. -/
def resolveOp (s : State) (t seq : Nat) : State :=
  s.modThread t fun th => modOp th seq fun o => { o with phase := .resolved, performed := true }

/-- Whether an operation is the failure of a trap record. -/
def opFailed (o : Op) : Bool :=
  match o.phase with
  | .failed _ => true
  | .indeterminate => true
  | _ => false
/-- Whether an operation has left the core and has no final outcome yet (R136). -/
def opInFlight (o : Op) : Bool := o.phase = .sent || o.phase = .started
/-- The window from the oldest unresolved operation on. -/
def window : List Op → List Op
  | [] => []
  | o :: r => if o.phase = .resolved then window r else o :: r
/-- Whether a failure can be delivered: every older operation has resolved and every younger one that left the core has its
outcome (R241). -/
def horizonReady (th : Thread) : Bool :=
  match window th.ops with
  | [] => false
  | o :: r => opFailed o && !(r.any opInFlight)

/-- The helpers of a recruiter that have not ended. -/
def helpersOf (s : State) (t : Nat) : List Nat :=
  match (s.thread t).bank with
  | some b => b.live
  | none => []
/-- Unresolved operations of a thread with those of its helpers (R329). -/
def unresolvedAll (s : State) (t : Nat) : Nat :=
  unresolved (s.thread t) + ((helpersOf s t).map fun h => unresolved (s.thread h)).foldl (· + ·) 0
/-- A clear horizon, helpers included (R329). -/
def horizonClear (s : State) (t : Nat) : Bool := unresolvedAll s t = 0
/-- Whether every operation of a thread that is still listed has been performed. -/
def allPerformed (th : Thread) : Bool := th.ops.all fun o => o.performed
/-- Whether an operation is a remote, aperture or host access: what a fence covers at domain scope alone (R128). -/
def outerOp (o : Op) : Bool := (o.kind = 0x11 || o.kind = 0x22 || o.kind = 0x23 || o.kind = 0x31) && decide (2 ≤ memSpace o.insn)
/-- Whether every strong access of a thread that a fence covers has been performed (R128); weak accesses do not count. -/
def strongPerformed (domain : Bool) (th : Thread) : Bool :=
  th.ops.all fun o => o.performed || o.kind = 0x10 || o.kind = 0x20 || o.kind = 0x40 || o.kind = 0x41 || (!domain && outerOp o)
/-- Whether a read or an atomic of a thread has no value bound yet (row 2 of Table 4-4, R121). -/
def readsOpen (th : Thread) : Bool := th.ops.any fun o => !o.performed && !o.bound && opHasResult o

/-! Traps: raising (R367, R370, R372). -/

/-- A gathered group that a thread leaves before it issues gathers anew: its other members wait again (R178, R181). -/
def dissolve (s : State) (t : Nat) : State :=
  if (s.thread t).stage = 1 then
    let tr := s.train (s.thread t).train
    let gs := mapGetD (s.core tr.core).groups tr.quarter []
    let s := (gs.filter fun g => g.contains t).flatten.foldl (fun s u => s.modThread u fun th => { th with stage := 0 }) s
    s.modCore tr.core fun k => { k with groups := mapSet k.groups tr.quarter (gs.filter fun g => !g.contains t) }
  else s

/-- A thread taken out of whatever it waits in: barrier arrivals, gathered groups and parked stream places. -/
def withdraw (s : State) (t : Nat) : State :=
  let s := dissolve s t
  { s with
    barriers := mapEach (fun _ b => { b with arrived := b.arrived.filter (· != t) }) s.barriers
    dies := mapEach (fun _ d =>
      { d with streams := mapEach (fun _ x => { x with parked := x.parked.filter (· != t) }) d.streams }) s.dies }

/-- A handler overflow or an undeliverable trap: the thread stops, bit 20 of TPEND is set, and the launch fails with code 5
(R372). -/
def overflow (s : State) (t : Nat) : State :=
  let s := (withdraw s t).modThread t fun th => { th with stopped := true, trap := none, park := .none, tpend := th.tpend ||| 0x100000 }
  launchFail s (s.launchOf t) 5 (actorOf s t)

/-- A precise trap raised at the thread's instruction; the saved PC and resume PC are the instruction, unless `rpc` gives
another (R369). A helper's trap waits to be charged (R330); in handler mode the trap is an overflow (R370). -/
def raiseAt (s : State) (t cause : Nat) (faddr : DWord) (rpc : Addr) : State :=
  let th := s.thread t
  if th.helper.isNone && th.hm then overflow s t
  else (withdraw s t).modThread t fun th =>
    { th with trap := some { cause := cause, pc := th.pc, rpc := rpc, faddr := faddr }, park := .none, bnd := none, stage := 0 }
/-- A precise trap raised at the thread's instruction. -/
def raise (s : State) (t cause : Nat) (faddr : DWord) : State := raiseAt s t cause faddr (s.thread t).pc

/-- An asynchronous cause: taken before the next instruction; held in TPEND in handler mode or behind another trap, with a trace record
(R367, R370, R401). The FADDR of a breakpoint is kept with it (R404). -/
def raiseAsync (s : State) (t cause : Nat) (faddr : DWord) : State :=
  let th := s.thread t
  if th.helper.isNone && (th.hm || th.trap.isSome) then
    if th.tpend.getLsbD cause then overflow s t
    else (traceThread s t 0x03 cause faddr).modThread t fun th =>
      { th with tpend := th.tpend ||| (1#32 <<< cause), heldBp := if cause = 17 then faddr else th.heldBp }
  else if th.trap.isSome then s
  else (dissolve s t).modThread t fun th => { th with trap := some { cause := cause, pc := th.pc, rpc := th.pc, faddr := faddr } }

/-- A thread takes the replay-divergence cause, with its trace record (R410). -/
def diverge (s : State) (t : Nat) : State :=
  let s := traceThread s t 0x0A (auxOf s t) (BitVec.ofNat 64 (s.thread t).stores)
  raiseAsync (s.modThread t fun th => { th with diverged := false }) t 19 0
/-- Every thread whose CRC differs from its log takes the cause (R410). -/
def divergeAll (s : State) : State :=
  ((s.threads.filter fun p => p.2.diverged).map (·.1)).foldl diverge s

/-! What holds a thread (Tables 2-6 and 6-7). -/

/-- Scratch lines of a byte range that one access or `prs.wait` names. -/
def scrRange (lo hi : Nat) : List Nat := if hi ≤ lo then [] else (upTo ((hi - 1) / 128 - lo / 128 + 1)).map fun i => lo / 128 + i
/-- Whether the lines of a range are present (R46). -/
def scrPresent (k : Core) (lo hi : Nat) : Bool := (scrRange lo hi).all fun l => (scrGet k l).present
/-- Whether the lines of a range are free of pins (R46). -/
def scrUnpinned (k : Core) (lo hi : Nat) : Bool := (scrRange lo hi).all fun l => (scrGet k l).early = 0 && (scrGet k l).late = 0
/-- What holds an access to a range of scratch, by the first row of Table 2-3 that does: an absent line, or pins under a store
(R46, R47). -/
def scrHold (k : Core) (lo hi : Nat) (store : Bool) : Option Wait :=
  if !scrPresent k lo hi then some (.scratch lo hi false)
  else if store && !scrUnpinned k lo hi then some (.scratch lo hi true)
  else none
/-- Whether every line of a range has reached state P; an absent line without a pending fill counts as P (R49). -/
def rangeQuiet (k : Core) (base len : Nat) : Bool :=
  (scrLines base len).all fun l => let x := scrGet k l; (x.early = 0 && x.late = 0) && (x.present || x.fill.isNone)

/-- The task queue of a launch on a core. -/
def taskQueue (s : State) (lid c : Nat) : List Task := mapGetD (s.core c).taskq lid []
/-- The ring of a gang. -/
def ringOf? (s : State) (tr : Train) (r : Nat) : Option Ring :=
  match s.launch? tr.launch with
  | some l => if tr.task.isSome then none else mapGet? l.rings (tr.gang * 4 + r)
  | none => none
/-- Whether a train waits to receive on a ring: every thread of it that has not ended does, so that none can send (R361). -/
def inRecv (s : State) (tr r : Nat) : Bool :=
  (s.threads.any fun p => p.2.train = tr && p.2.park = .ringData r) &&
    s.threads.all fun p => p.2.train != tr || p.2.exited || p.2.stopped || p.2.helper.isSome || p.2.park = .ringData r
/-- Whether a ring has ended: every producer place ended and every slot taken (R361). -/
def ringEnded (s : State) (tr : Train) (r : Nat) : Bool :=
  match ringOf? s tr r with
  | none => false
  | some x =>
    let gang := s.trains.filter fun p => p.2.launch = tr.launch && p.2.gang = tr.gang && p.2.task.isNone
    let placeEnded := fun (p : Nat) => x.ended.contains p || !((s.threads.any fun q => q.2.train = p && !q.2.exited))
    let free := x.nprod - x.producers.length
    x.data.isEmpty && x.producers.all placeEnded && (free = 0 || gang.all fun p => inRecv s p.1 r)

/-- The number of commits of a train that are not complete (R307). -/
def batchesOpen (tr : Train) : Nat := tr.committed.length
/-- Whether a train has an `mx.op` issued and neither accepted nor failed (R309). -/
def mxPending (s : State) (tr : Nat) : Bool := (s.core (s.train tr).core).mxq.any fun m => m.train = tr && !m.accepted
/-- The constraints that a stream holds. -/
def Stream.held (x : Stream) : List Constraint := x.wait ++ x.openBatch ++ x.closed.flatten ++ x.released
/-- Whether a push of `k` bodies can reserve room (R333, R335). -/
def Stream.room (x : Stream) (k : Nat) : Bool :=
  decide (x.held.length + x.reserved + 1 ≤ 1024) &&
    decide ((x.held.map fun c => c.bodies.length).foldl (· + ·) 0 + x.reservedBodies + k ≤ 4096)
/-- Whether `esc.next` of a thread can end (R337): it is the earliest parked and something is to be handed out, or the
stream is drained. -/
def Stream.nextReady (x : Stream) (t : Nat) : Bool :=
  x.st = .drained || ((match x.parked with
    | [] => true
    | p :: _ => p = t) && x.released.any fun c => !c.given)

/-- Whether `esc.next` of a thread can end: in replay the head of the log names the thread that receives (R337, R410). -/
def nextMay (s : State) (d n t : Nat) : Bool :=
  let x := streamGet s d n
  if s.replaying && !(mapGetD s.gates (streamGate d n) []).isEmpty then
    x.st = .drained || (gateAdmits s (streamGate d n) t 2 && x.released.any fun c => !c.given)
  else x.nextReady t

/-- Whether the wait of a thread is over, so that it may issue its instruction again. -/
def waitDone (s : State) (t : Nat) : Bool :=
  let th := s.thread t
  let tr := s.train th.train
  match th.park with
  | .none => true
  | .results => !outstanding th
  | .missRoom => decide ((s.core tr.core).misses.length < 128)
  | .window => !windowFull th
  | .scratch lo hi pins => if pins then scrUnpinned (s.core tr.core) lo hi else scrPresent (s.core tr.core) lo hi
  | .reads => !readsOpen th
  | .horizon n => decide (unresolvedAll s t ≤ n)
  | .ownHorizon => unresolved th = 0
  | .gather _ => th.stage = 1
  | .boundaryStart _ => horizonClear s t && allPerformed th
  | .boundary => match th.bnd with
    | some b => b.done
    | none => true
  | .fence domain => strongPerformed domain th
  | .barrier _ => !(s.barriers.any fun b => b.2.arrived.contains t)
  | .helpers => (helpersOf s t).isEmpty
  | .batches n => decide (batchesOpen tr ≤ n)
  | .commit => decide (batchesOpen tr < 8)
  | .tiles => !mxPending s th.train
  | .streamRoom n k => (streamGet s (s.dieOf t) n).room k
  | .streamNext n => th.stage = 3 || nextMay s (s.dieOf t) n t
  | .taskRoom c => decide ((taskQueue s tr.launch c).length < 1024)
  | .handOver => rangeQuiet (s.core tr.core) tr.sbase tr.slen
  | .ringRoom r => match ringOf? s tr r with
    | some x => decide (x.data.length < x.depth)
    | none => true
  | .ringData r => (match ringOf? s tr r with
    | some x => !x.data.isEmpty
    | none => true) || ringEnded s tr r
  | .phaseEnd => th.stage = 2
  | .together l => l.all fun u =>
      let x := s.thread u
      x.park != .together l || (match x.bnd with
        | some b => b.done
        | none => horizonClear s u && allPerformed x)

/-- Whether a thread stands at the PC of an enabled breakpoint of its partition that names its launch (R403). -/
def bpMatches (s : State) (t : Nat) (v : Breakpoint) : Bool :=
  fld v 64 64 = 1 && fld v 47 0 = (s.thread t).pc.toNat && (fld v 63 48 = 0xFFFF || fld v 63 48 = s.launchOf t % 2 ^ 16)
/-- Whether a breakpoint that has not been taken or passed yet stops a thread before its instruction issues (R403).
(DEDUCED, log entry 49.) -/
def bpWaits (s : State) (t : Nat) : Bool :=
  s.breakpoints.any fun p => p.1 / 8 = (s.ctx (s.ctxOf t)).part && bpMatches s t p.2 && !(s.thread t).passed.getLsbD (p.1 % 8)

/-- Whether a thread is held by nothing but what it waits for at its instruction (Table 6-7): it has not ended, is not halted, its
train stands, and no trap awaits delivery. -/
def threadFree (s : State) (t : Nat) : Bool :=
  let th := s.thread t
  let tr := s.train th.train
  !th.exited && !th.stopped && !th.halted && th.trap.isNone && (th.helper.isSome || !tr.stopped) && tr.evicted.isNone
    && !(horizonReady th && !th.hm) && !(th.helper.isSome && th.ops.any opFailed) && !bpWaits s t
/-- Whether a thread is runnable (R169): no trap awaits delivery, nothing holds it. -/
def runnable (s : State) (t : Nat) : Bool := threadFree s t && waitDone s t

/-! Gathering (R178, R181, R236). -/

/-- The threads of a train that a mask holds. -/
def maskMembers (s : State) (tr m : Nat) : List Nat :=
  let bits := mapGetD (s.train tr).masks m 0
  (s.membersOf tr).filter fun t => bits.getLsbD (s.thread t).tidx
/-- Whether a thread has gathered on a mask at a PC. -/
def gatheredAt (th : Thread) (m : Nat) (pc : Addr) : Bool :=
  (match th.park with
   | .gather k => k = m
   | _ => false) && th.pc = pc && th.stage = 0 && th.trap.isNone
/-- A gathering tested: once every member stands at one PC, they form a group (R178, R181). -/
def testGather (s : State) (tr m : Nat) : State :=
  match maskMembers s tr m with
  | [] => s
  | t :: ts =>
    let pc := (s.thread t).pc
    if (t :: ts).all fun x => gatheredAt (s.thread x) m pc && threadFree s x then
      let s := (t :: ts).foldl (fun s x => s.modThread x fun th => { th with stage := 1 }) s
      let x := s.train tr
      s.modCore x.core fun k =>
        { k with groups := mapSet k.groups x.quarter (mapGetD k.groups x.quarter [] ++ [t :: ts]) }
    else s
/-- Every gathering of a train tested. -/
def testGathers (s : State) (tr : Nat) : State := (upTo 12).foldl (fun s m => testGather s tr m) s
/-- A mask register of a train changed. -/
def modMask (s : State) (tr m : Nat) (f : DWord → DWord) : State :=
  s.modTrain tr fun x => { x with masks := mapSet x.masks m (f (mapGetD x.masks m 0)) }

/-! The issue of an instruction (R171, R183, R184, R188). -/

/-- Whether an index of an operand lies beyond the thread's registers: `n` registers, and in a helper h0 to h15 as 48 to 63
(R42, R324). -/
def beyond (helper : Bool) (n i : Nat) : Bool := decide (n ≤ i) && !(helper && decide (48 ≤ i))

/-- The register-bound step of R188, with a helper's checks of R324: a cause, if the instruction is refused. -/
def boundCheck (th : Thread) (n : Nat) (i : Instr) : Option Nat :=
  let o := operands i
  let h := th.helper.isSome
  if (o.rd ++ o.wr).any (beyond h n) then some 1
  else if h then
    match i with
    | .rnext d _ => if d.toNat < 48 ∨ d.toNat % 2 = 1 then some 1 else none
    | _ => if o.barred || o.wr.any (fun r => decide (r < 48)) then some 12 else none
  else none

/-- Whether a guard holds (R192). -/
def guardHolds (th : Thread) (g : BitVec 4) : Bool := getQ th (g.extractLsb' 1 3).toNat != g.getLsbD 0
/-- The pending checks of R184: a cause, if one is raised. -/
def pendingCheck (th : Thread) (o : Opnds) : Option Nat :=
  if o.rd.any (fun r => th.pendG.getLsbD r) || o.prd.any (fun q => th.pendQ.getLsbD q) then some 2
  else if o.wr.any (fun r => th.pendG.getLsbD r) || o.pwr.any (fun q => th.pendQ.getLsbD q) then some 3
  else none

/-- What the checks of R188 make of an instruction for one thread. -/
inductive Check where
  | run
  | skip
  | wait (w : Wait)
  | trap (cause : Nat)
  deriving DecidableEq, Repr

/-- The checks of R188 after decoding, in order, the marker wait and the full window included (R183, R184, R240). -/
def checkIssue (th : Thread) (n : Nat) (i : Instr) : Check :=
  let o := operands i
  if o.mark && outstanding th then .wait .results
  else
    let th := if o.mark then clearPending th else th
    match boundCheck th n i with
    | some c => .trap c
    | none =>
      if th.pendQ.getLsbD (o.guard.extractLsb' 1 3).toNat then .trap 2
      else if !guardHolds th o.guard then .skip
      else
        match pendingCheck th o with
        | some c => .trap c
        | none => if o.failable && windowFull th then .wait .window else .run

/-- The marker of an instruction passed: a marked one clears every pending bit (R183). -/
def passMarker (i : Instr) (th : Thread) : Thread := if (operands i).mark then clearPending th else th

/-- One thread of the bundle issues an instruction: the checks, then its body. -/
def issueOne (i : Instr) (body : State → Nat → State) (s : State) (t : Nat) : State :=
  match checkIssue (s.thread t) (s.trainOf t).regs i with
  | .wait w => park s t w
  | .trap c => raise (s.modThread t (passMarker i)) t c 0
  | .skip => advance i (s.modThread t (passMarker i)) t
  | .run => body (s.modThread t (passMarker i)) t

/-- The bundle issues an instruction: each thread executes it as it would alone (R171). -/
def issueEach (i : Instr) (body : State → Nat → State) (s : State) : Host.Outcome State Fault Refusal :=
  .next { s.bundle.foldl (issueOne i body) s with bundle := [] }

/-- A fixed-latency effect on the thread alone, then on to the next instruction. -/
def fixedBody (i : Instr) (f : Thread → Thread) (s : State) (t : Nat) : State := s.modThread t fun th => past i (f th)
/-- A variable-latency effect: the result leaves for its registers (R182). -/
def variableBody (i : Instr) (f : Thread → Result) (s : State) (t : Nat) : State :=
  s.modThread t fun th => past i (putResult th (f th))
/-- A step without an encoding whose occasion does not hold. (DESIGN CHOICE, log entry 9.) -/
def notEnabled (n : String) : Host.Outcome State Fault Refusal := .refused (.notEnabled n)

/-- An instruction that waits as a marked instruction waits, whatever its S bit (R234, R322, R371). -/
def markedBody (body : State → Nat → State) (s : State) (t : Nat) : State :=
  if outstanding (s.thread t) then park s t .results else body (s.modThread t clearPending) t

/-- An instruction executed once per train (R296): of the threads of a train in the bundle that are not held, the one of
lowest train index executes it and is given the others; they do nothing else, and go on without it where it traps. -/
def issueTrains (i : Instr) (run : State → Nat → List Nat → State) (s : State) : Host.Outcome State Fault Refusal :=
  let chk := fun (t : Nat) => checkIssue (s.thread t) (s.trainOf t).regs i
  let live := s.bundle.filter fun t => match chk t with
    | .wait _ => false
    | _ => (s.thread t).helper.isNone
  let mates := fun (t : Nat) => live.filter fun u => (s.thread u).train = (s.thread t).train && u != t
  let elected := fun (t : Nat) => live.contains t && (mates t).all fun u => decide ((s.thread t).tidx < (s.thread u).tidx)
  let one := fun (st : State) (t : Nat) =>
    match chk t with
    | .wait w => park st t w
    | .trap c => raise (st.modThread t (passMarker i)) t c 0
    | .skip => advance i (st.modThread t (passMarker i)) t
    | .run =>
      if elected t then
        let ms := (mates t).filter fun u => chk u = .run
        run ((t :: ms).foldl (fun st u => st.modThread u (passMarker i)) st) t ms
      else if (mates t).any fun u => elected u && chk u = .run then st
      else advance i (st.modThread t (passMarker i)) t
  .next { s.bundle.foldl one s with bundle := [] }
/-- Threads moved past an instruction. -/
def advanceAll (i : Instr) (s : State) (l : List Nat) : State := l.foldl (advance i) s
/-- Threads held together. -/
def parkAll (s : State) (l : List Nat) (w : Wait) : State := l.foldl (fun s t => park s t w) s

/-- The h registers and the flags of a departed helper kept with its recruiter's bank (R327). -/
def bankKeeps (th : Thread) (i : Nat) (b : Bank) : Bank :=
  { b with
    regs := (upTo 16).foldl (fun m k => mapSet m (16 * i + k) (getG th (48 + k))) b.regs
    flags := b.flags ||| th.fstat }

/-! The phase write set (R79 to R83). -/

/-- Bytes merged into an entry. -/
def wsMerge (b : SMap Byte) (nb : SMap Byte) : SMap Byte := nb.foldl (fun m p => mapSet m p.1 p.2) b
/-- Bytes removed from entries of a line: those of an older mode, or every one (R79, R82). -/
def wsRemove (ws : List WsEntry) (line : Nat) (nb : SMap Byte) (only : WsEntry → Bool) : List WsEntry :=
  ws.map fun e => if e.line = line ∧ only e then { e with bytes := nb.foldl (fun m p => mapDel m p.1) e.bytes } else e
/-- A weak store's bytes placed in the thread's entry of its mode (R79). -/
def wsStore (th : Thread) (line cls page clk : Nat) (nb : SMap Byte) : Thread :=
  let ws := if th.hm then wsRemove th.ws line nb (fun e => !e.handler) else th.ws
  if ws.any (fun e => e.line = line && e.handler = th.hm) then
    { th with ws := ws.map fun e => if e.line = line ∧ e.handler = th.hm then { e with bytes := wsMerge e.bytes nb } else e }
  else { th with ws := ws ++ [{ line := line, handler := th.hm, bytes := wsMerge [] nb, cls := cls, page := page, born := clk }] }
/-- The thread's own bytes laid over a line: handler-mode entries over ordinary ones (R81). -/
def wsOver (th : Thread) (line : Nat) (data : List Byte) : List Byte :=
  let f := fun (h : Bool) (d : List Byte) => th.ws.foldl (fun d e => if e.line = line ∧ e.handler = h then applyBytes d e.bytes else d) d
  f true (f false data)
/-- Handler mode ends: handler-mode entries merge into ordinary ones, their bytes taking precedence (R79). -/
def endHandler (th : Thread) : Thread :=
  let th := { th with hm := false }
  (th.ws.filter (·.handler)).foldl (fun th e =>
    if th.ws.any (fun x => x.line = e.line && !x.handler) then
      { th with ws := th.ws.map fun x => if x.line = e.line ∧ x.handler = false then { x with bytes := wsMerge x.bytes e.bytes } else x }
    else { th with ws := th.ws ++ [{ e with handler := false }] }) { th with ws := th.ws.filter fun x => !x.handler }

/-- Entries of the write set in a core's L1 (R79). -/
def wsInL1 (s : State) (c : Nat) : Nat :=
  (s.threads.map fun p => if s.coreOf p.1 = c then (p.2.ws.filter fun e => !e.moved).length else 0).foldl (· + ·) 0
/-- Entries of a core in its overflow area (R80). -/
def wsInArea (s : State) (c : Nat) : Nat :=
  (s.threads.map fun p => if s.coreOf p.1 = c then (p.2.ws.filter (·.moved)).length else 0).foldl (· + ·) 0
/-- The clock at which the oldest entry in a core's L1 was made. -/
def wsOldest (s : State) (c : Nat) : Nat :=
  s.threads.foldl (fun m p => if s.coreOf p.1 = c then (p.2.ws.filter fun e => !e.moved).foldl (fun m e => min m e.born) m else m) s.clk
/-- One entry of an age moved: the first of that age. -/
def moveOne (born : Nat) : List WsEntry → Option (List WsEntry)
  | [] => none
  | e :: r => if !e.moved && e.born = born then some ({ e with moved := true } :: r) else (moveOne born r).map (e :: ·)
/-- The first thread of a core with an entry of an age has it moved to the overflow area (R80). -/
def moveOldest (s : State) (c : Nat) : State :=
  let b := wsOldest s c
  match s.threads.find? fun p => s.coreOf p.1 = c && (moveOne b p.2.ws).isSome with
  | some p => s.modThread p.1 fun th => { th with ws := (moveOne b th.ws).getD th.ws }
  | none => s

/-! Serviceable faults (R16, R376, R424). -/

/-- A serviceable fault of a core: its issue stops until the system cores finish; the stall is charged to the context and
launch given. The fetches and range operations that met it are kept with it. -/
def stallCore (s : State) (c ctx lid page : Nat) (write : Bool) (met : List (Nat × Nat) := []) : State :=
  s.modCore c fun k =>
    { k with
      stall := some (ctx, lid)
      misses := { ctx := ctx, page := page, write := write, faulted := true, met :=
            (k.misses.filter fun m => m.ctx = ctx && m.page = page).flatMap (·.met) ++ met } ::
        k.misses.filter fun m => !(m.ctx = ctx && m.page = page) }

/-! What meets a serviceable fault, beside operations: a fetch of a thread, its trap area, a command of an engine by id, the decrement of a
train's successor, the spill area of a queue, the type table of a launch, and an operation of a thread at the Regulator. -/

/-- A fetch of a thread. -/
def metFetch (t : Nat) : Nat × Nat := (t, 2 ^ 16)
/-- The trap area of a thread. -/
def metArea (t : Nat) : Nat × Nat := (t, 2 ^ 16 + 1)
/-- A command of an engine. -/
def metCommand (id : Nat) : Nat × Nat := (id, 2 ^ 16 + 2)
/-- The successor of a train. -/
def metSuccessor (tr : Nat) : Nat × Nat := (tr, 2 ^ 16 + 3)
/-- The spill area of a queue. -/
def metSpill (q : Nat) : Nat × Nat := (q, 2 ^ 16 + 4)
/-- The type table of a launch. -/
def metTable (lid : Nat) : Nat × Nat := (lid, 2 ^ 16 + 5)
/-- An operation of a thread at the Regulator. -/
def metRegulator (t : Nat) : Nat × Nat := (t, 2 ^ 16 + 6)
/-- The landing check of a jump of a thread. -/
def metLanding (t : Nat) : Nat × Nat := (t, 2 ^ 16 + 7)
/-- A missing page met by an agent: its fault is raised, or was raised and declined, which the flag says and which fails this access of
this agent (R424). (DESIGN CHOICE, log entry 25.) -/
def metMissing (s : State) (c ctx lid page : Nat) (write : Bool) (who : Nat × Nat) : State × Bool :=
  if (s.core c).declined.contains ((ctx, page), who) then
    (s.modCore c fun k => { k with declined := k.declined.erase ((ctx, page), who) }, true)
  else (stallCore s c ctx lid page write [who], false)

/-! Boundaries (R83, R114, R126). -/

/-- Phase clocks raised at the end of a publication (R83, step 3 of R126). Scopes are numbered 0 train, 1 movement, 2 calibre,
3 device, 4 domain. -/
def writeClocks (s : State) (c scope tmax : Nat) : State :=
  let s := if 2 ≤ scope then s.modDie (dieOfCore c) fun d => { d with cpc := max d.cpc tmax } else s
  let s := if 3 ≤ scope then { s with dpc := max s.dpc tmax } else s
  raiseLt s c tmax
/-- A phase clock read, and LT raised (step 4 of R126). -/
def readClocks (s : State) (c scope : Nat) : State :=
  let s := if 2 ≤ scope then raiseLt s c (s.die (dieOfCore c)).cpc else s
  if 3 ≤ scope then raiseLt s c s.dpc else s

/-- The write-set entries that a boundary of a thread publishes: those of its present mode (R83, R251). -/
def boundaryEntries (th : Thread) : List WsEntry := th.ws.filter fun e => e.handler = th.hm

/-- Steps 1 to 3 of a boundary of a thread advanced as far as they go at its instruction: the flag says that the clock of the
scope has been updated (R126). The publication itself is made by performed acknowledgements. -/
def boundaryPublish (s : State) (t scope : Nat) : State × Bool :=
  let th := s.thread t
  let c := s.coreOf t
  match th.bnd with
  | some b =>
    if b.done then (s.modThread t fun th => { th with bnd := none }, true)
    else (park s t .boundary, false)
  | none =>
    if horizonClear s t && allPerformed th then
      if boundaryEntries th = [] then (writeClocks s c scope (s.core c).lt, true)
      else
        (park (s.modThread t fun th => { th with bnd := some { scope := scope, tmax := 0, pc := th.pc } }) t .boundary, false)
    else (park s t (.boundaryStart (scope = 4)), false)
/-- A boundary of a thread: the flag says that it has completed (R126). -/
def boundaryStep (s : State) (t scope : Nat) : State × Bool :=
  let r := boundaryPublish s t scope
  if r.2 then (readClocks r.1 (s.coreOf t) scope, true) else r

/-! The trap record (R246 to R248). -/

/-- The 64-byte header of a record (Table 9-12). -/
def recordHeader (cause fseq count : Nat) (pc rpc : Addr) (faddr : DWord) (hidx : Nat) : List Byte :=
  bytesOfNat 4 (2 ^ cause) ++ bytesOfNat 2 fseq ++ bytesOfNat 1 count ++ [0] ++ bytesOfNat 8 pc.toNat ++ bytesOfNat 8 rpc.toNat
    ++ bytesOfDWord faddr ++ bytesOfNat 2 hidx ++ List.replicate 30 0

/-- The status of an operation in a record (Tables 9-15 and 9-16). -/
def opStatus (first : Bool) (o : Op) : Nat :=
  match o.phase with
  | .resolved => if o.kind = 0x20 then 1 else if o.kind = 0x40 ∨ o.kind = 0x41 then 2 else 0
  | .indeterminate => 3
  | _ => if first then 4 else 2

/-- Bytes padded with zeros, or cut, to a length. -/
def padTo (n : Nat) (l : List Byte) : List Byte := (l ++ List.replicate n 0).take n

/-- One 32-byte entry (Table 9-13). -/
def recordEntry (pc : Addr) (first : Bool) (o : Op) : List Byte :=
  bytesOfNat 2 o.seq.toNat ++ bytesOfNat 1 (opStatus first o) ++ bytesOfNat 1 o.kind
    ++ bytesOfNat 4 (if o.pc.extractLsb' 32 16 = pc.extractLsb' 32 16 then o.pc.toNat % 2 ^ 32 else 0xFFFFFFFF)
    ++ bytesOfDWord o.addr ++ padTo 16 (o.data ++ o.cap)
/-- One 32-byte extension slot (Table 9-14). -/
def recordExt (o : Op) : List Byte :=
  bytesOfNat 4 (encodeWord o.insn).toNat ++ List.replicate 4 0 ++ padTo 24 (o.data.drop 16)

/-- The cause of a failed operation; remote indeterminate is bit 8. -/
def opCause (o : Op) : Nat :=
  match o.phase with
  | .failed c => c
  | _ => 8

/-- The full record of a horizon trap from the oldest failure on (R246). -/
def horizonRecord (th : Thread) (hidx : Nat) (rpc : Addr) : Option Record :=
  match (window th.ops).take 16 with
  | [] => none
  | o :: r =>
    some { cause := opCause o
           bytes := recordHeader (opCause o) o.seq.toNat (r.length + 1) o.pc rpc o.faddr hidx
             ++ padTo 512 (recordEntry o.pc true o ++ r.flatMap fun x => recordEntry o.pc false x)
             ++ padTo 512 (recordExt o ++ r.flatMap recordExt) }

/-- The record of a trap without a horizon record: a header alone (step 3 of R369). -/
def headerRecord (th : Thread) (k : TrapReq) (hidx : Nat) : Record :=
  { cause := k.cause
    bytes := recordHeader k.cause th.seq.toNat 0 k.pc k.rpc k.faddr hidx ++ List.replicate 1024 0 }

/-- The window of a thread emptied at delivery or settlement: what is resolved but not performed stays, everything cancelled
goes, and HZ becomes SEQ (R242, R136). -/
def clearWindow (th : Thread) : Thread :=
  let q := keepResolved th.ops
  settleHz (q.1.foldl hashStore { th with ops := q.2 })

/-- Unaccepted commands of the cancelled operations of a thread withdrawn from their engines, and reservations of its pushes
returned (R241). -/
def cancelUnits (s : State) (t : Nat) : State :=
  let c := s.coreOf t
  let ids := ((s.core c).mxq.filter fun m => !m.accepted && m.thread = t).map (·.id)
  let s := dropCmds (returnRooms s t) (s.thread t).train ids
  s.modCore c fun k =>
    { k with
      mxq := k.mxq.filter fun m => m.accepted || m.thread != t
      cpq := k.cpq.filter fun m => m.accepted || m.thread != t }

/-! Delivery (R369, R371). -/

/-- The address of a trap area (Table 15-2). -/
def areaOf (th : Thread) : Nat := th.tarea.toNat

/-- What the check of a trap area finds: it can be written, it waits for a page, or it cannot be written (R369). -/
inductive AreaRes where
  | ok | wait | bad
  deriving DecidableEq, Repr

/-- A missing page of a trap area: it waits for the fault, or cannot be had once that is declined (R369, R424). -/
def areaMissing (s : State) (t page : Nat) (write : Bool) : State × AreaRes :=
  let r := metMissing s (s.coreOf t) (s.ctxOf t) (s.launchOf t) page write (metArea t)
  (r.1, if r.2 then .bad else .wait)

/-- The check of the whole trap area for writing, before any byte is written; a serviceable fault is serviced first (R369,
R424). -/
def checkArea (s : State) (t : Nat) : State × AreaRes :=
  let th := s.thread t
  let a := areaOf th
  let c := s.coreOf t
  let ctx := s.ctxOf t
  if a = 0 ∨ th.tvec = 0 ∨ 2 ^ 48 < a + 1088 then (s, .bad)
  else
    let r := translateSettled s (some c) ctx a .write
    match r.2 with
    | .ok pa _ _ _ =>
      let q := translateSettled r.1 (some c) ctx (a + 1087) .write
      match q.2 with
      | .ok pb _ _ _ =>
        -- the area lies in one page or in two; no line of it may belong to an engine (R91)
        let n := min 1088 (2 ^ 16 - a % 2 ^ 16)
        (q.1, if bytesWait q.1 pa n true || bytesWait q.1 (pb + 1 - (if n < 1088 then 1088 - n else 1)) (if n < 1088 then 1088 - n else 1) true
          then .wait else .ok)
      | .missing => areaMissing q.1 t ((a + 1087) / 2 ^ 16) true
      | .frozen => (q.1, .wait)
      | _ => (q.1, .bad)
    | .missing => areaMissing r.1 t (a / 2 ^ 16) true
    | .frozen => (r.1, .wait)
    | _ => (r.1, .bad)

/-- The record written at the trap area with strong stores (R369). -/
def writeArea (s : State) (t : Nat) (bs : List Byte) : State :=
  let th := s.thread t
  let a := areaOf th
  let n := min bs.length (2 ^ 16 - a % 2 ^ 16)
  let c := some (s.coreOf t)
  let ctx := s.ctxOf t
  let go := fun (s : State) (va : Nat) (b : List Byte) =>
    if b = [] then s
    else
      let r := translateSettled s c ctx va .write
      match r.2 with
      | .ok pa _ _ _ => physWrite r.1 (s.coreOf t) pa b
      | _ => r.1
  go (go s a (bs.take n)) (a + n) (bs.drop n)

/-- A forced release of a recruiter's helpers: their later `rnext` returns -1 (R328). -/
def forceRelease (s : State) (t : Nat) : State :=
  s.modThread t fun th => { th with bank := th.bank.map fun b => { b with forced := true } }

/-- TAKING A TRAP, the one operation every delivery ends in (steps 3 and 4 of R369): the record goes to TAREA, HM becomes 1 and
the PC becomes TVEC; a recruiter's helpers are released. A trap that cannot be delivered is an overflow (R372), and one whose
area waits for a page is left for later. The flag says whether the trap was taken. -/
def takeTrap (s : State) (t : Nat) (r : Record) (prepare : Thread → Thread) : State × Bool :=
  let q := checkArea s t
  match q.2 with
  | .wait => (q.1, false)
  | .bad => (overflow q.1 t, false)
  | .ok =>
    let s := traceThread q.1 t 0x03 r.cause (recFaddr r.bytes)
    let s := writeArea s t r.bytes
    let s := forceRelease (withdraw s t) t
    (s.modThread t fun th => { goTo (prepare (clearPending th)) th.tvec with hm := true, trap := none }, true)

/-- Bytes of the trap area read with strong reads: they are had, wait for a page, or cannot be had. -/
def readArea (s : State) (t off n8 : Nat) : State × AreaRes × List Byte :=
  let c := s.coreOf t
  let ctx := s.ctxOf t
  let a := areaOf (s.thread t) + off
  let r := virtRead s (some c) ctx a n8
  match r.2 with
  | .ok b => (r.1, .ok, b)
  | .error .missing =>
    let q := areaMissing r.1 t (a / 2 ^ 16) false
    (q.1, q.2, [])
  | .error .frozen => (r.1, .wait, [])
  | .error _ => (r.1, .bad, [])

/-- THE RETURN FROM A TRAP (R371): with nothing held, handler mode ends and the PC is the RPC of the trap area as it now
stands. An area that can no longer be read ends as one that cannot be written does (R372). -/
def returnTrap (s : State) (t : Nat) : State :=
  let r := readArea s t 16 1
  match r.2.1 with
  | .ok => r.1.modThread t fun th => goTo (endHandler th) (evenPc (natOfBytes r.2.2))
  | .wait => r.1
  | .bad => overflow r.1 t

/-- The kept record of a cause that a helper charged (R370). -/
def chargedOf (th : Thread) (c : Nat) : Option Record :=
  match th.bank with
  | some b => b.charged.find? fun (r : Record) => r.cause = c
  | none => none
/-- A charged record taken out of the recruitment. -/
def dropCharged (th : Thread) (r : Record) : Thread :=
  { th with bank := th.bank.map fun b => { b with charged := b.charged.erase r } }
/-- A held cause cleared. -/
def clearCause (th : Thread) (c : Nat) : Thread := { th with tpend := th.tpend &&& ~~~(1#32 <<< c) }

/-- A record whose resume PC is given (R327, R330). -/
def Record.withRpc (r : Record) (pc : Addr) : Record := { r with bytes := spliceBytes r.bytes 16 (bytesOfNat 8 pc.toNat) }

/-- A held cause delivered that is not the horizon record's: a helper's kept record, or a header, with RPC at this instruction; the FADDR
of a breakpoint is its number (R330, R371, Table 15-5). -/
def deliverOther (s : State) (t c : Nat) : State :=
  let th := s.thread t
  match chargedOf th c with
  | some r => (takeTrap s t (r.withRpc th.pc) fun th => dropCharged (clearCause th c) r).1
  | none =>
    let k : TrapReq := { cause := c, pc := th.pc, rpc := th.pc, faddr := if c = 17 then th.heldBp else 0 }
    (takeTrap s t (headerRecord th k 0xFFFF) fun th => clearCause th c).1

/-- The lowest held cause delivered in handler mode, with RPC at the instruction that delivers it (R246, R371). HM stays 1. -/
def deliverHeld (s : State) (t : Nat) : State :=
  let th := s.thread t
  match (upTo 21).find? fun c => th.tpend.getLsbD c with
  | none => s
  | some c =>
    match th.heldRec with
    | some r =>
      if r.cause = c then (takeTrap s t (r.withRpc th.pc) fun th => { clearCause th c with heldRec := none, recHeld := false }).1
      else deliverOther s t c
    | none => deliverOther s t c

end Sys2Proof.Machine
end

