-- ==== Sys2Proof/Machine/Alu.lean ====
section
/-! DEFINITION. Integer, logic and address arithmetic and the Form H operations on integers (R252 to R260). -/

namespace Sys2Proof.Machine
open Sys2Proof

/-! The operations on words (Tables 10-1, 10-3 and 10-4). -/

/-- A left shift by a whole register: 32 or more gives 0. -/
def shlWord (a b : Word) : Word := if b.toNat < 32 then a <<< b.toNat else 0
/-- A right shift, zero fill. -/
def shrWord (a b : Word) : Word := if b.toNat < 32 then a >>> b.toNat else 0
/-- A right shift, sign fill. -/
def sarWord (a b : Word) : Word :=
  if b.toNat < 32 then a.sshiftRight b.toNat else if a.getLsbD 31 then 0xFFFFFFFF else 0
/-- The high word of a signed product. -/
def mulhiWord (a b : Word) : Word := (a.signExtend 64 * b.signExtend 64).extractLsb' 32 32
/-- The high word of an unsigned product. -/
def mulhuWord (a b : Word) : Word := (a.setWidth 64 * b.setWidth 64).extractLsb' 32 32
/-- The signed minimum. -/
def minWord (a b : Word) : Word := if b.slt a then b else a
/-- The signed maximum. -/
def maxWord (a b : Word) : Word := if a.slt b then b else a
/-- The unsigned minimum. -/
def minuWord (a b : Word) : Word := if b < a then b else a
/-- The unsigned maximum. -/
def maxuWord (a b : Word) : Word := if a < b then b else a
/-- Shifts of 64-bit values by a word. -/
def shlD (a : DWord) (b : Word) : DWord := if b.toNat < 64 then a <<< b.toNat else 0
/-- A right shift of a 64-bit value, zero fill. -/
def shrD (a : DWord) (b : Word) : DWord := if b.toNat < 64 then a >>> b.toNat else 0
/-- A right shift of a 64-bit value, sign fill. -/
def sarD (a : DWord) (b : Word) : DWord :=
  if b.toNat < 64 then a.sshiftRight b.toNat else if a.getLsbD 63 then BitVec.allOnes 64 else 0
/-- Leading zeros among the `n` low bits, from the top. -/
def clzGo (a : Word) : Nat → Nat
  | 0 => 0
  | n + 1 => if a.getLsbD n then 0 else clzGo a n + 1
/-- Trailing zeros from bit `i`, at most `n` bits. -/
def ctzGo (a : Word) (i : Nat) : Nat → Nat
  | 0 => 0
  | n + 1 => if a.getLsbD i then 0 else ctzGo a (i + 1) n + 1
/-- One bits among the `n` low bits. -/
def popcGo (a : Word) : Nat → Nat
  | 0 => 0
  | n + 1 => (if a.getLsbD n then 1 else 0) + popcGo a n
/-- Leading zeros of a word, 0 to 32. -/
def clzWord (a : Word) : Word := BitVec.ofNat 32 (clzGo a 32)
/-- Trailing zeros of a word, 0 to 32. -/
def ctzWord (a : Word) : Word := BitVec.ofNat 32 (ctzGo a 0 32)
/-- One bits of a word. -/
def popcWord (a : Word) : Word := BitVec.ofNat 32 (popcGo a 32)
/-- The bits of a word reversed. -/
def brevWord (a : Word) : Word := a.reverse
/-- The unsigned field of `bfx` (R260). -/
def bfxWord (a b : Word) : Word :=
  (a >>> (fld b 4 0)) &&& BitVec.ofNat 32 (2 ^ (min (fld b 13 8) 32) - 1)
/-- Sign extension of the low bits of a word. -/
def sextLow (w : Nat) (a : Word) : Word := (a.setWidth w).signExtend 32
/-- A saturating form: the word written with SAT where it clamps (R260). -/
def satBody (d : BitVec 6) (r : Word × Word) (th : Thread) : Thread := orFlags (setG th d.toNat r.1) r.2

/-- `mov` of Form H (R256, Table 10-2). -/
def execMovFormH (b : BitVec 5) (d : BitVec 5) (sm : BitVec 1) (s : State) : Host.Outcome State Fault Refusal :=
  issueEach (.movFormH b d sm) (fixedBody (.movFormH b d sm) fun th => setG th d.toNat (getG th b.toNat)) s

/-- `add` of Form H (R256, Table 10-2). -/
def execAddFormH (b : BitVec 5) (d : BitVec 5) (sm : BitVec 1) (s : State) : Host.Outcome State Fault Refusal :=
  issueEach (.addFormH b d sm) (fixedBody (.addFormH b d sm) fun th => setG th d.toNat (getG th d.toNat + getG th b.toNat)) s

/-- `sub` of Form H (R256, Table 10-2). -/
def execSubFormH (b : BitVec 5) (d : BitVec 5) (sm : BitVec 1) (s : State) : Host.Outcome State Fault Refusal :=
  issueEach (.subFormH b d sm) (fixedBody (.subFormH b d sm) fun th => setG th d.toNat (getG th d.toNat - getG th b.toNat)) s

/-- `and` of Form H (R256, Table 10-2). -/
def execAndFormH (b : BitVec 5) (d : BitVec 5) (sm : BitVec 1) (s : State) : Host.Outcome State Fault Refusal :=
  issueEach (.andFormH b d sm) (fixedBody (.andFormH b d sm) fun th => setG th d.toNat (getG th d.toNat &&& getG th b.toNat)) s

/-- `or` of Form H (R256, Table 10-2). -/
def execOrFormH (b : BitVec 5) (d : BitVec 5) (sm : BitVec 1) (s : State) : Host.Outcome State Fault Refusal :=
  issueEach (.orFormH b d sm) (fixedBody (.orFormH b d sm) fun th => setG th d.toNat (getG th d.toNat ||| getG th b.toNat)) s

/-- `xor` of Form H (R256, Table 10-2). -/
def execXorFormH (b : BitVec 5) (d : BitVec 5) (sm : BitVec 1) (s : State) : Host.Outcome State Fault Refusal :=
  issueEach (.xorFormH b d sm) (fixedBody (.xorFormH b d sm) fun th => setG th d.toNat (getG th d.toNat ^^^ getG th b.toNat)) s

/-- `shl` of Form H (R256, Table 10-2). -/
def execShlFormH (b : BitVec 5) (d : BitVec 5) (sm : BitVec 1) (s : State) : Host.Outcome State Fault Refusal :=
  issueEach (.shlFormH b d sm) (fixedBody (.shlFormH b d sm) fun th => setG th d.toNat (shlWord (getG th d.toNat) (getG th b.toNat))) s

/-- `shr` of Form H (R256, Table 10-2). -/
def execShrFormH (b : BitVec 5) (d : BitVec 5) (sm : BitVec 1) (s : State) : Host.Outcome State Fault Refusal :=
  issueEach (.shrFormH b d sm) (fixedBody (.shrFormH b d sm) fun th => setG th d.toNat (shrWord (getG th d.toNat) (getG th b.toNat))) s

/-- `mul` of Form H (R256, Table 10-2). -/
def execMulFormH (b : BitVec 5) (d : BitVec 5) (sm : BitVec 1) (s : State) : Host.Outcome State Fault Refusal :=
  issueEach (.mulFormH b d sm) (fixedBody (.mulFormH b d sm) fun th => setG th d.toNat (getG th d.toNat * getG th b.toNat)) s

/-- `addi` of Form H: the immediate is sign-extended from 5 bits (R256). -/
def execAddiFormH (i : BitVec 5) (d : BitVec 5) (sm : BitVec 1) (s : State) : Host.Outcome State Fault Refusal :=
  issueEach (.addiFormH i d sm) (fixedBody (.addiFormH i d sm) fun th => setG th d.toNat (getG th d.toNat + i.signExtend 32)) s

/-- `movi` of Form H (R256). -/
def execMoviFormH (i : BitVec 5) (d : BitVec 5) (sm : BitVec 1) (s : State) : Host.Outcome State Fault Refusal :=
  issueEach (.moviFormH i d sm) (fixedBody (.moviFormH i d sm) fun th => setG th d.toNat (i.signExtend 32)) s

/-- `add` (R255, Table 10-1). -/
def execAdd (g : BitVec 4) (b : BitVec 6) (a : BitVec 6) (d : BitVec 6) (sm : BitVec 1) (s : State) : Host.Outcome State Fault Refusal :=
  issueEach (.add g b a d sm) (fixedBody (.add g b a d sm) fun th => setG th d.toNat (getG th a.toNat + getG th b.toNat)) s

/-- `sub` (R255, Table 10-1). -/
def execSub (g : BitVec 4) (b : BitVec 6) (a : BitVec 6) (d : BitVec 6) (sm : BitVec 1) (s : State) : Host.Outcome State Fault Refusal :=
  issueEach (.sub g b a d sm) (fixedBody (.sub g b a d sm) fun th => setG th d.toNat (getG th a.toNat - getG th b.toNat)) s

/-- `mul` (R255, Table 10-1). -/
def execMul (g : BitVec 4) (b : BitVec 6) (a : BitVec 6) (d : BitVec 6) (sm : BitVec 1) (s : State) : Host.Outcome State Fault Refusal :=
  issueEach (.mul g b a d sm) (fixedBody (.mul g b a d sm) fun th => setG th d.toNat (getG th a.toNat * getG th b.toNat)) s

/-- `mulhi` (R255, Table 10-1). -/
def execMulhi (g : BitVec 4) (b : BitVec 6) (a : BitVec 6) (d : BitVec 6) (sm : BitVec 1) (s : State) : Host.Outcome State Fault Refusal :=
  issueEach (.mulhi g b a d sm) (fixedBody (.mulhi g b a d sm) fun th => setG th d.toNat (mulhiWord (getG th a.toNat) (getG th b.toNat))) s

/-- `mulhu` (R255, Table 10-1). -/
def execMulhu (g : BitVec 4) (b : BitVec 6) (a : BitVec 6) (d : BitVec 6) (sm : BitVec 1) (s : State) : Host.Outcome State Fault Refusal :=
  issueEach (.mulhu g b a d sm) (fixedBody (.mulhu g b a d sm) fun th => setG th d.toNat (mulhuWord (getG th a.toNat) (getG th b.toNat))) s

/-- `and` (R255, Table 10-1). -/
def execAnd (g : BitVec 4) (b : BitVec 6) (a : BitVec 6) (d : BitVec 6) (sm : BitVec 1) (s : State) : Host.Outcome State Fault Refusal :=
  issueEach (.and g b a d sm) (fixedBody (.and g b a d sm) fun th => setG th d.toNat (getG th a.toNat &&& getG th b.toNat)) s

/-- `or` (R255, Table 10-1). -/
def execOr (g : BitVec 4) (b : BitVec 6) (a : BitVec 6) (d : BitVec 6) (sm : BitVec 1) (s : State) : Host.Outcome State Fault Refusal :=
  issueEach (.or g b a d sm) (fixedBody (.or g b a d sm) fun th => setG th d.toNat (getG th a.toNat ||| getG th b.toNat)) s

/-- `xor` (R255, Table 10-1). -/
def execXor (g : BitVec 4) (b : BitVec 6) (a : BitVec 6) (d : BitVec 6) (sm : BitVec 1) (s : State) : Host.Outcome State Fault Refusal :=
  issueEach (.xor g b a d sm) (fixedBody (.xor g b a d sm) fun th => setG th d.toNat (getG th a.toNat ^^^ getG th b.toNat)) s

/-- `shl` (R255, Table 10-1). -/
def execShl (g : BitVec 4) (b : BitVec 6) (a : BitVec 6) (d : BitVec 6) (sm : BitVec 1) (s : State) : Host.Outcome State Fault Refusal :=
  issueEach (.shl g b a d sm) (fixedBody (.shl g b a d sm) fun th => setG th d.toNat (shlWord (getG th a.toNat) (getG th b.toNat))) s

/-- `shr` (R255, Table 10-1). -/
def execShr (g : BitVec 4) (b : BitVec 6) (a : BitVec 6) (d : BitVec 6) (sm : BitVec 1) (s : State) : Host.Outcome State Fault Refusal :=
  issueEach (.shr g b a d sm) (fixedBody (.shr g b a d sm) fun th => setG th d.toNat (shrWord (getG th a.toNat) (getG th b.toNat))) s

/-- `sar` (R255, Table 10-1). -/
def execSar (g : BitVec 4) (b : BitVec 6) (a : BitVec 6) (d : BitVec 6) (sm : BitVec 1) (s : State) : Host.Outcome State Fault Refusal :=
  issueEach (.sar g b a d sm) (fixedBody (.sar g b a d sm) fun th => setG th d.toNat (sarWord (getG th a.toNat) (getG th b.toNat))) s

/-- `min` (R255, Table 10-1). -/
def execMin (g : BitVec 4) (b : BitVec 6) (a : BitVec 6) (d : BitVec 6) (sm : BitVec 1) (s : State) : Host.Outcome State Fault Refusal :=
  issueEach (.min g b a d sm) (fixedBody (.min g b a d sm) fun th => setG th d.toNat (minWord (getG th a.toNat) (getG th b.toNat))) s

/-- `max` (R255, Table 10-1). -/
def execMax (g : BitVec 4) (b : BitVec 6) (a : BitVec 6) (d : BitVec 6) (sm : BitVec 1) (s : State) : Host.Outcome State Fault Refusal :=
  issueEach (.max g b a d sm) (fixedBody (.max g b a d sm) fun th => setG th d.toNat (maxWord (getG th a.toNat) (getG th b.toNat))) s

/-- `minu` (R255, Table 10-1). -/
def execMinu (g : BitVec 4) (b : BitVec 6) (a : BitVec 6) (d : BitVec 6) (sm : BitVec 1) (s : State) : Host.Outcome State Fault Refusal :=
  issueEach (.minu g b a d sm) (fixedBody (.minu g b a d sm) fun th => setG th d.toNat (minuWord (getG th a.toNat) (getG th b.toNat))) s

/-- `maxu` (R255, Table 10-1). -/
def execMaxu (g : BitVec 4) (b : BitVec 6) (a : BitVec 6) (d : BitVec 6) (sm : BitVec 1) (s : State) : Host.Outcome State Fault Refusal :=
  issueEach (.maxu g b a d sm) (fixedBody (.maxu g b a d sm) fun th => setG th d.toNat (maxuWord (getG th a.toNat) (getG th b.toNat))) s

/-- `mov`: A is not read (R255). -/
def execMov (g : BitVec 4) (b : BitVec 6) (a : BitVec 6) (d : BitVec 6) (sm : BitVec 1) (s : State) : Host.Outcome State Fault Refusal :=
  issueEach (.mov g b a d sm) (fixedBody (.mov g b a d sm) fun th => setG th d.toNat (getG th b.toNat)) s

/-- `add.64` (R259, Table 10-3). -/
def execAdd64 (g : BitVec 4) (b : BitVec 6) (a : BitVec 6) (d : BitVec 6) (sm : BitVec 1) (s : State) : Host.Outcome State Fault Refusal :=
  issueEach (.add64 g b a d sm) (fixedBody (.add64 g b a d sm) fun th => setX th d.toNat (getX th a.toNat + getX th b.toNat)) s

/-- `sub.64` (R259, Table 10-3). -/
def execSub64 (g : BitVec 4) (b : BitVec 6) (a : BitVec 6) (d : BitVec 6) (sm : BitVec 1) (s : State) : Host.Outcome State Fault Refusal :=
  issueEach (.sub64 g b a d sm) (fixedBody (.sub64 g b a d sm) fun th => setX th d.toNat (getX th a.toNat - getX th b.toNat)) s

/-- `addw` (R259, Table 10-3). -/
def execAddw (g : BitVec 4) (b : BitVec 6) (a : BitVec 6) (d : BitVec 6) (sm : BitVec 1) (s : State) : Host.Outcome State Fault Refusal :=
  issueEach (.addw g b a d sm) (fixedBody (.addw g b a d sm) fun th => setX th d.toNat (getX th a.toNat + (getG th b.toNat).signExtend 64)) s

/-- `adduw` (R259, Table 10-3). -/
def execAdduw (g : BitVec 4) (b : BitVec 6) (a : BitVec 6) (d : BitVec 6) (sm : BitVec 1) (s : State) : Host.Outcome State Fault Refusal :=
  issueEach (.adduw g b a d sm) (fixedBody (.adduw g b a d sm) fun th => setX th d.toNat (getX th a.toNat + (getG th b.toNat).setWidth 64)) s

/-- `shl.64` (R259, Table 10-3). -/
def execShl64 (g : BitVec 4) (b : BitVec 6) (a : BitVec 6) (d : BitVec 6) (sm : BitVec 1) (s : State) : Host.Outcome State Fault Refusal :=
  issueEach (.shl64 g b a d sm) (fixedBody (.shl64 g b a d sm) fun th => setX th d.toNat (shlD (getX th a.toNat) (getG th b.toNat))) s

/-- `shr.64` (R259, Table 10-3). -/
def execShr64 (g : BitVec 4) (b : BitVec 6) (a : BitVec 6) (d : BitVec 6) (sm : BitVec 1) (s : State) : Host.Outcome State Fault Refusal :=
  issueEach (.shr64 g b a d sm) (fixedBody (.shr64 g b a d sm) fun th => setX th d.toNat (shrD (getX th a.toNat) (getG th b.toNat))) s

/-- `sar.64` (R259, Table 10-3). -/
def execSar64 (g : BitVec 4) (b : BitVec 6) (a : BitVec 6) (d : BitVec 6) (sm : BitVec 1) (s : State) : Host.Outcome State Fault Refusal :=
  issueEach (.sar64 g b a d sm) (fixedBody (.sar64 g b a d sm) fun th => setX th d.toNat (sarD (getX th a.toNat) (getG th b.toNat))) s

/-- `mulw` (R259, Table 10-3). -/
def execMulw (g : BitVec 4) (b : BitVec 6) (a : BitVec 6) (d : BitVec 6) (sm : BitVec 1) (s : State) : Host.Outcome State Fault Refusal :=
  issueEach (.mulw g b a d sm) (fixedBody (.mulw g b a d sm) fun th => setX th d.toNat ((getG th a.toNat).signExtend 64 * (getG th b.toNat).signExtend 64)) s

/-- `addi` of Form I (R257). -/
def execAddi (i : BitVec 13) (a : BitVec 6) (d : BitVec 6) (sm : BitVec 1) (s : State) : Host.Outcome State Fault Refusal :=
  issueEach (.addi i a d sm) (fixedBody (.addi i a d sm) fun th => setG th d.toNat (getG th a.toNat + i.signExtend 32)) s

/-- `andi` of Form I (R257). -/
def execAndi (i : BitVec 13) (a : BitVec 6) (d : BitVec 6) (sm : BitVec 1) (s : State) : Host.Outcome State Fault Refusal :=
  issueEach (.andi i a d sm) (fixedBody (.andi i a d sm) fun th => setG th d.toNat (getG th a.toNat &&& i.signExtend 32)) s

/-- `clz` (R260, Table 10-4). -/
def execClz (a : BitVec 6) (d : BitVec 6) (sm : BitVec 1) (s : State) : Host.Outcome State Fault Refusal :=
  issueEach (.clz a d sm) (fixedBody (.clz a d sm) fun th => setG th d.toNat (clzWord (getG th a.toNat))) s

/-- `ctz` (R260, Table 10-4). -/
def execCtz (a : BitVec 6) (d : BitVec 6) (sm : BitVec 1) (s : State) : Host.Outcome State Fault Refusal :=
  issueEach (.ctz a d sm) (fixedBody (.ctz a d sm) fun th => setG th d.toNat (ctzWord (getG th a.toNat))) s

/-- `popc` (R260, Table 10-4). -/
def execPopc (a : BitVec 6) (d : BitVec 6) (sm : BitVec 1) (s : State) : Host.Outcome State Fault Refusal :=
  issueEach (.popc a d sm) (fixedBody (.popc a d sm) fun th => setG th d.toNat (popcWord (getG th a.toNat))) s

/-- `brev` (R260, Table 10-4). -/
def execBrev (a : BitVec 6) (d : BitVec 6) (sm : BitVec 1) (s : State) : Host.Outcome State Fault Refusal :=
  issueEach (.brev a d sm) (fixedBody (.brev a d sm) fun th => setG th d.toNat (brevWord (getG th a.toNat))) s

/-- `sext.8` (R260, Table 10-4). -/
def execSext8 (a : BitVec 6) (d : BitVec 6) (sm : BitVec 1) (s : State) : Host.Outcome State Fault Refusal :=
  issueEach (.sext8 a d sm) (fixedBody (.sext8 a d sm) fun th => setG th d.toNat (sextLow 8 (getG th a.toNat))) s

/-- `sext.16` (R260, Table 10-4). -/
def execSext16 (a : BitVec 6) (d : BitVec 6) (sm : BitVec 1) (s : State) : Host.Outcome State Fault Refusal :=
  issueEach (.sext16 a d sm) (fixedBody (.sext16 a d sm) fun th => setG th d.toNat (sextLow 16 (getG th a.toNat))) s

/-- `rol` (R260, Table 10-4). -/
def execRol (b : BitVec 6) (a : BitVec 6) (d : BitVec 6) (sm : BitVec 1) (s : State) : Host.Outcome State Fault Refusal :=
  issueEach (.rol b a d sm) (fixedBody (.rol b a d sm) fun th => setG th d.toNat ((getG th a.toNat).rotateLeft ((getG th b.toNat).toNat % 32))) s

/-- `bfx` (R260, Table 10-4). -/
def execBfx (b : BitVec 6) (a : BitVec 6) (d : BitVec 6) (sm : BitVec 1) (s : State) : Host.Outcome State Fault Refusal :=
  issueEach (.bfx b a d sm) (fixedBody (.bfx b a d sm) fun th => setG th d.toNat (bfxWord (getG th a.toNat) (getG th b.toNat))) s

/-- `addsat`: clamped, with SAT (R260). -/
def execAddsat (b : BitVec 6) (a : BitVec 6) (d : BitVec 6) (sm : BitVec 1) (s : State) : Host.Outcome State Fault Refusal :=
  issueEach (.addsat b a d sm) (fixedBody (.addsat b a d sm) fun th => satBody d (clampTo (-2147483648) 2147483647 ((getG th a.toNat).toInt + (getG th b.toNat).toInt)) th) s

/-- `subsat`: clamped, with SAT (R260). -/
def execSubsat (b : BitVec 6) (a : BitVec 6) (d : BitVec 6) (sm : BitVec 1) (s : State) : Host.Outcome State Fault Refusal :=
  issueEach (.subsat b a d sm) (fixedBody (.subsat b a d sm) fun th => satBody d (clampTo (-2147483648) 2147483647 ((getG th a.toNat).toInt - (getG th b.toNat).toInt)) th) s

/-- `addsatu`: clamped, with SAT (R260). -/
def execAddsatu (b : BitVec 6) (a : BitVec 6) (d : BitVec 6) (sm : BitVec 1) (s : State) : Host.Outcome State Fault Refusal :=
  issueEach (.addsatu b a d sm) (fixedBody (.addsatu b a d sm) fun th => satBody d (clampTo 0 4294967295 (((getG th a.toNat).toNat : Int) + ((getG th b.toNat).toNat : Int))) th) s

/-- `subsatu`: clamped, with SAT (R260). -/
def execSubsatu (b : BitVec 6) (a : BitVec 6) (d : BitVec 6) (sm : BitVec 1) (s : State) : Host.Outcome State Fault Refusal :=
  issueEach (.subsatu b a d sm) (fixedBody (.subsatu b a d sm) fun th => satBody d (clampTo 0 4294967295 (((getG th a.toNat).toNat : Int) - ((getG th b.toNat).toNat : Int))) th) s

/-- `li.lo` (R258). -/
def execLiLo (i : BitVec 16) (d : BitVec 6) (sm : BitVec 1) (s : State) : Host.Outcome State Fault Refusal :=
  issueEach (.liLo i d sm) (fixedBody (.liLo i d sm) fun th => setG th d.toNat (i.signExtend 32)) s

/-- `li.hi`: the upper half replaced, the lower half of D kept (R258). -/
def execLiHi (i : BitVec 16) (d : BitVec 6) (sm : BitVec 1) (s : State) : Host.Outcome State Fault Refusal :=
  issueEach (.liHi i d sm) (fixedBody (.liHi i d sm) fun th => setG th d.toNat (i ++ (getG th d.toNat).setWidth 16)) s

end Sys2Proof.Machine
end

