-- ==== Sys2Proof/Machine/Issue.lean ====
section
/-! DEFINITION. The passing of clocks, the issue unit's choice of a bundle, and the fetch of its instruction (R16, R169 to R175,
R187, R375, R406, R425). -/

namespace Sys2Proof.Machine
open Sys2Proof

/-! Stops and pauses. -/

/-- Whether the issue of a core's quarters is stopped (R174, R376, R407), in this clock where its die is hot (R423).
(DESIGN CHOICE, log entry 28.) -/
def issueStopped (s : State) (c : Nat) : Bool :=
  (s.core c).stall.isSome || ((s.die (dieOfCore c)).throttled && Config.skips (dieOfCore c) s.clk) || s.cutDue.isSome

/-- The key of a barrier: launch, scope (1 movement, 2 calibre, 3 device), scope group and id (R293). -/
def barrierKey (lid scope group id : Nat) : Nat := ((lid * 4 + scope) * 128 + group) * 16 + id
/-- The scope group of a core (R6). -/
def scopeGroup (scope c : Nat) : Nat := if scope = 1 then c else if scope = 2 then dieOfCore c else 0

/-- Whether some thread of the launch of `t` is debug-halted among those a test accepts. -/
def someHalted (s : State) (t : Nat) (p : Nat → Bool) : Bool :=
  s.threads.any fun x => x.2.halted && s.launchOf x.1 = s.launchOf t && p x.1
/-- Whether the count of a replayed push that waits for room pauses (R335, R375). -/
def pushPaused (s : State) (t : Nat) : Bool := issueStopped s (s.coreOf t) || someHalted s t fun u => s.dieOf u = s.dieOf t
/-- Whether the watchdog count of a thread pauses: issue is stopped, or a party of the gathering, barrier, stream or ring on which it waits is
halted (R293, R337, R375). -/
def watchPaused (s : State) (t : Nat) : Bool :=
  let c := s.coreOf t
  issueStopped s c ||
    match (s.thread t).park with
    | .gather m => someHalted s t (maskMembers s (s.thread t).train m).contains
    | .barrier _ =>
      match s.barriers.find? fun b => b.2.arrived.contains t with
      | some b => someHalted s t fun u =>
          scopeGroup (b.1 / 2048 % 4) (s.coreOf u) = scopeGroup (b.1 / 2048 % 4) c
      | none => false
    | .streamRoom _ _ => someHalted s t fun u => s.dieOf u = s.dieOf t
    | .streamNext _ => someHalted s t fun u => s.dieOf u = s.dieOf t
    | .ringRoom _ => someHalted s t fun u => (s.trainOf u).task.isNone && (s.trainOf u).gang = (s.trainOf t).gang
    | .ringData _ => someHalted s t fun u => (s.trainOf u).task.isNone && (s.trainOf u).gang = (s.trainOf t).gang
    | _ => false

/-- Whether a launch has an engine command accepted on a core and not done. -/
def engineRuns (s : State) (lid : Nat) : Bool :=
  s.cores.any fun k => (k.2.mxq.any fun m => m.accepted && !m.done && (s.train m.train).launch = lid) ||
    (k.2.cpq.any fun m => m.accepted && (s.train m.train).launch = lid)
/-- Whether a thread of a launch waits on a remote, host, aperture or `ph.end` result. -/
def waitsOutside (s : State) (lid : Nat) : Bool :=
  s.threads.any fun p => s.launchOf p.1 = lid &&
    (p.2.park = .phaseEnd || p.2.ops.any fun o => o.phase = .sent && !(o.kind = 0x30))
/-- Clocks charged to one component of a launch's time record (Table 21-6); `issues` says that a thread of it issues. -/
def charge (s : State) (n : Nat) (issues : Nat → Bool) (lid : Nat) (l : Launch) : Launch :=
  match l.state with
  | .done => l
  | .failed _ => l
  | _ =>
    let l := { l with wall := l.wall + n }
    if !(s.trains.any fun p => p.2.launch = lid) then { l with queue := l.queue + n }
    else if s.cores.any fun k => (match k.2.stall with
        | some (_, x) => x = lid
        | none => false) then { l with fsvc := l.fsvc + n }
    else if !issues lid && !engineRuns s lid && waitsOutside s lid then { l with wait := l.wait + n }
    else { l with exec := l.exec + n }

/-- The contexts whose time slice runs on a core: the one whose fault stalls it, else those with a train there (R376, R377). -/
def sliceRuns (s : State) (c : Nat) (k : Core) : List Nat := match k.stall with
  | some (x, _) => [x]
  | none => ((residents s c).map (·.ctx)).eraseDups
/-- The waits of a thread that pauses do not count: its own, and those of its replayed pushes (R375). -/
def pauseWaits (s : State) (n t : Nat) (th : Thread) : Thread :=
  let th := if watchPaused s t then { th with since := th.since + n } else th
  if (th.ops.any fun o => o.phase = .roomWait) && pushPaused s t then
    { th with ops := th.ops.map fun o => if o.phase = .roomWait then { o with since := o.since + n } else o }
  else th
/-- Clocks passing: the records of the last one written to the trace rings, the clock count, the domain time in nanoseconds of 2.5 clocks, the time records, the time
slices, and the watchdogs that pause (R3, R374 to R377, R400, R406, R417). (DEDUCED, log entry 18.) -/
def tick (s : State) (n : Nat) (issues : Nat → Bool) : State :=
  if n = 0 then s
  else
    let s := traceFlushAll s
    { s with
      clk := s.clk + n
      dt := (s.dt + ((s.clk + n) * 2 / 5 - s.clk * 2 / 5)) % 2 ^ 64
      launches := mapEach (charge s n issues) s.launches
      cores := mapEach (fun c k => { k with
        slices := (sliceRuns s c k).foldl (fun m x => mapSet m x (mapGetD m x 0 + n)) k.slices }) s.cores
      threads := mapEach (fun t th => { pauseWaits s n t th with flagsNow := 0 }) s.threads }

/-! The bundle (R170, R172). -/

/-- The runnable threads of a quarter. -/
def quarterReady (s : State) (c q : Nat) : List Nat :=
  (s.threads.filter fun p => (s.trainOf p.1).core = c && (s.trainOf p.1).quarter = q && runnable s p.1).map (·.1)
/-- The order (PC, W descending, LANE, train slot) of the issue table. -/
def tableBefore (a b : Thread) : Bool :=
  if a.pc = b.pc then
    if a.w = b.w then (if a.lane = b.lane then decide (a.slot < b.slot) else decide (a.lane < b.lane)) else decide (b.w < a.w)
  else decide (a.pc.toNat < b.pc.toNat)
/-- The first of a list under an order. -/
def firstBy (s : State) (before : Thread → Thread → Bool) : List Nat → Option Nat
  | [] => none
  | t :: ts =>
    match firstBy s before ts with
    | none => some t
    | some u => if before (s.thread u) (s.thread t) then some u else some t
/-- The lanes of a list of threads. -/
def lanesOf (s : State) (l : List Nat) : List Nat := l.map fun t => (s.thread t).lane
/-- Gathered groups taken whole, in order of completion, while their lanes are free (R181). -/
def takeGroups (s : State) (k : Nat) (pc : Addr) : List (List Nat) → List Nat → List Nat
  | [], b => b
  | g :: gs, b =>
    let fits := g.all fun t => runnable s t && (s.thread t).pc = pc && s.launchOf t = k && !(lanesOf s b).contains (s.thread t).lane
    takeGroups s k pc gs (if fits then b ++ g else b)
/-- The order within a lane: starved threads first, then W descending, then train slot. -/
def laneBefore (starved : List Nat) (s : State) (t u : Nat) : Bool :=
  if starved.contains t != starved.contains u then starved.contains t
  else if (s.thread t).w = (s.thread u).w then decide ((s.thread t).slot < (s.thread u).slot)
  else decide ((s.thread u).w < (s.thread t).w)
/-- The best candidate of a lane. -/
def bestOf (before : Nat → Nat → Bool) : List Nat → Option Nat
  | [] => none
  | t :: ts =>
    match bestOf before ts with
    | none => some t
    | some u => if before u t then some u else some t

/-- The bundle that a quarter forms of its runnable threads but for some, in ascending home lane (R170). -/
def formBundleBut (s : State) (c q : Nat) (but : List Nat) : List Nat :=
  let ready := (quarterReady s c q).filter fun t => !but.contains t
  let starved := (mapGetD (s.core c).starved q []).filter ready.contains
  match (match starved with
    | t :: _ => some t
    | [] => firstBy s tableBefore ready) with
  | none => []
  | some h =>
    let pc := (s.thread h).pc
    let k := s.launchOf h
    let b := takeGroups s k pc ((mapGetD (s.core c).groups q []).filter fun g => !(g.any but.contains)) []
    let alone := ready.filter fun t => (s.thread t).pc = pc && s.launchOf t = k && (s.thread t).stage != 1
    (upTo 64).flatMap fun l =>
      match b.find? fun t => (s.thread t).lane = l with
      | some t => [t]
      | none =>
        match bestOf (laneBefore starved s) (alone.filter fun t => (s.thread t).lane = l) with
        | some t => [t]
        | none => []

/-- The bundle that a quarter forms, in ascending home lane (R170). -/
def formBundle (s : State) (c q : Nat) : List Nat := formBundleBut s c q []

/-- Whether a quarter has still its turn to issue in this clock (R170). -/
def openSlot (s : State) (c q : Nat) : Bool := (s.core c).slotClk != s.clk || decide ((s.core c).slotQ ≤ q)
/-- A quarter has had its turn in this clock. -/
def closeSlot (s : State) (c q : Nat) : State := s.modCore c fun k => { k with slotClk := s.clk, slotQ := q + 1 }
/-- The wait counts after an issue clock, the starved list and the groups without the threads that issued (R169, R172, R181). -/
def afterForm (s : State) (c q : Nat) (b : List Nat) : State :=
  let ready := quarterReady s c q
  let mine := fun (th : Thread) => (s.train th.train).core = c && (s.train th.train).quarter = q
  let s := { s with threads := mapEach (fun t th =>
    if b.contains t then { th with w := 0, late := false, issuedAt := s.clk + 1 }
    else if ready.contains t then { th with w := th.w + 1, late := true }
    else if mine th then { th with late := false } else th) s.threads }
  s.modCore c fun k =>
    { k with
      starved := mapSet k.starved q ((mapGetD k.starved q []).filter fun t => ready.contains t && !b.contains t)
      groups := mapSet k.groups q ((mapGetD k.groups q []).filter fun g => !(g.any b.contains)) }

/-! Fetch (R8, R16, R187, R188, R425). -/

/-- A line brought into an instruction cache of 128 sets of 8 ways by a strong read, a line's set being its number modulo 128 (R425). It
keeps the pages it was fetched through. (DESIGN CHOICE, log entry 7.) -/
def icacheFill (s : State) (c line ctx page : Nat) : State :=
  match mapGet? (s.core c).icache line with
  | some x => if x.tags.contains (ctx, page) then s
      else s.modCore c fun k => { k with icache := mapSet k.icache line { x with tags := x.tags ++ [(ctx, page)] } }
  | none =>
    let r := settleRead s line
    let set := ((r.1.core c).icache.filter fun p => p.1 % 128 = line % 128).map (·.1)
    let s := if 8 ≤ set.length then
        r.1.fresh.modCore c fun k => { k with icache := mapDel k.icache (set.getD (Config.victim r.1.free % set.length) 0) }
      else r.1
    s.modCore c fun k => { k with icache := mapSet k.icache line { data := r.2, tags := [(ctx, page)] } }
/-- The bytes of a line of an instruction cache. -/
def icacheLine (k : Core) (line : Nat) : List Byte :=
  match mapGet? k.icache line with
  | some x => x.data
  | none => []

/-- What a fetch gives. -/
inductive FetchRes where
  | ok (bytes : List Byte)
  /-- The core stalls, or the page is frozen: nothing issues. -/
  | stall
  | fault (cause faddr : Nat)
  deriving DecidableEq, Repr

/-- One halfword fetched by a quarter of a core for some threads, or for the landing check of one (R8). A line that is not cached and that an
engine owns is waited for (R91). -/
def fetchHalf (s : State) (c q ctx lid va : Nat) (who : List Nat) (land : Option Nat) : State × FetchRes :=
  let r := translateRetried s c q ctx va .fetch
  match r.2 with
  | .ok pa _ _ _ =>
    if (mapGet? (r.1.core c).icache (pa / 128)).isNone && lineWaits r.1 (pa / 128) false then (r.1, .stall)
    else
      let s := icacheFill r.1 c (pa / 128) ctx (va / 2 ^ 16)
      let l := icacheLine (s.core c) (pa / 128)
      (s, .ok [l.getD (pa % 128) 0, l.getD (pa % 128 + 1) 0])
  | .missing =>
    match land with
    | some t =>
      let e := metMissing r.1 c ctx lid (va / 2 ^ 16) false (metLanding t)
      (e.1, if e.2 then .fault 5 va else .stall)
    | none => (stallCore r.1 c ctx lid (va / 2 ^ 16) false (who.map metFetch), .stall)
  | .fail cause _ => (r.1, .fault cause va)
  | _ => (r.1, .stall)

/-- The bytes of an instruction: a halfword, and a second where bit 0 of the first is 1 (R187). -/
def fetchAt (s : State) (c q ctx lid va : Nat) (who : List Nat := []) : State × FetchRes :=
  let r := fetchHalf s c q ctx lid va who none
  match r.2 with
  | .ok b =>
    if (b.getD 0 0).getLsbD 0 then
      let r' := fetchHalf r.1 c q ctx lid ((va + 2) % 2 ^ 48) who none
      match r'.2 with
      | .ok b' => (r'.1, .ok (b ++ b'))
      | x => (r'.1, x)
    else (r.1, .ok b)
  | x => (r.1, x)

/-- Thirty-two bits fetched whatever the first halfword says: the landing check of a thread (R231). -/
def fetch32 (s : State) (c q ctx lid va t : Nat) : State × FetchRes :=
  let r := fetchHalf s c q ctx lid va [] (some t)
  match r.2 with
  | .ok b =>
    let r' := fetchHalf r.1 c q ctx lid ((va + 2) % 2 ^ 48) [] (some t)
    match r'.2 with
    | .ok b' => (r'.1, .ok (b ++ b'))
    | x => (r'.1, x)
  | x => (r.1, x)

/-- Whether an instruction outside handler mode waits for every outstanding result whatever its S bit (Table 6-7, R234, R322). -/
def marksItself : Instr → Bool
  | .exit _ => true
  | .recruit _ _ _ _ _ => true
  | _ => false
/-- What keeps a thread from issuing an instruction at all: the marker, implicit ones included, and a full window (R183, R240). -/
def holdAtIssue (s : State) (i : Instr) (t : Nat) : Option Wait :=
  match checkIssue (s.thread t) (s.trainOf t).regs i with
  | .wait w => some w
  | .run => if marksItself i && !(s.thread t).hm && outstanding (s.thread t) then some .results else none
  | _ => none

/-- The sample that a quarter takes of the bundle that it issues, where its period is up: its record names the thread of lowest home lane,
with its wait count. (DEDUCED, log entry 49.) -/
def takeSample (s : State) (c q : Nat) (b : List Nat) : State :=
  let p := (s.die (dieOfCore c)).sper
  match b with
  | [] => s
  | t :: _ =>
    if p = 0 ∨ s.clk % p ≠ 0 then s
    else
      let data := BitVec.ofNat 64 (b.length + (s.thread t).w % 2 ^ 16 * 2 ^ 16)
      let rec' := traceBytes data (s.thread t).pc 0x01 (auxOf s t) (nameOf s t) s.clk
      s.modCore c fun k => { k with samples := mapSet k.samples q ((s.thread t).lane, rec') }
/-- The instruction that a thread stands at, where it can be fetched now. -/
def nextInsn? (s : State) (t : Nat) : Option Instr :=
  let x := s.trainOf t
  match (fetchAt s x.core x.quarter (s.ctxOf t) (s.launchOf t) (s.thread t).pc.toNat).2 with
  | .ok b => (match decodeBytes b with
    | .ok (i, _, _) => some i
    | .error _ => none)
  | _ => none
/-- The threads that their next instruction holds, by its marker or the full window, held at it: they are not runnable (R169, R183, R240). -/
def settleHolds (s : State) : State :=
  (s.threads.filter fun p => (outstanding p.2 || windowFull p.2) && runnable s p.1).foldl (fun a p =>
    match nextInsn? s p.1 with
    | some i => (match holdAtIssue s i p.1 with
      | some w => park a p.1 w
      | none => a)
    | none => a) s
/-- A quarter's issue clock up to the execution, in at most `n` attempts: the bundle formed and put in the state, and the
instruction it executes; none where nothing issues. A thread that its instruction holds is not runnable, and the bundle is formed
without it (R169, R183). A fetch fault traps precisely at every thread of the bundle, and bytes that are no instruction are the
step ILLEGAL_INSTRUCTION (R188, R200). Threads whose instruction cannot be fetched in this clock (a frozen page, a line that an engine
owns or that has a transaction open, every miss entry busy) stay in the table, and the bundle is formed of the others, those of `but` left
out; a fetch that stalls the core ends the issue (R174). (DESIGN CHOICE, log entry 75.) -/
def issueFrom (s : State) (c q : Nat) (but : List Nat) : Nat → State × Option Instr
  | 0 => (closeSlot s c q, none)
  | n + 1 =>
    match formBundleBut s c q but with
    | [] => (if but = [] then closeSlot s c q else afterForm (closeSlot s c q) c q [], none)
    | t :: ts =>
      let b := t :: ts
      let r := fetchAt s c q (s.ctxOf t) (s.launchOf t) (s.thread t).pc.toNat b
      match r.2 with
      | .stall =>
        if issueStopped r.1 c then (closeSlot r.1 c q, none)
        else
          let same := (quarterReady r.1 c q).filter fun u => (s.thread u).pc = (s.thread t).pc && s.ctxOf u = s.ctxOf t
          issueFrom r.1 c q (but ++ b ++ same) n
      | .fault cause faddr =>
        (b.foldl (fun s u => raise s u cause (BitVec.ofNat 64 faddr)) (afterForm (closeSlot r.1 c q) c q b), none)
      | .ok bytes =>
        match decodeBytes bytes with
        | .ok (i, _, _) =>
          if b.any fun u => (holdAtIssue r.1 i u).isSome then
            issueFrom (b.foldl (fun s u => match holdAtIssue r.1 i u with
              | some w => park s u w
              | none => s) r.1) c q but n
          else ({ afterForm (takeSample (closeSlot r.1 c q) c q b) c q b with bundle := b }, some i)
        | .error _ => ({ afterForm (takeSample (closeSlot r.1 c q) c q b) c q b with bundle := b }, some .illegalInstruction)
/-- Whether a quarter is to issue in this clock: its issue is not stopped, its turn is not over, and its table is not empty
(R170, R174). -/
def quarterDue (s : State) (c q : Nat) : Bool := !issueStopped s c && openSlot s c q && !(quarterReady s c q).isEmpty
/-- A quarter's issue clock. The quarters of a core issue in ascending order (R303); one whose turn is over issues nothing. -/
def issueQuarter (s : State) (c q : Nat) : State × Option Instr :=
  if issueStopped s c || !openSlot s c q || (upTo q).any (quarterDue s c) then (s, none)
  else issueFrom s c q [] (s.threads.length + 1)

/-! The firing of queues (R343, R344). -/

/-- The clocks that the oldest token of a queue has waited. -/
def oldestWait (s : State) (x : XQueue) : Nat := match x.tokens with
  | k :: _ => s.clk - k.at'
  | [] => 0
/-- Whether a queue is age-fired, overdue, or eligible (R343). -/
def ageFired (s : State) (x : XQueue) : Bool := !x.tokens.isEmpty && decide (fld x.cfg 191 168 ≤ oldestWait s x)
/-- Overdue by R343. -/
def overdue (s : State) (x : XQueue) : Bool := !x.tokens.isEmpty && decide (fld x.cfg 191 168 + 512 ≤ oldestWait s x)
/-- Eligible by R343; the home core's task queue must have room for the task. (DESIGN CHOICE, log entry 35.) -/
def eligible (s : State) (x : XQueue) : Bool :=
  decide (x.fired.length < 8) && !x.tokens.isEmpty && (decide (fld x.cfg 143 128 ≤ x.tokens.length) || ageFired s x) &&
    decide ((taskQueue s x.launch (fld x.cfg 70 64)).length < 1024)
/-- The rank of an eligible queue: the lower fires first (R343). -/
def fireRank (s : State) (q : Nat) (x : XQueue) : List Nat :=
  [if overdue s x then 0 else 1, if overdue s x then 2 ^ 64 - oldestWait s x else 0, 3 - fld x.cfg 15 14, if ageFired s x then 0 else 1, q]
/-- The lexicographic order of ranks. -/
def rankLt : List Nat → List Nat → Bool
  | a :: r, b :: r' => decide (a < b) || (a = b && rankLt r r')
  | _, _ => false
/-- The queue that a die fires. -/
def fireQueue (s : State) (die : Nat) : Option (Nat × XQueue) :=
  (s.queues.filter fun p => decide (dieOfCore (fld p.2.cfg 70 64) = die) && eligible s p.2).foldl (fun b p =>
    match b with
    | none => some p
    | some y => if rankLt (fireRank s p.1 p.2) (fireRank s y.1 y.2) then some p else some y) none
/-- The least of a list of clocks, as a bound. -/
def leastClock (l : List Nat) (d : Nat) : Nat := l.foldl min d
/-- The clocks until a queue that has room in its fired list next becomes eligible by its age (R343). -/
def untilAge (s : State) : List Nat :=
  s.queues.filterMap fun p => match p.2.tokens with
    | k :: _ => if p.2.fired.length < 8 ∧ s.clk < k.at' + fld p.2.cfg 191 168 then some (k.at' + fld p.2.cfg 191 168 - s.clk) else none
    | [] => none
/-- The first die that has an eligible queue and has not fired in this clock: it fires in it (R343, R344). -/
def fireDue (s : State) : Option Nat := (upTo 4).find? fun d => (s.die d).firedAt != s.clk + 1 && (fireQueue s d).isSome

/-- The first quarter whose sample is not written yet. -/
def sampleDue (s : State) : Option (Nat × Nat) := s.cores.findSome? fun p => p.2.samples.head?.map fun x => (p.1, x.1)

/-! What has to come before a clock passes. -/

/-- The least of a list under a measure. -/
def leastBy (f : Nat → Nat) : List Nat → Option Nat
  | [] => none
  | x :: r =>
    match leastBy f r with
    | none => some x
    | some y => if f x ≤ f y then some x else some y
/-- The first core whose LT is behind the clock (R71). -/
def tickDue (s : State) : Option Nat := (upTo Config.numCores).find? fun c => decide ((s.core c).ticks < s.clk / 1024)
/-- The first quarter of the device that is to issue in this clock, by core and quarter number. -/
def firstQuarter (s : State) : Option (Nat × Nat) :=
  (leastBy id ((s.threads.filter fun p =>
      let x := s.trainOf p.1
      runnable s p.1 && !issueStopped s x.core && openSlot s x.core x.quarter).map fun p =>
    (s.trainOf p.1).core * 4 + (s.trainOf p.1).quarter)).map fun x => (x / 4, x % 4)
/-- Whether a thread joins its quarter's starved list at the end of this clock (R172). -/
def starves (s : State) (t : Nat) : Bool :=
  let x := s.trainOf t
  (s.thread t).late && decide (512 ≤ (s.thread t).w) && runnable s t && !(mapGetD (s.core x.core).starved x.quarter []).contains t
/-- The thread that joins next: by quarter, then by LANE, then by train slot. -/
def joinDue (s : State) : Option Nat :=
  leastBy (fun t => (((s.trainOf t).core * 4 + (s.trainOf t).quarter) * 64 + (s.thread t).lane) * 2 ^ 64 + (s.thread t).slot)
    ((s.threads.filter fun p => starves s p.1).map (·.1))
/-- Whether some logical time or phase clock has reached 2^62 (R78). -/
def clockFull (s : State) : Bool :=
  decide (2 ^ 62 ≤ s.dpc) || s.cores.any (fun p => decide (2 ^ 62 ≤ p.2.lt)) || s.dies.any fun p => decide (2 ^ 62 ≤ p.2.cpc)
/-- What has to happen before the clock may pass: a rebase, a rise of LT, an issue, a sample, a thread that joins a starved list, the firing
of a queue, a link that goes down. -/
def dueAct (s : State) : Option Act :=
  if clockFull s then some .rebase
  else
    match tickDue s with
    | some c => some (.rise c)
    | none =>
      match firstQuarter s with
      | some (c, q) => some (.issue c q)
      | none =>
        match sampleDue s with
        | some (c, q) => some (.sample c q)
        | none =>
          match joinDue s with
          | some t => some (.join t)
          | none =>
            match fireDue s with
            | some d => some (.fire d)
            | none => (retrainOver s).map .dropLink
/-- Whether a thread of a launch has issued in this clock (R406). -/
def issuesNow (s : State) (lid : Nat) : Bool := s.threads.any fun p => p.2.issuedAt = s.clk + 1 && s.launchOf p.1 = lid
/-- The clocks that may pass at once, at most `n`: one while some thread is runnable or has issued in this clock, else as many as lie
before the next rise of LT before a queue becomes eligible by its age, and before a link that retrains goes down; one, too, while an eligible queue has still to fire. -/
def stride (s : State) (n : Nat) : Nat :=
  if (s.threads.any fun p => runnable s p.1 || p.2.issuedAt = s.clk + 1) || ((upTo 4).any fun d => (fireQueue s d).isSome) then min n 1
  else leastClock (untilAge s ++ untilDown s) (min n (1024 - s.clk % 1024))

/-- What the next step is: the clocks that pass, what then happens, and the agenda that is left. An entry of the agenda that names
no clock happens at once; before a clock passes, whatever is due happens. (DESIGN CHOICE, log entry 1.) -/
def nextStep (s : State) : Nat × Option Act × List Sched :=
  match s.agenda with
  | [] =>
    match dueAct s with
    | some a => (0, some a, [])
    | none => (1, none, [])
  | x :: r =>
    if x.dt = 0 then (0, some x.act, r)
    else
      match dueAct s with
      | some a => (0, some a, x :: r)
      | none =>
        let n := stride s x.dt
        if n = x.dt then (n, some x.act, r) else (n, none, { x with dt := x.dt - n } :: r)
/-- What the next step does. -/
def nextAct (s : State) : Nat × Option Act := ((nextStep s).1, (nextStep s).2.1)

/-- Gathered groups with a member that is no longer free (halted, or taken out before the group issues) gather anew, and every gathering is
tested again (R178, R181). (DESIGN CHOICE, log entry 78.) -/
def settleGroups (s : State) : State :=
  let s := (((s.cores.flatMap fun k => k.2.groups.flatMap fun g => g.2.flatten).filter fun t => !threadFree s t)).foldl dissolve s
  let trains := ((s.threads.filter fun p => match p.2.park with
    | .gather _ => p.2.stage = 0
    | _ => false).map fun p => p.2.train).eraseDups
  trains.foldl testGathers s
/-- The starved lists without the threads that have stopped being runnable (R172). -/
def pruneStarved (s : State) : State :=
  { s with cores := mapEach (fun _ k => { k with starved := mapEach (fun _ l => l.filter (runnable s)) k.starved }) s.cores }
/-- The lines of a die at which something can go on: nothing holds the line, and what waits first is a message or has gone (R86). -/
def restless (s : State) (d : Die) : List Nat :=
  (d.dir.filter fun p => !dirBusy p.2 && match p.2.waiting with
    | [] => false
    | .msg _ :: _ => dirUsed p.2 || decide ((filterSet d p.1).length < 32)
    | w :: _ => !waiterLive s p.1 w).map (·.1)
/-- Lines whose first waiter has been served go on. -/
def settleQueues (s : State) : State := (s.dies.flatMap fun p => restless s p.2).foldl goOn s

end Sys2Proof.Machine
end

