-- ==== Sys2Proof/Machine/Access.lean ====
section
/-! DEFINITION. Failable memory operations: their addresses, kinds and captured data, their start in each space, and the
performance of loads, stores and atomics (R10 to R13, R26 to R33, R73 to R83, R116, R140 to R145, R276 to R288). -/

namespace Sys2Proof.Machine
open Sys2Proof

/-! Registers and bytes (R278, R282, R286). -/

/-- The bytes of `n` registers from one on. -/
def regBytes (th : Thread) (d : Nat) : Nat → List Byte
  | 0 => []
  | n + 1 => bytesOfWord (getG th d) ++ regBytes th (d + 1) n
/-- The data of a store, in memory order (Table 11-4). -/
def storeBytes (th : Thread) (d width : Nat) : List Byte :=
  if width < 2 then (regBytes th d 1).take (2 ^ width) else regBytes th d (2 ^ (width - 2))
/-- The values that a store captures: those of its data registers, whole (R248). -/
def captureBytes (th : Thread) (d width : Nat) : List Byte := regBytes th d (2 ^ (width - 2))
/-- The bytes that an operation stores, of those that it captures (R248). -/
def storedOf (i : Instr) (b : List Byte) : List Byte :=
  match memForm? i with
  | some f => if f.store then b.take f.bytes else b
  | none => b
/-- The registers that loaded bytes fill, with their values (Table 11-4). -/
def loadWords (d : Nat) : Nat → List Byte → List (Nat × Word)
  | 0, _ => []
  | n + 1, b => (d, wordOfBytes b) :: loadWords (d + 1) n (b.drop 4)
/-- What a load writes. -/
def loadRegs (f : MemForm) (b : List Byte) : List (Nat × Word) :=
  if f.width = 0 then
    [(f.d, if f.sx then (BitVec.ofNat 8 (natOfBytes b)).signExtend 32 else BitVec.ofNat 32 (natOfBytes b))]
  else if f.width = 1 then
    [(f.d, if f.sx then (BitVec.ofNat 16 (natOfBytes b)).signExtend 32 else BitVec.ofNat 32 (natOfBytes b))]
  else loadWords f.d (2 ^ (f.width - 2)) b
/-- What a load or an atomic writes when its bytes return. -/
def resultRegs (i : Instr) (b : List Byte) : List (Nat × Word) :=
  match memForm? i with
  | some f => if f.store then [] else loadRegs f b
  | none => match atomForm? i with
    | some f => loadWords f.d (if f.w64 then 2 else 1) b
    | none => []

/-- The effective address of a load or store (R276). -/
def effective (th : Thread) (o : BitVec 4) (w : BitVec 3) (a : BitVec 6) : DWord :=
  getX th a.toNat + BitVec.ofNat 64 (o.toNat * 2 ^ w.toNat)
/-- Whether the zero bits of an address are not all zero (Table 1-1). -/
def badLayout (space : Nat) (a : DWord) : Bool :=
  if space = 2 then decide (2 ^ 57 ≤ a.toNat) else if space = 4 then decide (2 ^ 52 ≤ a.toNat) else decide (2 ^ 48 ≤ a.toNat)

/-! Results delivered. -/

/-- The bytes of an operation returned: its registers written, and the operation resolved and performed (R279). -/
def deliverTh (seq : Nat) (b : List Byte) (th : Thread) : Thread :=
  match opOf? th seq with
  | some o => modOp (setGs th (resultRegs o.insn b)) seq fun o => { o with phase := .resolved, performed := true }
  | none => th
/-- The bytes of an operation of a thread returned. -/
def deliver (s : State) (t seq : Nat) (b : List Byte) : State := s.modThread t (deliverTh seq b)
/-- The phase of an operation changed. -/
def setPhase (s : State) (t seq : Nat) (p : OpPhase) : State := s.modThread t fun th => modOp th seq fun o => { o with phase := p }

/-! Device space: translation and what follows it (R16, R19, R79 to R82). -/

/-- What an operation does to its page. -/
def accOf (i : Instr) : Acc :=
  match memForm? i with
  | some f => if f.store then .write else .read
  | none => .write

/-- The bytes of an access as indices within its line. -/
def lineBytes (pa : Nat) (b : List Byte) : SMap Byte := b.zipIdx.map fun p => (pa % 128 + p.2, p.1)
/-- The operations of a window older than one. -/
def olderOps (seq : Nat) : List Op → List Op
  | [] => []
  | o :: r => if o.seq.toNat = seq then [] else o :: olderOps seq r
/-- The operations of a window younger than one. -/
def youngerOps (seq : Nat) : List Op → List Op
  | [] => []
  | o :: r => if o.seq.toNat = seq then r else youngerOps seq r
/-- Whether an operation still has to read its thread's write set: a load, or a range operation that publishes from it. -/
def seesWs (o : Op) : Bool := (o.kind = 0x10 || o.kind = 0x11 || o.kind = 0x40 || o.kind = 0x41) && !o.performed
/-- The write set that an operation of a thread finds, in program order (R81, R82, R119). (DEDUCED, log entry 19.) -/
def viewOf (th : Thread) (o : Op) : Thread := { th with ws := o.seen.getD th.ws }
/-- What a write set becomes under a change of a thread. -/
def wsUnder (f : Thread → Thread) (th : Thread) (w : List WsEntry) : List WsEntry := (f { th with ws := w }).ws
/-- The write set of a thread changed by an operation of its window: the older ones that have yet to read it find it as it was,
the younger ones as it becomes (R81, R119). -/
def changeWs (th : Thread) (seq : Nat) (f : Thread → Thread) : Thread :=
  let old := (olderOps seq th.ops).map (·.seq)
  { th with
    ws := wsUnder f th th.ws
    ops := th.ops.map fun o =>
      if !seesWs o then o
      else if old.contains o.seq then { o with seen := some (o.seen.getD th.ws) }
      else { o with seen := o.seen.map (wsUnder f th) } }
/-- The bytes of an operation's access removed from every write-set entry of its thread (R82). -/
def dropOwn (pa n : Nat) (th : Thread) : Thread :=
  { th with ws := wsRemove th.ws (pa / 128) ((upTo n).map fun i => (pa % 128 + i, 0)) fun _ => true }
/-- Whether a byte is one that an operation has already stored, or sent to be changed. -/
def storesByte (a : Nat) (o : Op) : Bool :=
  (o.kind = 0x20 || o.kind = 0x21 || o.kind = 0x30) && (o.phase = .resolved || o.phase = .sent) &&
    decide (memSpace o.insn = 1) && decide (o.pa ≤ a) && decide (a < o.pa + accessLen o.insn)
/-- The bytes of a line that no younger operation of the window has stored (R63, R119). (DEDUCED, log entry 19.) -/
def notYounger (th : Thread) (seq line : Nat) (b : SMap Byte) : SMap Byte :=
  b.filter fun p => !(youngerOps seq th.ops).any (storesByte (line * 128 + p.1))

/-- The entries of an overflow area: each takes 256 of its bytes (R80). (DEDUCED, log entry 8.) -/
def areaRoom (k : Core) : Nat := k.overflowLen / 256
/-- Whether the L1 of a core has room for one more write-set entry of a line: 512 entries, and 16 ways a set (R40, R79). -/
def wsRoom (s : State) (c line : Nat) : Bool := decide (wsInL1 s c < 512) && decide (wsWays s c line < 16)
/-- The oldest entries of a core moved to its overflow area until its L1 has room for an entry of a line, at most `fuel` of them; none where
the area is full first (R80). -/
def makeRoom (s : State) (c line : Nat) : Nat → Option State
  | 0 => none
  | n + 1 =>
    if wsRoom s c line then some s
    else if wsInArea s c < areaRoom (s.core c) then makeRoom (moveOldest s c) c line n else none
/-- A way of an L1 set made free for one more write-set entry of a line: a line of the set leaves where lines and entries take all 16 (R40,
R53, R79). (DESIGN CHOICE, log entry 7.) -/
def wsEnter (s : State) (c line : Nat) : State :=
  let set := ((s.core c).l1.filter fun p => p.1 % 128 = line % 128).map (·.1)
  if 16 ≤ set.length + wsWays s c line ∧ set ≠ [] then l1Drop s.fresh c (set.getD (Config.victim s.free % set.length) 0) else s
/-- The write-set entries of a thread that has come to a core take ways of its L1 where there is room, and lie in its overflow area
otherwise (R79, R80, R352). -/
def landWs (s : State) (c t : Nat) : State :=
  ((s.thread t).ws.filter fun e => !e.moved).foldl (fun s e =>
    if wsRoom s c e.line then
      (wsEnter s c e.line).modThread t fun th =>
        { th with ws := th.ws.map fun x => if x.line = e.line && x.handler = e.handler then { x with moved := false } else x }
    else s) (s.modThread t fun th => { th with ws := th.ws.map fun e => { e with moved := true } })
/-- Whether the overflow area of a core can take the write-set entries of some threads (R80). -/
def areaFits (s : State) (c : Nat) (ts : List Nat) : Bool :=
  decide (wsInArea s c + (ts.map fun t => (s.thread t).ws.length).foldl (· + ·) 0 ≤ areaRoom (s.core c))
/-- A weak store's entry made, the oldest of the core moved to the overflow area where its L1 has no room; with the area full
the store waits and the core stalls (R80). -/
def placeWeak (s : State) (t seq : Nat) (o : Op) (pa cls : Nat) : State :=
  let c := s.coreOf t
  let th := s.thread t
  let line := pa / 128
  let put := fun (s : State) => s.modThread t fun th =>
    modOp (changeWs th seq fun th => wsStore th line cls (o.addr.toNat / 2 ^ 16) s.clk (notYounger th seq line (lineBytes pa o.data))) seq
      fun o => { o with phase := .resolved, performed := true, pa := pa, cls := cls }
  if th.ws.any fun e => e.line = line && e.handler = th.hm then put s
  else
    match makeRoom s c line 513 with
    | some s' => put (wsEnter s' c line)
    | none => (s.modThread t fun th => modOp th seq fun o => { o with phase := .ready, pa := pa, cls := cls }).modCore c fun k =>
        { k with overflowFull := true, stall := some (s.ctxOf t, s.launchOf t) }

/-- An operation has its physical address: a weak store enters the write set, a strong store resolves and is performed later, a
load may be served, and an atomic goes to its home's service train (Table 9-9, R79 to R82, R286). R100 keeps a strong store unresolved
until its fan-out has ended, where Table 9-9 of R239 resolves it here. (DEDUCED, log entry 73.) -/
def translated (s : State) (t seq pa : Nat) (leaf : DWord) : State :=
  match opOf? (s.thread t) seq with
  | none => s
  | some o =>
    let cls := fld leaf 63 62
    if o.kind = 0x20 then placeWeak s t seq o pa cls
    else if o.kind = 0x21 then
      s.modThread t fun th => modOp (changeWs th seq (dropOwn pa o.data.length)) seq fun o =>
        { o with phase := .resolved, performed := false, pa := pa, cls := cls }
    else if o.kind = 0x30 then
      match atomForm? o.insn with
      | none => s
      | some f =>
        let n := f.bytes
        let b := o.data.drop (if f.op = 9 then n else 0)
        let r : AtomReq :=
          { thread := t, seq := o.seq, group := o.group, pa := pa, op := f.op, w64 := f.w64, b := dwordOfBytes b,
            cmp := dwordOfBytes (o.data.take n), lane := (s.thread t).lane }
        { s.modThread t fun th => modOp (changeWs th seq (dropOwn pa n)) seq fun o => { o with phase := .sent, pa := pa, cls := cls } with
          atoms := s.atoms ++ [r] }
    else s.modThread t fun th => modOp th seq fun o => { o with phase := .ready, pa := pa, cls := cls }

/-- The miss entry of a page (R18). -/
def missOf (k : Core) (ctx va : Nat) : Option Miss := k.misses.find? fun m => m.ctx = ctx && m.page = va / 2 ^ 16
/-- An operation that waits for a translation joins its page's miss entry, or makes it (R19). -/
def joinMiss (s : State) (t seq va : Nat) (write : Bool) : State :=
  let c := s.coreOf t
  let ctx := s.ctxOf t
  let s := setPhase s t seq .walk
  match missOf (s.core c) ctx va with
  | some _ => s
  | none => s.modCore c fun k => { k with misses := k.misses ++ [{ ctx := ctx, page := va / 2 ^ 16, write := write }] }

/-- Whether the L1 of a core holds the line of a load so that the load is served there (R52). -/
def l1Hit (s : State) (c line cls : Nat) (strong : Bool) : Bool :=
  match mapGet? (s.core c).l1 line with
  | some x => if x.leased then !strong && cls = 2 && decide ((s.core c).lt ≤ x.rts) else cls = 0 || (cls = 1 && !strong)
  | none => false
/-- The lookup of a load in the L1: it belongs to the hit split of its bundle, or to the miss split (R57). -/
def lookedUp (s : State) (t seq : Nat) : State :=
  match opOf? (s.thread t) seq with
  | none => s
  | some o => if opHasResult o && o.phase = .ready then
      s.modThread t fun th => modOp th seq fun o => { o with hit := l1Hit s (s.coreOf t) (o.pa / 128) o.cls (o.kind = 0x11) }
    else s
/-- A device-space operation translated by the core's caches, or left to a walk. -/
def startDevice (s : State) (t seq : Nat) : State :=
  match opOf? (s.thread t) seq with
  | none => s
  | some o =>
    let c := s.coreOf t
    let va := o.addr.toNat
    let acc := accOf o.insn
    if (missOf (s.core c) (s.ctxOf t) va).isSome then joinMiss s t seq va (acc = .write)
    else
      let r := translateCached s c (s.trainOf t).quarter (s.ctxOf t) va acc
      match r.2 with
      | .ok pa leaf _ _ => lookedUp (translated r.1 t seq pa leaf) t seq
      | .fail cause f => failOp r.1 t seq cause (BitVec.ofNat 64 f)
      | _ => joinMiss r.1 t seq va (acc = .write)

/-- The device id of a remote address. -/
def remoteDev (a : DWord) : Nat := a.toNat / 2 ^ 48 % 512
/-- The virtual address of a remote address at its target. -/
def remoteVa (a : DWord) : Nat := a.toNat % 2 ^ 48

/-! Order within a thread (Table 4-4). -/

/-- Whether two byte ranges meet. -/
def rangesMeet (a n b m : Nat) : Bool := decide (a < b + m) && decide (b < a + n)
/-- Whether two device-space operations name a common byte: by physical address once both are translated. -/
def opsMeet (x o : Op) : Bool :=
  let n := accessLen x.insn
  let m := accessLen o.insn
  decide (memSpace x.insn = 1) && decide (0 < n) &&
    (rangesMeet x.addr.toNat n o.addr.toNat m || (decide (x.phase ≠ .walk) && rangesMeet x.pa n o.pa m))
/-- Whether an operation may reach a byte of this device through the fabric: the loop-back of R12, or an aperture. -/
def loopsBack (o : Op) : Bool :=
  decide (0 < accessLen o.insn) && (decide (memSpace o.insn = 3) || (decide (memSpace o.insn = 2) && remoteDev o.addr = Config.deviceId))
/-- A read or an atomic, which a younger write, command or push of its thread follows: row 2's first column for the strong ones,
R121 and R152 for the weak. (DEDUCED, log entry 23.) -/
def olderRead (x : Op) : Bool := x.kind = 0x10 || x.kind = 0x11 || x.kind = 0x30 || x.kind = 0x31
/-- Whether an operation writes strongly, commands an engine or pushes: row 2's last column. -/
def rowTwo (o : Op) : Bool := !(o.kind = 0x10 || o.kind = 0x11 || o.kind = 0x20 || o.kind = 0x40 || o.kind = 0x41)
/-- Whether an older range invalidate of the same space holds a load back (R64). -/
def heldByInval (x o : Op) : Bool :=
  x.kind = 0x41 && x.phase != .resolved && (o.kind = 0x10 || o.kind = 0x11) &&
    rangesMeet x.addr.toNat (natOfBytes x.data) o.addr.toNat (accessLen o.insn) &&
    (match x.insn with
     | .rinvalDev _ _ _ => decide (memSpace o.insn = 1)
     | .rinvalRem _ _ _ => decide (memSpace o.insn = 2)
     | _ => decide (memSpace o.insn = 4))
/-- Whether rows 1, 2 and 8 of Table 4-4 and R64 let an operation be performed after the older ones of its thread; the bytes that a
loop-back reaches are not known before its target translates, so it counts as meeting every device-space access. An older operation
that failed is performed, if at all, when it is replayed, and holds nothing back (R241). (DEDUCED, log entry 23.) -/
def mayPerform (th : Thread) (o : Op) : Bool :=
  (olderOps o.seq.toNat th.ops).all fun x =>
    (opDead x || ((x.performed || !(decide (memSpace o.insn = 1) && (opsMeet x o || loopsBack x))) &&
      (x.performed || x.bound || !(rowTwo o && olderRead x)) &&
      !(x.kind = 0x50 && x.phase != .resolved && decide (memSpace o.insn = 1)))) && !heldByInval x o

/-! Loads performed (R52, R73, R77, R81, R82). -/

/-- A Plain line of a core's L1, filled if need be (Table 3-1, R52). (DESIGN CHOICE, log entry 14.) -/
def plainLine (s : State) (c line : Nat) : State × L1Line :=
  let fill := fun (_ : Unit) =>
    let r := plainData s c line
    let y : L1Line := { leased := false, data := r.2, wts := 0, rts := 0, dirty := false }
    (l1Put r.1 c line y, y)
  match mapGet? (s.core c).l1 line with
  | some x => if x.leased then fill () else (s, x)
  | none => fill ()

/-- A weak load's line, with a valid lease in the L1 of the core: the flag says whether it could be had now (R52, R73). -/
def weakLine (s : State) (c line : Nat) (m : BitVec 128) (w : Waiter) : State × Option (List Byte) :=
  let lt := (s.core c).lt
  let get := fun (_ : Unit) =>
    let r := if homeDie line = dieOfCore c then
        (if (dirGet s line).st = .p then ensureHomePriv s line m false w else ensureHomeRead s line w)
      else ensureRdcRead s c line lt m
    if r.2 then
      let q := leaseFill r.1 c line
      (q.1, some q.2)
    else (r.1, none)
  match mapGet? (s.core c).l1 line with
  | some x => if x.leased && decide (lt ≤ x.rts) then (s, some x.data) else get ()
  | none => get ()

/-- The data of a line that a device-space load of a core reads, by class and strength (R41, R52, R76, R77); none where it must
wait. -/
def loadLine (s : State) (c line cls : Nat) (strong : Bool) (m : BitVec 128) (w : Waiter) : State × Option (List Byte) :=
  if cls = 0 ∨ (cls = 1 ∧ strong = false) then
    if (dirGet s line).eo then (s, none)
    else
      let r := plainLine s c line
      (r.1, some r.2.data)
  else if strong then
    let r := ensureHomeRead s line w
    if r.2 then
      let x := l2Get r.1 line
      (raiseLt r.1 c x.wts, some x.data)
    else (r.1, none)
  else weakLine s c line m w

/-- A strong read that sees the value that a hand-over has left at a word reads the phase clock of the hand-over's scope (R132). -/
def sawHandOver (s : State) (c pa : Nat) (b : List Byte) : State :=
  match mapGet? s.handOvers (pa / 8 * 8) with
  | some (scope, v) => if ((bytesOfDWord v).drop (pa % 8)).take b.length = b then readClocks s c scope else s
  | none => s

/-- The aligned units of 8 bytes of a strong read looked at one after another (R110, R132), at most `fuel` of them. -/
def sawHandOvers (s : State) (c pa : Nat) (b : List Byte) : Nat → State
  | 0 => s
  | n + 1 =>
    if b = [] then s
    else
      let k := 8 - pa % 8
      sawHandOvers (if 4 ≤ (b.take k).length then sawHandOver s c pa (b.take k) else s) c (pa + k) (b.drop k) n

/-- A device-space load of a thread performed, in the place of what waits for its line, and its value with the thread's own bytes over it (R81, R82). -/
def performLoad (s : State) (t : Nat) (o : Op) (w : Waiter) : State × Option (List Byte) :=
  let n := accessLen o.insn
  let c := s.coreOf t
  let strong := o.kind = 0x11
  let r := loadLine s c (o.pa / 128) o.cls strong (byteMask (o.pa % 128) n) w
  match r.2 with
  | none => (r.1, none)
  | some d =>
    let s := l1Tag r.1 c (o.pa / 128) (s.ctxOf t) (o.addr.toNat / 2 ^ 16)
    let s := if strong then sawHandOvers s c o.pa ((d.drop (o.pa % 128)).take n) 4 else s
    (s, some (((wsOver (viewOf (s.thread t) o) (o.pa / 128) d).drop (o.pa % 128)).take n))

/-! Stores performed (R74, R76, R83). -/

/-- A store to a line of a PRIVATE page performed in the owner's L1 (R76). -/
def storePlain (s : State) (c line ctx page : Nat) (b : SMap Byte) : State :=
  let r := plainLine s c line
  l1Tag (l1Put r.1 c line { r.2 with data := applyBytes r.2.data b, dirty := true }) c line ctx page

/-- A strong store of a core performed at the place R74 names, with its time; the flag says whether it could be performed now. One of 16
or 32 bytes is performed whole at one instant, which R110 does not ask for. (DESIGN CHOICE, log entry 66.) -/
def storeStrong (s : State) (c line cls ctx page : Nat) (b : SMap Byte) (w : Waiter) : State × Option Nat :=
  if cls = 0 then
    if (dirGet s line).eo then (s, none) else (storePlain s c line ctx page b, some (s.core c).lt)
  else
    let r := ensureHomeWrite s line w
    if r.2 then
      let q := storeHome r.1 c line b
      (q.1, some q.2)
    else (r.1, none)

/-- A publication of a core performed (R83, R90), with its time. -/
def publish (s : State) (c line cls ctx page : Nat) (b : SMap Byte) (w : Waiter) : State × Option Nat :=
  if cls = 0 then
    if (dirGet s line).eo then (s, none) else (storePlain s c line ctx page b, some (s.core c).lt)
  else if homeDie line = dieOfCore c then
    if (dirGet s line).st = .p then
      let r := ensureHomePriv s line (maskOf b) true w
      if r.2 then
        let q := storeRdc r.1 c line b
        (q.1, some q.2)
      else (r.1, none)
    else storeStrong s c line cls ctx page b w
  else
    let r := ensureRdcWrite s c line (maskOf b)
    if r.2 then
      let q := storeRdc r.1 c line b
      (q.1, some q.2)
    else (r.1, none)

/-! Remote, aperture and host space: what leaves the device (R12, R26 to R33, R105, R140 to R145). -/

/-- The host window that governs an access (Table 1-8, R30): the first enabled one that the access meets. -/
def hostWindow? (s : State) (ctx a n : Nat) : Option (BitVec 128) :=
  ((s.ctx ctx).windows.find? fun p => fld p.2 0 0 = 1 &&
    rangesMeet (fld p.2 63 24 * 4096) ((fld p.2 103 64 + 1 - fld p.2 63 24) * 4096) a n).map (·.2)
/-- Whether a window holds an access wholly and permits it. -/
def windowPermits (w : BitVec 128) (a n : Nat) (write : Bool) : Bool :=
  decide (fld w 63 24 * 4096 ≤ a) && decide (a + n ≤ (fld w 103 64 + 1) * 4096) && decide (fld w (if write then 2 else 1) (if write then 2 else 1) = 1)

/-- Every copy of a remote or host line in the remote-data caches of the device written back and dropped (R142): a dirty one stays in its way
until its writeback is answered. A line whose writeback failed stays, for only a range operation removes it (R103). -/
def dropCopies (s : State) (key : Nat) : State :=
  s.dies.foldl (fun s p => match rdcGet? s p.1 key with
    | some x =>
      if x.failed || x.leaving then s else rdcEvict s p.1 key x
    | none => s) s
/-- Whether a writeback of a line is under way. -/
def writebackOpen (s : State) (key : Nat) : Bool :=
  s.out.any fun p => match p.2.kind, p.2.line with
    | .masked _, some (_, k) => k = key
    | _, _ => false

/-- The bytes of a remote or host line held by a die overwritten, and marked dirty (R103, R142). -/
def storeCopy (s : State) (d key : Nat) (x : RdcLine) (off : Nat) (b : List Byte) : State :=
  rdcPut s d key { x with data := spliceBytes x.data off b, dirty := x.dirty ||| byteMask off b.length }

/-- The die that answers for a host line: the one that holds it owned, else one that holds it (R105). -/
def hostHolder? (s : State) (d key : Nat) : Option (Nat × RdcLine) :=
  let l := s.dies.filterMap fun p => if p.1 = d then none else (rdcGet? s p.1 key).map fun x => (p.1, x)
  match l.find? fun x => x.2.owned with
  | some x => some x
  | none => l.head?
/-- A host line that another die holds brought to a die by the E and M rows of Table 3-5, the I/O die acting as home (R105): for a read it
gets a clean copy and the other die keeps its own, for a write it takes the line and no other copy stays. (DEDUCED, log entry 36.) -/
def hostTake (s : State) (d key : Nat) (write : Bool) : State :=
  let mine := rdcGet? s d key
  if !write && mine.isSome then s
  else
    match hostHolder? s d key with
    | none => s
    | some (_, x) =>
      if write then
        -- the owner's bytes are the line; a copy of this die that is not owned gives way to them
        let s := dropElsewhere s d key
        match mine with
        | some y => if x.owned then rdcPut s d key { x with failed := x.failed || y.failed, leaving := false } else s
        | none => rdcInstall s d key { x with leaving := false }
      else rdcInstall s d key { x with dirty := 0, owned := false, failed := false, leaving := false }

/-- An aperture descriptor's defects (R27), the access at an offset included. -/
def apertureBad (d : BitVec 512) (off n : Nat) : Bool :=
  let op := fld d 15 12
  let fmt := fld d 11 8
  let el := if fmt = 1 ∨ fmt = 3 then 8 else 4
  fld d 0 0 = 0 || fld d 511 128 = 0 || fld d 39 16 != 0 || fld d 7 1 != 0 || decide (3 < fmt) ||
    !(decide (op ≤ 5) || decide (op = 8) || decide (op = 9) || decide (op = 10)) ||
    (decide (2 ≤ fmt) && decide (3 ≤ op) && decide (op ≤ 5)) || (decide (fmt < 2) && decide (8 ≤ op)) ||
    decide (fld d 79 40 < off + n) || decide (n % el ≠ 0)
/-- The members of an aperture, ascending. -/
def apertureMembers (d : BitVec 512) : List Nat := (upTo 384).filter fun i => d.getLsbD (128 + i)

/-- The operations of a request, each with its thread. -/
abbrev Lanes := List (Nat × Op)
/-- The request that carries the operations of one line to one device; `vas` gives an operation's address there (R56). -/
def opRequest (l : Lanes) (dst : Nat) (vas : Op → Nat) (kind : ReqKind) (dat : Op → List Byte) (aux : DWord) : OutReq :=
  let o := match l with
    | x :: _ => x.2
    | [] => { seq := 0, kind := 0, pc := 0, insn := .illegalInstruction, addr := 0, data := [] }
  { who := l.map fun x => (x.1, x.2.seq), dst := dst, lane := laneOf (vas o), tag := 0, issue := 0, kind := kind, va := vas o,
    len := accessLen o.insn, data := dat o, aux := aux
    more := (l.drop 1).map fun x => (vas x.2, accessLen x.2.insn, dat x.2), copies := 0 }

/-- Whether two operations are accesses to host memory that name a common byte: no lane orders them on their way (row 1 of Table 4-4,
R119). -/
def hostMeet (x o : Op) : Bool :=
  decide (memSpace x.insn = 4) && decide (memSpace o.insn = 4) && decide (0 < accessLen x.insn) && decide (0 < accessLen o.insn) &&
    rangesMeet x.addr.toNat (accessLen x.insn) o.addr.toNat (accessLen o.insn)
/-- Whether an operation may leave the device now (Table 4-4, rows 1, 2 and 8): one that may reach this device's own bytes also waits for
the thread's older device-space accesses, and for its older engine commands to be accepted (R137). -/
def mayLeave (th : Thread) (o : Op) : Bool :=
  (olderOps o.seq.toNat th.ops).all (fun x =>
    (x.performed || x.bound || !(rowTwo o && olderRead x)) && !heldByInval x o &&
      (x.performed || !(hostMeet x o || (loopsBack o && decide (memSpace x.insn = 1) && decide (0 < accessLen x.insn)))) &&
      !(x.kind = 0x50 && x.phase != .resolved && loopsBack o))

/-- The phases of the operations of a request changed. -/
def sentAll (s : State) (l : Lanes) : State := l.foldl (fun s x => setPhase s x.1 x.2.seq.toNat .sent) s

/-- The region mode of the host window that governs an operation of a thread (R31). -/
def hostRm (s : State) (t : Nat) (o : Op) : Nat :=
  match hostWindow? s (s.ctxOf t) o.addr.toNat (accessLen o.insn) with
  | some w => fld w 3 3
  | none => 1
/-- The lines whose copies an operation that is always performed at the target, or at host memory, drops first (R105, R142). -/
def dropKeys (s : State) (t : Nat) (o : Op) : List Nat :=
  let dst := remoteDev o.addr
  match o.insn with
  | .xqDone _ _ _ =>
    let e := natOfBytes o.value
    let comb := e / 2 ^ 208
    [remoteKey (e / 2 ^ 55 % 512) ((comb + 8 + 8 * (e / 2 ^ 48 % 8)) % 2 ^ 48), remoteKey (e / 2 ^ 55 % 512) comb]
  | .stf _ _ _ _ _ => [remoteKey dst (remoteVa o.addr), remoteKey dst (remoteVa (dwordOfBytes (o.data.drop (o.data.length - 8))))]
  | _ =>
    if memSpace o.insn = 2 ∧ (atomForm? o.insn).isSome then [remoteKey dst (remoteVa o.addr)]
    else if memSpace o.insn = 3 ∧ o.kind = 0x22 then
      let desc := mapGetD s.apertures (o.addr.toNat / 2 ^ 40 % 256) 0
      (apertureMembers desc).map fun m => remoteKey m (fld desc 127 80 + o.addr.toNat % 2 ^ 40)
    else if memSpace o.insn = 4 ∧ 0 < accessLen o.insn ∧ hostRm s t o = 1 then [hostKey o.addr.toNat]
    else []
/-- Whether a host operation has to wait at the port for its line: an atomic has taken it with RdOwn and not released it, or itself finds a
request of the device for the line under way (R106, R120). -/
def hostBusy (s : State) (o : Op) : Bool :=
  decide (memSpace o.insn = 4) && decide (0 < accessLen o.insn) && s.out.any fun p =>
    p.2.host && decide (p.2.va / 128 = o.addr.toNat / 128) && (match p.2.kind with
      | .atomic _ _ => true
      | .masked m => m != 0
      | _ => (atomForm? o.insn).isSome)

/-- Remote operations of one line leave, or are performed in the copy their die holds (R142, R279). -/
def sendRemote (s : State) (l : Lanes) : State :=
  match l with
  | [] => s
  | (t, o) :: _ =>
    let dst := remoteDev o.addr
    let d := s.dieOf t
    let key := remoteKey dst (remoteVa o.addr)
    let req := opRequest l dst fun o => remoteVa o.addr
    match atomForm? o.insn with
    | some f => sendOut (sentAll s l) (req (.atomic f.op f.w64) (·.data) 0)
    | none =>
      if o.kind = 0x23 then
        sendOut (sentAll s l) (req .stf storeData (BitVec.ofNat 64 (remoteVa (dwordOfBytes (o.data.drop (o.data.length - 8))))))
      else
        match rdcGet? s d key with
        | some _ =>
          l.foldl (fun s x =>
            let off := remoteVa x.2.addr % 128
            match rdcGet? s d key with
            | some y =>
              if x.2.kind = 0x22 then resolveOp (storeCopy s d key y off x.2.data) x.1 x.2.seq.toNat
              else deliver (rdcTouch s d key) x.1 x.2.seq.toNat ((y.data.drop off).take (accessLen x.2.insn))
            | none => s) s
        | none =>
          if o.kind = 0x22 then sendOut (sentAll s l) (req .store (·.data) 0)
          else sendOut (sentAll s l) (req .fill (fun _ => []) 0)

/-- Host operations of one line leave, or are performed in the copy their die holds (R105, R106, R142). -/
def sendHost (s : State) (l : Lanes) : State :=
  match l with
  | [] => s
  | (t, o) :: _ =>
    let a := o.addr.toNat
    let key := hostKey a
    let d := s.dieOf t
    let rm := hostRm s t o
    -- in a window with RM = 1 only a marked copy is left here (R103): it serves the access as any held line does
    let held := s.dies.any fun p => (rdcGet? s p.1 key).isSome
    let req := fun (k : ReqKind) (dat : Op → List Byte) (aux : DWord) =>
      { opRequest l 0 (fun o => o.addr.toNat) k dat aux with host := true }
    match atomForm? o.insn with
    | some f =>
      let s := if rm = 0 || held then hostTake s 0 key true else s
      sendOut (sentAll s l) (req (.atomic f.op f.w64) (·.data) (BitVec.ofNat 64 rm))
    | none =>
      if rm = 1 && !held then sendOut (sentAll s l) (req (if o.kind = 0x22 then .store else .load) (·.data) 0)
      else
        let s := hostTake s d key (o.kind = 0x22)
        let held := match rdcGet? s d key with
          | some x => o.kind != 0x22 || x.owned
          | none => false
        if held then
          l.foldl (fun s x =>
            let off := x.2.addr.toNat % 128
            match rdcGet? s d key with
            | some y =>
              if x.2.kind = 0x22 then resolveOp (storeCopy (dropElsewhere s d key) d key y off x.2.data) x.1 x.2.seq.toNat
              else deliver (rdcTouch s d key) x.1 x.2.seq.toNat ((y.data.drop off).take (accessLen x.2.insn))
            | none => s) s
        else sendOut (sentAll s l) { req .fill (·.data) 0 with line := some (d, key) }

/-- Aperture operations of one line leave for every member (R28, R29, R144). Whether a member belongs to the job is not checked: the spec
asks for the check of a remote address alone. (DESIGN CHOICE, log entry 67.) -/
def sendAperture (s : State) (l : Lanes) : State :=
  match l with
  | [] => s
  | (_, o) :: _ =>
    let desc := mapGetD s.apertures (o.addr.toNat / 2 ^ 40 % 256) 0
    (apertureMembers desc).foldl (fun s m =>
      sendOut s (opRequest l m (fun o => fld desc 127 80 + o.addr.toNat % 2 ^ 40) (if o.kind = 0x22 then .store else .load) (·.data) 0))
      (sentAll s l)

/-- A Regulator push or `xq.done` to another device leaves (R140, R341, R346): the token under its queue's address; the data under
the slot's address, with the counter's address beside it. -/
def sendXq (s : State) (l : Lanes) : State :=
  match l with
  | [] => s
  | (_, o) :: _ =>
    match o.insn with
    | .xqIn _ _ _ =>
      let sel := (wordOfBytes o.data).toNat
      sendOut (sentAll s l) { opRequest l (sel / 2 ^ 16 % 512) (fun _ => sel % 4096 * 128) .push (fun o => o.data.drop 4) 0 with len := 32 }
    | _ =>
      let e := natOfBytes o.value
      let comb := e / 2 ^ 208
      sendOut (sentAll s l)
        { opRequest l (e / 2 ^ 55 % 512) (fun _ => (comb + 8 + 8 * (e / 2 ^ 48 % 8)) % 2 ^ 48) .xqDone (·.data) (BitVec.ofNat 64 comb) with
          len := 8 }

/-! The port: the accesses of one bundle to one line leave together (R56, R141). -/

/-- Whether an operation waits at the port. -/
def atPort (o : Op) : Bool := o.phase = .ready && decide (2 ≤ memSpace o.insn) && (decide (0 < accessLen o.insn) || o.kind = 0x61)
/-- The operation of a thread that leaves next: its oldest at the port (R141). -/
def portHead (th : Thread) : Option Op := th.ops.find? atPort
/-- Whether two operations are accesses of one bundle to one line. -/
def oneRequest (x o : Op) : Bool := x.group != 0 && x.group = o.group && decide (x.addr.toNat / 128 = o.addr.toNat / 128)
/-- Threads with their operations in ascending lane. -/
def insertByLane (s : State) (x : Nat × Op) : Lanes → Lanes
  | [] => [x]
  | y :: r => if (s.thread x.1).lane < (s.thread y.1).lane then x :: y :: r else y :: insertByLane s x r
/-- The operations of the threads that a test accepts, in ascending lane. -/
def lanesWhere (s : State) (p : Nat → Thread → Op → Bool) : Lanes :=
  s.threads.foldl (fun l x => (x.2.ops.filter (p x.1 x.2)).foldl (fun l o => insertByLane s (x.1, o) l) l) []
/-- The operations that leave with one of a thread. -/
def portGroup (s : State) (t : Nat) (o : Op) : Lanes :=
  if o.group = 0 then [(t, o)] else lanesWhere s fun _ _ x => atPort x && oneRequest x o
/-- Whether an operation keeps the others of its request waiting: it may not go on yet, and no failure of its thread will cancel it. -/
def keepsWaiting (may : Thread → Op → Bool) (s : State) (x : Nat × Op) : Bool :=
  !may (s.thread x.1) x.2 && !(s.thread x.1).ops.any opFailed
/-- Whether an operation is the next to leave of its thread, and may leave. -/
def leavesNext (th : Thread) (o : Op) : Bool := portHead th = some o && mayLeave th o
/-- The operations that leave at once with one at the port of a thread; none while it, or a lane of its request, has to wait. -/
def leaving (s : State) (t : Nat) (o : Op) : Lanes :=
  let g := portGroup s t o
  if leavesNext (s.thread t) o && !(g.any (keepsWaiting leavesNext s)) then g.filter fun x => leavesNext (s.thread x.1) x.2 else []
/-- The first thread whose oldest operation at the port can leave, with the operations that leave. -/
def nextLeaving (s : State) : Option Lanes :=
  s.threads.findSome? fun p => match portHead p.2 with
    | some o =>
      let l := leaving s p.1 o
      if l = [] || (dropKeys s p.1 o).any (writebackOpen s) || hostBusy s o then none else some l
    | none => none
/-- Operations leave by the way of their space. -/
def sendLanes (s : State) (l : Lanes) : State :=
  match l with
  | [] => s
  | (_, o) :: _ =>
    let sp := memSpace o.insn
    if o.kind = 0x61 then sendXq s l else if sp = 2 then sendRemote s l else if sp = 3 then sendAperture s l else sendHost s l
/-- Operations that wait at the port leave while the rules let them, at most `fuel` times. The copies that one of them needs written
back are written back first, and it leaves once that is done (R142, R288). -/
def pumpGo (s : State) : Nat → State
  | 0 => s
  | n + 1 =>
    match nextLeaving s with
    | none => s
    | some l =>
      let keys := match l with
        | (t, o) :: _ => dropKeys s t o
        | [] => []
      let s := keys.foldl dropCopies s
      pumpGo (if keys.any (writebackOpen s) then s else sendLanes s l) n
/-- Operations that wait at the port leave where they can. -/
def pump (s : State) : State := pumpGo s (2 * (s.threads.map fun p => (p.2.ops.filter atPort).length).foldl (· + ·) 0)
/-- The state after the clocks of a step have passed and its agenda entry is taken; a divergence that the last step showed takes
effect first (R410), and what has come to be free to go on goes on. -/
def beginStep (s : State) : State :=
  let a := nextStep s
  pump (settleEvents (settleQueues (pruneStarved (settleHolds (settleGroups (divergeAll { tick s a.1 (issuesNow s) with agenda := a.2.2 }))))))

/-- A remote operation checked at issue (R12, R288). -/
def startRemote (s : State) (t seq : Nat) (o : Op) : State :=
  let dev := remoteDev o.addr
  if 384 ≤ dev ∨ !(s.members.contains dev) then failOp s t seq 6 o.addr else setPhase s t seq .ready
/-- An aperture operation checked at issue (R27). -/
def startAperture (s : State) (t seq : Nat) (o : Op) : State :=
  let desc := mapGetD s.apertures (o.addr.toNat / 2 ^ 40 % 256) 0
  if apertureBad desc (o.addr.toNat % 2 ^ 40) (accessLen o.insn) then failOp s t seq 6 o.addr else setPhase s t seq .ready
/-- A host operation checked at issue (R30). -/
def startHost (s : State) (t seq : Nat) (o : Op) : State :=
  let n := accessLen o.insn
  match hostWindow? s (s.ctxOf t) o.addr.toNat n with
  | some w => if windowPermits w o.addr.toNat n (o.kind != 0x11) then setPhase s t seq .ready else failOp s t seq 6 o.addr
  | none => failOp s t seq 6 o.addr

/-- Whether `stf` names two remote addresses of one device (R288). -/
def stfBad (o : Op) : Bool :=
  let flag := dwordOfBytes (o.data.drop (o.data.length - 8))
  badLayout 2 flag || remoteDev flag != remoteDev o.addr
/-- Whether the flag of `stf` is misaligned. -/
def stfMisaligned (o : Op) : Bool := o.kind = 0x23 && decide ((natOfBytes (o.data.drop (o.data.length - 8))) % 8 ≠ 0)

/-- A failable memory operation begins under the next sequence number (R276, R287, R288), with the values that it captures: its result
registers become pending, its address is checked, and it is sent on its way. -/
def startMem (s : State) (t kind group : Nat) (i : Instr) (pc : Addr) (addr : DWord) (data : List Byte) : State :=
  let seq := (s.thread t).seq.toNat
  let o : Op := { seq := 0, kind := kind, pc := pc, insn := i, addr := addr, data := storedOf i data, cap := data.drop (storedOf i data).length, group := group }
  let s := s.modThread t fun th => addOp (pendGs th ((resultRegs i []).map (·.1))) o
  let o := { o with seq := BitVec.ofNat 16 seq }
  let sp := memSpace i
  if badLayout sp addr ∨ (kind = 0x23 ∧ stfBad o) then failOp s t seq 6 addr
  else if addr.toNat % accessLen i ≠ 0 ∨ stfMisaligned o then failOp s t seq 4 addr
  else if sp = 1 then startDevice s t seq
  else if sp = 2 then startRemote s t seq o
  else if sp = 3 then startAperture s t seq o
  else startHost s t seq o

/-- Whether an access must wait for a miss entry before it issues (R19). -/
def needsMissRoom (s : State) (t : Nat) (i : Instr) (addr : DWord) : Bool :=
  let k := s.core (s.coreOf t)
  decide (memSpace i = 1) && !badLayout 1 addr && decide (addr.toNat % accessLen i = 0) && decide (128 ≤ k.misses.length) &&
    (tlbFind k (s.trainOf t).quarter (s.ctxOf t) addr.toNat).isNone && (missOf k (s.ctxOf t) addr.toNat).isNone

/-- A thread issues a failable memory instruction. -/
def issueMem (i : Instr) (group : Nat) (addr : DWord) (data : List Byte) (s : State) (t : Nat) : State :=
  match memKind? i with
  | none => s
  | some kind =>
    if needsMissRoom s t i addr then park s t .missRoom
    else
      let pc := (s.thread t).pc
      startMem (advance i s t) t kind group i pc addr data

/-! Scratch (R11, R46, R112, R276). -/

/-- Whether a byte range lies outside the scratch range of a thread's train (R11). -/
def scrOutside (s : State) (t : Nat) (a : DWord) (n : Nat) : Bool :=
  let tr := s.trainOf t
  decide (2 ^ 22 ≤ a.toNat) || decide (a.toNat < tr.sbase) || decide (tr.sbase + tr.slen < a.toNat + n)
/-- A scratch access: its checks, the park of R46, and its performance. A store waits until the older reads of its thread have their
values, so that no load takes its value from what depends on it (R121). (DEDUCED, log entry 23.) The loads of one bundle share a number,
under which their results arrive together (R51). -/
def scratchBody (i : Instr) (f : MemForm) (ea : DWord) (group : Nat) (s : State) (t : Nat) : State :=
  let n := f.bytes
  let c := s.coreOf t
  if scrOutside s t ea n then raise s t 7 ea
  else if ea.toNat % n ≠ 0 then raise s t 4 ea
  else
    match scrHold (s.core c) ea.toNat (ea.toNat + n) f.store with
    | some w => park s t w
    | none =>
      if f.store then
        if readsOpen (s.thread t) then park s t .reads
        else
          let b := storeBytes (s.thread t) f.d f.width
          let s := s.modCore c fun k => { k with scratch := memWriteN k.scratch ea.toNat b }
          advance i (s.modThread t fun th => hashScratch th (ea, b)) t
      else
        let r : Result :=
          { regs := loadRegs f (memReadN (s.core c).scratch ea.toNat n), preds := [], flags := 0, load := true, group := group }
        s.modThread t fun th => past i (putResult th r)

/-- A load or store (R276 to R283); the accesses of one bundle share a number (R56). -/
def memBody (i : Instr) (o : BitVec 4) (w : BitVec 3) (a : BitVec 6) (group : Nat) (s : State) (t : Nat) : State :=
  match memForm? i with
  | none => s
  | some f =>
    let ea := effective (s.thread t) o w a
    if f.space = 0 then scratchBody i f ea group s t
    else issueMem i group ea (if f.store then captureBytes (s.thread t) f.d f.width else []) s t

/-- The operand of an atomic, behind the compare value of a compare-and-swap (R248). -/
def atomData (th : Thread) (f : AtomForm) (b : BitVec 6) : List Byte :=
  let n := if f.w64 then 2 else 1
  (if f.op = 9 then regBytes th f.d n else []) ++ regBytes th b.toNat n
/-- An atomic (R284 to R287); the atomics of one bundle share a number (R286). -/
def atomBody (i : Instr) (b a : BitVec 6) (group : Nat) (s : State) (t : Nat) : State :=
  match atomForm? i with
  | none => s
  | some f => issueMem i group (getX (s.thread t) a.toNat) (atomData (s.thread t) f b) s t
/-- `stf` (R288). -/
def stfBody (i : Instr) (w : BitVec 1) (b a d : BitVec 6) (_ : Nat) (s : State) (t : Nat) : State :=
  let th := s.thread t
  issueMem i 0 (getX th a.toNat) (regBytes th d.toNat (if w = 1 then 2 else 1) ++ regBytes th b.toNat 2) s t

/-- A bundle issues a memory instruction: each thread as it would alone, under one number of the bundle, and then what waits at the port
leaves (R56, R171). -/
def issueAccess (i : Instr) (body : Nat → State → Nat → State) (s : State) : Host.Outcome State Fault Refusal :=
  .next (pump { s.bundle.foldl (issueOne i (body (s.free + 1))) s.fresh with bundle := [] })

/-! Atomics performed (R285, R286, R408, R410). -/

/-- A float of an atomic: canonical NaN, no flags (R211, R218). -/
def atomFloat (w64 : Bool) (f : Fmt → Nat → Nat → Nat × Word) (a b : DWord) : DWord :=
  if w64 then BitVec.ofNat 64 (f fp64 a.toNat b.toNat).1 else BitVec.ofNat 64 (f fp32 (a.toNat % 2 ^ 32) (b.toNat % 2 ^ 32)).1
/-- The new value of a word (Table 11-7). -/
def atomNew (op : BitVec 4) (w64 : Bool) (old b cmp : DWord) : DWord :=
  let cut := fun (x : DWord) => if w64 then x else x &&& 0xFFFFFFFF
  let lt := fun (x y : DWord) => if w64 then x.slt y else (x.setWidth 32).slt (y.setWidth 32)
  match op.toNat with
  | 0 => cut (old + b)
  | 1 => if lt b old then b else old
  | 2 => if lt old b then b else old
  | 3 => if b < old then b else old
  | 4 => if old < b then b else old
  | 5 => old &&& b
  | 6 => old ||| b
  | 7 => old ^^^ b
  | 8 => b
  | 9 => if old = cmp then b else old
  | 12 => atomFloat w64 fMin old b
  | 13 => atomFloat w64 fMax old b
  | _ => atomFloat w64 (fun f => fAdd f false) old b

/-- A list with the elements at two places taken out: the two, and the rest. -/
def pickTwo {α : Type} (l : List α) (i j : Nat) : Option (α × α × List α) :=
  match l[i]? with
  | none => none
  | some x =>
    let r := l.eraseIdx i
    match r[j]? with
    | none => none
    | some y => some (x, y, r.eraseIdx j)
/-- Values added in the grouping that the free value chooses, at most `fuel` additions (R286). -/
def raSum (w64 : Bool) (n : Nat) : Nat → List DWord → DWord
  | 0, l => l.headD 0
  | fuel + 1, l =>
    if l.length < 2 then l.headD 0
    else
      let p := Config.raPick (n + fuel)
      match pickTwo l (p % l.length) (p / l.length % (l.length - 1)) with
      | some (x, y, r) => raSum w64 n fuel (r ++ [atomFloat w64 (fun f => fAdd f false) x y])
      | none => l.headD 0

/-- One lane's contribution to a word: the old value goes to the lane, the new one to the word. -/
def atomOne (line : List Byte) (r : AtomReq) : List Byte × DWord :=
  let off := r.pa % 128
  let n := if r.w64 then 8 else 4
  let old := dwordOfBytes ((line.drop off).take n)
  (spliceBytes line off ((bytesOfDWord (atomNew r.op r.w64 old r.b r.cmp)).take n), old)
/-- The contributions of a request in ascending lane, each with the old value its lane receives (R286). -/
def atomLanes : List Byte → List AtomReq → List Byte × List (AtomReq × DWord)
  | l, [] => (l, [])
  | l, r :: rs =>
    let x := atomOne l r
    let q := atomLanes x.1 rs
    (q.1, (r, x.2) :: q.2)
/-- A reassociated sum: every lane receives the value before, and the contributions to each word are added in any grouping.
(DESIGN CHOICE, log entry 6.) -/
def atomRa (free : Nat) (line : List Byte) (rs : List AtomReq) : List Byte × List (AtomReq × DWord) :=
  let old := fun (r : AtomReq) => dwordOfBytes ((line.drop (r.pa % 128)).take (if r.w64 then 8 else 4))
  let put := fun (l : List Byte) (r : AtomReq) =>
    let n := if r.w64 then 8 else 4
    let bs := (rs.filter fun x => x.pa = r.pa).map (·.b)
    spliceBytes l (r.pa % 128) ((bytesOfDWord (raSum r.w64 (free * 128) bs.length (old r :: bs))).take n)
  (rs.foldl put line, rs.map fun r => (r, old r))
/-- The contributions of one request to a line computed (R286): those of `fadd.ra` in any grouping unless the home logs or replays, when
they are performed as those of `fadd` are (R408). -/
def atomServe (s : State) (line : Nat) (old : List Byte) (l : List AtomReq) : List Byte × List (AtomReq × DWord) :=
  match l with
  | x :: _ => if x.op = 11 ∧ !((s.die (homeDie line)).logging || s.replaying) then atomRa s.free old l else atomLanes old l
  | [] => (old, [])
/-- The bytes of a line that contributions name. -/
def atomMask (l : List AtomReq) : BitVec 128 := l.foldl (fun m x => m ||| byteMask (x.pa % 128) (if x.w64 then 8 else 4)) 0

end Sys2Proof.Machine
end

