-- ==== Sys2Proof/Machine/Atomics.lean ====
section
/-! DEFINITION. Atomics and store with flag (R284 to R288). -/

namespace Sys2Proof.Machine
open Sys2Proof

/-- `atom.add` (R284 to R287, Table 11-7). -/
def execAtomAdd (w : BitVec 1) (p : BitVec 2) (b : BitVec 6) (a : BitVec 6) (d : BitVec 6) (sm : BitVec 1) (s : State) : Host.Outcome State Fault Refusal :=
  issueAccess (.atomAdd w p b a d sm) (atomBody (.atomAdd w p b a d sm) b a) s

/-- `atom.min` (R284 to R287, Table 11-7). -/
def execAtomMin (w : BitVec 1) (p : BitVec 2) (b : BitVec 6) (a : BitVec 6) (d : BitVec 6) (sm : BitVec 1) (s : State) : Host.Outcome State Fault Refusal :=
  issueAccess (.atomMin w p b a d sm) (atomBody (.atomMin w p b a d sm) b a) s

/-- `atom.max` (R284 to R287, Table 11-7). -/
def execAtomMax (w : BitVec 1) (p : BitVec 2) (b : BitVec 6) (a : BitVec 6) (d : BitVec 6) (sm : BitVec 1) (s : State) : Host.Outcome State Fault Refusal :=
  issueAccess (.atomMax w p b a d sm) (atomBody (.atomMax w p b a d sm) b a) s

/-- `atom.minu` (R284 to R287, Table 11-7). -/
def execAtomMinu (w : BitVec 1) (p : BitVec 2) (b : BitVec 6) (a : BitVec 6) (d : BitVec 6) (sm : BitVec 1) (s : State) : Host.Outcome State Fault Refusal :=
  issueAccess (.atomMinu w p b a d sm) (atomBody (.atomMinu w p b a d sm) b a) s

/-- `atom.maxu` (R284 to R287, Table 11-7). -/
def execAtomMaxu (w : BitVec 1) (p : BitVec 2) (b : BitVec 6) (a : BitVec 6) (d : BitVec 6) (sm : BitVec 1) (s : State) : Host.Outcome State Fault Refusal :=
  issueAccess (.atomMaxu w p b a d sm) (atomBody (.atomMaxu w p b a d sm) b a) s

/-- `atom.and` (R284 to R287, Table 11-7). -/
def execAtomAnd (w : BitVec 1) (p : BitVec 2) (b : BitVec 6) (a : BitVec 6) (d : BitVec 6) (sm : BitVec 1) (s : State) : Host.Outcome State Fault Refusal :=
  issueAccess (.atomAnd w p b a d sm) (atomBody (.atomAnd w p b a d sm) b a) s

/-- `atom.or` (R284 to R287, Table 11-7). -/
def execAtomOr (w : BitVec 1) (p : BitVec 2) (b : BitVec 6) (a : BitVec 6) (d : BitVec 6) (sm : BitVec 1) (s : State) : Host.Outcome State Fault Refusal :=
  issueAccess (.atomOr w p b a d sm) (atomBody (.atomOr w p b a d sm) b a) s

/-- `atom.xor` (R284 to R287, Table 11-7). -/
def execAtomXor (w : BitVec 1) (p : BitVec 2) (b : BitVec 6) (a : BitVec 6) (d : BitVec 6) (sm : BitVec 1) (s : State) : Host.Outcome State Fault Refusal :=
  issueAccess (.atomXor w p b a d sm) (atomBody (.atomXor w p b a d sm) b a) s

/-- `atom.exch` (R284 to R287, Table 11-7). -/
def execAtomExch (w : BitVec 1) (p : BitVec 2) (b : BitVec 6) (a : BitVec 6) (d : BitVec 6) (sm : BitVec 1) (s : State) : Host.Outcome State Fault Refusal :=
  issueAccess (.atomExch w p b a d sm) (atomBody (.atomExch w p b a d sm) b a) s

/-- `atom.cas` (R284 to R287, Table 11-7). -/
def execAtomCas (w : BitVec 1) (p : BitVec 2) (b : BitVec 6) (a : BitVec 6) (d : BitVec 6) (sm : BitVec 1) (s : State) : Host.Outcome State Fault Refusal :=
  issueAccess (.atomCas w p b a d sm) (atomBody (.atomCas w p b a d sm) b a) s

/-- `atom.fadd` (R284 to R287, Table 11-7). -/
def execAtomFadd (w : BitVec 1) (p : BitVec 2) (b : BitVec 6) (a : BitVec 6) (d : BitVec 6) (sm : BitVec 1) (s : State) : Host.Outcome State Fault Refusal :=
  issueAccess (.atomFadd w p b a d sm) (atomBody (.atomFadd w p b a d sm) b a) s

/-- `atom.fadd.ra` (R284 to R287, Table 11-7). -/
def execAtomFaddRa (w : BitVec 1) (p : BitVec 2) (b : BitVec 6) (a : BitVec 6) (d : BitVec 6) (sm : BitVec 1) (s : State) : Host.Outcome State Fault Refusal :=
  issueAccess (.atomFaddRa w p b a d sm) (atomBody (.atomFaddRa w p b a d sm) b a) s

/-- `atom.fmin` (R284 to R287, Table 11-7). -/
def execAtomFmin (w : BitVec 1) (p : BitVec 2) (b : BitVec 6) (a : BitVec 6) (d : BitVec 6) (sm : BitVec 1) (s : State) : Host.Outcome State Fault Refusal :=
  issueAccess (.atomFmin w p b a d sm) (atomBody (.atomFmin w p b a d sm) b a) s

/-- `atom.fmax` (R284 to R287, Table 11-7). -/
def execAtomFmax (w : BitVec 1) (p : BitVec 2) (b : BitVec 6) (a : BitVec 6) (d : BitVec 6) (sm : BitVec 1) (s : State) : Host.Outcome State Fault Refusal :=
  issueAccess (.atomFmax w p b a d sm) (atomBody (.atomFmax w p b a d sm) b a) s

/-- `stf` (R288). -/
def execStf (w : BitVec 1) (b : BitVec 6) (a : BitVec 6) (d : BitVec 6) (sm : BitVec 1) (s : State) : Host.Outcome State Fault Refusal :=
  issueAccess (.stf w b a d sm) (stfBody (.stf w b a d sm) w b a d) s

end Sys2Proof.Machine
end

