-- ==== Sys2Proof/Machine/FpArith.lean ====
section
/-! DEFINITION. Compares, predicate operations and floating-point arithmetic (R226 to R228, R261 to R266). -/

namespace Sys2Proof.Machine
open Sys2Proof

/-- A word result with flags, written at issue (R217). -/
def fpFixed (d : Nat) (r : Nat × Word) (th : Thread) : Thread := orFlags (setG th d (BitVec.ofNat 32 r.1)) r.2
/-- A word result with flags on its way. -/
def wordResult (d : Nat) (r : Nat × Word) : Result := { regs := [(d, BitVec.ofNat 32 r.1)], preds := [], flags := r.2 }
/-- A pair result with flags on its way. -/
def pairResult (d : Nat) (r : Nat × Word) : Result :=
  { regs := [(d, BitVec.ofNat 32 r.1), (d + 1, BitVec.ofNat 32 (r.1 / 2 ^ 32))], preds := [], flags := r.2 }
/-- Two 16-bit results packed in a word, the flags of both halves ORed (R265). -/
def halves (f : Nat → Nat × Word) : Nat × Word :=
  let l := f 0
  let h := f 1
  (l.1 + h.1 * 2 ^ 16, l.2 ||| h.2)
/-- Half h of a word. -/
def halfOf (w : Word) (h : Nat) : Nat := w.toNat / 2 ^ (16 * h) % 2 ^ 16

/-- `icmp.cc` (R228). -/
def execIcmp (g : BitVec 4) (b : BitVec 6) (a : BitVec 6) (c : BitVec 3) (q : BitVec 3) (sm : BitVec 1) (s : State) : Host.Outcome State Fault Refusal :=
  issueEach (.icmp g b a c q sm) (fixedBody (.icmp g b a c q sm) fun th => setQ th q.toNat (condHolds c (cmpSigned (getG th a.toNat) (getG th b.toNat)))) s

/-- `ucmp.cc` (R228). -/
def execUcmp (g : BitVec 4) (b : BitVec 6) (a : BitVec 6) (c : BitVec 3) (q : BitVec 3) (sm : BitVec 1) (s : State) : Host.Outcome State Fault Refusal :=
  issueEach (.ucmp g b a c q sm) (fixedBody (.ucmp g b a c q sm) fun th => setQ th q.toNat (condHolds c (cmpUnsigned (getG th a.toNat) (getG th b.toNat)))) s

/-- `fcmp.cc.f32` (R228). -/
def execFcmpF32 (g : BitVec 4) (b : BitVec 6) (a : BitVec 6) (c : BitVec 3) (q : BitVec 3) (sm : BitVec 1) (s : State) : Host.Outcome State Fault Refusal :=
  issueEach (.fcmpF32 g b a c q sm) (fixedBody (.fcmpF32 g b a c q sm) fun th => let r := fCmp fp32 c (getG th a.toNat).toNat (getG th b.toNat).toNat
    orFlags (setQ th q.toNat r.1) r.2) s

/-- `fcmp.cc.f64`: the predicate is a variable-latency result (R228). -/
def execFcmpF64 (g : BitVec 4) (b : BitVec 6) (a : BitVec 6) (c : BitVec 3) (q : BitVec 3) (sm : BitVec 1) (s : State) : Host.Outcome State Fault Refusal :=
  issueEach (.fcmpF64 g b a c q sm) (variableBody (.fcmpF64 g b a c q sm) fun th => let r := fCmp fp64 c (getX th a.toNat).toNat (getX th b.toNat).toNat
    { regs := [], preds := [(q.toNat, r.1)], flags := r.2 }) s

/-- `pand` (R228). -/
def execPand (g : BitVec 4) (b : BitVec 3) (a : BitVec 3) (q : BitVec 3) (sm : BitVec 1) (s : State) : Host.Outcome State Fault Refusal :=
  issueEach (.pand g b a q sm) (fixedBody (.pand g b a q sm) fun th => setQ th q.toNat (getQ th a.toNat && getQ th b.toNat)) s

/-- `por` (R228). -/
def execPor (g : BitVec 4) (b : BitVec 3) (a : BitVec 3) (q : BitVec 3) (sm : BitVec 1) (s : State) : Host.Outcome State Fault Refusal :=
  issueEach (.por g b a q sm) (fixedBody (.por g b a q sm) fun th => setQ th q.toNat (getQ th a.toNat || getQ th b.toNat)) s

/-- `pxor` (R228). -/
def execPxor (g : BitVec 4) (b : BitVec 3) (a : BitVec 3) (q : BitVec 3) (sm : BitVec 1) (s : State) : Host.Outcome State Fault Refusal :=
  issueEach (.pxor g b a q sm) (fixedBody (.pxor g b a q sm) fun th => setQ th q.toNat (getQ th a.toNat != getQ th b.toNat)) s

/-- `pandn` (R228). -/
def execPandn (g : BitVec 4) (b : BitVec 3) (a : BitVec 3) (q : BitVec 3) (sm : BitVec 1) (s : State) : Host.Outcome State Fault Refusal :=
  issueEach (.pandn g b a q sm) (fixedBody (.pandn g b a q sm) fun th => setQ th q.toNat (getQ th a.toNat && !getQ th b.toNat)) s

/-- `pnot` (R228). -/
def execPnot (g : BitVec 4) (a : BitVec 3) (q : BitVec 3) (sm : BitVec 1) (s : State) : Host.Outcome State Fault Refusal :=
  issueEach (.pnot g a q sm) (fixedBody (.pnot g a q sm) fun th => setQ th q.toNat (!getQ th a.toNat)) s

/-- `pmov` (R228). -/
def execPmov (g : BitVec 4) (a : BitVec 3) (q : BitVec 3) (sm : BitVec 1) (s : State) : Host.Outcome State Fault Refusal :=
  issueEach (.pmov g a q sm) (fixedBody (.pmov g a q sm) fun th => setQ th q.toNat (getQ th a.toNat)) s

/-- `pget` (R228). -/
def execPget (g : BitVec 4) (d : BitVec 6) (sm : BitVec 1) (s : State) : Host.Outcome State Fault Refusal :=
  issueEach (.pget g d sm) (fixedBody (.pget g d sm) fun th => setG th d.toNat (predWord th)) s

/-- `pset` (R228). -/
def execPset (g : BitVec 4) (a : BitVec 6) (sm : BitVec 1) (s : State) : Host.Outcome State Fault Refusal :=
  issueEach (.pset g a sm) (fixedBody (.pset g a sm) fun th => predSet th (getG th a.toNat)) s

/-- `fadd.f32` of Form H (R256). -/
def execFaddF32FormH (b : BitVec 5) (d : BitVec 5) (sm : BitVec 1) (s : State) : Host.Outcome State Fault Refusal :=
  issueEach (.faddF32FormH b d sm) (fixedBody (.faddF32FormH b d sm) fun th => fpFixed d.toNat (fAdd fp32 false (getG th d.toNat).toNat (getG th b.toNat).toNat) th) s

/-- `fsub.f32` of Form H (R256). -/
def execFsubF32FormH (b : BitVec 5) (d : BitVec 5) (sm : BitVec 1) (s : State) : Host.Outcome State Fault Refusal :=
  issueEach (.fsubF32FormH b d sm) (fixedBody (.fsubF32FormH b d sm) fun th => fpFixed d.toNat (fSub fp32 false (getG th d.toNat).toNat (getG th b.toNat).toNat) th) s

/-- `fmul.f32` of Form H (R256). -/
def execFmulF32FormH (b : BitVec 5) (d : BitVec 5) (sm : BitVec 1) (s : State) : Host.Outcome State Fault Refusal :=
  issueEach (.fmulF32FormH b d sm) (fixedBody (.fmulF32FormH b d sm) fun th => fpFixed d.toNat (fMul fp32 false (getG th d.toNat).toNat (getG th b.toNat).toNat) th) s

/-- `fmax.f32` of Form H (R256). -/
def execFmaxF32FormH (b : BitVec 5) (d : BitVec 5) (sm : BitVec 1) (s : State) : Host.Outcome State Fault Refusal :=
  issueEach (.fmaxF32FormH b d sm) (fixedBody (.fmaxF32FormH b d sm) fun th => fpFixed d.toNat (fMax fp32 (getG th d.toNat).toNat (getG th b.toNat).toNat) th) s

/-- `fmin.f32` of Form H (R256). -/
def execFminF32FormH (b : BitVec 5) (d : BitVec 5) (sm : BitVec 1) (s : State) : Host.Outcome State Fault Refusal :=
  issueEach (.fminF32FormH b d sm) (fixedBody (.fminF32FormH b d sm) fun th => fpFixed d.toNat (fMin fp32 (getG th d.toNat).toNat (getG th b.toNat).toNat) th) s

/-- `fadd.f32` (R262, Table 10-6). -/
def execFaddF32 (g : BitVec 4) (b : BitVec 6) (a : BitVec 6) (d : BitVec 6) (sm : BitVec 1) (s : State) : Host.Outcome State Fault Refusal :=
  issueEach (.faddF32 g b a d sm) (fixedBody (.faddF32 g b a d sm) fun th => fpFixed d.toNat (fAdd fp32 false (getG th a.toNat).toNat (getG th b.toNat).toNat) th) s

/-- `fsub.f32` (R262, Table 10-6). -/
def execFsubF32 (g : BitVec 4) (b : BitVec 6) (a : BitVec 6) (d : BitVec 6) (sm : BitVec 1) (s : State) : Host.Outcome State Fault Refusal :=
  issueEach (.fsubF32 g b a d sm) (fixedBody (.fsubF32 g b a d sm) fun th => fpFixed d.toNat (fSub fp32 false (getG th a.toNat).toNat (getG th b.toNat).toNat) th) s

/-- `fmul.f32` (R262, Table 10-6). -/
def execFmulF32 (g : BitVec 4) (b : BitVec 6) (a : BitVec 6) (d : BitVec 6) (sm : BitVec 1) (s : State) : Host.Outcome State Fault Refusal :=
  issueEach (.fmulF32 g b a d sm) (fixedBody (.fmulF32 g b a d sm) fun th => fpFixed d.toNat (fMul fp32 false (getG th a.toNat).toNat (getG th b.toNat).toNat) th) s

/-- `fmin.f32` (R262, Table 10-6). -/
def execFminF32 (g : BitVec 4) (b : BitVec 6) (a : BitVec 6) (d : BitVec 6) (sm : BitVec 1) (s : State) : Host.Outcome State Fault Refusal :=
  issueEach (.fminF32 g b a d sm) (fixedBody (.fminF32 g b a d sm) fun th => fpFixed d.toNat (fMin fp32 (getG th a.toNat).toNat (getG th b.toNat).toNat) th) s

/-- `fmax.f32` (R262, Table 10-6). -/
def execFmaxF32 (g : BitVec 4) (b : BitVec 6) (a : BitVec 6) (d : BitVec 6) (sm : BitVec 1) (s : State) : Host.Outcome State Fault Refusal :=
  issueEach (.fmaxF32 g b a d sm) (fixedBody (.fmaxF32 g b a d sm) fun th => fpFixed d.toNat (fMax fp32 (getG th a.toNat).toNat (getG th b.toNat).toNat) th) s

/-- `fadd.rz.f32` (R262, Table 10-6). -/
def execFaddRzF32 (g : BitVec 4) (b : BitVec 6) (a : BitVec 6) (d : BitVec 6) (sm : BitVec 1) (s : State) : Host.Outcome State Fault Refusal :=
  issueEach (.faddRzF32 g b a d sm) (fixedBody (.faddRzF32 g b a d sm) fun th => fpFixed d.toNat (fAdd fp32 true (getG th a.toNat).toNat (getG th b.toNat).toNat) th) s

/-- `fmul.rz.f32` (R262, Table 10-6). -/
def execFmulRzF32 (g : BitVec 4) (b : BitVec 6) (a : BitVec 6) (d : BitVec 6) (sm : BitVec 1) (s : State) : Host.Outcome State Fault Refusal :=
  issueEach (.fmulRzF32 g b a d sm) (fixedBody (.fmulRzF32 g b a d sm) fun th => fpFixed d.toNat (fMul fp32 true (getG th a.toNat).toNat (getG th b.toNat).toNat) th) s

/-- `fsgnj.f32` (R262, Table 10-6). -/
def execFsgnjF32 (g : BitVec 4) (b : BitVec 6) (a : BitVec 6) (d : BitVec 6) (sm : BitVec 1) (s : State) : Host.Outcome State Fault Refusal :=
  issueEach (.fsgnjF32 g b a d sm) (fixedBody (.fsgnjF32 g b a d sm) fun th => fpFixed d.toNat ((fSgnj fp32 (getG th a.toNat).toNat (getG th b.toNat).toNat, 0)) th) s

/-- `fadd.f64` (R262, Table 10-6). -/
def execFaddF64 (g : BitVec 4) (b : BitVec 6) (a : BitVec 6) (d : BitVec 6) (sm : BitVec 1) (s : State) : Host.Outcome State Fault Refusal :=
  issueEach (.faddF64 g b a d sm) (variableBody (.faddF64 g b a d sm) fun th => pairResult d.toNat (fAdd fp64 false (getX th a.toNat).toNat (getX th b.toNat).toNat)) s

/-- `fsub.f64` (R262, Table 10-6). -/
def execFsubF64 (g : BitVec 4) (b : BitVec 6) (a : BitVec 6) (d : BitVec 6) (sm : BitVec 1) (s : State) : Host.Outcome State Fault Refusal :=
  issueEach (.fsubF64 g b a d sm) (variableBody (.fsubF64 g b a d sm) fun th => pairResult d.toNat (fSub fp64 false (getX th a.toNat).toNat (getX th b.toNat).toNat)) s

/-- `fmul.f64` (R262, Table 10-6). -/
def execFmulF64 (g : BitVec 4) (b : BitVec 6) (a : BitVec 6) (d : BitVec 6) (sm : BitVec 1) (s : State) : Host.Outcome State Fault Refusal :=
  issueEach (.fmulF64 g b a d sm) (variableBody (.fmulF64 g b a d sm) fun th => pairResult d.toNat (fMul fp64 false (getX th a.toNat).toNat (getX th b.toNat).toNat)) s

/-- `fmin.f64` (R262, Table 10-6). -/
def execFminF64 (g : BitVec 4) (b : BitVec 6) (a : BitVec 6) (d : BitVec 6) (sm : BitVec 1) (s : State) : Host.Outcome State Fault Refusal :=
  issueEach (.fminF64 g b a d sm) (variableBody (.fminF64 g b a d sm) fun th => pairResult d.toNat (fMin fp64 (getX th a.toNat).toNat (getX th b.toNat).toNat)) s

/-- `fmax.f64` (R262, Table 10-6). -/
def execFmaxF64 (g : BitVec 4) (b : BitVec 6) (a : BitVec 6) (d : BitVec 6) (sm : BitVec 1) (s : State) : Host.Outcome State Fault Refusal :=
  issueEach (.fmaxF64 g b a d sm) (variableBody (.fmaxF64 g b a d sm) fun th => pairResult d.toNat (fMax fp64 (getX th a.toNat).toNat (getX th b.toNat).toNat)) s

/-- `fadd.rz.f64` (R262, Table 10-6). -/
def execFaddRzF64 (g : BitVec 4) (b : BitVec 6) (a : BitVec 6) (d : BitVec 6) (sm : BitVec 1) (s : State) : Host.Outcome State Fault Refusal :=
  issueEach (.faddRzF64 g b a d sm) (variableBody (.faddRzF64 g b a d sm) fun th => pairResult d.toNat (fAdd fp64 true (getX th a.toNat).toNat (getX th b.toNat).toNat)) s

/-- `fmul.rz.f64` (R262, Table 10-6). -/
def execFmulRzF64 (g : BitVec 4) (b : BitVec 6) (a : BitVec 6) (d : BitVec 6) (sm : BitVec 1) (s : State) : Host.Outcome State Fault Refusal :=
  issueEach (.fmulRzF64 g b a d sm) (variableBody (.fmulRzF64 g b a d sm) fun th => pairResult d.toNat (fMul fp64 true (getX th a.toNat).toNat (getX th b.toNat).toNat)) s

/-- `fsgnj.f64` (R262, Table 10-6). -/
def execFsgnjF64 (g : BitVec 4) (b : BitVec 6) (a : BitVec 6) (d : BitVec 6) (sm : BitVec 1) (s : State) : Host.Outcome State Fault Refusal :=
  issueEach (.fsgnjF64 g b a d sm) (variableBody (.fsgnjF64 g b a d sm) fun th => pairResult d.toNat ((fSgnj fp64 (getX th a.toNat).toNat (getX th b.toNat).toNat, 0))) s

/-- `fadd.f16x2` (R265, Table 10-7). -/
def execFaddF16x2 (g : BitVec 4) (b : BitVec 6) (a : BitVec 6) (d : BitVec 6) (sm : BitVec 1) (s : State) : Host.Outcome State Fault Refusal :=
  issueEach (.faddF16x2 g b a d sm) (variableBody (.faddF16x2 g b a d sm) fun th => wordResult d.toNat (halves fun h => fAdd fp16 false (halfOf (getG th a.toNat) h) (halfOf (getG th b.toNat) h))) s

/-- `fmul.f16x2` (R265, Table 10-7). -/
def execFmulF16x2 (g : BitVec 4) (b : BitVec 6) (a : BitVec 6) (d : BitVec 6) (sm : BitVec 1) (s : State) : Host.Outcome State Fault Refusal :=
  issueEach (.fmulF16x2 g b a d sm) (variableBody (.fmulF16x2 g b a d sm) fun th => wordResult d.toNat (halves fun h => fMul fp16 false (halfOf (getG th a.toNat) h) (halfOf (getG th b.toNat) h))) s

/-- `ffma.f16x2` (R265, Table 10-7). -/
def execFfmaF16x2 (g : BitVec 4) (b : BitVec 6) (a : BitVec 6) (d : BitVec 6) (sm : BitVec 1) (s : State) : Host.Outcome State Fault Refusal :=
  issueEach (.ffmaF16x2 g b a d sm) (variableBody (.ffmaF16x2 g b a d sm) fun th => wordResult d.toNat (halves fun h => fFma fp16 (halfOf (getG th a.toNat) h) (halfOf (getG th b.toNat) h) (halfOf (getG th d.toNat) h))) s

/-- `fmax.f16x2` (R265, Table 10-7). -/
def execFmaxF16x2 (g : BitVec 4) (b : BitVec 6) (a : BitVec 6) (d : BitVec 6) (sm : BitVec 1) (s : State) : Host.Outcome State Fault Refusal :=
  issueEach (.fmaxF16x2 g b a d sm) (variableBody (.fmaxF16x2 g b a d sm) fun th => wordResult d.toNat (halves fun h => fMax fp16 (halfOf (getG th a.toNat) h) (halfOf (getG th b.toNat) h))) s

/-- `fadd.bf16x2` (R265, Table 10-7). -/
def execFaddBf16x2 (g : BitVec 4) (b : BitVec 6) (a : BitVec 6) (d : BitVec 6) (sm : BitVec 1) (s : State) : Host.Outcome State Fault Refusal :=
  issueEach (.faddBf16x2 g b a d sm) (variableBody (.faddBf16x2 g b a d sm) fun th => wordResult d.toNat (halves fun h => fAdd bf16 false (halfOf (getG th a.toNat) h) (halfOf (getG th b.toNat) h))) s

/-- `fmul.bf16x2` (R265, Table 10-7). -/
def execFmulBf16x2 (g : BitVec 4) (b : BitVec 6) (a : BitVec 6) (d : BitVec 6) (sm : BitVec 1) (s : State) : Host.Outcome State Fault Refusal :=
  issueEach (.fmulBf16x2 g b a d sm) (variableBody (.fmulBf16x2 g b a d sm) fun th => wordResult d.toNat (halves fun h => fMul bf16 false (halfOf (getG th a.toNat) h) (halfOf (getG th b.toNat) h))) s

/-- `ffma.bf16x2` (R265, Table 10-7). -/
def execFfmaBf16x2 (g : BitVec 4) (b : BitVec 6) (a : BitVec 6) (d : BitVec 6) (sm : BitVec 1) (s : State) : Host.Outcome State Fault Refusal :=
  issueEach (.ffmaBf16x2 g b a d sm) (variableBody (.ffmaBf16x2 g b a d sm) fun th => wordResult d.toNat (halves fun h => fFma bf16 (halfOf (getG th a.toNat) h) (halfOf (getG th b.toNat) h) (halfOf (getG th d.toNat) h))) s

/-- `fmax.bf16x2` (R265, Table 10-7). -/
def execFmaxBf16x2 (g : BitVec 4) (b : BitVec 6) (a : BitVec 6) (d : BitVec 6) (sm : BitVec 1) (s : State) : Host.Outcome State Fault Refusal :=
  issueEach (.fmaxBf16x2 g b a d sm) (variableBody (.fmaxBf16x2 g b a d sm) fun th => wordResult d.toNat (halves fun h => fMax bf16 (halfOf (getG th a.toNat) h) (halfOf (getG th b.toNat) h))) s

/-- `ffma.f32` (R266). -/
def execFfmaF32 (c : BitVec 6) (b : BitVec 6) (a : BitVec 6) (d : BitVec 6) (sm : BitVec 1) (s : State) : Host.Outcome State Fault Refusal :=
  issueEach (.ffmaF32 c b a d sm) (fixedBody (.ffmaF32 c b a d sm) fun th => fpFixed d.toNat (fFma fp32 (getG th a.toNat).toNat (getG th b.toNat).toNat (getG th c.toNat).toNat) th) s

/-- `ffma.f64` (R266). -/
def execFfmaF64 (c : BitVec 6) (b : BitVec 6) (a : BitVec 6) (d : BitVec 6) (sm : BitVec 1) (s : State) : Host.Outcome State Fault Refusal :=
  issueEach (.ffmaF64 c b a d sm) (variableBody (.ffmaF64 c b a d sm) fun th => pairResult d.toNat (fFma fp64 (getX th a.toNat).toNat (getX th b.toNat).toNat (getX th c.toNat).toNat)) s

end Sys2Proof.Machine
end

