-- ==== Sys2Proof/Machine/CrossLane.lean ====
section
/-! DEFINITION. The cross-lane instructions (R177 to R181, R272, R273). -/

namespace Sys2Proof.Machine
open Sys2Proof

/-- A cross-lane instruction on a mask: the thread gathers, and once the whole mask stands at its PC the group runs
(R178, R179, R181). -/
def gatherBody (m : Nat) (run : State → Nat → State) (s : State) (t : Nat) : State :=
  let th := s.thread t
  if th.stage = 1 then run s t
  else if (mapGetD (s.trainOf t).masks m 0).getLsbD th.tidx then testGather (park s t (.gather m)) th.train m
  else raise s t 1 0

/-- The gathered group of a thread in the bundle that issues, in ascending train index. -/
def groupOf (s0 : State) (t : Nat) : List Nat :=
  s0.bundle.filter fun u => (s0.thread u).train = (s0.thread t).train && (s0.thread u).stage = 1
/-- A gathered group's members read their sources in the state `s0` in which they issue, and each receives its result
(R272). -/
def crossRun (i : Instr) (s0 : State) (f : List Thread → Thread → Result) (s : State) (t : Nat) : State :=
  s.modThread t fun th => past i (putResult th (f ((groupOf s0 t).map s0.thread) (s0.thread t)))

/-- The value of the member with a train index, or the thread's own where no member has it (R273). -/
def laneValue (g : List Thread) (own : Thread) (i a : Nat) : Word :=
  match g.find? fun u => u.tidx = i with
  | some u => getG u a
  | none => getG own a
/-- The integer reductions (Table 10-15). -/
def redInt (o : BitVec 3) (a b : Word) : Word :=
  match o.toNat with
  | 0 => a + b
  | 1 => minWord a b
  | 2 => maxWord a b
  | 3 => minuWord a b
  | 4 => maxuWord a b
  | 5 => a &&& b
  | 6 => a ||| b
  | _ => a ^^^ b
/-- One node of a floating-point reduction: the value, and the flags of both subtrees and of the node (R273). -/
def redNode (f : Fmt) (o : BitVec 2) (a b : Nat × Word) : Nat × Word :=
  let r := match o.toNat with
    | 0 => fAdd f false a.1 b.1
    | 1 => fMin f a.1 b.1
    | _ => fMax f a.1 b.1
  (r.1, a.2 ||| b.2 ||| r.2)
/-- The result of a reduction over one member, which `fmin` of the value with itself gives: a NaN becomes the canonical one, and a
signalling one sets NV (R211, R261). -/
def redLone (f : Fmt) (v : Nat) : Nat × Word := fMin f v v
/-- A floating-point reduction by the fixed tree of R29. -/
def redTree (f : Fmt) (o : BitVec 2) (l : List Nat) : Nat × Word :=
  match l with
  | [v] => redLone f v
  | _ => treeFold (redNode f o) (0, 0) 64 (l.map fun v => (v, 0))
/-- One word on its way, without flags. -/
def plainResult (d : Nat) (v : Word) : Result := { regs := [(d, v)], preds := [], flags := 0 }
/-- A pair on its way, without flags. -/
def plainPair (d : Nat) (v : DWord) : Result :=
  { regs := [(d, v.setWidth 32), (d + 1, v.extractLsb' 32 32)], preds := [], flags := 0 }

/-- `lswap` (R272). -/
def execLswap (m : BitVec 4) (i : BitVec 6) (a : BitVec 6) (d : BitVec 6) (sm : BitVec 1) (s : State) : Host.Outcome State Fault Refusal :=
  issueEach (.lswap m i a d sm) (gatherBody m.toNat (crossRun (.lswap m i a d sm) s fun g own => plainResult d.toNat (laneValue g own (own.tidx ^^^ i.toNat) a.toNat))) s

/-- `shfl` (R272). -/
def execShfl (m : BitVec 4) (b : BitVec 6) (a : BitVec 6) (d : BitVec 6) (sm : BitVec 1) (s : State) : Host.Outcome State Fault Refusal :=
  issueEach (.shfl m b a d sm) (gatherBody m.toNat (crossRun (.shfl m b a d sm) s fun g own => plainResult d.toNat (laneValue g own (getG own b.toNat).toNat a.toNat))) s

/-- `bcast` (R272). -/
def execBcast (m : BitVec 4) (i : BitVec 6) (a : BitVec 6) (d : BitVec 6) (sm : BitVec 1) (s : State) : Host.Outcome State Fault Refusal :=
  issueEach (.bcast m i a d sm) (gatherBody m.toNat (crossRun (.bcast m i a d sm) s fun g own => plainResult d.toNat (laneValue g own i.toNat a.toNat))) s

/-- `ballot` (R272). -/
def execBallot (m : BitVec 4) (a : BitVec 3) (d : BitVec 6) (sm : BitVec 1) (s : State) : Host.Outcome State Fault Refusal :=
  issueEach (.ballot m a d sm) (gatherBody m.toNat (crossRun (.ballot m a d sm) s fun g _ =>
    plainPair d.toNat ((g.filter fun u => getQ u a.toNat).foldl (fun (x : DWord) u => x ||| (1#64 <<< u.tidx)) 0))) s

/-- `red.op` (R272, R273). -/
def execRedOp (m : BitVec 4) (o : BitVec 3) (a : BitVec 6) (d : BitVec 6) (sm : BitVec 1) (s : State) : Host.Outcome State Fault Refusal :=
  issueEach (.redOp m o a d sm) (gatherBody m.toNat (crossRun (.redOp m o a d sm) s fun g _ =>
    plainResult d.toNat (match g.map fun u => getG u a.toNat with
      | [] => 0
      | v :: vs => vs.foldl (redInt o) v))) s

/-- `red.fop.f32` (R272, R273). -/
def execRedFopF32 (m : BitVec 4) (o : BitVec 2) (a : BitVec 6) (d : BitVec 6) (sm : BitVec 1) (s : State) : Host.Outcome State Fault Refusal :=
  issueEach (.redFopF32 m o a d sm) (gatherBody m.toNat (crossRun (.redFopF32 m o a d sm) s fun g _ =>
    wordResult d.toNat (redTree fp32 o (g.map fun u => (getG u a.toNat).toNat)))) s

/-- `scan.add` (R272). -/
def execScanAdd (m : BitVec 4) (a : BitVec 6) (d : BitVec 6) (sm : BitVec 1) (s : State) : Host.Outcome State Fault Refusal :=
  issueEach (.scanAdd m a d sm) (gatherBody m.toNat (crossRun (.scanAdd m a d sm) s fun g own =>
    plainResult d.toNat ((g.filter fun u => u.tidx ≤ own.tidx).foldl (fun (x : Word) u => x + getG u a.toNat) 0))) s

/-- `red.fop.f64` (R272, R273). -/
def execRedFopF64 (m : BitVec 4) (o : BitVec 2) (a : BitVec 6) (d : BitVec 6) (sm : BitVec 1) (s : State) : Host.Outcome State Fault Refusal :=
  issueEach (.redFopF64 m o a d sm) (gatherBody m.toNat (crossRun (.redFopF64 m o a d sm) s fun g _ =>
    pairResult d.toNat (redTree fp64 o (g.map fun u => (getX u a.toNat).toNat)))) s

end Sys2Proof.Machine
end

