-- ==== Sys2Proof/Machine/Control.lean ====
section
/-! DEFINITION. Branches, jumps, masks, the horizon instructions and `exit` (R229 to R245). -/

namespace Sys2Proof.Machine
open Sys2Proof

/-- A branch target: a signed displacement in halfwords from the PC (R229, R245). -/
def relPc {w : Nat} (th : Thread) (x : BitVec w) : Addr := th.pc + (x.signExtend 48 <<< 1)

/-- The landing check of a target, where the launch asks for it: the state after the fetch and, if the jump is not made, a
trap's cause, or none where the core stalls (R231). -/
def landCheck (s : State) (t : Nat) (target : DWord) : State × Option (Option Nat) :=
  match s.launch? (s.launchOf t) with
  | some l =>
    if l.header.getLsbD 0 then
      let r := fetch32 s (s.coreOf t) (s.trainOf t).quarter (s.ctxOf t) (s.launchOf t) target.toNat t
      match r.2 with
      | .ok b => if wordOfBytes b &&& 0xFFFFFFFD = 0x08000041 then (r.1, none) else (r.1, some (some 10))
      | .stall => (r.1, some none)
      | .fault c _ => (r.1, some (some c))
    else (s, none)
  | none => (s, none)

/-- An indirect jump to the pair at `a` (R231): the checks of the target, the landing check where `land`, the link, the new PC. -/
def jumpBody (a : Nat) (land : Bool) (link : Thread → Thread) (s : State) (t : Nat) : State :=
  let target := getX (s.thread t) a
  if target.extractLsb' 48 16 ≠ 0 then raise s t 6 target
  else if target.getLsbD 0 then raise s t 4 target
  else
    let r := if land then landCheck s t target else (s, none)
    match r.2 with
    | none => r.1.modThread t fun th => goTo (link th) (target.setWidth 48)
    | some (some c) => raise r.1 t c target
    | some none => r.1

/-- The oldest trap that a helper charged to a thread delivered, once its own older operations have resolved and its results have
arrived, with the resume PC at its instruction (R185, R330, R369). -/
def deliverCharged (s : State) (t : Nat) (r : Record) : State :=
  if unresolved (s.thread t) ≠ 0 then park s t .ownHorizon
  else if outstanding (s.thread t) then park s t .results
  else (takeTrap s t (r.withRpc (s.thread t).pc) fun th => dropCharged th r).1

/-- The helpers of a thread waited for, and what they charged delivered: the rest runs once neither is left (R234, R327). -/
def afterHelpers (rest : State → Nat → State) (s : State) (t : Nat) : State :=
  match (s.thread t).bank with
  | none => rest s t
  | some b =>
    if !b.live.isEmpty then park s t .helpers
    else match b.charged with
      | r :: _ => deliverCharged s t r
      | [] => rest s t

/-- The thread leaves every mask of its train and the issue table (step 4 of R234). -/
def endThread (s : State) (t : Nat) : State :=
  let th := s.thread t
  let s := s.modTrain th.train fun x => { x with masks := mapEach (fun _ (m : DWord) => m &&& ~~~(1#64 <<< th.tidx)) x.masks }
  let s := s.modThread t fun th => { goTo th th.pc with exited := true, bank := none, next := 0, endIter := 0, returns := [], armed := false }
  testGathers s th.train

/-- Steps 2 to 4 of `exit` (R234). -/
def exitSteps : State → Nat → State := afterHelpers fun s t =>
  let s := s.modThread t fun th => { th with bank := none }
  let r := boundaryStep s t 3
  if r.2 then endThread r.1 t else r.1
/-- `exit` (R234): in handler mode it delivers a held cause, or ends that mode; it then takes its steps, the first of which is the wait of
a marked instruction. -/
def exitBody (s : State) (t : Nat) : State :=
  let th := s.thread t
  if th.hm ∧ th.tpend ≠ 0 then markedBody deliverHeld s t
  else markedBody exitSteps (if th.hm then s.modThread t endHandler else s) t

/-- `br` (R229). -/
def execBr (x : BitVec 21) (v : BitVec 1) (q : BitVec 3) (sm : BitVec 1) (s : State) : Host.Outcome State Fault Refusal :=
  issueEach (.br x v q sm) (fun s t => s.modThread t fun th =>
    if q = 0 ∨ getQ th q.toNat != (v == 1) then goTo th (relPc th x) else past (.br x v q sm) th) s

/-- `call` (R229). -/
def execCall (x : BitVec 21) (sm : BitVec 1) (s : State) : Host.Outcome State Fault Refusal :=
  issueEach (.call x sm) (fun s t => s.modThread t fun th => goTo (setX th 0 ((th.pc + 4).setWidth 64)) (relPc th x)) s

/-- `exit` (R234). -/
def execExit (sm : BitVec 1) (s : State) : Host.Outcome State Fault Refusal :=
  issueEach (.exit sm) exitBody s

/-- `jr` (R231). -/
def execJr (a : BitVec 6) (sm : BitVec 1) (s : State) : Host.Outcome State Fault Refusal :=
  issueEach (.jr a sm) (jumpBody a.toNat true id) s

/-- `jalr` (R231). -/
def execJalr (a : BitVec 6) (d : BitVec 6) (sm : BitVec 1) (s : State) : Host.Outcome State Fault Refusal :=
  issueEach (.jalr a d sm) (jumpBody a.toNat true fun th => setX th d.toNat ((th.pc + 4).setWidth 64)) s

/-- `ret` (R231). -/
def execRet (a : BitVec 6) (sm : BitVec 1) (s : State) : Host.Outcome State Fault Refusal :=
  issueEach (.ret a sm) (jumpBody a.toNat false id) s

/-- `land` (R233). -/
def execLand (sm : BitVec 1) (s : State) : Host.Outcome State Fault Refusal :=
  issueEach (.land sm) (fixedBody (.land sm) id) s

/-- `join` (R236). -/
def execJoin (d : BitVec 6) (sm : BitVec 1) (s : State) : Host.Outcome State Fault Refusal :=
  issueEach (.join d sm) (fun s t => advance (.join d sm) (modMask s (s.thread t).train d.toNat fun m => m ||| (1#64 <<< (s.thread t).tidx)) t) s

/-- `leave` (R236). -/
def execLeave (d : BitVec 6) (sm : BitVec 1) (s : State) : Host.Outcome State Fault Refusal :=
  issueEach (.leave d sm) (fun s t =>
    let s := advance (.leave d sm) (modMask s (s.thread t).train d.toNat fun m => m &&& ~~~(1#64 <<< (s.thread t).tidx)) t
    testGather s (s.thread t).train d.toNat) s

/-- `waitm` (R237). -/
def execWaitm (d : BitVec 6) (sm : BitVec 1) (s : State) : Host.Outcome State Fault Refusal :=
  issueEach (.waitm d sm) (gatherBody d.toNat fun s t => advance (.waitm d sm) s t) s

/-- `mrd` (R237). -/
def execMrd (a : BitVec 6) (d : BitVec 6) (sm : BitVec 1) (s : State) : Host.Outcome State Fault Refusal :=
  issueEach (.mrd a d sm) (fun s t => s.modThread t fun th => past (.mrd a d sm) (setX th d.toNat (mapGetD (s.train th.train).masks a.toNat 0))) s

/-- `hzrd` (R243). -/
def execHzrd (d : BitVec 6) (sm : BitVec 1) (s : State) : Host.Outcome State Fault Refusal :=
  issueEach (.hzrd d sm) (variableBody (.hzrd d sm) fun th => plainResult d.toNat (th.seq ++ th.hz)) s

/-- `hzwait` (R244). Each thread waits on its own window (R171). `hzwait 16` parks a recruiter whose operations and those of its helpers, which
R329 counts together, are more than 16: R244 says that it never parks, of the 16 that one window can hold. (DEDUCED, log entry 76.) -/
def execHzwait (a : BitVec 6) (sm : BitVec 1) (s : State) : Host.Outcome State Fault Refusal :=
  issueEach (.hzwait a sm) (fun s t => if unresolvedAll s t ≤ a.toNat then advance (.hzwait a sm) s t else park s t (.horizon a.toNat)) s

/-- `hzbr` (R245). -/
def execHzbr (x : BitVec 18) (sm : BitVec 1) (s : State) : Host.Outcome State Fault Refusal :=
  issueEach (.hzbr x sm) (fun s t => if horizonClear s t then s.modThread t fun th => goTo th (relPc th x) else advance (.hzbr x sm) s t) s

/-- `hzbrn` (R245). -/
def execHzbrn (x : BitVec 18) (sm : BitVec 1) (s : State) : Host.Outcome State Fault Refusal :=
  issueEach (.hzbrn x sm) (fun s t => if horizonClear s t then advance (.hzbrn x sm) s t else s.modThread t fun th => goTo th (relPc th x)) s

end Sys2Proof.Machine
end

