-- ==== Sys2Proof/Machine/Convert.lean ====
section
/-! DEFINITION. Conversions, D8 and the functions of MAJ 0x0D (R267 to R271). -/

namespace Sys2Proof.Machine
open Sys2Proof

/-- Byte y of a word. -/
def byteOf (w : Word) (y : Nat) : Byte := w.extractLsb' (8 * y) 8
/-- Byte y of a word replaced (R267). -/
def putByte (w : Word) (y : Nat) (b : Byte) : Word := (w &&& ~~~(0xFF#32 <<< (8 * y))) ||| (b.setWidth 32 <<< (8 * y))
/-- An integer result of a conversion. -/
def intResult (d : Nat) (r : Word × Word) : Result := { regs := [(d, r.1)], preds := [], flags := r.2 }

/-- `cvt.f32.f64` (R267, R268, Table 10-9). -/
def execCvtF32F64 (a : BitVec 6) (d : BitVec 6) (sm : BitVec 1) (s : State) : Host.Outcome State Fault Refusal :=
  issueEach (.cvtF32F64 a d sm) (variableBody (.cvtF32F64 a d sm) fun th => wordResult d.toNat (fCvt fp64 fp32 false (getX th a.toNat).toNat)) s

/-- `cvt.rz.f32.f64` (R267, R268, Table 10-9). -/
def execCvtRzF32F64 (a : BitVec 6) (d : BitVec 6) (sm : BitVec 1) (s : State) : Host.Outcome State Fault Refusal :=
  issueEach (.cvtRzF32F64 a d sm) (variableBody (.cvtRzF32F64 a d sm) fun th => wordResult d.toNat (fCvt fp64 fp32 true (getX th a.toNat).toNat)) s

/-- `cvt.f64.f32` (R267, R268, Table 10-9). -/
def execCvtF64F32 (a : BitVec 6) (d : BitVec 6) (sm : BitVec 1) (s : State) : Host.Outcome State Fault Refusal :=
  issueEach (.cvtF64F32 a d sm) (variableBody (.cvtF64F32 a d sm) fun th => pairResult d.toNat (fCvt fp32 fp64 false (getG th a.toNat).toNat)) s

/-- `cvt.f32.s32` (R267, R268, Table 10-9). -/
def execCvtF32S32 (a : BitVec 6) (d : BitVec 6) (sm : BitVec 1) (s : State) : Host.Outcome State Fault Refusal :=
  issueEach (.cvtF32S32 a d sm) (variableBody (.cvtF32S32 a d sm) fun th => wordResult d.toNat (packFV fp32 false (fvOfInt (getG th a.toNat).toInt))) s

/-- `cvt.f32.uns32` (R267, R268, Table 10-9). -/
def execCvtF32Uns32 (a : BitVec 6) (d : BitVec 6) (sm : BitVec 1) (s : State) : Host.Outcome State Fault Refusal :=
  issueEach (.cvtF32Uns32 a d sm) (variableBody (.cvtF32Uns32 a d sm) fun th => wordResult d.toNat (packFV fp32 false (fvOfInt (getG th a.toNat).toNat))) s

/-- `cvt.s32.f32` (R267, R268, Table 10-9). -/
def execCvtS32F32 (a : BitVec 6) (d : BitVec 6) (sm : BitVec 1) (s : State) : Host.Outcome State Fault Refusal :=
  issueEach (.cvtS32F32 a d sm) (variableBody (.cvtS32F32 a d sm) fun th => intResult d.toNat (fToInt fp32 32 false (getG th a.toNat).toNat)) s

/-- `cvt.rz.s32.f32` (R267, R268, Table 10-9). -/
def execCvtRzS32F32 (a : BitVec 6) (d : BitVec 6) (sm : BitVec 1) (s : State) : Host.Outcome State Fault Refusal :=
  issueEach (.cvtRzS32F32 a d sm) (variableBody (.cvtRzS32F32 a d sm) fun th => intResult d.toNat (fToInt fp32 32 true (getG th a.toNat).toNat)) s

/-- `cvt.f64.s32` (R267, R268, Table 10-9). -/
def execCvtF64S32 (a : BitVec 6) (d : BitVec 6) (sm : BitVec 1) (s : State) : Host.Outcome State Fault Refusal :=
  issueEach (.cvtF64S32 a d sm) (variableBody (.cvtF64S32 a d sm) fun th => pairResult d.toNat (packFV fp64 false (fvOfInt (getG th a.toNat).toInt))) s

/-- `cvt.s32.f64` (R267, R268, Table 10-9). -/
def execCvtS32F64 (a : BitVec 6) (d : BitVec 6) (sm : BitVec 1) (s : State) : Host.Outcome State Fault Refusal :=
  issueEach (.cvtS32F64 a d sm) (variableBody (.cvtS32F64 a d sm) fun th => intResult d.toNat (fToInt fp64 32 false (getX th a.toNat).toNat)) s

/-- `cvt.rz.s32.f64` (R267, R268, Table 10-9). -/
def execCvtRzS32F64 (a : BitVec 6) (d : BitVec 6) (sm : BitVec 1) (s : State) : Host.Outcome State Fault Refusal :=
  issueEach (.cvtRzS32F64 a d sm) (variableBody (.cvtRzS32F64 a d sm) fun th => intResult d.toNat (fToInt fp64 32 true (getX th a.toNat).toNat)) s

/-- `cvt.f16x2.f32` (R267, R268, Table 10-9). -/
def execCvtF16x2F32 (b : BitVec 6) (a : BitVec 6) (d : BitVec 6) (sm : BitVec 1) (s : State) : Host.Outcome State Fault Refusal :=
  issueEach (.cvtF16x2F32 b a d sm) (variableBody (.cvtF16x2F32 b a d sm) fun th => wordResult d.toNat (halves fun h => fCvt fp32 fp16 false (if h = 0 then (getG th a.toNat).toNat else (getG th b.toNat).toNat))) s

/-- `cvt.bf16x2.f32` (R267, R268, Table 10-9). -/
def execCvtBf16x2F32 (b : BitVec 6) (a : BitVec 6) (d : BitVec 6) (sm : BitVec 1) (s : State) : Host.Outcome State Fault Refusal :=
  issueEach (.cvtBf16x2F32 b a d sm) (variableBody (.cvtBf16x2F32 b a d sm) fun th => wordResult d.toNat (halves fun h => fCvt fp32 bf16 false (if h = 0 then (getG th a.toNat).toNat else (getG th b.toNat).toNat))) s

/-- `cvt.rz.bf16x2.f32` (R267, R268, Table 10-9). -/
def execCvtRzBf16x2F32 (b : BitVec 6) (a : BitVec 6) (d : BitVec 6) (sm : BitVec 1) (s : State) : Host.Outcome State Fault Refusal :=
  issueEach (.cvtRzBf16x2F32 b a d sm) (variableBody (.cvtRzBf16x2F32 b a d sm) fun th => wordResult d.toNat (halves fun h => fCvt fp32 bf16 true (if h = 0 then (getG th a.toNat).toNat else (getG th b.toNat).toNat))) s

/-- `cvt.f32.f16` (R267, R268, Table 10-9). -/
def execCvtF32F16 (h : BitVec 1) (a : BitVec 6) (d : BitVec 6) (sm : BitVec 1) (s : State) : Host.Outcome State Fault Refusal :=
  issueEach (.cvtF32F16 h a d sm) (variableBody (.cvtF32F16 h a d sm) fun th => wordResult d.toNat (fCvt fp16 fp32 false (halfOf (getG th a.toNat) h.toNat))) s

/-- `cvt.f32.bf16` (R267, R268, Table 10-9). -/
def execCvtF32Bf16 (h : BitVec 1) (a : BitVec 6) (d : BitVec 6) (sm : BitVec 1) (s : State) : Host.Outcome State Fault Refusal :=
  issueEach (.cvtF32Bf16 h a d sm) (variableBody (.cvtF32Bf16 h a d sm) fun th => wordResult d.toNat (fCvt bf16 fp32 false (halfOf (getG th a.toNat) h.toNat))) s

/-- `d8.pack` (R267, R268, Table 10-9). -/
def execD8Pack (y : BitVec 2) (a : BitVec 6) (d : BitVec 6) (sm : BitVec 1) (s : State) : Host.Outcome State Fault Refusal :=
  issueEach (.d8Pack y a d sm) (variableBody (.d8Pack y a d sm) fun th => let r := d8Encode (unpackFV fp32 (getG th a.toNat).toNat)
    { regs := [(d.toNat, putByte (getG th d.toNat) y.toNat r.1)], preds := [], flags := r.2 }) s

/-- `d8.unpack` (R267, R268, Table 10-9). -/
def execD8Unpack (y : BitVec 2) (a : BitVec 6) (d : BitVec 6) (sm : BitVec 1) (s : State) : Host.Outcome State Fault Refusal :=
  issueEach (.d8Unpack y a d sm) (variableBody (.d8Unpack y a d sm) fun th => wordResult d.toNat (packFV fp32 false (d8Value (byteOf (getG th a.toNat) y.toNat)))) s

/-- `cvt.s8.f32` (R267, R268, Table 10-9). -/
def execCvtS8F32 (y : BitVec 2) (a : BitVec 6) (d : BitVec 6) (sm : BitVec 1) (s : State) : Host.Outcome State Fault Refusal :=
  issueEach (.cvtS8F32 y a d sm) (variableBody (.cvtS8F32 y a d sm) fun th => let r := fToInt fp32 8 false (getG th a.toNat).toNat
    { regs := [(d.toNat, putByte (getG th d.toNat) y.toNat r.1)], preds := [], flags := r.2 }) s

/-- `cvt.f32.s8` (R267, R268, Table 10-9). -/
def execCvtF32S8 (y : BitVec 2) (a : BitVec 6) (d : BitVec 6) (sm : BitVec 1) (s : State) : Host.Outcome State Fault Refusal :=
  issueEach (.cvtF32S8 y a d sm) (variableBody (.cvtF32S8 y a d sm) fun th => wordResult d.toNat (packFV fp32 false (fvOfInt (byteOf (getG th a.toNat) y.toNat).toInt))) s

/-- `fsint` (R269 to R271, Table 10-12). -/
def execFsint (a : BitVec 6) (d : BitVec 6) (sm : BitVec 1) (s : State) : Host.Outcome State Fault Refusal :=
  issueEach (.fsint a d sm) (variableBody (.fsint a d sm) fun th => wordResult d.toNat (fSint (getG th a.toNat).toNat)) s

/-- `fcost` (R269 to R271, Table 10-12). -/
def execFcost (a : BitVec 6) (d : BitVec 6) (sm : BitVec 1) (s : State) : Host.Outcome State Fault Refusal :=
  issueEach (.fcost a d sm) (variableBody (.fcost a d sm) fun th => wordResult d.toNat (fCost (getG th a.toNat).toNat)) s

/-- `fexp2` (R269 to R271, Table 10-12). -/
def execFexp2 (a : BitVec 6) (d : BitVec 6) (sm : BitVec 1) (s : State) : Host.Outcome State Fault Refusal :=
  issueEach (.fexp2 a d sm) (variableBody (.fexp2 a d sm) fun th => wordResult d.toNat (fExp2 (getG th a.toNat).toNat)) s

/-- `flog2` (R269 to R271, Table 10-12). -/
def execFlog2 (a : BitVec 6) (d : BitVec 6) (sm : BitVec 1) (s : State) : Host.Outcome State Fault Refusal :=
  issueEach (.flog2 a d sm) (variableBody (.flog2 a d sm) fun th => wordResult d.toNat (fLog2 (getG th a.toNat).toNat)) s

/-- `frcp` (R269 to R271, Table 10-12). -/
def execFrcp (a : BitVec 6) (d : BitVec 6) (sm : BitVec 1) (s : State) : Host.Outcome State Fault Refusal :=
  issueEach (.frcp a d sm) (variableBody (.frcp a d sm) fun th => wordResult d.toNat (fRcp fp32 (getG th a.toNat).toNat)) s

/-- `frsq` (R269 to R271, Table 10-12). -/
def execFrsq (a : BitVec 6) (d : BitVec 6) (sm : BitVec 1) (s : State) : Host.Outcome State Fault Refusal :=
  issueEach (.frsq a d sm) (variableBody (.frsq a d sm) fun th => wordResult d.toNat (fRsq fp32 (getG th a.toNat).toNat)) s

/-- `fsqrt` (R269 to R271, Table 10-12). -/
def execFsqrt (a : BitVec 6) (d : BitVec 6) (sm : BitVec 1) (s : State) : Host.Outcome State Fault Refusal :=
  issueEach (.fsqrt a d sm) (variableBody (.fsqrt a d sm) fun th => wordResult d.toNat (fSqrt fp32 (getG th a.toNat).toNat)) s

/-- `fdiv` (R269 to R271, Table 10-12). -/
def execFdiv (b : BitVec 6) (a : BitVec 6) (d : BitVec 6) (sm : BitVec 1) (s : State) : Host.Outcome State Fault Refusal :=
  issueEach (.fdiv b a d sm) (variableBody (.fdiv b a d sm) fun th => wordResult d.toNat (fDiv fp32 (getG th a.toNat).toNat (getG th b.toNat).toNat)) s

/-- `frcp.f64` (R269, R271, Table 10-12). -/
def execFrcpF64 (a : BitVec 6) (d : BitVec 6) (sm : BitVec 1) (s : State) : Host.Outcome State Fault Refusal :=
  issueEach (.frcpF64 a d sm) (variableBody (.frcpF64 a d sm) fun th => pairResult d.toNat (fRcp fp64 (getX th a.toNat).toNat)) s

/-- `fsqrt.f64` (R269, R271, Table 10-12). -/
def execFsqrtF64 (a : BitVec 6) (d : BitVec 6) (sm : BitVec 1) (s : State) : Host.Outcome State Fault Refusal :=
  issueEach (.fsqrtF64 a d sm) (variableBody (.fsqrtF64 a d sm) fun th => pairResult d.toNat (fSqrt fp64 (getX th a.toNat).toNat)) s

/-- `fdiv.f64` (R269, R271, Table 10-12). -/
def execFdivF64 (b : BitVec 6) (a : BitVec 6) (d : BitVec 6) (sm : BitVec 1) (s : State) : Host.Outcome State Fault Refusal :=
  issueEach (.fdivF64 b a d sm) (variableBody (.fdivF64 b a d sm) fun th => pairResult d.toNat (fDiv fp64 (getX th a.toNat).toNat (getX th b.toNat).toNat)) s

end Sys2Proof.Machine
end

