-- ==== Sys2Proof/Machine/Escapement.lean ====
section
/-! DEFINITION. The Escapement (R333 to R339). -/

namespace Sys2Proof.Machine
open Sys2Proof

/-- Whether a stream is allotted to the launch of a thread (ESCS, Table 14-1). -/
def escAllotted (s : State) (t n : Nat) : Bool :=
  match s.launch? (s.launchOf t) with
  | some l => l.header.getLsbD (232 + n)
  | none => false
/-- The stream that an Escapement operation names. -/
def escStream : Instr → Option Nat
  | .escOpen d _ => some d.toNat
  | .escIn _ _ _ i _ => some i.toNat
  | .escEnd d _ => some d.toNat
  | _ => none
/-- The number of bodies of a push; none for the other operations. -/
def escBodies : Instr → Option Nat
  | .escIn _ _ k _ _ => some k.toNat
  | _ => none
/-- The distinct body ids of captured body registers (R335). -/
def bodyIds (l : List Word) : List Nat :=
  l.foldl (fun b w => if b.contains (w.toNat % 2 ^ 24) then b else b ++ [w.toNat % 2 ^ 24]) []
/-- A stream of a die put in place; where it is Drained its parked `esc.next` receive -1 (R336, R337, Table 13-4). -/
def streamMoves (s : State) (k n : Nat) (x : Stream) : State :=
  if x.st = .drained then
    x.parked.foldl (fun s t => s.modThread t fun th => { th with stage := 3 }) (streamPut s k n { x with parked := [] })
  else streamPut s k n x
/-- Whether a push is one that takes the batcher trap: a wrong count, or a body register with bits [31:24] (R335). -/
def pushBad (k : Nat) (bodies : List Word) : Bool :=
  decide (k = 0) || decide (4 < k) || bodies.any fun w => decide (2 ^ 24 ≤ w.toNat)
/-- Room for a push reserved (R335). -/
def Stream.reserve (x : Stream) (k : Nat) : Stream := { x with reserved := x.reserved + 1, reservedBodies := x.reservedBodies + k }
/-- Reserved room used up or returned. -/
def Stream.unreserve (x : Stream) (k : Nat) : Stream := { x with reserved := x.reserved - 1, reservedBodies := x.reservedBodies - k }

/-- An Escapement operation begins under the next sequence number, as it is issued or replayed (R335, R336): a push reserves room,
or waits for it. -/
def startEsc (s : State) (t group : Nat) (i : Instr) (pc : Addr) (data : List Byte) : State :=
  let seq := (s.thread t).seq.toNat
  let d := s.dieOf t
  let put := fun (s : State) (p : OpPhase) => s.modThread t fun th =>
    addOp th { seq := 0, kind := 0x60, pc := pc, insn := i, addr := 0, data := data, phase := p, since := s.clk, group := group }
  match escStream i with
  | none => s
  | some n =>
    let bad := !escAllotted s t n || (match escBodies i with
      | some k => pushBad k (wordsOfBytes k (data.drop 4))
      | none => false)
    if bad then failOp (put s .unitWait) t seq 14 0
    else match escBodies i with
      | none => put s .unitWait
      | some k =>
        let x := streamGet s d n
        if x.room k then put (streamPut s d n (x.reserve k)) .unitWait else put s .roomWait

/-- `esc.open` and `esc.end` (R336). -/
def escMarkBody (i : Instr) (n group : Nat) (s : State) (t : Nat) : State :=
  if !escAllotted s t n then raise s t 14 0
  else
    let pc := (s.thread t).pc
    startEsc (advance i s t) t group i pc []
/-- `esc.in` (R335): checked, then the implicit calibre boundary of Table 4-5, then room. -/
def escInBody (i : Instr) (b a : BitVec 6) (k n group : Nat) (s : State) (t : Nat) : State :=
  let th := s.thread t
  let bodies := (upTo k).map fun j => getG th (b.toNat + j)
  if pushBad k bodies ∨ !escAllotted s t n then raise s t 14 0
  else
    let r := boundaryStep s t 2
    if !r.2 then r.1
    else if !(streamGet r.1 (s.dieOf t) n).room k then park r.1 t (.streamRoom n k)
    else startEsc (advance i r.1 t) t group i th.pc (regBytes th a.toNat 1 ++ regBytes th b.toNat k)

/-! Batches (R334). -/

/-- Whether a constraint meets none of others. -/
def meetsNone (c : Constraint) (l : List Constraint) : Bool := l.all fun x => !(c.bodies.any x.bodies.contains)
/-- A constraint joins the open batch, or waits (R334). -/
def Stream.enter (x : Stream) (c : Constraint) : Stream :=
  if meetsNone c x.openBatch && meetsNone c x.wait then { x with openBatch := x.openBatch ++ [c] } else { x with wait := x.wait ++ [c] }
/-- The first closed batch released where none is. -/
def Stream.release (x : Stream) : Stream :=
  match x.released, x.closed with
  | [], b :: r => { x with released := b, closed := r }
  | _, _ => x
/-- The open batch closed, and the next one formed from the constraints that wait, in arrival order. -/
def Stream.close (x : Stream) : Stream :=
  let y := { x with closed := x.closed ++ [x.openBatch], openBatch := [], wait := [], batches := x.batches + 1 }
  (x.wait.foldl Stream.enter y).release
/-- Batches closed while one is full, or 64 constraints wait; after `esc.end` until nothing waits. -/
def Stream.settle (x : Stream) : Nat → Stream
  | 0 => x
  | n + 1 =>
    let go := decide (64 ≤ x.openBatch.length) || decide (64 ≤ x.wait.length) || (x.st = .ended && !x.openBatch.isEmpty)
    if go then x.close.settle n else x
/-- The lowest free slot (R395). -/
def Stream.slot (x : Stream) : Nat := (firstFrom (fun n => !(x.held.any fun c => c.slot = n)) 1024 0).getD 0
/-- An Ended stream without unretired constraints is Drained (Table 13-4). -/
def Stream.drainIf (x : Stream) : Stream := if x.st = .ended ∧ x.held = [] then { x with st := .drained } else x

/-- A push, `esc.open` or `esc.end` arrives at its stream: the stream after it, or the batcher cause (R334 to R336, Table 13-4). -/
def Stream.arrive (x : Stream) (i : Instr) (data : List Byte) (lid : Nat) : Option Stream :=
  match i with
  | .escOpen _ _ =>
    if x.st = .idle ∨ x.st = .drained then
      some { x with st := .open', launch := some lid, batches := 0 }
    else none
  | .escEnd _ _ => if x.st = .open' then some (({ x with st := .ended }.settle 1026).drainIf) else none
  | .escIn _ _ k _ _ =>
    if x.st = .open' then
      some ((x.enter { slot := x.slot, handle := wordOfBytes data, bodies := bodyIds (wordsOfBytes k.toNat (data.drop 4)) }).settle 1026)
    else none
  | _ => none

/-- Whether a thread that parks now is served before one that parked in this clock too: by ascending home lane (R395), then by core and
quarter. (DESIGN CHOICE, log entry 77.) -/
def servedBefore (s : State) (t u : Nat) : Bool :=
  let key := fun (v : Nat) => ((s.thread v).lane * 128 + s.coreOf v) * 4 + (s.trainOf v).quarter
  (s.thread u).issuedAt = s.clk + 1 && decide (key t < key u)
/-- A thread parked in `esc.next` takes its place: behind those of earlier clocks, and among those of its own clock by home lane (R395). -/
def parkNext (s : State) (l : List Nat) (t : Nat) : List Nat :=
  if l.contains t then l
  else l.takeWhile (fun u => !servedBefore s t u) ++ t :: l.dropWhile fun u => !servedBefore s t u
/-- `esc.next` (R337); a thread that was parked when the stream drained has its -1 whatever the stream does after. -/
def escNextBody (i : Instr) (d : BitVec 6) (n : Nat) (s : State) (t : Nat) : State :=
  let c := s.coreOf t
  let k := s.dieOf t
  let x := streamGet s k n
  let give := fun (s : State) (v : DWord) => (readClocks s c 2).modThread t fun th => past i (putResult th (plainPair d.toNat v))
  if !escAllotted s t n then raise s t 14 0
  else if (s.thread t).stage = 3 ∨ x.st = .drained then give s (BitVec.allOnes 64)
  else if nextMay s k n t then
    match x.released.find? fun c => !c.given with
    | none => s
    | some y =>
      let x' := { x with
        released := x.released.map fun c => if c.slot = y.slot then { c with given := true } else c
        parked := x.parked.filter (· != t) }
      let s := gatePass (logEvent (streamPut s k n x') k (streamGate k n) t 2) (streamGate k n)
      give s (BitVec.ofNat 32 y.slot ++ y.handle)
  else
    let s := streamPut s k n { x with parked := parkNext s x.parked t }
    park s t (.streamNext n)

/-- `esc.done` (R338): checked first, then the implicit calibre boundary, then the retirement. -/
def escDoneBody (i : Instr) (b : BitVec 6) (n : Nat) (s : State) (t : Nat) : State :=
  let k := s.dieOf t
  let slot := (getG (s.thread t) b.toNat).toNat
  if !escAllotted s t n ∨ !((streamGet s k n).released.any fun c => c.slot = slot && c.given) then raise s t 14 0
  else
    let r := boundaryStep s t 2
    if r.2 then
      let x := streamGet r.1 k n
      let x := ({ x with released := x.released.filter fun c => c.slot != slot }.release).drainIf
      advance i (streamMoves r.1 k n x) t
    else r.1

/-- `esc.open` (R336). -/
def execEscOpen (d : BitVec 6) (sm : BitVec 1) (s : State) : Host.Outcome State Fault Refusal :=
  issueEach (.escOpen d sm) (escMarkBody (.escOpen d sm) d.toNat s.free) s.fresh

/-- `esc.in` (R335). -/
def execEscIn (b : BitVec 6) (a : BitVec 6) (k : BitVec 3) (i : BitVec 3) (sm : BitVec 1) (s : State) : Host.Outcome State Fault Refusal :=
  issueEach (.escIn b a k i sm) (escInBody (.escIn b a k i sm) b a k.toNat i.toNat s.free) s.fresh

/-- `esc.end` (R336). -/
def execEscEnd (d : BitVec 6) (sm : BitVec 1) (s : State) : Host.Outcome State Fault Refusal :=
  issueEach (.escEnd d sm) (escMarkBody (.escEnd d sm) d.toNat s.free) s.fresh

/-- `esc.next` (R337). -/
def execEscNext (a : BitVec 6) (d : BitVec 6) (sm : BitVec 1) (s : State) : Host.Outcome State Fault Refusal :=
  issueEach (.escNext a d sm) (escNextBody (.escNext a d sm) d a.toNat) s

/-- `esc.done` (R338). -/
def execEscDone (b : BitVec 6) (a : BitVec 6) (sm : BitVec 1) (s : State) : Host.Outcome State Fault Refusal :=
  issueEach (.escDone b a sm) (escDoneBody (.escDone b a sm) b a.toNat) s

end Sys2Proof.Machine
end

