-- ==== Sys2Proof/Machine/EvCoherence.lean ====
section
/-! DEFINITION. The messages between dies and the events of their links (R69, R70, R86 to R101). -/

namespace Sys2Proof.Machine
open Sys2Proof

/-- A device-level fault (R69, R101, R381): every core stops, every thread, command, queue and write-set entry is discarded, the
system services report it, and nothing but a reset follows. -/
def deviceLevelFault (s : State) : State :=
  { s with
    deviceFault := true
    threads := []
    trains := []
    launches := []
    atoms := []
    out := []
    queues := []
    barriers := []
    bundle := []
    arrivals := []
    events := []
    cores := mapEach (fun _ k => { k with mxq := [], cpq := [], taskq := [], starved := [], groups := [], misses := [], stall := none }) s.cores
    dies := mapEach (fun _ d => { d with streams := [], pool := 0, fills := [], early := [], evicting := [], rdcPending := [] }) s.dies
    links := mapEach (fun _ l => { l with fifo := [], last := none }) s.links
    outs := s.outs ++ [.faultReport] }

/-- Whether two numbers name different compute dies. -/
def diePair (src dst : Nat) : Bool := decide (src < 4) && decide (dst < 4) && decide (src ≠ dst)

/-- The oldest message of a link handled by the die it reaches, where it is of the kind named and the link carries traffic (R88, R99). -/
def recvKind (k : MsgKind) (name : String) (src dst : Nat) (s : State) : Host.Outcome State Fault Refusal :=
  let l := dieLink s src dst
  match l.fifo with
  | m :: r =>
    if m.kind = k ∧ linkHeld l = false then .next (takeMsg (dieLinkPut s src dst { l with fifo := r }) src dst m)
    else notEnabled name
  | [] => notEnabled name

/-- Directory receives a read-copy request or lease renewal (Tables 3-4 and 3-5, R90). -/
def execGets (src dst : Nat) (s : State) : Host.Outcome State Fault Refusal :=
  recvKind .getS "GETS" src dst s

/-- Directory receives an exclusive-copy request for a store (Tables 3-4 and 3-5, R90). -/
def execGetx (src dst : Nat) (s : State) : Host.Outcome State Fault Refusal :=
  recvKind .getX "GETX" src dst s

/-- Directory receives an upgrade request from an S holder (Tables 3-4 and 3-5, R90). -/
def execUpg (src dst : Nat) (s : State) : Host.Outcome State Fault Refusal :=
  recvKind .upg "UPG" src dst s

/-- RDC receives a fill from the home with a grant (Tables 3-4 and 3-5, R88). -/
def execData (src dst : Nat) (s : State) : Host.Outcome State Fault Refusal :=
  recvKind .data "DATA" src dst s

/-- Owner receives a request to supply a read copy (Tables 3-4 and 3-5, R90). -/
def execFwds (src dst : Nat) (s : State) : Host.Outcome State Fault Refusal :=
  recvKind .fwdS "FWDS" src dst s

/-- Owner receives a request to pass ownership (Tables 3-4 and 3-5, R90). -/
def execFwdx (src dst : Nat) (s : State) : Host.Outcome State Fault Refusal :=
  recvKind .fwdX "FWDX" src dst s

/-- Requester receives a forwarded fill from the owner (Tables 3-4 and 3-5, R88). -/
def execFdata (src dst : Nat) (s : State) : Host.Outcome State Fault Refusal :=
  recvKind .fData "FDATA" src dst s

/-- Home receives the close of a forward (Tables 3-4 and 3-5, R90). -/
def execFack (src dst : Nat) (s : State) : Host.Outcome State Fault Refusal :=
  recvKind .fAck "FACK" src dst s

/-- RDC receives an order to drop a clean copy (Tables 3-4 and 3-5, R89). -/
def execInv (src dst : Nat) (s : State) : Host.Outcome State Fault Refusal :=
  recvKind .inv "INV" src dst s

/-- Home receives an invalidation acknowledgement (Tables 3-4 and 3-5, R90). -/
def execIack (src dst : Nat) (s : State) : Host.Outcome State Fault Refusal :=
  recvKind .iAck "IACK" src dst s

/-- Owner receives a recall keeping a clean copy (Tables 3-4 and 3-5, R89). -/
def execRecalls (src dst : Nat) (s : State) : Host.Outcome State Fault Refusal :=
  recvKind .recallS "RECALLS" src dst s

/-- Owner receives a recall dropping the copy (Tables 3-4 and 3-5, R89). -/
def execRecalli (src dst : Nat) (s : State) : Host.Outcome State Fault Refusal :=
  recvKind .recallI "RECALLI" src dst s

/-- Home receives recalled data (Tables 3-4 and 3-5, R90). -/
def execRdata (src dst : Nat) (s : State) : Host.Outcome State Fault Refusal :=
  recvKind .rData "RDATA" src dst s

/-- Home receives a dirty eviction of an owned copy (Tables 3-4 and 3-5, R90). -/
def execWb (src dst : Nat) (s : State) : Host.Outcome State Fault Refusal :=
  recvKind .wb "WB" src dst s

/-- Home receives a clean eviction notice (Tables 3-4 and 3-5, R90). -/
def execEvict (src dst : Nat) (s : State) : Host.Outcome State Fault Refusal :=
  recvKind .evict "EVICT" src dst s

/-- RDC receives the record of its eviction and frees the buffer (Tables 3-4 and 3-5, R89). -/
def execWback (src dst : Nat) (s : State) : Host.Outcome State Fault Refusal :=
  recvKind .wbAck "WBACK" src dst s

/-- Home receives a claim for bytes of a privatised line (Tables 3-4 and 3-5, R95). -/
def execClaim (src dst : Nat) (s : State) : Host.Outcome State Fault Refusal :=
  recvKind .claim "CLAIM" src dst s

/-- Participant receives granted bytes (Tables 3-4 and 3-5, R95). -/
def execClaimok (src dst : Nat) (s : State) : Host.Outcome State Fault Refusal :=
  recvKind .claimOK "CLAIMOK" src dst s

/-- Participant receives an order to return written bytes and drop (Tables 3-4 and 3-5, R96). -/
def execMerge (src dst : Nat) (s : State) : Host.Outcome State Fault Refusal :=
  recvKind .merge "MERGE" src dst s

/-- Home receives written bytes in reply to Merge (Tables 3-4 and 3-5, R96). -/
def execMdata (src dst : Nat) (s : State) : Host.Outcome State Fault Refusal :=
  recvKind .mData "MDATA" src dst s

/-- Whether a data lane of a die link is in use: 32 lanes, in which a spare takes the place of one retired (R99). -/
def dieLaneOk (src : Nat) (d : LinkLane) : Bool := diePair src d.far && decide (d.lane < 32)
/-- A flit of a die link fails its CRC on a lane and is replayed (R99): nothing is lost, and the failures in a row of each lane are counted.
On a link with nothing under way it is a flit that had been taken before the failure was seen: its message comes once more (R89, R100).
(DESIGN CHOICE, log entry 69.) -/
def execDieLinkCrcFailure (src : Nat) (dst : LinkLane) (s : State) : Host.Outcome State Fault Refusal :=
  let l := dieLink s src dst.far
  let more := mapSet l.replays dst.lane (mapGetD l.replays dst.lane 0 + 1)
  if !dieLaneOk src dst || linkHeld l then notEnabled "DIE_LINK_CRC_FAILURE"
  else if !l.fifo.isEmpty then .next (dieLinkPut s src dst.far { l with replays := more })
  else
    match l.last with
    | some (m, _) => .next (dieLinkPut s src dst.far { l with replays := more, fifo := [{ m with again := true }] })
    | none => notEnabled "DIE_LINK_CRC_FAILURE"

/-- A lane that has failed 8 replays in a row is retired, for which its link holds its traffic: a spare takes its place and the link
retrains; with no spare left the dies cannot reach each other, which is a device-level fault (R99, R101). -/
def execDieLinkLaneFailure (src : Nat) (dst : LinkLane) (s : State) : Host.Outcome State Fault Refusal :=
  let l := dieLink s src dst.far
  if !dieLaneOk src dst || mapGetD l.replays dst.lane 0 < 8 then notEnabled "DIE_LINK_LANE_FAILURE"
  else if l.spares = 0 then .next (deviceLevelFault (dieLinkPut s src dst.far { l with lanes := l.lanes - 1 }))
  else .next (dieLinkPut s src dst.far { l with spares := l.spares - 1, retraining := true, replays := mapDel l.replays dst.lane })

/-- A die link that retrained resumes the traffic it held (R99). -/
def execDieLinkRetrainComplete (src dst : Nat) (s : State) : Host.Outcome State Fault Refusal :=
  if (dieLink s src dst).retraining then .next (dieLinkPut s src dst { dieLink s src dst with retraining := false })
  else notEnabled "DIE_LINK_RETRAIN_COMPLETE"

/-! Soft errors (R68, R69, Table 2-9). -/

/-- The lines of the device. -/
def isLine (line : Nat) : Bool := decide (line < 96 * 2 ^ 25)
/-- The 128 bytes of a line as they stand in the home's L2, or else in DRAM. -/
def lineAtHome (s : State) (line : Nat) : List Byte := (l2Get s line).data
/-- Whether a line holds entries of the table at a base, or of one that it points to: 512 entries, and 32 at level 4 (Table 1-2). -/
def inTable (s : State) (line : Nat) : Nat → Nat → Nat → Bool
  | 0, _, _ => false
  | fuel + 1, level, base =>
    let n := if level = 4 then 32 else 512
    (decide (base / 128 ≤ line) && decide (line ≤ (base + 8 * n - 1) / 128)) || (level != 4 && (upTo n).any fun i =>
      let e := dwordOfBytes (((lineAtHome s ((base + 8 * i) / 128)).drop ((base + 8 * i) % 128)).take 8)
      fld e 0 0 = 1 && (match entryCheck level e .read with
        | .next b => inTable s line fuel (level + 1) b
        | _ => false))
/-- Whether a line holds page table entries of a context (Table 2-9). -/
def tableLine (s : State) (line : Nat) : Bool :=
  s.ctxs.any fun p => fld p.2.root 0 0 = 1 && (match pointerCheck p.2.root 4096 with
    | .next b => inTable s line 4 1 b
    | _ => false)
/-- Whether a soft error names storage that exists. -/
def tierExists (s : State) : Tier → Bool
  | .registers c => decide (c < Config.numCores)
  | .accumulators c => decide (c < Config.numCores)
  | .scratchpad c => decide (c < Config.numCores)
  | .l1 c line => (mapGet? (s.core c).l1 line).isSome
  | .writeSet c line => s.threads.any fun p => s.coreOf p.1 = c && p.2.ws.any fun e => e.line = line && !e.moved
  | .icache c line => (mapGet? (s.core c).icache line).isSome
  | .l2 line => (mapGet? (s.die (homeDie line)).l2 line).isSome && !tableLine s line
  | .rdc d key => (rdcGet? s d key).isSome && !tableLine s key
  | .directory line => isLine line
  | .dram line => isLine line && !tableLine s line
  | .pageTable line => tableLine s line
/-- The die of the storage that a soft error strikes, and the row of Table 2-9 that protects it. -/
def tierRow : Tier → Nat × Nat
  | .registers c => (dieOfCore c, 0)
  | .accumulators c => (dieOfCore c, 1)
  | .scratchpad c => (dieOfCore c, 2)
  | .l1 c _ => (dieOfCore c, 3)
  | .writeSet c _ => (dieOfCore c, 3)
  | .icache c _ => (dieOfCore c, 4)
  | .l2 line => (homeDie line, 5)
  | .rdc d _ => (d, 5)
  | .directory line => (homeDie line, 5)
  | .dram line => (homeDie line, 6)
  | .pageTable line => (homeDie line, 7)
/-- Whether a copy in a remote-data cache is the only one of some of its bytes. -/
def rdcDirty (s : State) (d key : Nat) (x : RdcLine) : Bool :=
  isDirtySt x || x.dirty != 0 || (x.st = .p && mapGetD (privGet s key).write d 0 != 0)
/-- An uncorrectable error (Table 2-9): a clean line is dropped, or fetched again at once where the directory tracks it or an answer is
awaited; anything else, a line of page table entries too, is a device-level fault. A dirty line of an L1 counts with the lines of the write set. (DESIGN CHOICE, log
entry 70.) -/
def uncorrectable (s : State) : Tier → State
  | .l1 c line =>
    if match mapGet? (s.core c).l1 line with
       | some x => x.dirty
       | none => false then deviceLevelFault s
    else s.modCore c fun k => { k with l1 := mapDel k.l1 line }
  | .icache c line => s.modCore c fun k => { k with icache := mapDel k.icache line }
  | .l2 line => if (l2Get s line).dirty then deviceLevelFault s else l2Evict s (homeDie line) line
  | .rdc d key =>
    match rdcGet? s d key with
    | some x => if rdcDirty s d key x then deviceLevelFault s
        else if x.st = .untracked && !x.leaving && !x.failed then rdcDrop s d key else s
    | none => s
  | _ => deviceLevelFault s
/-- A soft error met by a read of its tier (R68, R69): a corrected one is counted on its die by its tier and changes nothing else. An
instruction cache has parity alone, so that it corrects none. -/
def softError (s : State) (e : SoftError) : State :=
  let r := tierRow e.tier
  if e.corrected && r.2 != 4 then
    s.modDie r.1 fun d => { d with corrected := mapSet d.corrected r.2 (mapGetD d.corrected r.2 0 + 1) }
  else uncorrectable s e.tier

/-- A channel reads, corrects and rewrites a line without changing its data (R70). The soft error that the step may name is one met in any
tier: whichever access reads the tier, the outcome of Table 2-9 is the same (R68, R69). (DESIGN CHOICE, log entry 70.) -/
def execPatrolScrub (visit : Patrol) (s : State) : Host.Outcome State Fault Refusal :=
  if !isLine visit.line then notEnabled "PATROL_SCRUB"
  else
    match visit.err with
    | none => .next s
    | some e => if tierExists s e.tier then .next (softError s e) else notEnabled "PATROL_SCRUB"

end Sys2Proof.Machine
end

