-- ==== Sys2Proof/Machine/Phases.lean ====
section
/-! DEFINITION. Phases, fences, barriers, range flushes and presence (R126 to R132, R290 to R295). -/

namespace Sys2Proof.Machine
open Sys2Proof

/-- A phase boundary at a scope (R126, R127, R291). -/
def phaseBody (i : Instr) (scope : Nat) (s : State) (t : Nat) : State :=
  let r := boundaryStep s t scope
  if r.2 then advance i r.1 t else r.1
/-- A fence: it waits until every older strong access of the thread is performed, remote, aperture and host ones at domain scope alone
(R128). -/
def fenceBody (i : Instr) (domain : Bool) (s : State) (t : Nat) : State :=
  if strongPerformed domain (s.thread t) then advance i s t else park s t (.fence domain)

/-- `bar.train` (R129, R292): the boundary's first steps, the gathering, and the clock read at departure. -/
def barTrainBody (i : Instr) (m : Nat) (s : State) (t : Nat) : State :=
  let th := s.thread t
  if th.stage = 1 then advance i (readClocks s (s.coreOf t) 0) t
  else if (mapGetD (s.trainOf t).masks m 0).getLsbD th.tidx then
    let r := boundaryPublish s t 0
    if r.2 then testGather (park r.1 t (.gather m)) th.train m else r.1
  else raise s t 1 0

/-- The thread capacity of a scope group (R293). -/
def barCapacity (scope : Nat) : Nat := if scope = 1 then 16384 else if scope = 2 then 393216 else 1572864
/-- An arrival at a barrier: the last one that is needed lets every thread depart (R293). -/
def arrive (i : Instr) (s : State) (t scope id count : Nat) : State :=
  let key := barrierKey (s.launchOf t) scope (scopeGroup scope (s.coreOf t)) id
  let b := mapGetD s.barriers key { need := 0, arrived := [], generation := 0 }
  let b := if b.arrived.isEmpty then { b with need := count } else b
  let arrived := b.arrived ++ [t]
  if b.need ≤ arrived.length then
    let s := { s with barriers := mapSet s.barriers key { b with arrived := [], generation := b.generation + 1 } }
    advance i (readClocks s (s.coreOf t) scope) t
  else
    let s := { s with barriers := mapSet s.barriers key { b with arrived := arrived } }
    (park s t (.barrier b.generation)).modThread t fun th => { th with stage := 3 }
/-- `bar.S` at movement, calibre or device scope (R129, R293): scopes 1, 2 and 3. -/
def barBody (i : Instr) (scope : Nat) (id : BitVec 4) (a : BitVec 6) (s : State) (t : Nat) : State :=
  let th := s.thread t
  let count := (getG th a.toNat).toNat
  if th.stage = 3 then advance i (readClocks s (s.coreOf t) scope) t
  else if count = 0 ∨ barCapacity scope < count then raise s t 1 0
  else
    let r := boundaryPublish s t scope
    if r.2 then arrive i r.1 t scope id.toNat count else r.1

/-! Range flush and range invalidate (R60, R61, R294). -/

/-- Whether enabled host windows cover a range, from an address on. -/
def windowsCover (ws : SMap (BitVec 128)) (hi : Nat) : Nat → Nat → Bool
  | 0, a => decide (hi ≤ a)
  | n + 1, a =>
    if hi ≤ a then true
    else match ws.find? fun p => fld p.2 0 0 = 1 && decide (fld p.2 63 24 * 4096 ≤ a) && decide (a < (fld p.2 103 64 + 1) * 4096) with
      | some p => windowsCover ws hi n ((fld p.2 103 64 + 1) * 4096)
      | none => false
/-- Whether a range breaks the rules of its space (R294). -/
def rangeBad (s : State) (t space : Nat) (a : DWord) (len : Nat) : Bool :=
  badLayout space a ||
    (if space = 4 then decide (2 ^ 52 < a.toNat + len) || !windowsCover (s.ctx (s.ctxOf t)).windows (a.toNat + len) 17 a.toNat
     else decide (2 ^ 48 < a.toNat % 2 ^ 48 + len))
/-- A range operation begins: it starts its walk only once every older operation has resolved (R61). -/
def startRange (s : State) (t kind space : Nat) (i : Instr) (pc : Addr) (addr : DWord) (data : List Byte) : State :=
  let seq := (s.thread t).seq.toNat
  let s := s.modThread t fun th => addOp th { seq := 0, kind := kind, pc := pc, insn := i, addr := addr, data := data }
  if rangeBad s t space addr (natOfBytes data) then failOp s t seq 6 addr else s
/-- A thread issues a range flush or invalidate. -/
def rangeBody (i : Instr) (kind space : Nat) (b a : BitVec 6) (s : State) (t : Nat) : State :=
  let th := s.thread t
  startRange (advance i s t) t kind space i th.pc (getX th a.toNat) (regBytes th b.toNat 1)

/-! Presence (R295). -/

/-- `prs.wait`: parks until every line of the range is present. -/
def prsWaitBody (i : Instr) (b a : BitVec 6) (s : State) (t : Nat) : State :=
  let th := s.thread t
  let x := getX th a.toNat
  let n := (getG th b.toNat).toNat
  if scrOutside s t x n then raise s t 7 x
  else
    match scrHold (s.core (s.coreOf t)) x.toNat (x.toNat + n) false with
    | some w => park s t w
    | none => advance i s t
/-- `prs.test`: whether the line is present. -/
def prsTestBody (i : Instr) (a : BitVec 6) (q : BitVec 3) (s : State) (t : Nat) : State :=
  let x := getX (s.thread t) a.toNat
  if scrOutside s t x 1 then raise s t 7 x
  else variableBody i (fun _ =>
    { regs := [], preds := [(q.toNat, (scrGet (s.core (s.coreOf t)) (x.toNat / 128)).present)], flags := 0 }) s t

/-- `phase.train` (R291). -/
def execPhaseTrain (sm : BitVec 1) (s : State) : Host.Outcome State Fault Refusal :=
  issueEach (.phaseTrain sm) (phaseBody (.phaseTrain sm) 0) s

/-- `phase.movement` (R291). -/
def execPhaseMovement (sm : BitVec 1) (s : State) : Host.Outcome State Fault Refusal :=
  issueEach (.phaseMovement sm) (phaseBody (.phaseMovement sm) 1) s

/-- `phase.calibre` (R291). -/
def execPhaseCalibre (sm : BitVec 1) (s : State) : Host.Outcome State Fault Refusal :=
  issueEach (.phaseCalibre sm) (phaseBody (.phaseCalibre sm) 2) s

/-- `phase.device` (R291). -/
def execPhaseDevice (sm : BitVec 1) (s : State) : Host.Outcome State Fault Refusal :=
  issueEach (.phaseDevice sm) (phaseBody (.phaseDevice sm) 3) s

/-- `phase.domain` (R291). -/
def execPhaseDomain (sm : BitVec 1) (s : State) : Host.Outcome State Fault Refusal :=
  issueEach (.phaseDomain sm) (phaseBody (.phaseDomain sm) 4) s

/-- `fence.train` (R128, R291). -/
def execFenceTrain (sm : BitVec 1) (s : State) : Host.Outcome State Fault Refusal :=
  issueEach (.fenceTrain sm) (fenceBody (.fenceTrain sm) false) s

/-- `fence.movement` (R128, R291). -/
def execFenceMovement (sm : BitVec 1) (s : State) : Host.Outcome State Fault Refusal :=
  issueEach (.fenceMovement sm) (fenceBody (.fenceMovement sm) false) s

/-- `fence.calibre` (R128, R291). -/
def execFenceCalibre (sm : BitVec 1) (s : State) : Host.Outcome State Fault Refusal :=
  issueEach (.fenceCalibre sm) (fenceBody (.fenceCalibre sm) false) s

/-- `fence.device` (R128, R291). -/
def execFenceDevice (sm : BitVec 1) (s : State) : Host.Outcome State Fault Refusal :=
  issueEach (.fenceDevice sm) (fenceBody (.fenceDevice sm) false) s

/-- `fence.domain` (R128, R291). -/
def execFenceDomain (sm : BitVec 1) (s : State) : Host.Outcome State Fault Refusal :=
  issueEach (.fenceDomain sm) (fenceBody (.fenceDomain sm) true) s

/-- `bar.train` (R292). -/
def execBarTrain (d : BitVec 6) (sm : BitVec 1) (s : State) : Host.Outcome State Fault Refusal :=
  issueEach (.barTrain d sm) (barTrainBody (.barTrain d sm) d.toNat) s

/-- `bar.movement` (R293). -/
def execBarMovement (i : BitVec 4) (a : BitVec 6) (sm : BitVec 1) (s : State) : Host.Outcome State Fault Refusal :=
  issueEach (.barMovement i a sm) (barBody (.barMovement i a sm) 1 i a) s

/-- `bar.calibre` (R293). -/
def execBarCalibre (i : BitVec 4) (a : BitVec 6) (sm : BitVec 1) (s : State) : Host.Outcome State Fault Refusal :=
  issueEach (.barCalibre i a sm) (barBody (.barCalibre i a sm) 2 i a) s

/-- `bar.device` (R293). -/
def execBarDevice (i : BitVec 4) (a : BitVec 6) (sm : BitVec 1) (s : State) : Host.Outcome State Fault Refusal :=
  issueEach (.barDevice i a sm) (barBody (.barDevice i a sm) 3 i a) s

/-- `rflush.dev` (R60 to R67, R294). -/
def execRflushDev (b : BitVec 6) (a : BitVec 6) (sm : BitVec 1) (s : State) : Host.Outcome State Fault Refusal :=
  issueEach (.rflushDev b a sm) (rangeBody (.rflushDev b a sm) 0x40 1 b a) s

/-- `rflush.rem` (R60 to R67, R294). -/
def execRflushRem (b : BitVec 6) (a : BitVec 6) (sm : BitVec 1) (s : State) : Host.Outcome State Fault Refusal :=
  issueEach (.rflushRem b a sm) (rangeBody (.rflushRem b a sm) 0x40 2 b a) s

/-- `rflush.host` (R60 to R67, R294). -/
def execRflushHost (b : BitVec 6) (a : BitVec 6) (sm : BitVec 1) (s : State) : Host.Outcome State Fault Refusal :=
  issueEach (.rflushHost b a sm) (rangeBody (.rflushHost b a sm) 0x40 4 b a) s

/-- `rinval.dev` (R60 to R67, R294). -/
def execRinvalDev (b : BitVec 6) (a : BitVec 6) (sm : BitVec 1) (s : State) : Host.Outcome State Fault Refusal :=
  issueEach (.rinvalDev b a sm) (rangeBody (.rinvalDev b a sm) 0x41 1 b a) s

/-- `rinval.rem` (R60 to R67, R294). -/
def execRinvalRem (b : BitVec 6) (a : BitVec 6) (sm : BitVec 1) (s : State) : Host.Outcome State Fault Refusal :=
  issueEach (.rinvalRem b a sm) (rangeBody (.rinvalRem b a sm) 0x41 2 b a) s

/-- `rinval.host` (R60 to R67, R294). -/
def execRinvalHost (b : BitVec 6) (a : BitVec 6) (sm : BitVec 1) (s : State) : Host.Outcome State Fault Refusal :=
  issueEach (.rinvalHost b a sm) (rangeBody (.rinvalHost b a sm) 0x41 4 b a) s

/-- `prs.wait` (R295). -/
def execPrsWait (b : BitVec 6) (a : BitVec 6) (sm : BitVec 1) (s : State) : Host.Outcome State Fault Refusal :=
  issueEach (.prsWait b a sm) (prsWaitBody (.prsWait b a sm) b a) s

/-- `prs.test` (R295). -/
def execPrsTest (a : BitVec 6) (q : BitVec 3) (sm : BitVec 1) (s : State) : Host.Outcome State Fault Refusal :=
  issueEach (.prsTest a q sm) (prsTestBody (.prsTest a q sm) a q) s

end Sys2Proof.Machine
end

