-- ==== Sys2Proof/Machine/EvThread.lean ====
section
/-! DEFINITION. The steps of threads without an encoding: results, translation, boundaries, atomics, traps (R16, R61, R71, R78, R80,
R83, R126, R172, R182, R279, R286, R330, R369, R370, R375). -/

namespace Sys2Proof.Machine
open Sys2Proof

/-! Results arriving. -/

/-- The place in a list of the k-th element that a test accepts. -/
def nthIdx {α : Type} (p : α → Bool) : List α → Nat → Nat → Option Nat
  | [], _, _ => none
  | x :: r, k, i => if p x then (if k = 0 then some i else nthIdx p r (k - 1) (i + 1)) else nthIdx p r k (i + 1)
/-- Whether a thread exists and has not ended. -/
def liveThread (s : State) (t : Nat) : Bool :=
  match mapGet? s.threads t with
  | some th => !th.exited && !th.stopped
  | none => false
/-- A result of a thread taken out and written (R182). -/
def arriveResult (s : State) (t i : Nat) (r : Result) : State :=
  let s := s.modThread t fun th => writeResult { th with results := th.results.eraseIdx i } r
  match r.batch with
  | some b =>
    let tr := (s.thread t).train
    let s := s.modTrain tr fun x => { x with committed := x.committed.map fun y => if y.number = b then { y with returned := true } else y }
    settleBatches s tr 9
  | none => s
/-- The results of the scratch loads of a bundle delivered together (R51). -/
def arriveGroup (s : State) (g : Nat) : State :=
  s.threads.foldl (fun s p =>
    match nthIdx (fun (r : Result) => r.load && r.group = g) p.2.results 0 0 with
    | none => s
    | some i =>
      match p.2.results[i]? with
      | some r => arriveResult s p.1 i r
      | none => s) s
/-- Whether a matrix command that is not accepted will be cancelled, for an older operation of its thread has failed (R241). -/
def cmdCancelled (s : State) (m : MxCmd) : Bool := (olderOps m.seq.toNat (s.thread m.thread).ops).any opFailed
/-- Whether an engine command that a result waits for is neither accepted nor failed (R307). One that is cancelled is not in the batch. -/
def resultHeld (s : State) (t : Nat) (r : Result) : Bool :=
  (s.core (s.coreOf t)).mxq.any fun m => r.after.contains m.id && !m.accepted && !cmdCancelled s m

/-! Translation. -/

/-- The operations of a core that wait on a page, by thread and number. -/
def joined? (s : State) (c ctx page : Nat) : List (Nat × Nat) :=
  (s.threads.filter fun p => s.coreOf p.1 = c && s.ctxOf p.1 = ctx).flatMap fun p =>
    (p.2.ops.filter fun o => o.phase = .walk && decide (o.addr.toNat / 2 ^ 16 = page)).map fun o => (p.1, o.seq.toNat)
/-- One waiting operation given the outcome of the walk (R16, R19). -/
def walkOne (s : State) (c ctx : Nat) (x : Nat × Nat) : State :=
  match opOf? (s.thread x.1) x.2 with
  | none => s
  | some o =>
    let r := translateNow s c (s.trainOf x.1).quarter ctx o.addr.toNat (accOf o.insn)
    match r.2 with
    | .ok pa leaf _ _ => lookedUp (translated r.1 x.1 x.2 pa leaf) x.1 x.2
    | .fail cause f => failOp r.1 x.1 x.2 cause (BitVec.ofNat 64 f)
    | .missing => stallCore r.1 c ctx (s.launchOf x.1) (o.addr.toNat / 2 ^ 16) (accOf o.insn = .write)
    | _ => r.1
/-- A miss entry removed once nothing waits on it and it has no fault under service. -/
def freeMiss (s : State) (c ctx page : Nat) : State :=
  if (joined? s c ctx page).isEmpty then
    s.modCore c fun k => { k with misses := k.misses.filter fun m => !(m.ctx = ctx && m.page = page && !m.faulted) }
  else s

/-- What an installation by the system cores writes: entries by physical address, or from 2^60 on the root pointer of a
context (R15, R424). (DESIGN CHOICE, log entry 25.) -/
def installEntries (s : State) (l : List (Nat × DWord)) : State :=
  l.foldl (fun s p =>
    if 2 ^ 60 ≤ p.1 then { s with ctxs := mapSet s.ctxs (p.1 - 2 ^ 60) { s.ctx (p.1 - 2 ^ 60) with root := p.2 } }
    else physWrite s (homeCore (p.1 / 128)) p.1 (bytesOfDWord p.2)) s
/-- A core goes on once no fault of it is under service and its overflow area has room. -/
def unstall (s : State) (c : Nat) : State :=
  s.modCore c fun k => if k.overflowFull || k.misses.any (·.faulted) then k else { k with stall := none }
/-- A declined fault of a page: the operations that met it fail, the threads whose fetch met it trap, and each other agent that met it finds
it declined when its access goes on (R16, R424). (DESIGN CHOICE, log entry 25.) -/
def declineFault (s : State) (c : Nat) (m : Miss) : State :=
  let ranges := m.met.filter fun x => decide (x.2 < 2 ^ 16) && (match opOf? (s.thread x.1) x.2 with
    | some o => o.phase = .ready
    | none => false)
  let ops := joined? s c m.ctx m.page ++ ranges
  let s := s.modCore c fun k => { k with misses := k.misses.filter fun x => !(x.ctx = m.ctx && x.page = m.page) }
  let fetch := (m.met.filter fun x => x = metFetch x.1 && runnable s x.1).map (·.1)
  let others := (m.met.filter fun x => decide (2 ^ 16 < x.2)).eraseDups
  let s := s.modCore c fun k => { k with declined := k.declined ++ others.map fun x => ((m.ctx, m.page), x) }
  let s := ops.foldl (fun s x => match opOf? (s.thread x.1) x.2 with
    | some o => failOp s x.1 x.2 5 (BitVec.ofNat 64 (max o.addr.toNat (m.page * 2 ^ 16)))
    | none => s) s
  fetch.foldl (fun s t => raise s t 5 (BitVec.ofNat 64 (max (s.thread t).pc.toNat (m.page * 2 ^ 16)))) s

/-- Weak stores of a core that wait for room in its overflow area tried again, or failed (R80). -/
def retryWeak (s : State) (c : Nat) (fail : Bool) : State :=
  s.threads.foldl (fun s p =>
    if s.coreOf p.1 = c then
      (p.2.ops.filter fun o => o.kind = 0x20 && o.phase = .ready).foldl (fun s o =>
        if fail then failOp s p.1 o.seq.toNat 5 o.addr else placeWeak s p.1 o.seq.toNat o o.pa o.cls) s
    else s) s

/-! Logical time. -/

/-- Every line of every L1 and instruction cache dropped, dirty ones written back (Table 3-1, R425). -/
def dropL1s (s : State) : State :=
  let s := s.cores.foldl (fun s p => (p.2.l1.map (·.1)).foldl (fun s l => l1Drop s p.1 l) s) s
  { s with cores := mapEach (fun _ k => { k with icache := [] }) s.cores }
/-- A message with its times at zero. -/
def msgZero (m : Msg) : Msg := { m with wts := 0, rts := 0, lt := 0 }
/-- A waiter with its times at zero. -/
def waiterZero : Waiter → Waiter
  | .msg m => .msg (msgZero m)
  | w => w
/-- What is open at a line with its time at zero. -/
def transZero : Trans → Trans
  | .invFwd d _ => .invFwd d 0
  | t => t
/-- Every timestamp and clock of the device at zero, and the L1 lines dropped (R78). Step 2 of R78 names the leased lines; Table 3-1 drops
a line in any state at a rebase, and so it is here. (DESIGN CHOICE, log entry 57.) -/
def rebased (s : State) : State :=
  let s := dropL1s s
  let rdc := fun (x : RdcLine) => { x with wts := 0, rts := 0 }
  { s with
    dpc := 0
    cores := mapEach (fun _ k => { k with lt := 0 }) s.cores
    dies := mapEach (fun _ d => { d with
      mt := 0, cpc := 0
      l2 := mapEach (fun _ x => { x with wts := 0, rts := 0 }) d.l2
      rdc := mapEach (fun _ x => rdc x) d.rdc
      fills := mapEach (fun _ x => rdc x) d.fills
      evicting := mapEach (fun _ l => l.map rdc) d.evicting
      early := mapEach (fun _ l => l.map fun x => (x.1, msgZero x.2)) d.early
      dir := mapEach (fun _ e => { e with waiting := e.waiting.map waiterZero, trans := e.trans.map transZero }) d.dir }) s.dies
    links := mapEach (fun _ l => { l with
      fifo := l.fifo.map msgZero
      last := l.last.map fun x => (msgZero x.1, msgZero x.2) }) s.links
    threads := mapEach (fun _ th => { th with bnd := th.bnd.map fun b => { b with tmax := 0 } }) s.threads }

/-! Range flush and range invalidate (R60 to R67). -/

/-- The pieces of a range of virtual addresses within pages of 64 KiB: address and length. -/
def pagePieces (a hi : Nat) : Nat → List (Nat × Nat)
  | 0 => []
  | n + 1 => if hi ≤ a then [] else
      let e := min hi ((a / 2 ^ 16 + 1) * 2 ^ 16)
      (a, e - a) :: pagePieces e hi n
/-- What the translation of the pieces of a range gives: the physical pieces, or the first outcome that is not an address. -/
def transPieces (s : State) (c : Option Nat) (ctx : Nat) (acc : Acc) : List (Nat × Nat) → List (Nat × Nat) → State × Except (Nat × TrRes) (List (Nat × Nat))
  | [], l => (s, .ok l)
  | (a, n) :: r, l =>
    let q := translateSettled s c ctx a acc
    match q.2 with
    | .ok pa _ _ _ => transPieces q.1 c ctx acc r (l ++ [(pa, n)])
    | x => (q.1, .error (a, x))
/-- The bytes of a write-set entry that lie in physical pieces. -/
def entryIn (e : WsEntry) (l : List (Nat × Nat)) : SMap Byte :=
  e.bytes.filter fun b => l.any fun r => decide (r.1 ≤ e.line * 128 + b.1) && decide (e.line * 128 + b.1 < r.1 + r.2)
/-- Bytes published by a core at the line's home, with the time. -/
def publishNow (s : State) (c line cls ctx page : Nat) (b : SMap Byte) : State × Nat :=
  if cls = 0 then (storePlain s c line ctx page b, (s.core c).lt) else storeHome (settleAll s line true) c line b
/-- Bytes of an entry published: they leave the write set, but for those a younger store has written (R62, R63). -/
def dropPublished (e : WsEntry) (b : SMap Byte) (seq : Nat) (th : Thread) : Thread :=
  { th with ws := wsRemove th.ws e.line (notYounger th seq e.line b) fun y => y.handler = e.handler }
/-- The bytes of a thread's write set in physical pieces, as a range operation finds it, published at domain scope (step 1 of
R62). -/
def publishRange (s : State) (t : Nat) (o : Op) (l : List (Nat × Nat)) : State :=
  let c := s.coreOf t
  let es := (boundaryEntries (viewOf (s.thread t) o)).filter fun e => !(entryIn e l).isEmpty
  let r := es.foldl (fun (x : State × Nat) e =>
    let b := entryIn e l
    let q := publishNow x.1 c e.line e.cls (s.ctxOf t) e.page b
    let s := q.1.modThread t fun th => changeWs th o.seq.toNat (dropPublished e b o.seq.toNat)
    (s, max x.2 q.2)) (s, (s.core c).lt)
  readClocks (writeClocks r.1 c 4 r.2) c 4
/-- The keys of a cache that a remote or host range names. -/
def rangeKeys (d : Die) (space : Nat) (a : DWord) (len : Nat) : List Nat :=
  let base := if space = 4 then hostKey a.toNat else remoteKey (remoteDev a) (remoteVa a)
  let n := if len = 0 then 0 else (a.toNat % 128 + len - 1) / 128 + 1
  ((d.rdc ++ d.fills).filter fun p => decide (base ≤ p.1) && decide (p.1 < base + n)).map (·.1)
/-- A range operation waits for the writebacks of a line that are under way, whoever sent them. -/
def joinOut (s : State) (t : Nat) (seq : BitVec 16) (d key : Nat) : State :=
  { s with out := mapEach (fun _ r => match r.kind with
      | .masked _ => if r.line = some (d, key) ∧ r.who.contains (t, seq) = false then { r with who := r.who ++ [(t, seq)] } else r
      | _ => r) s.out }
/-- One line walked: a dirty one starts its writeback, under which its bytes count as written; one whose writeback is under way is waited
for; an invalidate drops a clean one. -/
def walkLine (s : State) (t : Nat) (seq : BitVec 16) (inval : Bool) (d key : Nat) : State :=
  match rdcGet? s d key with
  | none => s
  | some x =>
    let s := joinOut s t seq d key
    if x.dirty = 0 then (if inval && !x.leaving then rdcDrop s d key else s)
    else
      sendOut (rdcPut s d key { x with dirty := 0, leaving := true, owned := false }) { writebackReq d key x with who := [(t, seq)] }
/-- Whether a request of an operation is outstanding. -/
def hasOut (s : State) (t : Nat) (seq : BitVec 16) : Bool := s.out.any fun p => p.2.who.contains (t, seq)
/-- The walk of a range operation of remote or host space started (R62). (DEDUCED, log entry 40.) -/
def walkRange (s : State) (t : Nat) (o : Op) (space : Nat) : State :=
  let len := natOfBytes o.data
  let ds := if space = 4 then upTo 4 else [s.dieOf t]
  let s := ds.foldl (fun s d => (rangeKeys (s.die d) space o.addr len).foldl (fun s k => walkLine s t o.seq (o.kind = 0x41) d k) s) s
  if hasOut s t o.seq then setPhase s t o.seq.toNat .started else pump (resolveOp s t o.seq.toNat)
/-- The space of a range operation. -/
def opRangeSpace (i : Instr) : Nat :=
  match i with
  | .rflushRem _ _ _ => 2
  | .rinvalRem _ _ _ => 2
  | .rflushHost _ _ _ => 4
  | .rinvalHost _ _ _ => 4
  | _ => 1

/-! Stores performed, boundaries, atomics. -/

/-- The unperformed strong stores of a window, by number. -/
def strongStores (th : Thread) : List Nat := (th.ops.filter fun o => o.kind = 0x21 && o.phase = .resolved && !o.performed).map (·.seq.toNat)
/-- What stands for the lanes of a line where they wait for it: the first of them. -/
def lineWaiter (l : Lanes) (x : Nat × Op) : Waiter :=
  match l.find? fun y => y.2.pa / 128 = x.2.pa / 128 with
  | some y => .op y.1 y.2.seq.toNat
  | none => .op x.1 x.2.seq.toNat
/-- Whether two operations are accesses of one bundle to one line of the device (R56). -/
def oneLine (x o : Op) : Bool := x.group != 0 && x.group = o.group && decide (x.pa / 128 = o.pa / 128)
/-- The strong stores of one bundle to the line of one of them, in ascending lane (R56). -/
def storeLanes (s : State) (t : Nat) (o : Op) : Lanes :=
  if o.group = 0 then [(t, o)]
  else lanesWhere s fun _ _ x => x.kind = 0x21 && x.phase = .resolved && !x.performed && oneLine x o
/-- A strong store tried, with the others of its bundle to its line, as one request (R56, R74, R90): performed, or its recalls sent. Of two
lanes that store a byte the higher is last. (DESIGN CHOICE, log entry 13.) -/
def tryStore (s : State) (t seq : Nat) : Option State :=
  match opOf? (s.thread t) seq with
  | none => none
  | some o =>
    let l := storeLanes s t o
    let w := lineWaiter l (t, o)
    if l.all fun x => mayPerform (s.thread x.1) x.2 then
      let r := storeStrong s (s.coreOf t) (o.pa / 128) o.cls (s.ctxOf t) (o.addr.toNat / 2 ^ 16) (l.flatMap fun x => lineBytes x.2.pa x.2.data) w
      match r.2 with
      | some _ =>
        some (pump (l.foldl (fun s x => s.modThread x.1 fun th => modOp th x.2.seq.toNat fun o => { o with performed := true }) r.1))
      | none => some r.1
    else none
/-- The k-th write-set entry of a boundary tried, or, with none left, the boundary's clock written (R83, R126). -/
def tryPublish (s : State) (t k : Nat) : Option State :=
  let th := s.thread t
  let c := s.coreOf t
  match th.bnd with
  | none => none
  | some b =>
    if b.done then none
    else
      match boundaryEntries th with
      | [] => some ((writeClocks s c b.scope b.tmax).modThread t fun th => { th with bnd := some { b with done := true } })
      | e :: r =>
        match (e :: r)[k]? with
        | none => none
        | some e =>
          let drop := fun (s : State) (time : Nat) => s.modThread t fun th =>
            { th with ws := th.ws.filter fun x => !(x.line = e.line && x.handler = e.handler), bnd := some { b with tmax := max b.tmax time } }
          -- an entry that later strong stores have emptied counts with the core's time (R83)
          if e.bytes.isEmpty then some (drop s (s.core c).lt)
          else
            let q := publish s c e.line e.cls (s.ctxOf t) e.page e.bytes (.boundary t)
            match q.2 with
            | some time => some (drop q.1 time)
            | none => some q.1

/-- The requests at the service trains, one for each bundle and line (R286). -/
def atomGroups (l : List AtomReq) : List (Nat × Nat) :=
  l.foldl (fun g r => if g.contains (r.group, r.pa / 128) then g else g ++ [(r.group, r.pa / 128)]) []
/-- Requests in ascending lane. -/
def insertLane (x : AtomReq) : List AtomReq → List AtomReq
  | [] => [x]
  | y :: r => if x.lane < y.lane then x :: y :: r else y :: insertLane x r
/-- The requests of a group that are served together: in replay only the one that the gate's head names (R410). -/
def servedLanes (s : State) (g : Nat × Nat) : List AtomReq :=
  let l := (s.atoms.filter fun r => r.group = g.1 && decide (r.pa / 128 = g.2)).foldl (fun l r => insertLane r l) []
  let gate := trainGate (homeCore g.2)
  if s.replaying && !(mapGetD s.gates gate []).isEmpty then (l.filter fun r => gateAdmits s gate r.thread 0).take 1 else l
/-- Whether every operation of a request may be performed now. -/
def atomsMay (s : State) (l : List AtomReq) : Bool :=
  l.all fun r => match opOf? (s.thread r.thread) r.seq.toNat with
    | some o => mayPerform (s.thread r.thread) o
    | none => true
/-- A request performed at the home cluster's service train (R92, R286): every held copy is recalled first. -/
def serveAtoms (s : State) (g : Nat × Nat) (l : List AtomReq) : State :=
  let line := g.2
  let r := ensureHomeWrite (settlePlain s line true) line (.atoms g.1)
  if !r.2 then r.1
  else
    let s := r.1.fresh
    let old := (l2Get s line).data
    let q := atomServe s line old l
    let c := match l with
      | x :: _ => s.coreOf x.thread
      | [] => homeCore line
    let s := (storeHome s c line (bytesUnder q.1 (atomMask l))).1
    let gate := trainGate (homeCore line)
    let s := l.foldl (fun s x => gatePass (logEvent s (homeDie line) gate x.thread 0) gate) s
    let s := q.2.foldl (fun s x =>
      let b := (bytesOfDWord x.2).take (if x.1.w64 then 8 else 4)
      (sawHandOver s (s.coreOf x.1.thread) x.1.pa b).modThread x.1.thread fun th => modOp th x.1.seq.toNat fun o =>
        { o with performed := true, value := b }) s
    { s with atoms := s.atoms.filter fun a => !l.contains a }

/-! Traps. -/

/-- The asynchronous cause that a thread waits to take, where it does: a horizon trap that comes before it holds it (R367, R370). -/
def asyncTrap (th : Thread) : Option TrapReq := th.trap.filter fun k => k.cause = 19 || (k.cause = 17 && k.pc = k.rpc)
/-- An asynchronous cause, if there is one, held behind a trap of its thread, with a trace record (R370, R401). -/
def holdAsync (s : State) (t : Nat) : Option TrapReq → State
  | some k => (traceThread s t 0x03 k.cause k.faddr).modThread t fun th =>
      { th with tpend := th.tpend ||| (1#32 <<< k.cause), heldBp := if k.cause = 17 then k.faddr else th.heldBp }
  | none => s
/-- A record written to a thread's trap area and its trap taken, what is held behind it noted first; an area that is not there is waited
for, and one that cannot be written is an overflow (R369, R372). -/
def deliverRecord (s : State) (t : Nat) (r : Record) (held : Option TrapReq) (prepare : Thread → Thread) : State :=
  let q := checkArea s t
  match q.2 with
  | .wait => q.1
  | .bad => overflow q.1 t
  | .ok => settleBatches (takeTrap (cancelUnits (holdAsync q.1 t held) t) t r prepare).1 (s.thread t).train 9
/-- A trap that a thread outside handler mode waits for delivered (R369), or left where its occasion does not hold. An asynchronous cause
behind a horizon trap is held in TPEND (R370). -/
def deliverTrap (s : State) (t : Nat) : Option State :=
  let th := s.thread t
  if !th.results.isEmpty then none
  else if horizonReady th then (horizonRecord th 0xFFFF th.pc).map fun r => deliverRecord s t r (asyncTrap th) clearWindow
  else
    match th.trap with
    | some k => if window th.ops = [] then some (deliverRecord s t (headerRecord th k 0xFFFF) none id) else none
    | none => none
/-- The first failure of a handler's own operations settled: held, with a trace record (R370, R401). -/
def settleHeld (s : State) (t : Nat) : Option State :=
  let th := s.thread t
  if !horizonReady th then none
  else
    match horizonRecord th 0xFFFF th.pc with
    | none => none
    | some r =>
      if th.recHeld || th.tpend.getLsbD r.cause then some (overflow s t)
      else
        some (settleBatches ((cancelUnits (traceThread s t 0x03 r.cause (recFaddr r.bytes)) t).modThread t fun th =>
          { clearWindow th with heldRec := some r, recHeld := true, tpend := th.tpend ||| (1#32 <<< r.cause) }) th.train 9)

/-- A helper that has failed ends: its chunk goes back, a forced release begins, its h registers and flags stay with the bank (R327),
and the trap is charged to the recruiter (R330, R370). (DEDUCED, log entry 34.) -/
def failHelper (s : State) (t o i : Nat) (r : Record) : State :=
  let th := s.thread t
  let hs := th.results.foldl writeResult th
  let s := withdraw (cancelUnits s t) t
  let s := { s with threads := mapDel s.threads t }
  let rt := s.thread o
  let s := s.modThread o fun x =>
    { x with
      returns := match th.claimed with
        | some k => x.returns ++ [k]
        | none => x.returns
      bank := x.bank.map fun b => { bankKeeps hs i b with forced := true, live := b.live.filter (· != t), charged := b.charged ++ [r] } }
  if rt.hm then
    if rt.tpend.getLsbD r.cause then overflow s o
    else (traceThread s o 0x03 r.cause (recFaddr r.bytes)).modThread o fun x => { x with tpend := x.tpend ||| (1#32 <<< r.cause) }
  else s
/-- The record of a helper's failure, once its operations have settled. -/
def helperRecord (th : Thread) (i : Nat) : Option Record :=
  if (th.ops.all fun o => o.phase != .resolved || o.performed) then
    if horizonReady th then horizonRecord th i 0
    else
      match th.trap with
      | some k => if window th.ops = [] then some (headerRecord th k i) else none
      | none => none
  else none

/-- Whether the wait of a thread counts against its watchdog (R375). -/
def watchCounts : Wait → Bool
  | .scratch _ _ _ => true
  | .gather _ => true
  | .barrier _ => true
  | .streamRoom _ _ => true
  | .streamNext _ => true
  | .ringRoom _ => true
  | .ringData _ => true
  | _ => false

/-- A thread passed over in an issue clock with a wait count of 512 or more joins its quarter's starved list at the end of that clock,
in the order of LANE and train slot (R172). -/
def execStarvedListJoin (t : Nat) (s : State) : Host.Outcome State Fault Refusal :=
  let tr := s.trainOf t
  let same := s.threads.filter fun p => starves s p.1 && (s.trainOf p.1).core = tr.core && (s.trainOf p.1).quarter = tr.quarter
  let first := same.all fun p => p.1 = t || tableBefore { s.thread t with pc := 0, w := 0 } { p.2 with pc := 0, w := 0 }
  if liveThread s t && starves s t && first then
    .next (s.modCore tr.core fun k => { k with starved := mapSet k.starved tr.quarter (mapGetD k.starved tr.quarter [] ++ [t]) })
  else notEnabled "STARVED_LIST_JOIN"

/-- Whether an operation is a device-space load that is ready to be served. -/
def loadReady (o : Op) : Bool := (o.kind = 0x10 || o.kind = 0x11) && decide (memSpace o.insn = 1) && o.phase = .ready
/-- The loads whose results arrive together with one: the hit split of its bundle, or the lanes of its missed line (R57). -/
def loadLanes (s : State) (t : Nat) (o : Op) : Lanes :=
  if o.group = 0 then [(t, o)]
  else lanesWhere s fun _ _ x => loadReady x && x.group = o.group && x.hit = o.hit && (o.hit || decide (x.pa / 128 = o.pa / 128))
/-- Loads of some lanes performed one after the other: their values, or none where one of them must wait. -/
def performLoads (l : Lanes) (s : State) : Lanes → State × Option (List (Nat × Op × List Byte))
  | [] => (s, some [])
  | x :: r =>
    let q := performLoad s x.1 x.2 (lineWaiter l x)
    match q.2 with
    | none => (q.1, none)
    | some b =>
      let z := performLoads l q.1 r
      (z.1, z.2.map fun l => (x.1, x.2, b) :: l)

/-- The data of a load returns, and with it that of the loads that arrive together with it (R57): the operation numbered `seq`, or from
2^16 on the scratch load of that place, whose bundle's results are delivered together (R51, R279). -/
def execLoadResultArrival (t seq : Nat) (s : State) : Host.Outcome State Fault Refusal :=
  if !liveThread s t then notEnabled "LOAD_RESULT_ARRIVAL"
  else if 2 ^ 16 ≤ seq then
    match nthIdx (fun (r : Result) => r.load) (s.thread t).results (seq - 2 ^ 16) 0 with
    | none => notEnabled "LOAD_RESULT_ARRIVAL"
    | some i =>
      match (s.thread t).results[i]? with
      | some r => .next (if r.group = 0 then arriveResult s t i r else arriveGroup s r.group)
      | none => notEnabled "LOAD_RESULT_ARRIVAL"
  else
    match opOf? (s.thread t) seq with
    | none => notEnabled "LOAD_RESULT_ARRIVAL"
    | some o =>
      let l := loadLanes s t o
      if loadReady o && mayPerform (s.thread t) o && !(l.any (keepsWaiting mayPerform s)) then
        let l := l.filter fun x => mayPerform (s.thread x.1) x.2
        let r := performLoads l s l
        match r.2 with
        | some l => .next (pump (l.foldl (fun s x => deliver s x.1 x.2.1.seq.toNat x.2.2) r.1))
        | none => .next r.1
      else notEnabled "LOAD_RESULT_ARRIVAL"

/-- The k-th variable-latency result of a thread that is no load arrives (R182, R307). -/
def execVariableLatencyResultArrival (t k : Nat) (s : State) : Host.Outcome State Fault Refusal :=
  match nthIdx (fun (r : Result) => !r.load) (s.thread t).results k 0 with
  | none => notEnabled "VARIABLE_LATENCY_RESULT_ARRIVAL"
  | some i =>
    match (s.thread t).results[i]? with
    | none => notEnabled "VARIABLE_LATENCY_RESULT_ARRIVAL"
    | some r =>
      if !liveThread s t || resultHeld s t r then notEnabled "VARIABLE_LATENCY_RESULT_ARRIVAL" else .next (arriveResult s t i r)

/-- A page walk ends, and every operation joined to its miss entry has its outcome (R16, R19). -/
def execTranslationWalkComplete (ctx core page : Nat) (s : State) : Host.Outcome State Fault Refusal :=
  if (s.core core).misses.any fun m => m.ctx = ctx && m.page = page && !m.faulted then
    .next (freeMiss ((joined? s core ctx page).foldl (fun s x => walkOne s core ctx x) s) core ctx page)
  else notEnabled "TRANSLATION_WALK_COMPLETE"

/-- The system cores install entries for a core's faults, or decline them (R424); core numbers from 96 on stand for a fault met at this
device by a remote request, which stalls no core. -/
def execServiceableFaultServiced (core : Nat) (install : Option (List (Nat × DWord))) (s : State) : Host.Outcome State Fault Refusal :=
  let fs := (s.core core).misses.filter (·.faulted)
  if Config.numCores ≤ core then
    match install with
    | some l => .next (installEntries s l)
    | none => notEnabled "SERVICEABLE_FAULT_SERVICED"
  else if fs.isEmpty then notEnabled "SERVICEABLE_FAULT_SERVICED"
  else
    match install with
    | some l =>
      -- the walks run again from level 1 (R424)
      let s := fs.foldl (fun s m => walksDrop s m.ctx (m.page * 2 ^ 16) (2 ^ 16)) (installEntries s l)
      .next (unstall (s.modCore core fun k => { k with misses := k.misses.map fun m => { m with faulted := false } }) core)
    | none => .next (fs.foldl (fun s m => declineFault s core m) (unstall (s.modCore core fun k =>
        { k with misses := k.misses.map fun m => { m with faulted := false } }) core))

/-- A shootdown of a virtual range of a context completes on named cores: every one of them has acknowledged it (R21, R425). -/
def execTranslationShootdown (ctx lo len : Nat) (cores : List Nat) (s : State) : Host.Outcome State Fault Refusal :=
  if shootAcks s ctx lo len cores then .next (shootdown s ctx lo len cores) else notEnabled "TRANSLATION_SHOOTDOWN"

/-- Whether an access of a thread waits for a leaf's page, which permits it and with whose classification it conflicts: a store to a
READONLY page with W = 0 starts no run (Table 1-6). -/
def conflictWaits (s : State) (ctx page : Nat) (leaf : DWord) (big : Bool) : Bool :=
  s.threads.any fun p => s.ctxOf p.1 = ctx && p.2.ops.any fun o => o.phase = .walk &&
    decide (o.addr.toNat / 2 ^ 16 / (if big then 32 else 1) = page / (if big then 32 else 1)) &&
    !(accOf o.insn = .write && fld leaf 4 4 = 0) && classConflict leaf (some (s.coreOf p.1)) (accOf o.insn)
/-- The classifier changes a PRIVATE or READONLY page to SHARED, for an access that conflicts with its classification (R22, R23). -/
def execClassifierRun (ctx page : Nat) (s : State) : Host.Outcome State Fault Refusal :=
  match (walk s ctx (page * 2 ^ 16) .read).2 with
  | .leaf e _ big =>
    if fld e 63 62 = 2 ∨ fld e 11 11 = 1 ∨ conflictWaits s ctx page e big = false then notEnabled "CLASSIFIER_RUN"
    else .next (classifierRun s ctx (page * 2 ^ 16))
  | _ => notEnabled "CLASSIFIER_RUN"

/-- A rebase of the device's timestamps (R78). -/
def execRebase  (s : State) : Host.Outcome State Fault Refusal :=
  if clockFull s then .next (rebased s) else notEnabled "REBASE"

/-- A core's logical time rises by 1 (R71). (DESIGN CHOICE, log entry 57.) -/
def execLtTick (core : Nat) (s : State) : Host.Outcome State Fault Refusal :=
  if core < Config.numCores ∧ (s.core core).ticks < s.clk / 1024 then
    .next (s.modCore core fun k => { k with lt := k.lt + 1, ticks := k.ticks + 1 })
  else notEnabled "LT_TICK"

/-- The system cores give a full write-set overflow area room for more entries, or decline (R80). (DEDUCED, log entry 8.) -/
def execOverflowAreaServiced (core : Nat) (room : Option Nat) (s : State) : Host.Outcome State Fault Refusal :=
  if !(s.core core).overflowFull then notEnabled "OVERFLOW_AREA_SERVICED"
  else
    match room with
    | some n =>
      .next (retryWeak (unstall (s.modCore core fun k =>
        { k with overflowFull := false, overflowLen := k.overflowLen + 256 * n }) core) core false)
    | none => .next (retryWeak (unstall (s.modCore core fun k => { k with overflowFull := false }) core) core true)

/-- A range flush or invalidate starts its walk once every older operation of its thread has resolved (R61 to R66). One of device space
publishes, so it starts once the older strong stores are performed as well, which keeps the stores to one byte in their order (R119).
(DEDUCED, log entry 40.) -/
def execRangeWalkStart (t seq : Nat) (s : State) : Host.Outcome State Fault Refusal :=
  match opOf? (s.thread t) seq with
  | none => notEnabled "RANGE_WALK_START"
  | some o =>
    let older := olderOps seq (s.thread t).ops
    if !(o.kind = 0x40 ∨ o.kind = 0x41) ∨ o.phase ≠ .ready ∨ !(older.all fun x => x.phase = .resolved) ∨
        (opRangeSpace o.insn = 1 ∧ !(older.all fun x => x.performed || x.kind != 0x21)) then
      notEnabled "RANGE_WALK_START"
    else
      let sp := opRangeSpace o.insn
      if sp ≠ 1 then .next (walkRange s t o sp)
      else
        let c := s.coreOf t
        let len := natOfBytes o.data
        let r := transPieces s (some c) (s.ctxOf t) .read (pagePieces o.addr.toNat (o.addr.toNat + len) 65538) []
        match r.2 with
        | .ok l =>
          if (boundaryEntries (viewOf (s.thread t) o)).any fun e => !(entryIn e l).isEmpty && lineWaits r.1 e.line true then
            notEnabled "RANGE_WALK_START"
          else .next (resolveOp (publishRange r.1 t o l) t seq)
        | .error (a, .fail cause f) => .next (failOp r.1 t seq cause (BitVec.ofNat 64 (if cause = 5 then f else a)))
        | .error (a, .missing) => .next (stallCore r.1 c (s.ctxOf t) (s.launchOf t) (a / 2 ^ 16) false [(t, seq)])
        | .error _ => notEnabled "RANGE_WALK_START"

/-- A strong store of a thread is performed, in its k-th place, or behind the stores a write-set entry of its boundary, or the
boundary's clock (R83, R126). -/
def execPerformedAcknowledgement (t k : Nat) (s : State) : Host.Outcome State Fault Refusal :=
  let l := strongStores (s.thread t)
  match (match l[k]? with
    | some seq => tryStore s t seq
    | none => tryPublish s t (k - l.length)) with
  | some s' => .next s'
  | none => notEnabled "PERFORMED_ACKNOWLEDGEMENT"

/-- The home service train performs the k-th waiting atomic request for its lanes (R92, R286). -/
def execServiceTrainAtomic (k : Nat) (s : State) : Host.Outcome State Fault Refusal :=
  match (atomGroups s.atoms)[k]? with
  | none => notEnabled "SERVICE_TRAIN_ATOMIC"
  | some g =>
    let l := servedLanes s g
    if l.isEmpty || !atomsMay s l then notEnabled "SERVICE_TRAIN_ATOMIC" else .next (serveAtoms s g l)

/-- The reply of a device-space atomic returns: the old value is written and the operation resolves (R117, R285). -/
def execAtomicReplyArrival (t seq : Nat) (s : State) : Host.Outcome State Fault Refusal :=
  match opOf? (s.thread t) seq with
  | none => notEnabled "ATOMIC_REPLY_ARRIVAL"
  | some o =>
    if o.kind = 0x30 ∧ o.phase = .sent ∧ o.value ≠ [] then .next (pump (deliver s t seq o.value))
    else notEnabled "ATOMIC_REPLY_ARRIVAL"

/-- A trap of a thread is delivered, or in handler mode its held record is settled (R369, R370). -/
def execTrapDelivery (t : Nat) (s : State) : Host.Outcome State Fault Refusal :=
  if !liveThread s t || (s.thread t).helper.isSome || (s.thread t).halted then notEnabled "TRAP_DELIVERY"
  else
    match (if (s.thread t).hm then settleHeld s t else deliverTrap s t) with
    | some s' => .next s'
    | none => notEnabled "TRAP_DELIVERY"

/-- A helper whose operation failed, or which raised a trap, ends (R330). -/
def execHelperFailure (t : Nat) (s : State) : Host.Outcome State Fault Refusal :=
  match (s.thread t).helper with
  | none => notEnabled "HELPER_FAILURE"
  | some (o, i) =>
    if (s.thread t).halted then notEnabled "HELPER_FAILURE"
    else
      match helperRecord (s.thread t) i with
      | some r => .next (failHelper s t o i r)
      | none => notEnabled "HELPER_FAILURE"

/-- A wait that counts has lasted WDOG times 1,024 clocks: the watchdog trap, at the waiting instruction (R375). Expiry at a helper begins a
forced release (R328). -/
def execWatchdogExpiry (t : Nat) (s : State) : Host.Outcome State Fault Refusal :=
  let th := s.thread t
  if liveThread s t && (s.trainOf t).evicted.isNone && watchCounts th.park && !waitDone s t && decide (th.wdog ≠ 0) && decide (th.since + th.wdog.toNat * 1024 ≤ s.clk)
      && th.trap.isNone then
    .next (match th.helper with
      | some (o, _) => forceRelease (raise s t 18 0) o
      | none => raise s t 18 0)
  else notEnabled "WATCHDOG_EXPIRY"

/-- The bundle issues an encoding that is no instruction (R188, R200). -/
def execIllegalInstruction  (s : State) : Host.Outcome State Fault Refusal :=
  if s.bundle.isEmpty then notEnabled "ILLEGAL_INSTRUCTION"
  else .next { s.bundle.foldl (fun s t => raise s t 1 0) s with bundle := [] }

end Sys2Proof.Machine
end

