-- ==== Sys2Proof/Machine/MatrixCopy.lean ====
section
/-! DEFINITION. The instructions of the matrix and copy engines (R296 to R320). -/

namespace Sys2Proof.Machine
open Sys2Proof

/-- Several threads held at one instruction, to go on together (R307, R362). (DEDUCED, log entry 58.) -/
def holdTogether (s : State) (l : List Nat) (w : Wait) : State :=
  match l with
  | [] => s
  | t :: _ =>
    let tr := s.trainOf t
    let s := l.foldl (fun s u => (park s u w).modThread u fun th => { th with stage := 1 }) s
    s.modCore tr.core fun k => { k with groups := mapSet k.groups tr.quarter (mapGetD k.groups tr.quarter [] ++ [l]) }

/-- Whether a thread may not issue to an engine: the matrix engine is kind 2, the copy engine kind 1 (R297). -/
def wrongRole (s : State) (t kind : Nat) : Bool :=
  let tr := s.trainOf t
  match s.launch? tr.launch with
  | some l => !l.noRoles && tr.task.isNone && decide (tr.kind ≠ kind)
  | none => false

/-- The captured address of an engine command or its counter with nonzero bits [63:48], or a record misaligned: the cause
(step 1 of R303, R317). -/
def engineBad (addr : DWord) : Option Nat :=
  if addr.toNat / 2 ^ 48 ≠ 0 then some 6 else if addr.toNat % 64 ≠ 0 then some 4 else none

/-- A matrix command issued under the next sequence number (R303); it belongs to the train's open batch (R307). -/
def startMx (s : State) (t : Nat) (i : Instr) (pc : Addr) (addr : DWord) : State :=
  let th := s.thread t
  let tr := s.train th.train
  let seq := th.seq
  let s := s.modThread t fun th => addOp th { seq := 0, kind := 0x51, pc := pc, insn := i, addr := addr, data := [], phase := .unitWait }
  match engineBad addr with
  | some c => failOp s t seq.toNat c addr
  | none =>
    let id := (s.core tr.core).cmdCount
    let s := s.modCore tr.core fun k =>
      { k with cmdCount := id + 1, mxq := k.mxq ++ [{ id := id, train := th.train, thread := t, seq := seq, block := addr }] }
    s.modTrain th.train fun x => { x with open' := x.open' ++ [id] }

/-- A copy command issued under the next sequence number (R316, R317): six coordinate registers and the counter address are
captured. -/
def startCp (s : State) (t : Nat) (i : Instr) (pc : Addr) (addr : DWord) (data : List Byte) : State :=
  let th := s.thread t
  let tr := s.train th.train
  let seq := th.seq
  let counter := dwordOfBytes (data.drop 24)
  let s := s.modThread t fun th => addOp th { seq := 0, kind := 0x50, pc := pc, insn := i, addr := addr, data := data, phase := .unitWait }
  match engineBad addr with
  | some c => failOp s t seq.toNat c addr
  | none =>
    if counter.toNat / 2 ^ 48 ≠ 0 then failOp s t seq.toNat 6 addr
    else
      let id := (s.core tr.core).cmdCount
      s.modCore tr.core fun k =>
        { k with
          cmdCount := id + 1
          cpq := k.cpq ++ [{ id := id, train := th.train, thread := t, seq := seq, store := (match i with
              | .cpTileSt _ _ _ _ => true
              | _ => false), record := addr, coords := wordsOfBytes 6 data, counter := counter }] }

/-- A once-per-train command (R296): the elected thread's full window holds it alone. -/
def commandRun (i : Instr) (kind : Nat) (start : State → Thread → State) (s : State) (t : Nat) (mates : List Nat) : State :=
  let s := advanceAll i s mates
  if wrongRole s t kind then raise s t 1 0
  else if windowFull (s.thread t) then park s t .window
  else start (advance i s t) (s.thread t)

/-- `mx.commit` (R307): the open batch closed, its number on its way to every executing thread. A batch whose commands are done completes
at once (R308). -/
def mxCommitRun (i : Instr) (d : BitVec 6) (s : State) (t : Nat) (mates : List Nat) : State :=
  let tr := s.trainOf t
  if wrongRole s t 2 then raise (advanceAll i s mates) t 1 0
  else if 8 ≤ batchesOpen tr then holdTogether s (t :: mates) .commit
  else
    let s := s.modTrain (s.thread t).train fun x =>
      { x with batch := x.batch + 1, open' := [], committed := x.committed ++ [{ number := x.batch, cmds := x.open' }] }
    let r : Result := { regs := [(d.toNat, tr.batch.setWidth 32)], preds := [], flags := 0, after := tr.open', batch := some tr.batch }
    let s := (t :: mates).foldl (fun s u => s.modThread u fun th => past i (putResult th r)) s
    settleBatches s (s.thread t).train 8
/-- `mx.wait` (R308). -/
def mxWaitBody (i : Instr) (n : Nat) (s : State) (t : Nat) : State :=
  if wrongRole s t 2 then raise s t 1 0
  else if batchesOpen (s.trainOf t) ≤ n then advance i s t
  else park s t (.batches n)

/-! Tiles (R298, R299, R309, R310). -/

/-- A word of an accumulator tile. -/
def tileWord (k : Core) (tile r c : Nat) : Word := mapGetD k.acc (tile * 4096 + r * 64 + c) 0
/-- A word of an accumulator tile written; a word of zeros is not listed. -/
def tilePut (k : Core) (tile r c : Nat) (v : Word) : Core :=
  { k with acc := if v = 0 then mapDel k.acc (tile * 4096 + r * 64 + c) else mapSet k.acc (tile * 4096 + r * 64 + c) v }
/-- Whether a parameter block uses two destination tiles. -/
def mxPair (pb : BitVec 512) : Bool := decide (64 < fld pb 47 40) || decide (fld pb 3 0 = 5)
/-- The destination tiles of a block. -/
def mxDest (pb : BitVec 512) : List Nat := fld pb 19 16 :: (if mxPair pb then [fld pb 19 16 + 1] else [])
/-- The accepted commands of a train whose batches are not complete: they are kept until then. -/
def mxLive (s : State) (t : Nat) : List MxCmd :=
  ((s.core (s.coreOf t)).mxq.filter fun m => m.accepted && m.train = (s.thread t).train)
/-- Whether a tile is the destination of such a command. -/
def destBusy (s : State) (t tile : Nat) : Bool := (mxLive s t).any fun m => (mxDest m.pb).contains tile
/-- Whether a tile is busy in either way (R309). -/
def tileBusy (s : State) (t tile : Nat) : Bool :=
  destBusy s t tile || (mxLive s t).any fun m => fld m.pb 7 6 = 2 && fld m.pb 23 20 = tile

/-- The checks of a tile instruction (R297, R298, R309, R310), then its effect at row and column. -/
def tileBody (tiles : List Nat) (busy : State → Nat → Nat → Bool) (idx : Thread → Word) (run : State → Nat → Nat → Nat → State)
    (s : State) (t : Nat) : State :=
  let th := s.thread t
  let x := idx th
  if wrongRole s t 2 then raise s t 1 0
  else if tiles.any fun k => decide ((s.trainOf t).acc ≤ k) then raise s t 1 0
  else if mxPending s th.train then park s t .tiles
  else if tiles.any (busy s t) then raise s t 11 0
  else if x.toNat / 4096 ≠ 0 then raise s t 16 0
  else run s t (x.toNat / 64) (x.toNat % 64)

/-- `mx.rd`. -/
def mxRdBody (i : Instr) (tile : BitVec 6) (a d : BitVec 6) : State → Nat → State :=
  tileBody [tile.toNat] destBusy (fun th => getG th a.toNat) fun s t r c =>
    let v := tileWord (s.core (s.coreOf t)) ((s.trainOf t).tile + tile.toNat) r c
    s.modThread t fun th => past i (putResult th (plainResult d.toNat v))
/-- `mx.wr`. -/
def mxWrBody (i : Instr) (b a : BitVec 6) (tile : BitVec 6) : State → Nat → State :=
  tileBody [tile.toNat] tileBusy (fun th => getG th a.toNat) fun s t r c =>
    advance i (s.modCore (s.coreOf t) fun k => tilePut k ((s.trainOf t).tile + tile.toNat) r c (getG (s.thread t) b.toNat)) t
/-- `mx.rd.64`. -/
def mxRd64Body (i : Instr) (tile : BitVec 6) (a d : BitVec 6) : State → Nat → State :=
  tileBody [tile.toNat, tile.toNat + 1] destBusy (fun th => getG th a.toNat) fun s t r c =>
    let k := s.core (s.coreOf t)
    let p := (s.trainOf t).tile + tile.toNat + c / 32
    let v := tileWord k p r (2 * (c % 32) + 1) ++ tileWord k p r (2 * (c % 32))
    s.modThread t fun th => past i (putResult th (plainPair d.toNat v))
/-- `mx.wr.64`. -/
def mxWr64Body (i : Instr) (b a : BitVec 6) (tile : BitVec 6) : State → Nat → State :=
  tileBody [tile.toNat, tile.toNat + 1] tileBusy (fun th => getG th a.toNat) fun s t r c =>
    let p := (s.trainOf t).tile + tile.toNat + c / 32
    let th := s.thread t
    advance i (s.modCore (s.coreOf t) fun k =>
      tilePut (tilePut k p r (2 * (c % 32)) (getG th b.toNat)) p r (2 * (c % 32) + 1) (getG th (b.toNat + 1))) t
/-- `mx.zero`. -/
def mxZeroRun (i : Instr) (tile : BitVec 6) (s : State) (t : Nat) (mates : List Nat) : State :=
  tileBody [tile.toNat] tileBusy (fun _ => 0) (fun s t _ _ =>
    advance i (s.modCore (s.coreOf t) fun k => tileZero k ((s.trainOf t).tile + tile.toNat)) t) (advanceAll i s mates) t

/-- `mx.op` (R303). -/
def execMxOp (a : BitVec 6) (sm : BitVec 1) (s : State) : Host.Outcome State Fault Refusal :=
  issueTrains (.mxOp a sm) (fun s t => commandRun (.mxOp a sm) 2 (fun s th => startMx s t (.mxOp a sm) th.pc (getX th a.toNat)) s t) s

/-- `mx.commit` (R307). -/
def execMxCommit (d : BitVec 6) (sm : BitVec 1) (s : State) : Host.Outcome State Fault Refusal :=
  issueTrains (.mxCommit d sm) (mxCommitRun (.mxCommit d sm) d) s

/-- `mx.wait` (R308). -/
def execMxWait (i : BitVec 6) (sm : BitVec 1) (s : State) : Host.Outcome State Fault Refusal :=
  issueEach (.mxWait i sm) (mxWaitBody (.mxWait i sm) i.toNat) s

/-- `mx.rd` (R310). -/
def execMxRd (t : BitVec 6) (a : BitVec 6) (d : BitVec 6) (sm : BitVec 1) (s : State) : Host.Outcome State Fault Refusal :=
  issueEach (.mxRd t a d sm) (mxRdBody (.mxRd t a d sm) t a d) s

/-- `mx.wr` (R310). -/
def execMxWr (b : BitVec 6) (a : BitVec 6) (t : BitVec 6) (sm : BitVec 1) (s : State) : Host.Outcome State Fault Refusal :=
  issueEach (.mxWr b a t sm) (mxWrBody (.mxWr b a t sm) b a t) s

/-- `mx.rd.64` (R310). -/
def execMxRd64 (t : BitVec 6) (a : BitVec 6) (d : BitVec 6) (sm : BitVec 1) (s : State) : Host.Outcome State Fault Refusal :=
  issueEach (.mxRd64 t a d sm) (mxRd64Body (.mxRd64 t a d sm) t a d) s

/-- `mx.wr.64` (R310). -/
def execMxWr64 (b : BitVec 6) (a : BitVec 6) (t : BitVec 6) (sm : BitVec 1) (s : State) : Host.Outcome State Fault Refusal :=
  issueEach (.mxWr64 b a t sm) (mxWr64Body (.mxWr64 b a t sm) b a t) s

/-- `mx.zero` (R310). -/
def execMxZero (t : BitVec 6) (sm : BitVec 1) (s : State) : Host.Outcome State Fault Refusal :=
  issueTrains (.mxZero t sm) (mxZeroRun (.mxZero t sm) t) s

/-- `cp.tile.ld` (R315 to R320). -/
def execCpTileLd (b : BitVec 6) (a : BitVec 6) (d : BitVec 6) (sm : BitVec 1) (s : State) : Host.Outcome State Fault Refusal :=
  issueTrains (.cpTileLd b a d sm) (fun s t => commandRun (.cpTileLd b a d sm) 1
    (fun s th => startCp s t (.cpTileLd b a d sm) th.pc (getX th a.toNat) (regBytes th b.toNat 6 ++ regBytes th d.toNat 2)) s t) s

/-- `cp.tile.st` (R315 to R320). -/
def execCpTileSt (b : BitVec 6) (a : BitVec 6) (d : BitVec 6) (sm : BitVec 1) (s : State) : Host.Outcome State Fault Refusal :=
  issueTrains (.cpTileSt b a d sm) (fun s t => commandRun (.cpTileSt b a d sm) 1
    (fun s th => startCp s t (.cpTileSt b a d sm) th.pc (getX th a.toNat) (regBytes th b.toNat 6 ++ regBytes th d.toNat 2)) s t) s

end Sys2Proof.Machine
end

