-- ==== Sys2Proof/Machine/Regulator.lean ====
section
/-! DEFINITION. The Regulator (R340 to R347). -/

namespace Sys2Proof.Machine
open Sys2Proof

/-- The selector of `xq.in` with a bit that must be zero (R341). -/
def selectorBad (w : Nat) : Bool := decide (w / 2 ^ 12 % 16 ≠ 0) || decide (w / 2 ^ 25 % 64 ≠ 0)
/-- The device that a selector names. -/
def selectorDev (w : Nat) : Nat := if w / 2 ^ 31 % 2 = 1 then w / 2 ^ 16 % 512 else Config.deviceId
/-- A token's fields out of range: the slot, a pointer beyond 48 bits, a misaligned combine record (R341). (DEDUCED, log entry 43.) -/
def tokenBad (w : List Word) : Bool :=
  decide (8 ≤ (w.getD 2 0).toNat) || decide (2 ^ 16 ≤ (w.getD 5 0).toNat) || decide (2 ^ 16 ≤ (w.getD 7 0).toNat) ||
    decide ((w.getD 6 0).toNat % 8 ≠ 0)

/-- A queue of the device (R340). -/
def queueGet (s : State) (q : Nat) : XQueue := mapGetD s.queues q {}
/-- A queue of the device put in place. -/
def queuePut (s : State) (q : Nat) (x : XQueue) : State := { s with queues := mapSet s.queues q x }

/-- A token entry (Table 13-7): the words of the token, its source, its queue and its wait. (DESIGN CHOICE, log entry 35.) -/
def tokenEntry (k : Token) (queue wait : Nat) : List Byte :=
  let w := fun (i : Nat) => (k.words.getD i 0).toNat
  bytesOfNat 4 wait ++ bytesOfNat 4 (k.src * 2 ^ 23 + w 2 % 8 * 2 ^ 16 + queue * 16) ++ bytesOfNat 4 (w 0) ++ bytesOfNat 4 (w 1)
    ++ bytesOfNat 4 (w 3) ++ bytesOfNat 4 (w 4) ++ bytesOfNat 2 (w 5) ++ bytesOfNat 4 (w 6) ++ bytesOfNat 2 (w 7)
/-- The token that an entry in the spill area holds; it was accepted at a clock. -/
def entryToken (b : List Byte) (clock : Nat) : Token :=
  let e := natOfBytes b
  let f := fun (lo n : Nat) => BitVec.ofNat 32 (e / 2 ^ lo % 2 ^ n)
  { words := [f 64 32, f 96 32, f 48 3, f 128 32, f 160 32, f 192 16, f 208 32, f 240 16], src := e / 2 ^ 55 % 512, at' := clock,
    spilled := false }

/-- What became of a token that asked for acceptance. -/
inductive TokenRes where
  | accepted
  | wait
  | fail (cause : Nat)
  deriving DecidableEq, Repr

/-- The lowest free place of a queue's spill area. (DESIGN CHOICE, log entry 35.) -/
def freeSpot (x : XQueue) : Option Nat :=
  firstFrom (fun i => !(x.tokens.any fun k => k.spilled && k.spot = i)) (fld x.cfg 207 192 * 2048) 0
/-- A token written to the spill area of its queue (R342). -/
def spillToken (s : State) (q : Nat) (x : XQueue) (k : Token) : State × TokenRes :=
  match freeSpot x with
  | none => (s, .fail 13)
  | some i =>
    let home := fld x.cfg 70 64
    let va := fld x.cfg 255 208 + 32 * i
    let ctx := match s.launch? x.launch with
      | some l => l.ctx
      | none => 0
    let r := virtWrite s (some home) ctx va (tokenEntry k q 0)
    match r.2 with
    | .ok _ _ _ _ => (queuePut r.1 q { x with tokens := x.tokens ++ [{ k with spilled := true, spot := i }] }, .accepted)
    | .missing =>
      let e := metMissing r.1 home ctx x.launch (va / 2 ^ 16) true (metSpill q)
      (e.1, if e.2 then .fail 13 else .wait)
    | .frozen => (r.1, .wait)
    | _ => (r.1, .fail 13)
/-- A token accepted at a queue of this device: on chip while the queue and its die's pool have room, else in the spill area (R341,
R342). -/
def acceptToken (s : State) (src q : Nat) (words : List Word) : State × TokenRes :=
  let x := queueGet s q
  let d := dieOfCore (fld x.cfg 70 64)
  let k : Token := { words := words, src := src, at' := s.clk, spilled := false }
  if fld x.cfg 13 13 = 0 then (s, .fail 16)
  else if (x.tokens.filter fun k => !k.spilled).length < 4096 ∧ (s.die d).pool < 65536 then
    ((queuePut s q { x with tokens := x.tokens ++ [k] }).modDie d fun y => { y with pool := y.pool + 1 }, .accepted)
  else spillToken s q x k

/-- A Regulator operation begins under the next sequence number, as it is issued or replayed (R340, R341, R346): an operation of
this device waits for its acceptance, one of another device for the port. -/
def startXq (s : State) (t : Nat) (i : Instr) (pc : Addr) (addr : DWord) (data : List Byte) : State :=
  let seq := (s.thread t).seq.toNat
  let tr := s.trainOf t
  let put := fun (p : OpPhase) (v : List Byte) => s.modThread t fun th =>
    addOp th { seq := 0, kind := 0x61, pc := pc, insn := i, addr := addr, data := data, phase := p, value := v }
  let go := fun (dev : Nat) (v : List Byte) =>
    if dev = Config.deviceId then put .unitWait v
    else if 384 ≤ dev ∨ !(s.members.contains dev) then failOp (put .unitWait v) t seq 6 addr
    else pump (put .ready v)
  match i with
  | .xqCfg _ _ =>
    if badLayout 1 addr then failOp (put .unitWait []) t seq 6 addr
    else if addr.toNat % 32 ≠ 0 then failOp (put .unitWait []) t seq 4 addr
    else put .unitWait []
  | .xqIn _ _ _ =>
    let sel := (wordOfBytes data).toNat
    if selectorBad sel ∨ tokenBad (wordsOfBytes 8 (data.drop 4)) then failOp (put .unitWait []) t seq 16 addr
    else go (selectorDev sel) []
  | _ =>
    if scrOutside s t addr 32 then failOp (put .unitWait []) t seq 7 addr
    else if addr.toNat % 32 ≠ 0 then failOp (put .unitWait []) t seq 4 addr
    else
      let e := memReadN (s.core tr.core).scratch addr.toNat 32
      if natOfBytes e / 2 ^ 208 % 8 ≠ 0 then failOp (put .unitWait e) t seq 4 addr
      else go (natOfBytes e / 2 ^ 55 % 512) e

/-- `xq.cfg` (R340). -/
def xqCfgBody (i : Instr) (a : BitVec 6) (s : State) (t : Nat) : State :=
  let th := s.thread t
  startXq (advance i s t) t i th.pc (getX th a.toNat) []
/-- `xq.in` (R341), behind the implicit domain boundary of Table 4-5. -/
def xqInBody (i : Instr) (b a : BitVec 6) (s : State) (t : Nat) : State :=
  let th := s.thread t
  let r := boundaryStep s t 4
  if r.2 then startXq (advance i r.1 t) t i th.pc 0 (regBytes th a.toNat 1 ++ regBytes th b.toNat 8) else r.1
/-- `xq.done` (R346): the entry's checks, the implicit domain boundary of Table 4-5, and the wait of R46. -/
def xqDoneBody (i : Instr) (b a : BitVec 6) (s : State) (t : Nat) : State :=
  let th := s.thread t
  let x := getX th a.toNat
  if scrOutside s t x 32 then raise s t 7 x
  else if x.toNat % 32 ≠ 0 then raise s t 4 x
  else
    let r := boundaryStep s t 4
    if !r.2 then r.1
    else
      match scrHold (r.1.core (s.coreOf t)) x.toNat (x.toNat + 32) false with
      | some w => park r.1 t w
      | none => startXq (advance i r.1 t) t i th.pc x (regBytes th b.toNat 2)

/-- The entries of a batch written to scratch from an address on, each once its line permits it (R48, R345): the core, and where a line
does not permit it, how many were written and what is waited for. -/
def takeBatch (q clock : Nat) : Core → Nat → Nat → List Token → Core × Option (Nat × Wait)
  | k, _, _, [] => (k, none)
  | k, a, n, x :: r =>
    match scrHold k a (a + 32) true with
    | some w => (k, some (n, w))
    | none =>
      takeBatch q clock { k with scratch := memWriteN k.scratch a (tokenEntry x q (min (clock - x.at') (2 ^ 32 - 1))) } (a + 32) (n + 1) r
/-- `xq.take` (R345): entries are written in their order; one that waits goes on from the entry that it waited for. -/
def xqTakeRun (i : Instr) (a d : BitVec 6) (s : State) (t : Nat) (mates : List Nat) : State :=
  let th := s.thread t
  let tr := s.train th.train
  let x := getX th a.toNat
  let give := fun (s : State) (n : Nat) => (t :: mates).foldl (fun s u => s.modThread u fun th =>
    past i (putResult th (plainResult d.toNat (BitVec.ofNat 32 n)))) s
  match tr.task with
  | none => raise (advanceAll i s mates) t 1 0
  | some k =>
    match k.fired with
    | none => raise (advanceAll i s mates) t 1 0
    | some (q, idx) =>
      if k.taken then give s 0
      else
        let f := mapGetD (queueGet s q).fired idx ([], 0)
        let n := f.1.length * 32
        if scrOutside s t x n then raise (advanceAll i s mates) t 7 x
        else if x.toNat % 32 ≠ 0 then raise (advanceAll i s mates) t 4 x
        else
          let done := if th.stage = 1 then k.wrote else 0
          if (t :: mates).any fun u => readsOpen (s.thread u) then
            holdTogether (s.modTrain th.train fun y => { y with task := y.task.map fun k => { k with wrote := done } }) (t :: mates) .reads
          else
          let r := takeBatch q f.2 (s.core tr.core) (x.toNat + 32 * done) done (f.1.drop done)
          let s := s.modCore tr.core fun _ => r.1
          match r.2 with
          | some (m, w) =>
            holdTogether (s.modTrain th.train fun y => { y with task := y.task.map fun k => { k with wrote := m } }) (t :: mates) w
          | none =>
            let s := queuePut s q { queueGet s q with fired := mapDel (queueGet s q).fired idx }
            let s := s.modTrain th.train fun y => { y with task := y.task.map fun k => { k with taken := true } }
            give (readClocks s tr.core 4) f.1.length

/-- `xq.cfg` (R340). -/
def execXqCfg (a : BitVec 6) (sm : BitVec 1) (s : State) : Host.Outcome State Fault Refusal :=
  issueEach (.xqCfg a sm) (xqCfgBody (.xqCfg a sm) a) s

/-- `xq.in` (R341, R342). -/
def execXqIn (b : BitVec 6) (a : BitVec 6) (sm : BitVec 1) (s : State) : Host.Outcome State Fault Refusal :=
  issueEach (.xqIn b a sm) (xqInBody (.xqIn b a sm) b a) s

/-- `xq.take` (R345). -/
def execXqTake (a : BitVec 6) (d : BitVec 6) (sm : BitVec 1) (s : State) : Host.Outcome State Fault Refusal :=
  issueTrains (.xqTake a d sm) (xqTakeRun (.xqTake a d sm) a d) s

/-- `xq.done` (R346). -/
def execXqDone (b : BitVec 6) (a : BitVec 6) (sm : BitVec 1) (s : State) : Host.Outcome State Fault Refusal :=
  issueEach (.xqDone b a sm) (xqDoneBody (.xqDone b a sm) b a) s

end Sys2Proof.Machine
end

