-- ==== Sys2Proof/Machine/Tasks.lean ====
section
/-! DEFINITION. Task, ring and phase-end instructions (R353 to R362, R366). -/

namespace Sys2Proof.Machine
open Sys2Proof

/-- The 128 bits of a task type's entry (Table 14-5): none where the table has none, or cannot be read; `wait` where a page is
awaited. (DEDUCED, log entry 43.) -/
def typeEntry (s : State) (lid core ttype : Nat) : State × AreaRes × BitVec 128 :=
  match s.launch? lid with
  | none => (s, .bad, 0)
  | some l =>
    if l.ttab = 0 then (s, .bad, 0)
    else
      let a := l.ttab + 16 * ttype
      let r := virtRead s (some core) l.ctx a 2
      match r.2 with
      | .ok b => (r.1, .ok, BitVec.ofNat 128 (natOfBytes b))
      | .error .missing =>
        let e := metMissing r.1 core l.ctx lid (a / 2 ^ 16) false (metTable lid)
        (e.1, if e.2 then .bad else .wait, 0)
      | .error .frozen => (r.1, .wait, 0)
      | .error _ => (r.1, .bad, 0)
/-- The defects of a task record against its type's entry, the target core apart (step 3 of R357). -/
def recordBad (rc : BitVec 512) (entry : BitVec 128) : Bool :=
  fld rc 511 320 != 0 || fld rc 311 305 != 0 || fld rc 255 224 != 0 || fld rc 127 112 != 0 || fld rc 63 48 != 0 ||
    fld entry 48 48 = 0 || fld rc 0 0 = 1 || (fld rc 47 0 = 0 && fld entry 47 0 = 0) || fld rc 303 256 % 128 != 0
/-- A task type of a record. -/
def recType (rc : BitVec 512) : Nat := fld rc 319 312
/-- A record, read at an address, placed on a core's task queue (step 4 of R357). -/
def placeTask (s : State) (lid core : Nat) (rc : BitVec 512) (addr : Nat) (fired : Option (Nat × Nat)) (range : Option (Nat × Nat)) : State :=
  match s.launch? lid with
  | none => s
  | some l =>
    let k : Task := { record := rc, number := l.tasks, addr := addr, fired := fired, range := range }
    let s := s.modCore core fun c => { c with taskq := mapSet c.taskq lid (mapGetD c.taskq lid [] ++ [k]) }
    s.modLaunch lid fun l => { l with tasks := l.tasks + 1 }

/-- The core that `tk.spawn` names, if it may (step 3 of R357). -/
def spawnTarget (s : State) (t : Nat) (g : Word) : Option Nat :=
  if g = 0xFFFFFFFF then some (s.coreOf t)
  else match s.launch? (s.launchOf t) with
    | some l => if g.toNat < Config.numCores ∧ l.hasDie (dieOfCore g.toNat) then some g.toNat else none
    | none => none
/-- The record at a scratch address checked, and then placed where `ready` lets it (R357). -/
def spawnAt (x : DWord) (target : Option Nat) (place : State → Nat → BitVec 512 → State) (s : State) (t : Nat) : State :=
  let tr := s.trainOf t
  if scrOutside s t x 64 then raise s t 7 x
  else if x.toNat % 64 ≠ 0 then raise s t 4 x
  else
    match scrHold (s.core tr.core) x.toNat (x.toNat + 64) false with
    | some w => park s t w
    | none =>
      let rc := BitVec.ofNat 512 (natOfBytes (memReadN (s.core tr.core).scratch x.toNat 64))
      let e := typeEntry s tr.launch tr.core (recType rc)
      match e.2.1, target with
      | .wait, _ => e.1
      | .ok, some c => if recordBad rc e.2.2 then raise e.1 t 16 x else place e.1 c rc
      | _, _ => raise e.1 t 16 x
/-- `tk.spawn` (R357). -/
def tkSpawnBody (i : Instr) (b a : BitVec 6) (s : State) (t : Nat) : State :=
  let th := s.thread t
  let r := boundaryStep s t 3
  if !r.2 then r.1
  else spawnAt (getX th a.toNat) (spawnTarget s t (getG th b.toNat)) (fun s c rc =>
    if 1024 ≤ (taskQueue s (s.launchOf t) c).length then park s t (.taskRoom c)
    else advance i (placeTask s (s.launchOf t) c rc (getX th a.toNat).toNat none none) t) r.1 t
/-- The scratch range of a train passed on: absent lines are zeroed, and the train has none (R49, R358). -/
def handRange (s : State) (tr : Nat) : State :=
  let x := s.train tr
  let s := s.modCore x.core fun k => (scrLines x.sbase x.slen).foldl (fun k l => if (scrGet k l).present then k else scrZero k l) k
  s.modTrain tr fun y => { y with slen := 0 }
/-- `tk.hand` (R358): it first waits as R49 states. -/
def tkHandRun (i : Instr) (a : BitVec 6) (s : State) (t : Nat) (mates : List Nat) : State :=
  let s := advanceAll i s mates
  let th := s.thread t
  let tr := s.train th.train
  if tr.task.isNone then raise s t 1 0
  else if !rangeQuiet (s.core tr.core) tr.sbase tr.slen then park s t .handOver
  else
    let r := boundaryStep s t 3
    if !r.2 then r.1
    else spawnAt (getX th a.toNat) (some tr.core) (fun s c rc =>
      if 1024 ≤ (taskQueue s tr.launch c).length then park s t (.taskRoom c)
      else advance i (handRange (placeTask s tr.launch c rc (getX th a.toNat).toNat none (some (tr.sbase, tr.slen))) th.train) t) r.1 t
/-- `krd` (R360). -/
def krdBody (i : Instr) (a d : BitVec 6) (s : State) (t : Nat) : State :=
  let tr := s.trainOf t
  if tr.kregs ≤ a.toNat then raise s t 1 0
  else variableBody i (fun _ => plainResult d.toNat (mapGetD tr.k a.toNat 0)) s t

/-! Stage rings (R361, R362). -/

/-- A ring of a gang put in place. -/
def ringPut (s : State) (tr : Train) (r : Nat) (x : Ring) : State :=
  s.modLaunch tr.launch fun l => { l with rings := mapSet l.rings (tr.gang * 4 + r) x }
/-- Whether a send or end of a train is out of protocol (R362). -/
def sendBad (x : Ring) (tr : Nat) : Bool := x.ended.contains tr || (!x.producers.contains tr && decide (x.nprod ≤ x.producers.length))
/-- A train made a producer of a ring by its first send or end (R361). -/
def Ring.join (x : Ring) (tr : Nat) : Ring := if x.producers.contains tr then x else { x with producers := x.producers ++ [tr] }
/-- The boundary of one of several threads taken as far as it goes; what is done stays marked until all are (R362). -/
def boundaryShare (scope : Nat) (s : State) (t : Nat) : State :=
  let th := s.thread t
  match th.bnd with
  | some _ => s
  | none =>
    if horizonClear s t && allPerformed th then
      if boundaryEntries th = [] then
        (writeClocks s (s.coreOf t) scope (s.core (s.coreOf t)).lt).modThread t fun th =>
          { th with bnd := some { scope := scope, tmax := 0, pc := th.pc, done := true } }
      else s.modThread t fun th => { th with bnd := some { scope := scope, tmax := 0, pc := th.pc } }
    else s
/-- Whether a shared boundary of a thread is done. -/
def boundaryShared (th : Thread) : Bool :=
  match th.bnd with
  | some b => b.done
  | none => false
/-- `rg.send` (R362). A train takes its producer place as its first value enters the ring. (DESIGN CHOICE, log entry 82.) -/
def rgSendRun (i : Instr) (a d : BitVec 6) (s : State) (t : Nat) (mates : List Nat) : State :=
  let th := s.thread t
  let tr := s.train th.train
  match ringOf? s tr d.toNat with
  | none => raise (advanceAll i s mates) t 15 0
  | some x =>
    if sendBad x th.train then raise (advanceAll i s mates) t 15 0
    else
      let l := t :: mates
      let s := l.foldl (boundaryShare 1) s
      if !(l.all fun u => boundaryShared (s.thread u)) then holdTogether s l (.together l)
      else
        let s := l.foldl (fun s u => (readClocks s tr.core 1).modThread u fun th => { th with bnd := none }) s
        if x.depth ≤ x.data.length then holdTogether s l (.ringRoom d.toNat)
        else
          let e := (getG th a.toNat, x.sent % x.depth, decide (x.sent / x.depth % 2 = 1))
          advanceAll i (ringPut s tr d.toNat { x.join th.train with data := x.data ++ [e], sent := x.sent + 1 }) l
/-- The high word that `rg.recv` gives for a slot (R362). -/
def slotWord (idx : Nat) (phase : Bool) : Word := BitVec.ofNat 32 (idx % 256 + (if phase then 256 else 0))
/-- `rg.recv` (R362). -/
def rgRecvRun (i : Instr) (a d : BitVec 6) (s : State) (t : Nat) (mates : List Nat) : State :=
  let th := s.thread t
  let tr := s.train th.train
  let l := t :: mates
  let give := fun (s : State) (v : DWord) => l.foldl (fun s u => (readClocks s tr.core 1).modThread u fun th =>
    past i (putResult th (plainPair d.toNat v))) s
  match ringOf? s tr a.toNat with
  | none => raise (advanceAll i s mates) t 15 0
  | some x =>
    match x.data with
    | (v, idx, phase) :: r => give (ringPut s tr a.toNat { x with data := r, taken := x.taken + 1 }) (slotWord idx phase ++ v)
    | [] => if ringEnded s tr a.toNat then give s 0x8000000000000000 else holdTogether s l (.ringData a.toNat)
/-- `rg.eos` (R362). -/
def rgEosRun (i : Instr) (d : BitVec 6) (s : State) (t : Nat) (mates : List Nat) : State :=
  let s := advanceAll i s mates
  let th := s.thread t
  let tr := s.train th.train
  match ringOf? s tr d.toNat with
  | none => raise s t 15 0
  | some x =>
    if sendBad x th.train then raise s t 15 0
    else advance i (ringPut s tr d.toNat { x.join th.train with ended := x.ended ++ [th.train] }) t

/-- `ph.end` (R366): the implicit domain boundary, the park, and the phase number once the phase has ended. -/
def phEndBody (i : Instr) (d : BitVec 6) (s : State) (t : Nat) : State :=
  if (s.thread t).stage = 2 then variableBody i (fun _ => plainResult d.toNat (BitVec.ofNat 32 (s.phase - 1))) s t
  else
    let r := boundaryStep s t 4
    if r.2 then park r.1 t .phaseEnd else r.1

/-- `tk.spawn` (R357). -/
def execTkSpawn (b : BitVec 6) (a : BitVec 6) (sm : BitVec 1) (s : State) : Host.Outcome State Fault Refusal :=
  issueEach (.tkSpawn b a sm) (tkSpawnBody (.tkSpawn b a sm) b a) s

/-- `tk.hand` (R358). -/
def execTkHand (a : BitVec 6) (sm : BitVec 1) (s : State) : Host.Outcome State Fault Refusal :=
  issueTrains (.tkHand a sm) (tkHandRun (.tkHand a sm) a) s

/-- `krd` (R360). -/
def execKrd (a : BitVec 6) (d : BitVec 6) (sm : BitVec 1) (s : State) : Host.Outcome State Fault Refusal :=
  issueEach (.krd a d sm) (krdBody (.krd a d sm) a d) s

/-- `rg.send` (R362). -/
def execRgSend (a : BitVec 6) (d : BitVec 6) (sm : BitVec 1) (s : State) : Host.Outcome State Fault Refusal :=
  issueTrains (.rgSend a d sm) (rgSendRun (.rgSend a d sm) a d) s

/-- `rg.recv` (R362). -/
def execRgRecv (a : BitVec 6) (d : BitVec 6) (sm : BitVec 1) (s : State) : Host.Outcome State Fault Refusal :=
  issueTrains (.rgRecv a d sm) (rgRecvRun (.rgRecv a d sm) a d) s

/-- `rg.eos` (R362). -/
def execRgEos (d : BitVec 6) (sm : BitVec 1) (s : State) : Host.Outcome State Fault Refusal :=
  issueTrains (.rgEos d sm) (rgEosRun (.rgEos d sm) d) s

/-- `ph.end` (R366). -/
def execPhEnd (d : BitVec 6) (sm : BitVec 1) (s : State) : Host.Outcome State Fault Refusal :=
  issueEach (.phEnd d sm) (phEndBody (.phEnd d sm) d) s

end Sys2Proof.Machine
end

