-- ==== Sys2Proof/Machine/EvLaunch.lean ====
section
/-! DEFINITION. Launches, gangs, tasks, retirement, the domain phase end, and partial eviction (R42 to R49, R166, R314, R348 to
R366, R376 to R380, Table 15-4). -/

namespace Sys2Proof.Machine
open Sys2Proof

/-! Places on a core (R42, R43, R166, R167, R350, R355). -/

/-- Whether lanes and rows of a quarter are free of other trains (R166). -/
def rectFree (l : List Train) (q row n lane w : Nat) : Bool :=
  l.all fun t => t.quarter != q || !(rangesMeet t.row t.regs row n) || !(rangesMeet t.lane t.width lane w)
/-- Whether a quarter may take a train: at most 128 trains and 4,096 threads, and one context, or two where a train of the core stands
evicted (R43, R167). (DESIGN CHOICE, log entry 46.) -/
def quarterTakes (l : List Train) (two : Bool) (q w ctx : Nat) : Bool :=
  let m := l.filter fun t => t.quarter = q
  decide (m.length < 128) && decide ((m.map (·.width)).foldl (· + ·) 0 + w ≤ 4096) &&
    decide (countDistinct (ctx :: m.map (·.ctx)) ≤ if two then 2 else 1)
/-- The first place for a train: the lowest quarter, then the lowest row base, then the lowest lane base (R355). -/
def fitRows (l : List Train) (two : Bool) (w n ctx : Nat) : Option (Nat × Nat × Nat) :=
  let cells := (upTo 4).flatMap fun q => if quarterTakes l two q w ctx then
      (upTo 256).flatMap fun r => (upTo (64 / w)).map fun b => (q, r * 8, b * w)
    else []
  cells.find? fun x => decide (x.2.1 + n ≤ 2048) && rectFree l x.1 x.2.1 n x.2.2 w
/-- The lowest run of free tiles. -/
def fitTiles (l : List Train) (n : Nat) : Option Nat :=
  if n = 0 then some 0
  else (upTo 16).find? fun i => decide (i + n ≤ 16) && l.all fun t => t.acc = 0 || !(rangesMeet t.tile t.acc i n)
/-- The scratch ranges of a core in use: its resident trains' and those handed to queued records (R358). -/
def scratchHeld (s : State) (c : Nat) : List (Nat × Nat) :=
  (residents s c).map (fun t => (t.sbase, t.slen)) ++
    ((s.core c).taskq.flatMap fun q => q.2.filterMap fun k => k.range)
/-- The lowest free scratch range of whole KiB. -/
def fitScratch (held : List (Nat × Nat)) (kib : Nat) : Option Nat :=
  if kib = 0 then some 0
  else ((upTo 3072).map (· * 1024)).find? fun a => decide (a + kib * 1024 ≤ Config.scratchBytes) && held.all fun h => h.2 = 0 || !(rangesMeet h.1 h.2 a (kib * 1024))
/-- Whether some train of a core stands evicted, so that another context may enter its quarters (R167). -/
def someEvicted (s : State) (c : Nat) : Bool := s.trains.any fun p => p.2.core = c && p.2.evicted.isSome

/-- The shape of a train: width, registers, uniform registers and tiles. -/
structure Shape where
  width : Nat
  regs : Nat
  kregs : Nat
  acc : Nat
  deriving DecidableEq, Repr
/-- The shape that a task type's entry gives (Table 14-5). -/
def typeShape (t : BitVec 128) : Shape := { width := fld t 111 104, regs := fld t 103 96, kregs := fld t 95 88, acc := fld t 87 80 }
/-- Whether a shape lies in its ranges (Table 14-2, Table 14-5). -/
def Shape.ok (x : Shape) : Bool :=
  [8, 16, 32, 64].contains x.width && x.regs % 8 = 0 && decide (8 ≤ x.regs) && decide (x.regs ≤ 64) && x.kregs % 8 = 0 &&
    decide (x.kregs ≤ 32) && decide (x.acc ≤ 16)
/-- A train given its place on a core by first fit. -/
def fitTrain (l : List Train) (two : Bool) (x : Shape) (t : Train) : Option Train :=
  match fitRows l two x.width x.regs t.ctx, fitTiles l x.acc with
  | some p, some a =>
    let slot := ((l.filter fun y => y.quarter = p.1).map (·.slot + 1)).foldl max 0
    some { t with
      quarter := p.1, row := p.2.1, lane := p.2.2, width := x.width, regs := x.regs, kregs := x.kregs, acc := x.acc, tile := a, slot := slot
      masks := [(0, BitVec.ofNat 64 (2 ^ x.width - 1))] }
  | _, _ => none
/-- Trains given places one after another. -/
def fitAll (l : List Train) (two : Bool) : List (Shape × Train) → List Train → Option (List Train)
  | [], acc => some acc
  | (x, t) :: r, acc =>
    match fitTrain (l ++ acc) two x t with
    | some y => fitAll l two r (acc ++ [y])
    | none => none

/-! Trains started (R44, R46, R49, R351, R380). -/

/-- An owner of registers, tiles and scratch: a context of a partition (R380). -/
def ownerOf (s : State) (ctx : Nat) : Nat := (s.ctx ctx).part * 2 ^ 32 + ctx + 1
/-- A register of a place as its next occupant finds it: what the last one left, or zero where the owner changed (R44, R380). -/
def bankValue (k : Core) (key owner : Nat) : Word := if mapGetD k.rowOwner key 0 = owner then mapGetD k.bankLeft key 0 else 0
/-- The registers of a thread at its start. -/
def startRegs (k : Core) (owner : Nat) (t : Train) (lane : Nat) : SMap Word :=
  (upTo t.regs).map fun i => (i, bankValue k (bankKey t.quarter (t.row + i) lane) owner)
/-- The rows of a train owned by its context. -/
def ownRows (k : Core) (owner : Nat) (t : Train) : Core :=
  { k with
    rowOwner := ((upTo t.width).flatMap fun i => (upTo t.regs).map fun r => bankKey t.quarter (t.row + r) (t.lane + i)).foldl
      (fun m x => mapSet m x owner) k.rowOwner }
/-- The tiles of a train owned by its context; zero where the owner changed (R298, R380). -/
def ownTiles (k : Core) (owner : Nat) (t : Train) : Core :=
  (upTo t.acc).foldl (fun k i =>
    let x := t.tile + i
    let k := if mapGetD k.tileOwner x 0 = owner then k else tileZero k x
    { k with tileOwner := mapSet k.tileOwner x owner }) k
/-- A scratch range allotted: every line present with no pin, and zero where the owner changed (R46, R49, R380). -/
def allotScratch (k : Core) (owner base len : Nat) : Core :=
  let k := (upTo (len / 1024)).foldl (fun k i =>
    let x := base / 1024 + i
    let k := if mapGetD k.kibOwner x 0 = owner then k
      else { k with scratch := k.scratch.filter fun p => !(decide (x * 1024 ≤ p.1) && decide (p.1 < (x + 1) * 1024)) }
    { k with kibOwner := mapSet k.kibOwner x owner }) k
  (scrLines base len).foldl (fun k l => scrPut k l {}) k
/-- The uniform registers of Table 14-3, from eight registers on; the launch id has 16 bits (Table 21-1). -/
def uniforms (kregs argp k2 k3 k4 lid : Nat) : SMap Word :=
  if kregs < 8 then []
  else [(0, BitVec.ofNat 32 argp), (1, BitVec.ofNat 32 (argp / 2 ^ 32)), (2, BitVec.ofNat 32 k2), (3, BitVec.ofNat 32 k3),
    (4, BitVec.ofNat 32 k4), (5, BitVec.ofNat 32 (lid % 2 ^ 16))]
/-- Threads of a train started, from train index `i` on. -/
def startThreads (s : State) (key : Nat) (t : Train) (pc : Nat) : Nat → Nat → State
  | 0, _ => s
  | n + 1, i =>
    let th : Thread := {
      train := key, tidx := i, lane := t.lane + i, pc := evenPc pc, slot := t.slot,
      g := startRegs (s.core t.core) (ownerOf s t.ctx) t (t.lane + i) }
    startThreads { s.setThread s.nextThread th with nextThread := s.nextThread + 1 } key t pc n (i + 1)
/-- A train of a context enters a core: the context begins a time slice where no other train of it stands there, and a pending pre-emption
of another context has made its room, which begins a slice of that one (R377). -/
def enterCore (k : Core) (ctx : Nat) (fresh : Bool) : Core :=
  let k := if fresh then { k with slices := mapDel k.slices ctx } else k
  match k.preempt with
  | some c => if c = ctx then k else { k with preempt := none, slices := mapDel k.slices c }
  | none => k
/-- Whether a context has no train on a core. -/
def ctxAbsent (s : State) (c ctx : Nat) : Bool := (residents s c).all fun t => t.ctx != ctx
/-- A train placed: its threads are runnable. -/
def startTrain (s : State) (t : Train) (pc : Nat) : State :=
  let key := s.nextTrain
  let fresh := ctxAbsent s t.core t.ctx
  let s := startThreads { s with trains := mapSet s.trains key { t with placed := key }, nextTrain := key + 1 } key t pc t.width 0
  s.modCore t.core fun k => enterCore (ownTiles (ownRows k (ownerOf s t.ctx) t) (ownerOf s t.ctx) t) t.ctx fresh

/-! Launches (R348 to R350). -/

/-- A role's shape (Table 14-2). -/
def roleShape (r : BitVec 256) : Shape := { width := fld r 167 160, regs := fld r 191 184, kregs := fld r 183 176, acc := fld r 175 168 }
/-- The trains of one gang in record order: role index, index within the role, role record. -/
def gangTrains (roles : List (BitVec 256)) : List (Nat × Nat × BitVec 256) :=
  roles.zipIdx.flatMap fun r => (upTo (fld r.1 200 192)).map fun i => (r.2, i, r.1)
/-- The trains of a gang with their shapes, before they have a place. -/
def gangPlan (l : Launch) (lid gang core : Nat) : List (Shape × Train) :=
  let ts := gangTrains l.roles
  ts.zipIdx.map fun x =>
    let role := x.1.1
    let idx := x.1.2.1
    let r := x.1.2.2
    (roleShape r, {
      launch := lid, ctx := l.ctx, core := core, gang := gang, role := role, kind := fld r 1 0, index := idx,
      number := BitVec.ofNat 32 (gang * ts.length + x.2), k := uniforms (fld r 183 176) (fld l.header 463 416) gang role idx lid })
/-- A gang's places on a core and its scratch base, where everything fits at once. -/
def fitGang (s : State) (l : Launch) (lid core kib : Nat) : Option (List Train × Nat) :=
  match fitAll (residents s core) (someEvicted s core) (gangPlan l lid l.nextGang core) [], fitScratch (scratchHeld s core) kib with
  | some ts, some b => some (ts, b)
  | _, _ => none

/-- The ring descriptor r of a header. -/
def ringDesc (h : BitVec 512) (r : Nat) : Nat := fld h (255 + 16 * r) (240 + 16 * r)
/-- The rings of a gang that are used (R361). -/
def gangRings (h : BitVec 512) (gang : Nat) (m : SMap Ring) : SMap Ring :=
  (upTo 4).foldl (fun m r =>
    let d := ringDesc h r
    if d / 4096 = 0 then m
    else mapSet m (gang * 4 + r) { nprod := d / 4096, depth := d % 128, data := [], sent := 0, taken := 0, producers := [], ended := [] }) m

/-- The rejection code of a launch block, 0 where it is accepted (R349, Table 14-7); `scrk` is the scratch of a gang in KiB. -/
def blockCode (h : BitVec 512) (roles : List (BitVec 256)) (dies : BitVec 4) (scrk : Nat) : Nat :=
  let rings := (upTo 4).map (ringDesc h)
  let kinds := roles.map fun r => fld r 1 0
  let nrole := fld h 5 4
  let reserved := fld h 511 464 != 0 || fld h 231 228 != 0 || fld h 223 220 != 0 || fld h 207 6 != 0 || fld h 3 2 != 0 ||
    rings.any (fun d => d / 128 % 32 != 0) || roles.any fun r => fld r 207 201 != 0 || fld r 159 2 != 0
  let range := nrole = 0 || fld h 319 304 = 0 || fld h 415 368 % 64 != 0 || fld h 367 320 % 8 != 0 ||
    rings.any (fun d => d / 4096 != 0 && decide (64 < d % 128)) ||
    roles.any fun r => fld r 208 208 != 0 || fld r 200 192 = 0 || decide (256 < fld r 200 192) || !(roleShape r).ok
  let l : Launch := {
    ctx := 0, part := 0, header := h, roles := roles, state := .queued, nextGang := 0, tasks := 0, rings := [],
    submitted := 0, wall := 0, exec := 0, wait := 0, fsvc := 0, queue := 0, entry := 0, order := 0 }
  if reserved then 1
  else if range then 2
  else if (kinds.contains 0 && decide (1 < nrole)) || countDistinct kinds != kinds.length then 3
  else if rings.any fun d => d / 4096 != 0 && d % 128 = 0 then 4
  else if fld h 227 224 = 0 ∨ (BitVec.ofNat 4 (fld h 227 224) &&& ~~~dies) ≠ 0 then 5
  else if (fitAll [] false (gangPlan l 0 0 0) []).isNone ∨ 3072 < scrk then 6
  else 0

/-- Whether a launch still stands in the device's queue or runs. -/
def launchLive (l : Launch) : Bool := match l.state with
  | .queued => true
  | .running => true
  | _ => false
/-- Whether two launches share a die. -/
def sharesDie (a b : Launch) : Bool := (upTo 4).any fun d => a.hasDie d && b.hasDie d
/-- Whether an earlier launch keeps a launch from placing a gang: one that shares a die and still has gangs to place, or, before the
first gang, one that holds an Escapement stream it needs (R349, R350). -/
def launchHeld (s : State) (lid : Nat) (l : Launch) : Bool :=
  s.launches.any fun p => p.1 != lid && launchLive p.2 && sharesDie p.2 l &&
    ((decide (p.1 < lid) && decide (p.2.nextGang < p.2.ngang)) ||
      (l.state = .queued && (decide (p.1 < lid) || p.2.state = .running) && fld p.2.header 239 232 &&& fld l.header 239 232 != 0))
/-- The cores of a launch's dies, ascending. -/
def launchCores (l : Launch) : List Nat := (upTo Config.numCores).filter fun c => l.hasDie (dieOfCore c)

/-! Units that retire, migrate, are evicted and restored (R49, R314, R352, R359, R378, R379). -/

/-- The keys of the trains of a unit: a task train alone, or the trains of a gang (R352). -/
def unitOf (s : State) (tr : Nat) : List Nat :=
  let x := s.train tr
  if x.task.isSome then [tr]
  else (s.trains.filter fun p => p.2.launch = x.launch && p.2.gang = x.gang && p.2.task.isNone).map (·.1)
/-- Whether a train has nothing left in either engine queue, and every batch is complete (R314). (DEDUCED, log entry 48.) -/
def enginesIdle (s : State) (tr : Nat) : Bool :=
  let x := s.train tr
  let k := s.core x.core
  (k.mxq.all fun m => m.train != tr || (m.accepted && m.done)) && (k.cpq.all fun m => m.train != tr) && x.committed.isEmpty
/-- Whether a thread is still: no result on its way, a clear horizon, every store performed, no boundary under way. -/
def threadStill (s : State) (t : Nat) : Bool :=
  let th := s.thread t
  th.results.isEmpty && horizonClear s t && allPerformed th && (match th.bnd with
    | some b => b.done
    | none => true)
/-- Whether another resident train shares the scratch range of a train: the gang it belongs to (R350). -/
def rangeShared (s : State) (tr : Nat) : Bool :=
  (unitOf s tr).any fun u => u != tr && (s.train u).evicted.isNone && (s.train u).core = (s.train tr).core
/-- A scratch range released: an absent line is written with zeros and made present (R49). -/
def releaseScratch (k : Core) (base len : Nat) : Core :=
  (scrLines base len).foldl (fun k l => if (scrGet k l).present then scrPut k l {} else scrZero k l) k
/-- A train that has ended taken off its core. -/
def removeTrain (s : State) (tr : Nat) : State :=
  let x := s.train tr
  let shared := rangeShared s tr
  let ts := (s.threads.filter fun p => p.2.train = tr).map (·.1)
  let s := ts.foldl leaveRegs s
  let s := s.modCore x.core fun k =>
    let k := { k with mxq := k.mxq.filter fun m => m.train != tr }
    if shared then k else releaseScratch k x.sbase x.slen
  { s with threads := s.threads.filter fun p => p.2.train != tr, trains := mapDel s.trains tr }

/-- What a retiring train's decrement of its successor counter comes to (R359). -/
inductive SuccRes where
  | done
  | wait
  | stall
  | failed (code : Nat)
  deriving DecidableEq, Repr
/-- The decrement at SUCC, and the placement of the record behind it where the old value was 1 (R359). (DEDUCED, log entry 48.) -/
def successor (s : State) (tr : Nat) (succ : Nat) : State × SuccRes :=
  let x := s.train tr
  let c := x.core
  let lid := x.launch
  let stall := fun (s : State) (va : Nat) (w : Bool) =>
    let e := metMissing s c x.ctx lid (va / 2 ^ 16) w (metSuccessor tr)
    (e.1, if e.2 then SuccRes.failed 4 else SuccRes.stall)
  let actor := trainActor s tr
  let name := actor.name
  let a := translateSettled s (some c) x.ctx succ .write
  match a.2 with
  | .missing => stall a.1 succ true
  | .frozen => (a.1, .wait)
  | .ok pa _ _ _ =>
    if lineWaits a.1 (pa / 128) true ∨ atomAdmits a.1 (pa / 128) name 0xFF = false then (a.1, .wait)
    else
      let q := physRead a.1 pa 8
      let old := dwordOfBytes q.2
      let dec := fun (s : State) =>
        atomLogged (physWrite (writeClocks s c 3 (s.core c).lt) c pa (bytesOfDWord (old - 1))) (pa / 128) name 0xFF
      if old = 0 then (trace (dec q.1) actor 0x07 0xFF 0 (BitVec.ofNat 64 succ), .done)
      else if old ≠ 1 then (dec q.1, .done)
      else
        let b := virtRead q.1 (some c) x.ctx (succ + 64) 8
        match b.2 with
        | .error .missing => stall b.1 (succ + 64) false
        | .error .frozen => (b.1, .wait)
        | .error _ => (dec b.1, .failed 4)
        | .ok bytes =>
          let rc := BitVec.ofNat 512 (natOfBytes bytes)
          let e := typeEntry b.1 lid c (recType rc)
          match e.2.1 with
          | .wait => (e.1, .stall)
          | .bad => (dec e.1, .failed 3)
          | .ok =>
            if recordBad rc e.2.2 then (dec e.1, .failed 3)
            else if 1024 ≤ (taskQueue e.1 lid c).length then (e.1, .wait)
            else (placeTask (dec e.1) lid c rc (succ + 64) none none, .done)
  | _ => (a.1, .failed 4)

/-- A train moved to a place of another core of its die, with its registers, tiles, scratch and write-set entries (R352). The new core's
logical time does not rise (R71). -/
def moveTrain (s : State) (tr : Nat) (y : Train) : State :=
  let x := s.train tr
  let ts := (s.threads.filter fun p => p.2.train = tr).map (·.1)
  let s := ts.foldl dissolve s
  let old := s.core x.core
  let s := ts.foldl leaveRegs s
  let s := s.modCore y.core fun k =>
    let k := ownTiles (ownRows k (ownerOf s y.ctx) y) (ownerOf s y.ctx) y
    (upTo x.acc).foldl (fun k i => { k with
      acc := (old.acc.filter fun p => p.1 / 4096 = x.tile + i).foldl (fun m p => mapSet m ((y.tile + i) * 4096 + p.1 % 4096) p.2)
        (tileZero k (y.tile + i)).acc }) k
  let s := if ctxAbsent s y.core y.ctx then s.modCore y.core fun k => { k with slices := mapDel k.slices y.ctx } else s
  let s := { s with trains := mapSet s.trains tr { y with placed := s.nextTrain }, nextTrain := s.nextTrain + 1 }
  ts.foldl (fun s t => landWs (s.modThread t fun th => { th with lane := y.lane + th.tidx, slot := y.slot }) y.core t) s
/-- A scratch range moved between two cores (R352). -/
def moveScratch (s : State) (c base c' base' len : Nat) : State :=
  let old := s.core c
  let s := s.modCore c' fun k =>
    { k with
      scratch := memWriteN k.scratch base' (memReadN old.scratch base len)
      lines := (scrLines base len).foldl (fun m l => match mapGet? old.lines l with
        | some x => mapSet m (base' / 128 + (l - base / 128)) x
        | none => m) k.lines }
  s.modCore c fun k => { releaseScratch k base len with
    lines := (scrLines base len).foldl (fun m l => mapDel m l) k.lines }
/-- Whether the threads of a unit may migrate (R352). -/
def unitMoves (s : State) (l : List Nat) : Bool :=
  l.all fun tr => (s.train tr).evicted.isNone && !(s.train tr).stopped && enginesIdle s tr && (s.train tr).open'.isEmpty &&
    s.threads.all fun p => p.2.train != tr || (p.2.helper.isNone && p.2.bank.isNone && threadStill s p.1)
/-- A sum over the cores of a die. -/
def dieSum (die : Nat) (f : Nat → Nat) : Nat := ((upTo Config.coresPerDie).map fun i => f (die * Config.coresPerDie + i)).foldl (· + ·) 0
/-- A sum over some trains. -/
def trainSum (l : List Train) (f : Train → Nat) : Nat := (l.map f).foldl (· + ·) 0
/-- The scratch of a gang of a launch, in KiB; none where the table cannot be read (R350). -/
def gangKib (s : State) (l : Launch) : Option Nat :=
  if l.ttab = 0 then some 0
  else match (virtRead s none l.ctx l.ttab 2).2 with
    | .ok b => some (natOfBytes b / 2 ^ 112)
    | .error _ => none
/-- Whether no core of a die fits the next gang of a launch, while what is free on the die would hold it once it is gathered: its lanes and
rows, its tiles and its scratch (R352). (DEDUCED, log entry 47.) -/
def fitsGathered (s : State) (die lid : Nat) (l : Launch) : Bool :=
  match gangKib s l with
  | none => false
  | some kib =>
    let plan := (gangPlan l lid l.nextGang 0).map (·.1)
    let need := fun (f : Shape → Nat) => (plan.map f).foldl (· + ·) 0
    ((upTo Config.coresPerDie).all fun i => (fitGang s l lid (die * Config.coresPerDie + i) kib).isNone) &&
      decide (need (fun x => x.width * x.regs) ≤ dieSum die fun c => 4 * 64 * 2048 - trainSum (residents s c) fun t => t.width * t.regs) &&
      decide (need (·.acc) ≤ dieSum die fun c => 16 - trainSum (residents s c) (·.acc)) &&
      decide (kib * 1024 ≤ dieSum die fun c => Config.scratchBytes - ((scratchHeld s c).map (·.2)).foldl (· + ·) 0)
/-- Whether the next gang of a launch waits for a place on a die, so that units of its context may be gathered (R352). -/
def gangWaits (s : State) (die ctx : Nat) : Bool :=
  s.launches.any fun p => launchLive p.2 && decide (p.2.nextGang < p.2.ngang) && p.2.hasDie die && p.2.ctx = ctx && !launchHeld s p.1 p.2 &&
    fitsGathered s die p.1 p.2

/-! The layout of a saved train (Table 15-4). -/

/-- The 64 bytes of a thread (Table 15-4); its watchdog count is that of a wait that counts (R375). (DEDUCED, log entry 41.) -/
def savedThread (s : State) (th : Thread) : List Byte :=
  bytesOfNat 8 th.pc.toNat ++ bytesOfNat 2 th.seq.toNat ++ bytesOfNat 2 th.hz.toNat ++ [th.q &&& 0xFE] ++
    bytesOfNat 3 (match th.trap with
      | some k => k.cause
      | none => 0) ++
    bytesOfWord th.fstat ++ bytesOfNat 4 th.tvec.toNat ++ bytesOfNat 4 (th.tvec.toNat / 2 ^ 32) ++ bytesOfNat 4 th.tarea.toNat ++
    bytesOfNat 4 (th.tarea.toNat / 2 ^ 32) ++ bytesOfWord th.tpend ++
    bytesOfNat 4 ((if th.hm then 1 else 0) + (if th.recHeld then 2 else 0)) ++ bytesOfWord th.wdog ++ bytesOfNat 4 (if watchCounts th.park then s.clk - th.since else 0) ++
    bytesOfWord th.next ++ bytesOfWord th.endIter ++ bytesOfNat 4 (th.chunk + (if th.armed then 128 else 0))
/-- The 4,304 bytes of a helper bank: its columns, the copy, and the grant state. -/
def savedBank (b : Bank) : List Byte :=
  ((upTo 1024).flatMap fun i => bytesOfWord (mapGetD b.regs i 0)) ++ ((upTo 48).flatMap fun i => bytesOfWord (mapGetD b.copy i 0)) ++
    bytesOfNat 4 b.n ++ bytesOfWord b.flags ++ bytesOfNat 8 (if b.forced then 1 else 0)
/-- The 512 bytes of a return list. -/
def savedReturns (th : Thread) : List Byte := padTo 512 (th.returns.flatMap fun p => bytesOfWord p.1 ++ bytesOfWord p.2)
/-- The threads of a train in ascending train index. -/
def byIndex (s : State) (tr n : Nat) : List Nat := (upTo n).filterMap fun i => s.byIndex? tr i
/-- A saved train up to its scratch range (Table 15-4). -/
def savedTrain (s : State) (tr : Nat) : List Byte :=
  let x := s.train tr
  let ths := (byIndex s tr x.width).map s.thread
  let lists := ths.any fun th => th.returns != []
  bytesOfNat 2 x.launch ++ bytesOfWord x.number ++ bytesOfNat 1 x.width ++ bytesOfNat 1 x.regs ++ bytesOfNat 1 x.kregs ++
    bytesOfNat 1 x.acc ++ bytesOfNat 1 x.lane ++ bytesOfNat 2 x.row ++ bytesOfNat 1 x.slot ++ bytesOfNat 2 x.batch.toNat ++
    bytesOfNat 1 (if lists then 1 else 0) ++ List.replicate 15 0 ++
    ((upTo 12).flatMap fun m => bytesOfDWord (mapGetD x.masks m 0)) ++ ((upTo 32).flatMap fun i => bytesOfWord (mapGetD x.k i 0)) ++
    (ths.flatMap (savedThread s)) ++ (ths.flatMap fun th => (upTo x.regs).flatMap fun i => bytesOfWord (getG th i)) ++
    ((upTo x.acc).flatMap fun i => (upTo 4096).flatMap fun e => bytesOfWord (mapGetD (s.core x.core).acc ((x.tile + i) * 4096 + e) 0)) ++
    (ths.flatMap fun th => match th.bank with
      | some b => savedBank b
      | none => []) ++
    (if lists then ths.flatMap savedReturns else [])
/-- Bytes written at a device physical address, line by line. -/
def saveBytes (s : State) (core pa : Nat) (bs : List Byte) : State := physWrite s core pa bs
/-- The scratch range of a train that is released, saved behind its own layout and behind that of every evicted train of its gang,
which shares it. -/
def saveScratch (s : State) (tr : Nat) : State :=
  let x := s.train tr
  let bs := memReadN (s.core x.core).scratch x.sbase x.slen
  (unitOf s tr).foldl (fun s u =>
    match (s.train u).evicted with
    | some a => saveBytes s x.core (a + (savedTrain s u).length) bs
    | none => s) s
/-- A train evicted to a save address: its resources are released, and its write sets lie in the overflow area (R378, R379).
(DESIGN CHOICE, log entry 46.) -/
def evictTrain (s : State) (tr save : Nat) : State :=
  let x := s.train tr
  let ts := s.membersOf tr
  let s := ts.foldl dissolve s
  let s := { s with dies := mapEach (fun _ d =>
    { d with streams := mapEach (fun _ y => { y with parked := y.parked.filter fun t => !ts.contains t }) d.streams }) s.dies }
  let s := saveBytes s x.core save (savedTrain s tr)
  let shared := rangeShared s tr
  let s := s.modTrain tr fun y => { y with evicted := some save }
  let s := if shared then s else (saveScratch s tr).modCore x.core fun k => releaseScratch k x.sbase x.slen
  let s := ts.foldl leaveRegs s
  let s := ts.foldl (fun s t => s.modThread t fun th => { th with ws := th.ws.map fun e => { e with moved := true } }) s
  trace s (trainActor s tr) 0x08 0xFF 0 (BitVec.ofNat 64 x.core)

/-- A field of a saved layout. -/
def layField (b : List Byte) (off n : Nat) : Nat := natOfBytes ((b.drop off).take n)
/-- A thread restored from its 64 bytes and its registers (Table 15-4); what the layout does not hold it kept. Bits that a control register
reserves read as zero (Table 15-2, Table 8-2). -/
def restoreThread (s : State) (b regs returns : List Byte) (lists : Bool) (n lane : Nat) (th : Thread) : Thread :=
  let w := fun (off : Nat) => BitVec.ofNat 32 (layField b off 4)
  let ch := layField b 60 4
  { th with
    pc := evenPc (layField b 0 8)
    seq := BitVec.ofNat 16 (layField b 8 2)
    hz := BitVec.ofNat 16 (layField b 10 2)
    q := BitVec.ofNat 8 (layField b 12 1) ||| 1
    fstat := w 16 &&& 0x3F
    tvec := evenPc (layField b 20 4 + layField b 24 4 % 2 ^ 16 * 2 ^ 32)
    tarea := BitVec.ofNat 48 (layField b 28 4 / 64 * 64 + layField b 32 4 % 2 ^ 16 * 2 ^ 32)
    tpend := w 36
    hm := decide (layField b 40 4 % 2 = 1)
    recHeld := decide (layField b 40 4 / 2 % 2 = 1)
    wdog := w 44
    since := s.clk - layField b 48 4
    next := w 52
    endIter := w 56
    chunk := ch % 128
    armed := decide (ch / 128 % 2 = 1)
    returns := if lists then ((upTo 64).map fun i => (BitVec.ofNat 32 (layField returns (8 * i) 4), BitVec.ofNat 32 (layField returns (8 * i + 4) 4))).take th.returns.length
      else th.returns
    lane := lane + th.tidx
    g := (wordsOfBytes n regs).zipIdx.map fun p => (p.2, p.1) }
/-- A helper bank restored from its 4,304 bytes (R379). -/
def restoreBank (b : List Byte) (x : Bank) : Bank :=
  { x with
    regs := (upTo 1024).map fun i => (i, BitVec.ofNat 32 (layField b (4 * i) 4))
    copy := (upTo 48).map fun i => (i, BitVec.ofNat 32 (layField b (4096 + 4 * i) 4))
    n := layField b 4288 4
    flags := BitVec.ofNat 32 (layField b 4292 4)
    forced := decide (layField b 4296 8 % 2 = 1) }
/-- A train restored to its core from its save address: its quarter, rows and lanes, the first fitting tiles and scratch (R379).
(DESIGN CHOICE, log entry 46.) -/
def restoreTrain (s : State) (tr tile sbase : Nat) (share : Bool) (save : Nat) : State :=
  let x := s.train tr
  let len := (savedTrain s tr).length
  let r := physRead s save (len + x.slen)
  let b := r.2
  let ts := byIndex r.1 tr x.width
  let lists := layField b 16 1 % 2 = 1
  let banks := ts.filter fun t => (s.thread t).bank.isSome
  let y := { x with
    evicted := none, stopped := false, tile := tile, sbase := sbase, placed := s.nextTrain
    batch := BitVec.ofNat 16 (layField b 14 2)
    masks := (upTo 12).map fun m => (m, BitVec.ofNat 64 (layField b (32 + 8 * m) 8))
    k := (upTo 32).map fun i => (i, BitVec.ofNat 32 (layField b (128 + 4 * i) 4)) }
  let gOff := 256 + 64 * x.width
  let tOff := gOff + 4 * x.regs * x.width
  let bOff := tOff + 16384 * x.acc
  let s := { r.1 with trains := mapSet r.1.trains tr y, nextTrain := r.1.nextTrain + 1 }
  let s := s.modCore x.core fun k =>
    let k := enterCore (ownTiles (ownRows k (ownerOf s y.ctx) y) (ownerOf s y.ctx) y) y.ctx (ctxAbsent r.1 x.core y.ctx)
    { k with
      acc := (upTo (x.acc * 4096)).foldl (fun m e =>
        let v := BitVec.ofNat 32 (layField b (tOff + 4 * e) 4)
        if v = 0 then mapDel m (tile * 4096 + e) else mapSet m (tile * 4096 + e) v) k.acc }
  let s := if share then s
    else s.modCore x.core fun k =>
      let k := allotScratch k (ownerOf s x.ctx) sbase x.slen
      { k with scratch := memWriteN k.scratch sbase ((b.drop len).take x.slen) }
  let s := ts.foldl (fun s t => s.modThread t fun th =>
    restoreThread s ((b.drop (256 + 64 * th.tidx)).take 64) ((b.drop (gOff + 4 * x.regs * th.tidx)).take (4 * x.regs))
      ((b.drop (len - 512 * (x.width - th.tidx))).take 512) lists x.regs x.lane th) s
  let s := banks.zipIdx.foldl (fun s p => s.modThread p.1 fun th =>
    { th with bank := th.bank.map (restoreBank ((b.drop (bOff + 4304 * p.2)).take 4304)) }) s
  testGathers (trace s (trainActor s tr) 0x08 0xFF 0 (BitVec.ofNat 64 x.core)) tr
/-- A train of the unit of an evicted train that has its place already, and so holds the scratch range that they share. -/
def placedMate (s : State) (tr : Nat) : Option Nat := (unitOf s tr).find? fun u => u != tr && (s.train u).evicted.isNone
/-- The scratch base at which a train is restored: its unit's, else the lowest that fits (R379). -/
def restoreBase (s : State) (tr : Nat) : Option Nat :=
  match placedMate s tr with
  | some u => some (s.train u).sbase
  | none => fitScratch (scratchHeld s (s.train tr).core) ((s.train tr).slen / 1024)
/-- Whether another context waits for a core: a gang to place, a queued task, or a train to restore (R377). -/
def otherWaits (s : State) (c ctx : Nat) : Bool :=
  (s.launches.any fun p => launchLive p.2 && p.2.ctx != ctx && p.2.hasDie (dieOfCore c) &&
      (decide (p.2.nextGang < p.2.ngang) || !(taskQueue s p.1 c).isEmpty)) ||
    s.trains.any fun p => p.2.core = c && p.2.ctx != ctx && p.2.evicted.isSome

/-- Whether the head of a launch's task queue fits its core (R355). -/
def taskFits (s : State) (lid c : Nat) (l : Launch) : Bool :=
  match taskQueue s lid c with
  | [] => true
  | k :: _ =>
    let t := (typeEntry s lid c (recType k.record)).2.2
    (fitTrain (residents s c) (someEvicted s c) (typeShape t) { ctx := l.ctx }).isSome &&
      (k.range.isSome || (fitScratch (scratchHeld s c) (fld t 127 112)).isSome)
/-- Whether the next gang of a launch fits a core (R350). -/
def gangFits (s : State) (lid c : Nat) (l : Launch) : Bool := match gangKib s l with
  | some kib => (fitGang s l lid c kib).isSome
  | none => true
/-- Whether an evicted train has its place on its core again (R379). -/
def restoreFits (s : State) (tr : Nat) : Bool :=
  let x := s.train tr
  let l := residents s x.core
  rectFree l x.quarter x.row x.regs x.lane x.width && quarterTakes l true x.quarter x.width x.ctx && (fitTiles l x.acc).isSome &&
    (restoreBase s tr).isSome
/-- The device as it stands once the trains of a context that are stopped on a core are saved. -/
def onceEvicted (s : State) (c ctx : Nat) : State :=
  let gone := fun (_ : Nat) (t : Train) =>
    if t.core = c ∧ t.ctx = ctx ∧ t.stopped = true ∧ t.evicted = none then { t with evicted := some 0 } else t
  { s with trains := mapEach gone s.trains }
/-- Whether work of another context that waits for a core needs more than its stopped trains free: only then is one more chosen (R378). Of
several works that wait, the system cores may name any. (DESIGN CHOICE, log entry 46.) -/
def moreNeeded (s : State) (c ctx : Nat) : Bool :=
  let f := onceEvicted s c ctx
  (s.launches.any fun p => launchLive p.2 && p.2.ctx != ctx && p.2.hasDie (dieOfCore c) &&
      ((decide (p.2.nextGang < p.2.ngang) && !launchHeld s p.1 p.2 && !gangFits f p.1 c p.2) || !taskFits f p.1 c p.2)) ||
    s.trains.any fun p => p.2.core = c && p.2.ctx != ctx && p.2.evicted.isSome && !restoreFits f p.1
/-- Whether one train comes before another where trains are chosen for eviction: in descending train slot, most recently placed first
(R378). -/
def evictsBefore (a b : Train) : Bool := if a.slot = b.slot then decide (b.placed < a.placed) else decide (b.slot < a.slot)

/-! The domain phase end (R366). -/

/-- Whether a launch belongs to the job of the device. -/
def ofJob (s : State) (lid : Nat) : Bool := match s.launch? lid with
  | some l => l.ctx = s.jobCtx
  | none => false
/-- Whether this device is quiescent (R366). -/
def quiescent (s : State) : Bool :=
  (s.threads.all fun p => !ofJob s (s.launchOf p.1) || p.2.exited || p.2.stopped || (p.2.park = .phaseEnd && p.2.stage != 2)) &&
    (s.cores.all fun k => k.2.taskq.all fun q => !ofJob s q.1 || q.2.isEmpty) &&
    (s.queues.all fun q => !ofJob s q.2.launch || q.2.tokens.isEmpty) &&
    (s.dies.all fun d => d.2.streams.all fun x => (match x.2.launch with
      | some l => !ofJob s l
      | none => true) || (x.2.held.isEmpty && x.2.reserved = 0)) &&
    s.out.all fun p => p.2.host || !tagged p.2.kind || (!p.2.who.isEmpty && p.2.who.all fun t => !ofJob s (s.launchOf t.1))

/-- Whether the device has drained: every horizon clear, every engine queue empty, no tagged request of its own on the way (steps 3 and
4 of R407). -/
def cutDrained (s : State) : Bool :=
  (s.threads.all fun p => horizonClear s p.1) && (s.cores.all fun k => k.2.mxq.isEmpty && k.2.cpq.isEmpty) && s.atoms.isEmpty &&
    (s.links.all fun l => l.2.fifo.isEmpty) && s.out.all fun p => p.2.host || !tagged p.2.kind
/-- A sweep of a cut: two in a row that find every device drained and the same totals confirm the balance of S and R (step 4 of R407). -/
def cutSweeps (s : State) (others : List (Bool × Nat × Nat)) (tot : Nat × Nat) : State :=
  if !cutDrained s || others.any fun x => !x.1 then { s with cutSweep := none, cutSwept := false }
  else if s.cutSweep = some tot then { s with cutSwept := true }
  else { s with cutSweep := some tot, cutSwept := false }

/-- A block that cannot be read yet: its submission is kept, and the clocks until the block is in the launch queue are charged to ENTRY (R406,
Table 21-6). (DESIGN CHOICE, log entry 45.) -/
def submitWaits (s : State) (part ctx addr : Nat) : Host.Outcome State Fault Refusal :=
  if s.submits.any fun x => x.1 = part && x.2.1 = ctx && x.2.2.1 = addr then notEnabled "SUBMIT_LAUNCH"
  else .next { s with submits := s.submits ++ [(part, ctx, addr, s.clk)] }
/-- The clock at which a block was submitted: now, where no submission of it waits. -/
def submittedAt (s : State) (part ctx addr : Nat) : Nat :=
  match s.submits.find? fun x => x.1 = part && x.2.1 = ctx && x.2.2.1 = addr with
  | some x => x.2.2.2
  | none => s.clk
/-- A launch block is read, checked, and queued under a launch id or rejected with a code (R348, R349, R420).
(DESIGN CHOICE, log entry 45.) -/
def execSubmitLaunch (part ctx addr : Nat) (s : State) : Host.Outcome State Fault Refusal :=
  let dies := mapGetD s.parts part 0
  if (s.ctx ctx).part ≠ part then .next { s with outs := s.outs ++ [.refusedRequest 1] }
  else if addr % 64 ≠ 0 then notEnabled "SUBMIT_LAUNCH"
  else
    let since := submittedAt s part ctx addr
    let taken := { s with submits := s.submits.filter fun x => !(x.1 = part && x.2.1 = ctx && x.2.2.1 = addr) }
    let a := virtRead taken none ctx addr 8
    match a.2 with
    | .error _ => submitWaits s part ctx addr
    | .ok hb =>
      let h := BitVec.ofNat 512 (natOfBytes hb)
      let n := fld h 5 4
      let b := virtRead a.1 none ctx (addr + 64) (4 * n)
      match b.2 with
      | .error _ => submitWaits s part ctx addr
      | .ok rb =>
        let roles := (upTo n).map fun i => BitVec.ofNat 256 (natOfBytes ((rb.drop (32 * i)).take 32))
        let c := if fld h 415 368 = 0 then (b.1, Except.ok []) else virtRead b.1 none ctx (fld h 415 368) 2
        let scrk := match c.2 with
          | .ok t => natOfBytes t / 2 ^ 112
          | .error _ => 0
        let code := blockCode h roles dies scrk
        if code ≠ 0 then .next { c.1 with outs := c.1.outs ++ [.rejected code] }
        else
          let l : Launch := {
            ctx := ctx, part := part, header := h, roles := roles, state := .queued, nextGang := 0, tasks := 0,
            rings := [], submitted := since, wall := c.1.clk - since, exec := 0, wait := 0, fsvc := 0, queue := 0, entry := c.1.clk - since,
            order := c.1.nextLaunch }
          .next { c.1 with
            launches := mapSet c.1.launches c.1.nextLaunch l
            nextLaunch := c.1.nextLaunch + 1
            outs := c.1.outs ++ [.launchId (c.1.nextLaunch % 2 ^ 16)] }

/-- The distributor places the next gang of a launch on the lowest core on which everything fits (R350, R351). -/
def execGangPlacement (lid : Nat) (s : State) : Host.Outcome State Fault Refusal :=
  match s.launch? lid with
  | none => notEnabled "GANG_PLACEMENT"
  | some l =>
    if launchLive l = false ∨ l.ngang ≤ l.nextGang ∨ launchHeld s lid l ∨ s.cutDue.isSome = true then notEnabled "GANG_PLACEMENT"
    else
      let e := if l.ttab = 0 then (s, Except.ok []) else virtRead s none l.ctx l.ttab 2
      match e.2 with
      | .error _ => notEnabled "GANG_PLACEMENT"
      | .ok tb =>
        let kib := natOfBytes tb / 2 ^ 112
        match (launchCores l).find? fun c => (fitGang e.1 l lid c kib).isSome with
        | none => notEnabled "GANG_PLACEMENT"
        | some c =>
          match fitGang e.1 l lid c kib with
          | none => notEnabled "GANG_PLACEMENT"
          | some (ts, base) =>
            let s := e.1.modCore c fun k => allotScratch k (ownerOf e.1 l.ctx) base (kib * 1024)
            let s := ts.foldl (fun s t => startTrain s { t with sbase := base, slen := kib * 1024 } (fld (l.roles.getD t.role 0) 255 208)) s
            .next (s.modLaunch lid fun l =>
              { l with state := .running, nextGang := l.nextGang + 1, rings := gangRings l.header l.nextGang l.rings })

/-- A resident unit moves to another core of its die, to make room for the next gang (R352): the train named takes the place named, the
others of its gang the first that fit. (DEDUCED, log entry 47.) -/
def execUnitMigration (train core quarter lane row : Nat) (s : State) : Host.Outcome State Fault Refusal :=
  let x := s.train train
  let unit := unitOf s train
  let wanted : Train := { x with core := core, quarter := quarter, lane := lane, row := row }
  let l := residents s core
  if (mapGet? s.trains train).isNone || decide (dieOfCore core ≠ dieOfCore x.core) || core = x.core || decide (4 ≤ quarter) || lane % x.width != 0 ||
      decide (64 < lane + x.width) || row % 8 != 0 || decide (2048 < row + x.regs) || !(rectFree l quarter row x.regs lane x.width) ||
      !(quarterTakes l (someEvicted s core) quarter x.width x.ctx) || !(unitMoves s unit) ||
      !(areaFits s core (unit.flatMap (s.membersOf ·))) || !(gangWaits s (dieOfCore core) x.ctx) then
    notEnabled "UNIT_MIGRATION"
  else
    match fitTiles l x.acc, fitScratch (scratchHeld s core) (x.slen / 1024) with
    | some tile, some base =>
      let slot := ((l.filter fun y => y.quarter = quarter).map (·.slot + 1)).foldl max 0
      let first : Train := { wanted with tile := tile, sbase := base, slot := slot }
      let rest := (unit.filter (· != train)).map fun u =>
        let y := s.train u
        ((⟨y.width, y.regs, y.kregs, y.acc⟩ : Shape), { y with core := core, sbase := base })
      match fitAll (first :: l) (someEvicted s core) rest [] with
      | none => notEnabled "UNIT_MIGRATION"
      | some ys =>
        let s0 := s
        let s := moveScratch (s.modCore core fun k => allotScratch k (ownerOf s x.ctx) base x.slen) x.core x.sbase core base x.slen
        let s := moveTrain s train first
        let s := ((unit.filter (· != train)).zip ys).foldl (fun s p =>
          moveTrain s p.1 { p.2 with masks := (s.train p.1).masks }) s
        let s := trace s (trainActor s train) 0x08 0xFF 0 (BitVec.ofNat 64 core)
        .next (settleCounts s0 s x.launch)
    | _, _ => notEnabled "UNIT_MIGRATION"

/-- The dispatcher of a core starts the head record of a launch's task queue once it fits, or fails the launch where it never could
(R355, R358, R365). -/
def execTaskDispatch (core lid : Nat) (s : State) : Host.Outcome State Fault Refusal :=
  match s.launch? lid, (if s.cutDue.isSome then [] else taskQueue s lid core) with
  | some l, k :: rest =>
    let e := typeEntry s lid core (recType k.record)
    let t := e.2.2
    let x := typeShape t
    let kib := fld t 127 112
    match e.2.1 with
    | .wait => .next e.1
    | r =>
      let draft : Train := { launch := lid, ctx := l.ctx, core := core, task := some k, number := BitVec.ofNat 32 (0x80000000 + k.number) }
      if r = .bad ∨ fld t 48 48 = 0 ∨ fld t 79 49 ≠ 0 ∨ x.ok = false ∨ (k.range.isNone ∧ 3072 < kib) ∨ (fitTrain [] false x draft).isNone then
        .next (launchFail e.1 lid 3 { core := core })
      else
        let s := e.1
        let base := match k.range with
          | some p => some p.1
          | none => fitScratch (scratchHeld s core) kib
        match fitTrain (residents s core) (someEvicted s core) x draft, base with
        | some y, some b =>
          let len := match k.range with
            | some p => p.2
            | none => kib * 1024
          let s := s.modCore core fun c =>
            let c := { c with taskq := mapSet c.taskq lid rest }
            if k.range.isSome then c else allotScratch c (ownerOf s l.ctx) b len
          let entry := fld k.record 47 0
          let y := { y with
            sbase := b, slen := len,
            k := uniforms x.kregs (fld k.record 111 64) (fld k.record 159 128) (fld k.record 191 160) (fld k.record 223 192) lid }
          .next (readClocks (startTrain s y (if entry = 0 then fld t 47 0 else entry)) core 3)
        | _, _ => notEnabled "TASK_DISPATCH"
  | _, _ => notEnabled "TASK_DISPATCH"

/-- A train whose threads have all exited retires, once its engine commands are done and every line of its range is in state P: its
resources are released, and a task's successor counter is decremented (R49, R314, R359, R363). -/
def execTrainRetire (train : Nat) (s : State) : Host.Outcome State Fault Refusal :=
  let x := s.train train
  if (mapGet? s.trains train).isNone || x.evicted.isSome || (s.threads.any fun p => p.2.train = train && !p.2.exited) ||
      !enginesIdle s train || !rangeQuiet (s.core x.core) x.sbase x.slen then notEnabled "TRAIN_RETIRE"
  else
    let succ := match x.task with
      | some k => fld k.record 303 256
      | none => 0
    let r := if succ = 0 then (s, SuccRes.done) else successor s train succ
    match r.2 with
    | .wait => notEnabled "TRAIN_RETIRE"
    | .stall => .next r.1
    | .failed c => .next (launchFail r.1 x.launch c (trainActor s train))
    | .done => .next (settleCounts s (removeTrain r.1 train) x.launch)

/-- A sweep sums S and R over the domain: the second of two in a row that finds every device quiescent and the same totals ends the
phase (R366). The other devices' parts arrive with it. While a cut is under way the sweeps are the cut's (R407). -/
def execDomainSweep (others : List (Bool × Nat × Nat)) (s : State) : Host.Outcome State Fault Refusal :=
  if others.length ≠ (s.members.filter (· != Config.deviceId)).length then notEnabled "DOMAIN_SWEEP"
  else
    let tot := others.foldl (fun (a : Nat × Nat) x => (a.1 + x.2.1, a.2 + x.2.2)) (s.sCount, s.rCount)
    if s.cutDue.isSome then .next (cutSweeps s others tot)
    else if !quiescent s || others.any fun x => !x.1 then .next { s with lastSweep := none }
    else if s.lastSweep = some tot then
      .next { s with
        lastSweep := none
        phase := s.phase + 1
        threads := mapEach (fun t th => if ofJob s (s.launchOf t) ∧ th.park = .phaseEnd then { th with stage := 2 } else th) s.threads }
    else .next { s with lastSweep := some tot }

/-- The time slice of a context on a core has run out while another context waits: a pre-emption is pending (R377). -/
def execTimeSliceExpiry (core ctx : Nat) (s : State) : Host.Outcome State Fault Refusal :=
  let k := s.core core
  if (residents s core).any (fun t => t.ctx = ctx) && decide ((s.ctx ctx).slice ≤ mapGetD k.slices ctx 0) && k.preempt.isNone && otherWaits s core ctx then
    .next (s.modCore core fun k => { k with preempt := some ctx })
  else notEnabled "TIME_SLICE_EXPIRY"

/-- A context that is pre-empted on a core gives up trains in descending train slot, most recently placed first, until what they free
suffices: the next one stops; once it is still, it is saved at the address given and its resources are released (R378, R379). -/
def execPartialEviction (train save : Nat) (s : State) : Host.Outcome State Fault Refusal :=
  let x := s.train train
  let first := s.trains.all fun p => p.1 = train || p.2.core != x.core || p.2.ctx != x.ctx || p.2.evicted.isSome || p.2.stopped ||
    !evictsBefore p.2 x
  if (mapGet? s.trains train).isNone || x.evicted.isSome || save % 128 != 0 then notEnabled "PARTIAL_EVICTION"
  else if !x.stopped then
    if (s.core x.core).preempt != some x.ctx || !first || !moreNeeded s x.core x.ctx then notEnabled "PARTIAL_EVICTION"
    else .next ((s.membersOf train).foldl forceRelease (s.modTrain train fun y => { y with stopped := true }))
  else
    let ts := s.membersOf train
    let still := enginesIdle s train && ts.all fun t => (helpersOf s t).isEmpty && threadStill s t && (s.thread t).trap.isNone
    let n := (ts.map fun t => ((s.thread t).ws.filter fun e => !e.moved).length).foldl (· + ·) 0
    if !still then notEnabled "PARTIAL_EVICTION"
    else if areaRoom (s.core x.core) < wsInArea s x.core + n then
      .next (s.modCore x.core fun k => { k with overflowFull := true, stall := some (x.ctx, x.launch) })
    else .next (evictTrain s train save)

/-- An evicted train is restored to the core it left (R379). -/
def execTrainRestoration (train : Nat) (s : State) : Host.Outcome State Fault Refusal :=
  let x := s.train train
  match x.evicted with
  | none => notEnabled "TRAIN_RESTORATION"
  | some save =>
    let l := residents s x.core
    match fitTiles l x.acc, restoreBase s train with
    | some tile, some b =>
      if rectFree l x.quarter x.row x.regs x.lane x.width && quarterTakes l true x.quarter x.width x.ctx && (s.core x.core).preempt != some x.ctx then
        .next (restoreTrain s train tile b (placedMate s train).isSome save)
      else notEnabled "TRAIN_RESTORATION"
    | _, _ => notEnabled "TRAIN_RESTORATION"

end Sys2Proof.Machine
end

