-- ==== Sys2Proof/Machine/EvDebug.lean ====
section
/-! DEFINITION. Breakpoints, halts, samples, checkpoints and replay (R399 to R410). -/

namespace Sys2Proof.Machine
open Sys2Proof

/-! Settings (R399 to R404). -/

/-- Whether a partition owns a die; a request that names another partition's is refused with status 1 (R420). -/
def ownsDie (s : State) (part die : Nat) : Bool := decide (die < 4) && (mapGetD s.parts part 0).getLsbD die
/-- Whether a context belongs to a partition (R420). -/
def ownsCtx (s : State) (part ctx : Nat) : Bool := (s.ctx ctx).part = part
/-- A request refused with status 1: nothing else changes (R420). (DEDUCED, log entry 52.) -/
def refuse (s : State) : State := { s with outs := s.outs ++ [.refusedRequest 1] }
/-- Whether a range of device memory lies in one channel. -/
def inChannel (pa len : Nat) : Bool := decide (pa / 2 ^ 32 < Config.numCores) && decide (pa % 2 ^ 32 + len ≤ Config.channelBytes)
/-- Whether no frame of a range is tagged with another partition. -/
def framesOf (s : State) (part pa len : Nat) : Bool :=
  s.frames.all fun p => decide (p.1 * 2 ^ 16 + 2 ^ 16 ≤ pa) || decide (pa + len ≤ p.1 * 2 ^ 16) || p.2.part = part
/-- Whether every frame of a range is tagged with a partition (R36). -/
def framesOwned (s : State) (part pa len : Nat) : Bool :=
  (upTo ((pa + len - 1) / 2 ^ 16 - pa / 2 ^ 16 + 1)).all fun i => match mapGet? s.frames (pa / 2 ^ 16 + i) with
    | some x => x.part = part
    | none => false

/-- A thread halted at its instruction boundary (R404). -/
def haltThread (s : State) (t : Nat) : State := (dissolve s t).modThread t fun th => { th with halted := true }
/-- What a breakpoint that stops a thread does (R403, R404): the asynchronous cause, or a halt of the thread or of its train. -/
def bpAct (s : State) (t n act : Nat) : State :=
  let s := traceThread s t 0x02 (auxOf s t) (BitVec.ofNat 64 n)
  if act = 0 then raiseAsync s t 17 (BitVec.ofNat 64 n)
  else if act = 1 then haltThread s t
  else (t :: (s.membersOf (s.thread t).train).filter (· != t)).foldl haltThread s

/-! Checkpoints (R407 to R409). -/

/-- The copies of device lines outside DRAM that hold newer bytes, as indexed bytes of lines: home L2s first, then remote-data caches
and eviction buffers, then dirty Plain L1 lines. -/
def newerBytes (s : State) : List (Nat × SMap Byte) :=
  let all := fun (l : List Byte) => bytesUnder l (BitVec.allOnes 128)
  let rdc := fun (d : Nat) (p : Nat × RdcLine) =>
    match p.2.st with
    | .m => all p.2.data
    | .o => all p.2.data
    | .p => bytesUnder p.2.data (mapGetD (privGet s p.1).write d 0)
    | .untracked => bytesUnder p.2.data p.2.dirty
    | _ => []
  (s.dies.flatMap fun d => (d.2.l2.filter fun p => p.2.dirty).map fun p => (p.1, all p.2.data)) ++
    (s.dies.flatMap fun d => ((d.2.rdc ++ d.2.fills ++ d.2.evicting.flatMap fun q => q.2.map fun x => (q.1, x)).filter fun p => decide (p.1 < 2 ^ 50)).map fun p => (p.1, rdc d.1 p)) ++
    (s.cores.flatMap fun k => (k.2.l1.filter fun p => p.2.dirty).map fun p => (p.1, all p.2.data))
/-- Device memory as the latest stores leave it, in the frames that a test accepts. -/
def memoryOf (s : State) (p : Nat → Bool) : Memory :=
  (newerBytes s).foldl (fun m x => if p (x.1 / 512) then x.2.foldl (fun m b => memWrite m (x.1 * 128 + b.1) b.2) m else m)
    (s.mem.filter fun c => p (c.1 / 2 ^ 16))
/-- Whether a frame is tagged with the context of the domain job. -/
def jobFrame (s : State) (f : Nat) : Bool := match mapGet? s.frames f with
  | some x => x.ctx = s.jobCtx
  | none => false
/-- Whether a thread belongs to the job. -/
def jobThread (s : State) (t : Nat) : Bool := s.ctxOf t = s.jobCtx
/-- The logs of every die by gate. -/
def allLogs (s : State) : SMap (List (BitVec 128)) :=
  s.dies.foldl (fun m d => d.2.log.foldl (fun m g => mapSet m g.1 (mapGetD m g.1 [] ++ g.2)) m) []
/-- The scratch ranges of the job on a core: of its trains, and those handed to its queued records. -/
def jobRanges (s : State) (c : Nat) : List (Nat × Nat) :=
  ((residents s c).filter fun t => t.ctx = s.jobCtx).map (fun t => (t.sbase, t.slen)) ++
    ((s.core c).taskq.flatMap fun q => if ofJob s q.1 then q.2.filterMap fun k => k.range else [])
/-- Whether a byte of a scratchpad lies in one of some ranges. -/
def inRanges (l : List (Nat × Nat)) (a : Nat) : Bool := l.any fun r => decide (r.1 ≤ a) && decide (a < r.1 + r.2)
/-- The tiles of the job on a core. -/
def jobTiles (s : State) (c : Nat) : List Nat :=
  ((residents s c).filter fun t => t.ctx = s.jobCtx).flatMap fun t => (upTo t.acc).map (t.tile + ·)
/-- What a cut records: memory, every train of the device with its scratch and tiles, and the task, Escapement and Regulator queues (steps 5
of R407, R409). (DESIGN CHOICE, log entry 50.) -/
def cutRecord (s : State) (n : Nat) : Checkpoint :=
  { number := n
    mem := memoryOf s fun _ => true
    threads := s.threads
    trains := s.trains
    queues := s.queues
    scratch := s.cores.map fun k => (k.1, k.2.scratch)
    acc := s.cores.map fun k => (k.1, k.2.acc)
    tasks := s.cores.map fun k => (k.1, k.2.taskq)
    streams := s.dies.map fun d => (d.1, d.2.streams)
    launches := s.launches
    barriers := s.barriers
    frames := s.frames
    ctx := s.ctx s.jobCtx
    crcs := s.threads.map fun p => (p.1, (p.2.crc, p.2.stores))
    log := allLogs s
    replayable := s.dies.all fun d => !d.2.logStopped }
/-- The device as a checkpoint holds it, so far as the checkpoint does. -/
def asCut (s : State) (k : Checkpoint) : State :=
  let core := fun (c : Nat) (x : Core) =>
    { x with scratch := mapGetD k.scratch c [], acc := mapGetD k.acc c [], taskq := mapGetD k.tasks c [] }
  { s with
    mem := k.mem, threads := k.threads, trains := k.trains, queues := k.queues, launches := k.launches, barriers := k.barriers
    frames := k.frames, cores := (upTo Config.numCores).map fun c => (c, core c (s.core c)) }
/-- The part of a checkpoint that a replay of the job restores: that of the job's context (R380, R410). -/
def jobPart (s : State) (k : Checkpoint) : Checkpoint :=
  let f := asCut s k
  { k with
    mem := k.mem.filter fun b => jobFrame f (b.1 / 2 ^ 16)
    threads := k.threads.filter fun p => jobThread f p.1
    trains := k.trains.filter fun p => p.2.ctx = s.jobCtx
    queues := k.queues.filter fun p => ofJob f p.2.launch
    scratch := k.scratch.map fun x => (x.1, x.2.filter fun b => inRanges (jobRanges f x.1) b.1)
    acc := k.acc.map fun x => (x.1, x.2.filter fun w => (jobTiles f x.1).contains (w.1 / 4096))
    tasks := k.tasks.map fun x => (x.1, x.2.filter fun q => ofJob f q.1)
    streams := k.streams.map fun d => (d.1, d.2.filter fun x => match x.2.launch with
      | some l => ofJob f l
      | none => false)
    launches := k.launches.filter fun p => p.2.ctx = s.jobCtx
    barriers := k.barriers.filter fun b => ofJob f (b.1 / 16 / 128 / 4)
    frames := k.frames.filter fun p => p.2.ctx = s.jobCtx }
/-- The number of the last checkpoint, 0 before the first. -/
def lastCut (s : State) : Nat := (s.ckpts.map (·.number)).foldl max 0
/-- A cut begins: issue and dispatch stop, and a thread parked for room has its instruction withdrawn (steps 1 and 2 of R407). -/
def beginCut (s : State) (n : Nat) : State :=
  { s with
    cutDue := some n
    cutSweep := none
    cutSwept := false
    lastSweep := none
    threads := mapEach (fun _ th => match th.park with
      | .streamRoom _ _ => { th with park := .none }
      | .taskRoom _ => { th with park := .none }
      | _ => th) s.threads }
/-- A cut completed: the record kept, the logs begun anew, issue resumed (steps 5 and 6 of R407, R408). -/
def endCut (s : State) (n : Nat) : State :=
  let r := cutRecord s n
  let stopped := (s.dies.filter fun d => d.2.logStopped).map (·.1)
  let note := fun (ty : Nat) (s : State) (d : Nat) => trace s { core := d * Config.coresPerDie } ty 0xFF 0 (BitVec.ofNat 64 n)
  let s := (upTo 4).foldl (note 0x09) (stopped.foldl (note 0x0B) s)
  { s with
    ckpts := s.ckpts ++ [r]
    cutDue := none
    cutSweep := none
    cutSwept := false
    dies := mapEach (fun _ d => { d with log := [], logStopped := false }) s.dies }

/-! Replay (R410). -/

/-- Cached copies of the lines that a test accepts discarded without writeback, those that the loop-back of R12 filled among them (R39,
R410). -/
def discardLines (s : State) (p : Nat → Bool) : State :=
  let dev := fun (k : Nat) => decide (k < 2 ^ 50) && p k
  let gone := fun (x : Nat × RdcLine) => dev x.1 || (match x.2.home with
    | some l => p l
    | none => false)
  let keys := s.dies.flatMap fun d => ((d.2.rdc ++ d.2.fills).filter gone).map fun x => (d.1, x.1)
  let s := keys.foldl (fun s k => rdcDrop s k.1 k.2) s
  { s with
    out := s.out.filter fun r => match r.2.line with
      | some k => !keys.contains k
      | none => true
    cores := mapEach (fun _ k => { k with
      l1 := k.l1.filter fun x => !dev x.1
      icache := k.icache.filter fun x => !p x.1 }) s.cores
    dies := mapEach (fun _ d => { d with
      l2 := d.l2.filter fun x => !p x.1
      rdcPending := d.rdcPending.filter fun x => !dev x
      early := d.early.filter fun x => !p x.1
      evicting := d.evicting.filter fun x => !dev x.1
      dir := d.dir.filter fun x => !p x.1
      dirLru := d.dirLru.filter fun x => !p x
      priv := d.priv.filter fun x => !p x.1 }) s.dies
    links := mapEach (fun _ l => { l with fifo := l.fifo.filter fun m => !p m.line }) s.links }
/-- The cores with every one of them listed. -/
def listCores (s : State) : SMap Core := (upTo Config.numCores).map fun c => (c, s.core c)
/-- The dies with every one of them listed. -/
def listDies (s : State) : SMap Die := (upTo 4).map fun d => (d, s.die d)
/-- Two maps joined; the entries of the second take the place of the first's. -/
def mapJoin {α : Type} (a b : SMap α) : SMap α := b.foldl (fun m p => mapSet m p.1 p.2) a
/-- The job's part of the device taken away before a checkpoint is restored. -/
def dropJob (s : State) : State :=
  let keep := fun (t : Nat) => !jobThread s t
  let s1 := s.trains.foldl (fun a p => if p.2.ctx = s.jobCtx then discardCommands a p.1 else a) s
  { s1 with
    threads := s.threads.filter fun p => keep p.1
    trains := s.trains.filter fun p => p.2.ctx != s.jobCtx
    launches := s.launches.filter fun p => p.2.ctx != s.jobCtx
    queues := s.queues.filter fun p => !ofJob s p.2.launch
    barriers := s.barriers.filter fun b => !ofJob s (b.1 / 16 / 128 / 4)
    atoms := s.atoms.filter fun a => keep a.thread
    out := s.out.filter fun p => p.2.who.isEmpty || p.2.who.any fun t => keep t.1
    arrivals := []
    events := s.events.filter fun e => e.ctx != s.jobCtx
    cores := mapEach (fun c k => { k with
      starved := mapEach (fun _ l => l.filter keep) k.starved
      groups := mapEach (fun _ g => g.filter fun x => x.all keep) k.groups
      taskq := k.taskq.filter fun q => !ofJob s q.1
      scratch := k.scratch.filter fun b => !inRanges (jobRanges s c) b.1
      lines := k.lines.filter fun l => !inRanges (jobRanges s c) (l.1 * 128)
      acc := k.acc.filter fun w => !(jobTiles s c).contains (w.1 / 4096) }) s1.cores
    dies := mapEach (fun d x => { x with
      pool := x.pool - ((s.launches.filter fun l => l.2.ctx = s.jobCtx).map fun l => poolUsed s.queues l.1 d).foldl (· + ·) 0
      streams := x.streams.filter fun y => match y.2.launch with
        | some l => !ofJob s l
        | none => true }) s1.dies }
/-- Memory with the frames that a test accepts replaced by a saved part. -/
def replaceFrames (m saved : Memory) (p : Nat → Bool) : Memory :=
  saved.foldl (fun m b => memWrite m b.1 b.2) (m.filter fun b => !p (b.1 / 2 ^ 16))
/-- The values logged for a thread at the cuts after a checkpoint, by store count. -/
def loggedOf (later : List Checkpoint) (t : Nat) : List (Nat × DWord) :=
  later.filterMap fun c => (mapGet? c.crcs t).map fun x => (x.2, x.1)
/-- The logs of the intervals after a checkpoint, up to the first that was stopped. (DEDUCED, log entry 51.) -/
def logsAfter (s : State) (later : List Checkpoint) : SMap (List (BitVec 128)) :=
  let good := later.takeWhile fun c => c.replayable
  let open' := if good.length = later.length ∧ (s.dies.all fun d => !d.2.logStopped) then [allLogs s] else []
  (good.map (·.log) ++ open').foldl (fun m l => l.foldl (fun m g => mapSet m g.1 (mapGetD m g.1 [] ++ g.2)) m) []
/-- Whether no train of another context stands in the registers, tiles or scratch of a checkpoint's trains. -/
def placesFree (s : State) (k : Checkpoint) : Bool :=
  k.trains.all fun p =>
    let x := p.2
    let l := (residents s x.core).filter fun t => t.ctx != s.jobCtx
    x.evicted.isSome || (rectFree l x.quarter x.row x.regs x.lane x.width &&
      l.all fun t => !(rangesMeet t.tile t.acc x.tile x.acc) && !(rangesMeet t.sbase t.slen x.sbase x.slen))
/-- The job's part of memory as a checkpoint holds it, the rest of the device as it stands (R410). -/
def restoreMem (s : State) (saved : Memory) (mine : Nat → Bool) : State :=
  discardLines { s with mem := replaceFrames s.mem saved mine } fun l => mine (l / 512)
/-- A checkpoint restored, and the device in replay mode behind its order gates (R410). (DEDUCED, log entry 51.) -/
def restoreCut (s : State) (k : Checkpoint) : State :=
  let k := jobPart s k
  let later := s.ckpts.filter fun c => decide (k.number < c.number)
  let gates := logsAfter s later
  let mine := fun (f : Nat) => jobFrame s f || (mapGet? k.frames f).isSome
  let s1 := restoreMem (dropJob s) k.mem mine
  { s1 with
    frames := mapJoin (s1.frames.filter fun p => p.2.ctx != s.jobCtx) k.frames
    ctxs := mapSet s1.ctxs s.jobCtx k.ctx
    threads := mapJoin s1.threads (k.threads.map fun p => (p.1, { p.2 with logged := loggedOf later p.1, diverged := false }))
    trains := mapJoin s1.trains k.trains
    launches := mapJoin s1.launches k.launches
    queues := mapJoin s1.queues k.queues
    barriers := mapJoin s1.barriers k.barriers
    cores := mapEach (fun c x => { x with
      tlb := x.tlb.filter fun e => e.ctx != s.jobCtx
      qtlb := mapEach (fun _ l => l.filter fun e => e.ctx != s.jobCtx) x.qtlb
      scratch := (mapGetD k.scratch c []).foldl (fun m b => memWrite m b.1 b.2) x.scratch
      acc := mapJoin x.acc (mapGetD k.acc c [])
      taskq := mapJoin x.taskq (mapGetD k.tasks c []) }) (listCores s1)
    dies := mapEach (fun d x => { x with
      logging := false
      logStopped := false
      log := []
      walks := x.walks.filter fun e => e.ctx != s.jobCtx
      pool := x.pool + (k.launches.map fun l => poolUsed k.queues l.1 d).foldl (· + ·) 0
      streams := mapJoin x.streams (mapGetD k.streams d []) }) (listDies s1)
    ckpts := s.ckpts.filter fun c => decide (c.number ≤ k.number)
    cutDue := none
    cutSweep := none
    cutSwept := false
    replaying := true
    gates := gates
    gateSince := gates.map fun g => (g.1, s.clk) }
/-- The gate of the service train of the word at a virtual address. -/
def gateAt (s : State) (ctx va : Nat) : Option Nat :=
  match (walk s ctx va .write).2 with
  | .leaf e _ big => some (trainGate (homeCore (leafPa e big va / 128)))
  | _ => none
/-- The gate of the service train that a request of this device is for: its own loop-back, or a host atomic. -/
def outGate (s : State) (r : OutReq) : Option Nat :=
  match r.kind with
  | .atomic _ _ => if r.host then some 0 else if r.dst = Config.deviceId then gateAt s s.jobCtx r.va else none
  | .stf => if r.dst = Config.deviceId then gateAt s s.jobCtx r.aux.toNat else none
  | .xqDone => if r.dst = Config.deviceId then gateAt s s.jobCtx r.aux.toNat else none
  | _ => none
/-- The gate of the service train that a request of another device is for. -/
def inGate (s : State) (r : FabReq) : Option Nat :=
  match r.kind with
  | .atomic _ _ => gateAt s s.jobCtx r.va
  | .stf => gateAt s s.jobCtx r.aux.toNat
  | .xqDone => gateAt s s.jobCtx r.aux.toNat
  | _ => none
/-- Whether a contribution that no thread of this device makes is held at an order gate: a request of another device, the counter of a copy
command that has made its writes, or an add at an event word (R408, R410). -/
def othersHeld (s : State) (gate : Nat) : Bool :=
  (s.arrivals.any fun r => inGate s r = some gate && !gateTakes s gate (BitVec.ofNat 64 r.src) 0 0xFF) ||
    s.events.any fun e => e.store = [] && gateAt s e.ctx e.va = some gate && !gateTakes s gate e.name 0 0xFF
/-- The threads whose copy command waits at an order gate with its counter. -/
def countersHeld (s : State) (gate : Nat) : List Nat :=
  s.cores.filterMap fun k => match k.2.cpq.find? fun m => m.accepted with
    | some m =>
      let due := m.stop.isSome || (m.fills.isEmpty && m.owned.isEmpty && m.pins.isEmpty)
      if due ∧ m.counter ≠ 0 ∧ gateAt s (s.train m.train).ctx m.counter.toNat = some gate ∧ gateTakes s gate (nameOf s m.thread) 0 0xFF = false then
        some m.thread
      else none
    | none => none
/-- The threads whose contribution, arrival or hand-out an order gate holds (R410). -/
def heldAt (s : State) (gate : Nat) : List Nat :=
  if gate < 1000 then
    let l := (s.atoms.filter fun a => trainGate (homeCore (a.pa / 128)) = gate).map (·.thread) ++
      s.out.flatMap fun p => if outGate s p.2 = some gate then p.2.who.map (·.1) else []
    ((l.filter fun t => !gateAdmits s gate t 0) ++ countersHeld s gate).eraseDups
  else
    let d := (gate - 1000) / 8
    let n := (gate - 1000) % 8
    (s.threads.filter fun p => s.dieOf p.1 = d &&
      ((p.2.park = .streamNext n && !gateAdmits s gate p.1 2) ||
        p.2.ops.any fun o => o.phase = .unitWait && escStream o.insn = some n && !gateAdmits s gate p.1 1)).map (·.1)

/-- A thread stands at the PC of an enabled breakpoint: it passes while SKIP is not 0, else it traps or halts (R403, R404). -/
def execBreakpointMatch (t part n : Nat) (s : State) : Host.Outcome State Fault Refusal :=
  let key := part * 8 + n
  let v := mapGetD s.breakpoints key 0
  let th := s.thread t
  if !liveThread s t || th.halted || th.trap.isSome || decide (8 ≤ n) || !ownsCtx s part (s.ctxOf t) || !bpMatches s t v || th.passed.getLsbD n then
    notEnabled "BREAKPOINT_MATCH"
  else
    let s := s.modThread t fun th => { th with passed := th.passed ||| (1#8 <<< n) }
    if fld v 127 96 ≠ 0 then .next { s with breakpoints := mapSet s.breakpoints key (v - (1#128 <<< 96)) }
    else .next (bpAct s t n (fld v 81 80))

/-- A quarter writes the sample of the bundle that it has issued in this clock (R402). -/
def execTraceSample (core quarter : Nat) (s : State) : Host.Outcome State Fault Refusal :=
  match mapGet? (s.core core).samples quarter with
  | none => notEnabled "TRACE_SAMPLE"
  | some x => .next (traceRecord (s.modCore core fun k => { k with samples := mapDel k.samples quarter }) core x.1 x.2)

/-- A checkpoint falls due: its cut begins; once the device has drained and twin sweeps agree, it is taken and issue resumes (R407).
(DESIGN CHOICE, log entry 50.) -/
def execCheckpointCut (n : Nat) (s : State) : Host.Outcome State Fault Refusal :=
  match s.cutDue with
  | some m => if m = n ∧ cutDrained s = true ∧ s.cutSwept = true then .next (endCut s n) else notEnabled "CHECKPOINT_CUT"
  | none =>
    if s.ckptOn ∧ lastCut s < n ∧ n * s.ckptPeriod * 1000000 ≤ s.dt then .next (beginCut s n) else notEnabled "CHECKPOINT_CUT"

/-- The log area of a die is seven eighths full: a cut begins at once (R408). -/
def execLogAreaThreshold (die : Nat) (s : State) : Host.Outcome State Fault Refusal :=
  let d := s.die die
  if d.logging ∧ s.cutDue = none ∧ 7 * Config.logChunks ≤ 8 * logLength d then .next (beginCut s (lastCut s + 1))
  else notEnabled "LOG_AREA_THRESHOLD"

/-- The head of an order gate has waited 2^20 clocks while other requests are held: they take the replay-divergence cause, and the gates
open (R410). -/
def execReplayGateTimeout (gate : Nat) (s : State) : Host.Outcome State Fault Refusal :=
  let l := heldAt s gate
  if s.replaying = false ∨ mapGetD s.gates gate [] = [] ∨ (l = [] ∧ othersHeld s gate = false) ∨ s.clk < mapGetD s.gateSince gate 0 + 2 ^ 20 then
    notEnabled "REPLAY_GATE_TIMEOUT"
  else .next (gatesDone { l.foldl diverge s with gates := [] })

/-- System software sets the trace ring of a die (R400): what this clock has recorded goes to the old ring, and the count of dropped records
stays for the first record of the new one (R401). -/
def execSetTraceRing (part die base len : Nat) (s : State) : Host.Outcome State Fault Refusal :=
  if !ownsDie s part die || !framesOf s part base len then .next (refuse s)
  else if base % 2 ^ 16 ≠ 0 ∨ len < 2 ^ 16 ∨ 2 ^ 30 < len ∨ inChannel base len = false then notEnabled "SET_TRACE_RING"
  else .next ((traceFlush s die).modDie die fun d => { d with traceBase := base, traceLen := len, traceHead := 0 })

/-- System software sets the sampling period of a die: 0, or 1,024 to 2^24 clocks (R402). -/
def execSetSampling (part die period : Nat) (s : State) : Host.Outcome State Fault Refusal :=
  if !ownsDie s part die then .next (refuse s)
  else if period ≠ 0 ∧ (period < 1024 ∨ 2 ^ 24 < period) then notEnabled "SET_SAMPLING"
  else .next (s.modDie die fun d => { d with sper := period })

/-- System software writes one of the eight breakpoint registers of its partition (R403). -/
def execSetBreakpoint (part n : Nat) (value : BitVec 128) (s : State) : Host.Outcome State Fault Refusal :=
  if 8 ≤ n ∨ fld value 95 82 ≠ 0 ∨ fld value 79 65 ≠ 0 ∨ fld value 81 80 = 3 then notEnabled "SET_BREAKPOINT"
  else
    .next { s with
      breakpoints := mapSet s.breakpoints (part * 8 + n) value
      threads := mapEach (fun t th => if ownsCtx s part (s.ctxOf t) then { th with passed := th.passed &&& ~~~(1#8 <<< n) } else th) s.threads }

/-- System software halts a thread by name (R404). -/
def execHaltRequest (part t : Nat) (s : State) : Host.Outcome State Fault Refusal :=
  if !liveThread s t || (s.thread t).halted then notEnabled "HALT_REQUEST"
  else if !ownsCtx s part (s.ctxOf t) then .next (refuse s)
  else .next (haltThread s t)

/-- A debug-halted thread resumes; a failure that arrived during the halt can be delivered again (R404). -/
def execDebugResume (part t : Nat) (s : State) : Host.Outcome State Fault Refusal :=
  if !liveThread s t || !(s.thread t).halted then notEnabled "DEBUG_RESUME"
  else if !ownsCtx s part (s.ctxOf t) then .next (refuse s)
  else .next (testGathers (s.modThread t fun th => { th with halted := false }) (s.thread t).train)

/-- Checkpointing of the job enabled with a period of 1 to 1,000 milliseconds; logging begins (R407, R408). -/
def execSetCheckpointPeriod (part ms : Nat) (s : State) : Host.Outcome State Fault Refusal :=
  if !ownsCtx s part s.jobCtx then .next (refuse s)
  else if ms = 0 ∨ 1000 < ms then notEnabled "SET_CHECKPOINT_PERIOD"
  else
    .next { s with
      ckptOn := true
      ckptPeriod := ms
      dies := mapEach (fun _ d => if s.replaying then d else { d with logging := true })
        (listDies s) }

/-- A checkpoint restored, and the device set into replay mode (R410). -/
def execReplay (part n : Nat) (s : State) : Host.Outcome State Fault Refusal :=
  if !ownsCtx s part s.jobCtx then .next (refuse s)
  else
    match s.ckpts.find? fun k => k.number = n with
    | some k => if k.replayable && placesFree s (jobPart s k) then .next (restoreCut s k) else notEnabled "REPLAY"
    | none => notEnabled "REPLAY"

end Sys2Proof.Machine
end

