-- ==== Sys2Proof/Machine/EvEngine.lean ====
section
/-! DEFINITION. The steps of the engines, the Escapement and the Regulator without an encoding (R45, R46, R50, R91, R302 to
R308, R313, R317 to R320, R334 to R346). -/

namespace Sys2Proof.Machine
open Sys2Proof

/-! Device space read by an engine (R138, R55). -/

/-- What an engine's read of device space gives. -/
inductive EngRes where
  | ok (bytes : List Byte)
  /-- It waits for a page or a line, in the state as it is. -/
  | wait
  /-- A serviceable fault has been raised. -/
  | stall
  | fail (cause faddr : Nat)
  deriving DecidableEq, Repr

/-- A translation for an engine of a core, through the core's cache; a conflicting classification is changed first (R18, R22). -/
def translateEng (s : State) (core ctx va : Nat) (acc : Acc) : State × TrRes :=
  translateRetried s core 4 ctx va acc
/-- A missing page met by an engine: its fault is raised, or, once declined, fails the access (R424). -/
def engMissing (s : State) (core ctx lid va : Nat) (write : Bool) (who : Nat × Nat) : State × EngRes :=
  let r := metMissing s core ctx lid (va / 2 ^ 16) write who
  (r.1, if r.2 then .fail 5 va else .stall)
/-- The pieces of a physical range within lines: address and length. -/
def linePieces (a hi : Nat) : Nat → List (Nat × Nat)
  | 0 => []
  | n + 1 => if hi ≤ a then [] else
      let e := min hi ((a / 128 + 1) * 128)
      (a, e - a) :: linePieces e hi n
/-- Whether a copy engine's own command reads a line that the engine of its core owns: its requests do not wait behind it, whichever of its
commands the line is for (R91, R319). -/
def engOwns (s : State) (core : Nat) (copy : Bool) (line : Nat) : Bool := copy && (dirGet s line).eo && (dirGet s line).ecore = core
/-- Pieces read, those of the engine's own lines as the lines stand (R91). -/
def engLines (s : State) (core : Nat) (copy : Bool) : List (Nat × Nat) → List Byte → State × List Byte
  | [], acc => (s, acc)
  | (pa, n) :: r, acc =>
    if engOwns s core copy (pa / 128) then engLines s core copy r (acc ++ ((ownBytes s core (pa / 128)).drop (pa % 128)).take n)
    else
      let q := physRead s pa n
      engLines q.1 core copy r (acc ++ q.2)
/-- Bytes within one page read by an engine of a core, for an agent, as strong reads; a line that must be waited for holds it, those that
the copy engine owns do not hold its own commands (R91). -/
def engReadPage (s : State) (core ctx lid : Nat) (copy : Bool) (who : Nat × Nat) (va n : Nat) : State × EngRes :=
  if 2 ^ 48 < va + n then (s, .fail 6 va)
  else
    let r := translateEng s core ctx va .read
    match r.2 with
    | .ok pa _ _ _ =>
      let l := linePieces pa (pa + n) (n / 128 + 2)
      if l.any fun p => !engOwns r.1 core copy (p.1 / 128) && lineWaits r.1 (p.1 / 128) false then (r.1, .wait)
      else
        let q := engLines r.1 core copy l []
        (q.1, .ok q.2)
    | .missing => engMissing r.1 core ctx lid va false who
    | .frozen => (r.1, .wait)
    | .fail c f => (r.1, .fail c f)
    | _ => (r.1, .wait)
/-- Pieces read one after another. -/
def engReadGo (s : State) (core ctx lid : Nat) (copy : Bool) (who : Nat × Nat) : List (Nat × Nat) → List Byte → State × EngRes
  | [], acc => (s, .ok acc)
  | (va, n) :: r, acc =>
    let q := engReadPage s core ctx lid copy who va n
    match q.2 with
    | .ok b => engReadGo q.1 core ctx lid copy who r (acc ++ b)
    | x => (q.1, x)
/-- A byte range read by an engine. -/
def engRead (s : State) (core ctx lid : Nat) (copy : Bool) (who : Nat × Nat) (va n : Nat) : State × EngRes :=
  engReadGo s core ctx lid copy who (pagePieces va (va + n) (n / 2 ^ 16 + 2)) []

/-! Acceptance of matrix commands (R302 to R304). -/

/-- The bytes of an element of a format (R301). -/
def mxEsz (fmt : Nat) : Nat := if fmt ≤ 1 then 1 else if fmt ≤ 3 then 2 else if fmt = 4 then 4 else 8
/-- Whether a scratch operand of rows leaves a range. -/
def rowsOutside (tr : Train) (base ld rows len : Nat) : Bool :=
  decide (base < tr.sbase) || decide (tr.sbase + tr.slen < base + (rows - 1) * ld + len)
/-- Whether a parameter block is rejected (R302). -/
def mxBad (tr : Train) (pb : BitVec 512) : Bool :=
  let fmt := fld pb 3 0
  let asrc := fld pb 7 6
  let acvt := fld pb 11 10
  let m := fld pb 38 32
  let n := fld pb 47 40
  let k := fld pb 56 48
  let dt := fld pb 19 16
  let e := mxEsz fmt
  let lda := fld pb 207 192
  let ldb := fld pb 223 208
  let sca := fld pb 229 224
  let scb := fld pb 237 232
  fld pb 511 238 != 0 || fld pb 231 230 != 0 || fld pb 191 176 != 0 || fld pb 127 112 != 0 || fld pb 63 57 != 0 ||
    fld pb 39 39 != 0 || fld pb 31 24 != 0 || fld pb 15 12 != 0 || decide (5 < fmt) || asrc = 3 || acvt = 3 ||
    m = 0 || decide (64 < m) || n = 0 || decide (128 < n) || k = 0 || decide (256 < k) ||
    (decide (fmt ≤ 1) && k % 8 != 0) || ((fmt = 2 || fmt = 3) && k % 4 != 0) || (decide (64 < n) && fmt = 5) ||
    (mxPair pb && dt % 2 != 0) || decide (tr.acc ≤ dt) || (mxPair pb && decide (tr.acc ≤ dt + 1)) ||
    (asrc = 2 && decide (tr.acc ≤ fld pb 23 20)) || (asrc != 2 && fld pb 111 64 % e != 0) || fld pb 175 128 % e != 0 || lda % e != 0 ||
    ldb % e != 0 || (asrc = 0 && rowsOutside tr (fld pb 111 64) lda m (k * e)) ||
    (fld pb 8 8 = 0 && rowsOutside tr (fld pb 175 128) ldb k (n * e)) ||
    (asrc = 2 && (fmt != (if acvt = 0 then 3 else if acvt = 1 then 2 else 0) || decide (64 < k) || (fld pb 9 9 = 1 && acvt = 2))) ||
    (fmt = 0 && (sca % 2 = 1 || scb % 2 = 1 || decide (tr.regs < sca + 2) || decide (tr.regs < scb + (if 64 < n then 4 else 2)) ||
      decide (tr.width < m) || decide (tr.width < min n 64) || decide (7 < 4 * fld pb 5 5 + (k - 1) / 32)))

/-- The scratch lines of the rows of an operand. -/
def rowLines (base ld rows len : Nat) : List Nat := (upTo rows).flatMap fun i => scrRange (base + i * ld) (base + i * ld + len)
/-- A list without repeats. -/
def distinct (l : List Nat) : List Nat := l.foldl (fun a x => if a.contains x then a else a ++ [x]) []
/-- The scratch lines that the operands of a block read, each once. -/
def mxLines (pb : BitVec 512) : List Nat :=
  let e := mxEsz (fld pb 3 0)
  let k := fld pb 56 48
  distinct ((if fld pb 7 6 = 0 then rowLines (fld pb 111 64) (fld pb 207 192) (fld pb 38 32) (k * e) else []) ++
    (if fld pb 8 8 = 0 then rowLines (fld pb 175 128) (fld pb 223 208) k (fld pb 47 40 * e) else []))
/-- A scratch line pinned: an early pin where it is present, else a late one; the pin is named by twice its line, plus 1 where it is
late (R45, R46). -/
def pinLine (k : Core) (l : Nat) : Core × Nat :=
  let x := scrGet k l
  if x.present then (scrPut k l { x with early := x.early + 1 }, 2 * l) else (scrPut k l { x with late := x.late + 1 }, 2 * l + 1)
/-- Scratch lines pinned. -/
def pinLinesOf (k : Core) : List Nat → Core × List Nat
  | [] => (k, [])
  | l :: r =>
    let q := pinLine k l
    let z := pinLinesOf q.1 r
    (z.1, q.2 :: z.2)
/-- The line that pins taken now wait for in vain, for it is absent with no fill pending: the cause of the fill that failed, and its
scratch address (R50). (DEDUCED, log entry 32.) -/
def pinsLost (k : Core) (pins : List Nat) : Option (Nat × Nat) :=
  (pins.find? fun p => p % 2 = 1 && (scrGet k (p / 2)).fill.isNone).map fun p => ((scrGet k (p / 2)).cause, p / 2 * 128)
/-- Whether a pin count of some line is full (R45). -/
def pinsFull (k : Core) (l : List Nat) : Bool :=
  l.any fun i => let x := scrGet k i; if x.present then decide (15 ≤ x.early) else decide (15 ≤ x.late)

/-- The threads whose pairs give scales, with the first register (R304). -/
def scaleRegs (pb : BitVec 512) : List (Nat × Nat) :=
  if fld pb 3 0 ≠ 0 then []
  else
    let n := fld pb 47 40
    (upTo (fld pb 38 32)).map (fun i => (i, fld pb 229 224)) ++
      (upTo n).map fun j => if j < 64 then (j, fld pb 237 232) else (j - 64, fld pb 237 232 + 2)
/-- The eight bytes of a pair of the thread with a train index. -/
def scaleBytes (s : State) (tr : Nat) (x : Nat × Nat) : List Byte :=
  match s.byIndex? tr x.1 with
  | some t => bytesOfDWord (getX (s.thread t) x.2)
  | none => List.replicate 8 0
/-- Whether a result for a register of a thread is on its way; a load that failed, or was cancelled, brings none (R304). -/
def regComing (th : Thread) (r : Nat) : Bool :=
  th.results.any (fun x => x.regs.any fun p => p.1 = r) ||
    th.ops.any fun o => opHasResult o && o.phase != .resolved && !opDead o && (resultRegs o.insn []).any fun p => p.1 = r
/-- Whether a needed scale register is still to come (R304). -/
def scalesComing (s : State) (tr : Nat) (pb : BitVec 512) : Bool :=
  (scaleRegs pb).any fun x => match s.byIndex? tr x.1 with
    | some t => regComing (s.thread t) x.2 || regComing (s.thread t) (x.2 + 1)
    | none => false

/-- Whether an engine command or push may be accepted after the older operations of its thread (Table 4-4, rows 2 and 7): the reads are
bound, and the strong stores that may be to bytes of this device are performed, through the loop-back too (R138).
(DEDUCED, log entry 31.) -/
def commandMay (th : Thread) (seq : Nat) : Bool :=
  (olderOps seq th.ops).all fun x => x.performed || (x.bound && olderRead x) ||
    !(olderRead x || x.kind = 0x21 || ((x.kind = 0x22 || x.kind = 0x23) && loopsBack x))
/-- A matrix command removed, as one that has failed. -/
def mxDrop (s : State) (core id : Nat) : State := s.modCore core fun k => { k with mxq := k.mxq.filter fun m => m.id != id }
/-- A matrix command changed. -/
def mxMod (s : State) (core id : Nat) (f : MxCmd → MxCmd) : State :=
  s.modCore core fun k => { k with mxq := k.mxq.map fun m => if m.id = id then f m else m }
/-- A command that fails before its acceptance: the faulting entry, and no command of a batch (R303, R307). -/
def mxFails (s : State) (core : Nat) (m : MxCmd) (cause : Nat) (addr : DWord) : State :=
  let s := failOp (mxDrop s core m.id) m.thread m.seq.toNat cause addr
  settleBatches (dropCmds s m.train [m.id]) m.train 9
/-- Step 5 of R303: the block and the scales kept as they stand (R304). -/
def mxSample (s : State) (m : MxCmd) (pb : BitVec 512) : MxCmd :=
  let rows := scaleRegs pb
  let mm := fld pb 38 32
  { m with
    sampled := true, pb := pb, sa := (rows.take mm).flatMap (scaleBytes s m.train), sb := (rows.drop mm).flatMap (scaleBytes s m.train) }
/-- Steps 6 and 7 of R303 for a sampled command, once no pin count is full: it is pinned and accepted, or it waits as it is. -/
def mxEnter (s : State) (core : Nat) (m : MxCmd) : State :=
  if pinsFull (s.core core) (mxLines m.pb) then mxMod s core m.id fun _ => m
  else
    let q := pinLinesOf (s.core core) (mxLines m.pb)
    let s := mxMod (s.modCore core fun _ => q.1) core m.id fun _ => { m with accepted := true, pins := q.2, lost := pinsLost q.1 q.2 }
    resolveOp s m.thread m.seq.toNat

/-! Matrix commands executed (R223, R299, R305, R306). -/

/-- The matrix command that the engine of a core runs (R305). -/
def mxHead? (k : Core) : Option MxCmd := k.mxq.find? fun m => m.accepted && !m.done
/-- The rows of a scratch operand in what the command has read. -/
def scrRows (read : Memory) (base ld rows len : Nat) : List (List Byte) := (upTo rows).map fun i => memReadN read (base + i * ld) len
/-- The rows of a device operand read by the engine. -/
def devRows (s : State) (core ctx lid : Nat) (who : Nat × Nat) (base ld len : Nat) : Nat → Nat → List (List Byte) → State × Except EngRes (List (List Byte))
  | 0, _, acc => (s, .ok acc)
  | n + 1, i, acc =>
    let q := engRead s core ctx lid false who (base + i * ld) len
    match q.2 with
    | .ok b => devRows q.1 core ctx lid who base ld len n (i + 1) (acc ++ [b])
    | x => (q.1, .error x)
/-- The format that a command accumulates in (R299). -/
def mxAccFmt (fmt : Nat) : Fmt := if fmt = 5 then fp64 else fp32
/-- An element of an operand as a value (R301). -/
def mxElem (fmt : Nat) (b : List Byte) : FV :=
  let x := natOfBytes b
  if fmt = 0 then d8Value (BitVec.ofNat 8 x)
  else unpackFV (if fmt = 2 then fp16 else if fmt = 3 then bf16 else if fmt = 4 then fp32 else fp64) x
/-- An element of a row. -/
def rowElem (e : Nat) (row : List Byte) (i : Nat) : List Byte := (row.drop (i * e)).take e
/-- A word of a tile through the down-converter, as the bytes of an element (R306). -/
def downConvert (pb : BitVec 512) (w : Word) : List Byte :=
  let rz := decide (fld pb 9 9 = 1)
  if fld pb 11 10 = 0 then bytesOfNat 2 (fCvt fp32 bf16 rz w.toNat).1
  else if fld pb 11 10 = 1 then bytesOfNat 2 (fCvt fp32 fp16 rz w.toNat).1
  else bytesOfNat 1 (d8Encode (unpackFV fp32 w.toNat)).1.toNat
/-- The rows of an operand in an accumulator tile. -/
def tileRows (k : Core) (tile : Nat) (pb : BitVec 512) : List (List Byte) :=
  (upTo (fld pb 38 32)).map fun i => (upTo (fld pb 56 48)).flatMap fun j => downConvert pb (tileWord k tile i j)

/-- A scale byte clamped (R222). -/
def scaleOf (b : Byte) : Int := max (-40) (min 40 b.toInt)
/-- The scale of row or column `i` in block `j`. -/
def scaleAt (l : List Byte) (bs i j : Nat) : Int := scaleOf (l.getD (8 * i + 4 * bs + j) 0)
/-- A list cut into groups. -/
def chunks {α : Type} (n : Nat) : Nat → List α → List (List α)
  | 0, _ => []
  | f + 1, l => l.take n :: chunks n f (l.drop n)
/-- One group's sum, scaled and rounded: T[g] with its flags (R223). -/
def mxGroup (f : Fmt) (d8 : Bool) (scale : Int) (l : List (FV × Word)) : Nat × Word :=
  let r := fvSum l
  let v := if d8 then fvScale10 scale r.1 else r.1
  let p := packFV f false v
  (p.1, r.2 ||| p.2 ||| flagIf (isNaN v) fNV)
/-- One step of the accumulation (R223). -/
def mxStep (f : Fmt) (a t : Nat × Word) : Nat × Word :=
  let r := fAdd f false a.1 t.1
  (r.1, a.2 ||| t.2 ||| r.2)
/-- The accumulated groups (R223). -/
def mxFold (f : Fmt) (old : Option Nat) (l : List (Nat × Word)) : Nat × Word :=
  match old with
  | some o => l.foldl (mxStep f) (o, 0)
  | none => match l with
    | [] => (0, 0)
    | t :: r => r.foldl (mxStep f) t

/-- An element of the destination computed from a row of A and a column of B (R223). -/
def mxOut (pb : BitVec 512) (sa sb : List Byte) (i j : Nat) (old : Option Nat) (a b : List (List Byte)) : Nat × Word :=
  let fmt := fld pb 3 0
  if fmt = 1 then
    let p := (a.zip b).map fun x => (BitVec.ofNat 8 (natOfBytes x.1)).toInt * (BitVec.ofNat 8 (natOfBytes x.2)).toInt
    ((BitVec.ofInt 32 (p.foldl (· + ·) 0) + BitVec.ofNat 32 (old.getD 0)).toNat, 0)
  else
    let kg := if fmt = 0 then 8 else if fmt ≤ 3 then 4 else 1
    let f := mxAccFmt fmt
    let p := (a.zip b).map fun x => fvMul (mxElem fmt x.1) (mxElem fmt x.2)
    let gs := (chunks kg (p.length / kg) p).zipIdx.map fun g =>
      mxGroup f (fmt = 0) (scaleAt sa (fld pb 5 5) i (g.2 * 8 / 32) + scaleAt sb (fld pb 5 5) j (g.2 * 8 / 32)) g.1
    mxFold f old gs

/-- The old value of an element of the destination (R299). -/
def accRead (k : Core) (tile fmt i j : Nat) : Nat :=
  if fmt = 5 then (tileWord k (tile + j / 32) i (2 * (j % 32) + 1) ++ tileWord k (tile + j / 32) i (2 * (j % 32))).toNat
  else (tileWord k (tile + j / 64) i (j % 64)).toNat
/-- An element of the destination written (R299, R305). -/
def accWrite (k : Core) (tile fmt i j v : Nat) : Core :=
  if fmt = 5 then
    tilePut (tilePut k (tile + j / 32) i (2 * (j % 32)) (BitVec.ofNat 32 v)) (tile + j / 32) i (2 * (j % 32) + 1)
      (BitVec.ofNat 32 (v / 2 ^ 32))
  else tilePut k (tile + j / 64) i (j % 64) (BitVec.ofNat 32 v)
/-- The whole destination written from the rows of A and B; the flags of every element together. -/
def mxWrite (pb : BitVec 512) (base : Nat) (sa sb : List Byte) (a b : List (List Byte)) (k : Core) : Core × Word :=
  let fmt := fld pb 3 0
  let e := mxEsz fmt
  let kk := fld pb 56 48
  let tile := base + fld pb 19 16
  let cells := (upTo (fld pb 38 32)).flatMap fun i => (upTo (fld pb 47 40)).map fun j => (i, j)
  cells.foldl (fun (x : Core × Word) c =>
    let row := (upTo kk).map fun q => rowElem e (a.getD c.1 []) q
    let col := (upTo kk).map fun q => rowElem e (b.getD q []) c.2
    let old := if fld pb 4 4 = 1 then some (accRead k tile fmt c.1 c.2) else none
    let r := mxOut pb sa sb c.1 c.2 old row col
    (accWrite x.1 tile fmt c.1 c.2 r.1, x.2 ||| r.2)) (k, 0)

/-- The rows of both operands of a command (R138, R301, R306). (DEDUCED, log entry 32.) -/
def mxOperands (s : State) (core : Nat) (m : MxCmd) : State × Except EngRes (List (List Byte) × List (List Byte)) :=
  let pb := m.pb
  let tr := s.train m.train
  let e := mxEsz (fld pb 3 0)
  let kk := fld pb 56 48
  let a := if fld pb 7 6 = 1 then devRows s core tr.ctx tr.launch (metCommand m.id) (fld pb 111 64) (fld pb 207 192) (kk * e) (fld pb 38 32) 0 []
    else if fld pb 7 6 = 0 then (s, .ok (scrRows m.read (fld pb 111 64) (fld pb 207 192) (fld pb 38 32) (kk * e)))
    else (s, .ok (tileRows (s.core core) (tr.tile + fld pb 23 20) pb))
  match a.2 with
  | .error x => (a.1, .error x)
  | .ok la =>
    let n := fld pb 47 40 * e
    let b := if fld pb 8 8 = 1 then devRows a.1 core tr.ctx tr.launch (metCommand m.id) (fld pb 175 128) (fld pb 223 208) n kk 0 []
      else (a.1, .ok (scrRows m.read (fld pb 175 128) (fld pb 223 208) kk n))
    match b.2 with
    | .error x => (b.1, .error x)
    | .ok lb => (b.1, .ok (la, lb))

/-! Copy commands (R315 to R318). -/

/-- Elements of the box in a dimension; 1 beyond DIMS. -/
def boxOf (r : BitVec 512) (d : Nat) : Nat := if d < fld r 52 50 then fld r (455 + 8 * d) (448 + 8 * d) + 1 else 1
/-- The elements of the box. -/
def boxTotal (r : BitVec 512) : Nat := boxOf r 0 * boxOf r 1 * boxOf r 2 * boxOf r 3 * boxOf r 4
/-- The element size. -/
def cpEsz (r : BitVec 512) : Nat := 2 ^ fld r 49 48
/-- The byte stride of a dimension. -/
def strideOf (r : BitVec 512) (d : Nat) : Nat := if d = 0 then cpEsz r else fld r (287 + 40 * d) (248 + 40 * d)
/-- The extent of a dimension. -/
def extentOf (r : BitVec 512) (d : Nat) : Nat := fld r (159 + 32 * d) (128 + 32 * d)
/-- The box coordinates of a position, dimension 0 varying fastest. -/
def boxCoord (r : BitVec 512) (p d : Nat) : Nat :=
  p / ((upTo d).foldl (fun a i => a * boxOf r i) 1) % boxOf r d
/-- A tensor coordinate of a position. -/
def tensorCoord (m : CpCmd) (p d : Nat) : Int := (m.coords.getD d 0).toInt + boxCoord m.shape p d
/-- Whether a position lies inside the tensor. -/
def cpInside (m : CpCmd) (p : Nat) : Bool :=
  (upTo (fld m.shape 52 50)).all fun d => decide (0 ≤ tensorCoord m p d) && decide (tensorCoord m p d < extentOf m.shape d)
/-- The tensor address of an inside position. -/
def tensorAddr (m : CpCmd) (p : Nat) : Nat :=
  fld m.shape 47 0 + ((upTo (fld m.shape 52 50)).map fun d => strideOf m.shape d * (tensorCoord m p d).toNat).foldl (· + ·) 0
/-- The first byte of the box. -/
def boxBase (m : CpCmd) : Nat := fld m.shape 111 64 + (m.coords.getD 5 0).toNat
/-- The box address of a position. -/
def boxAddr (m : CpCmd) (p : Nat) : Nat := boxBase m + cpEsz m.shape * p
/-- The bytes of the box. -/
def boxBytes (m : CpCmd) : Nat := cpEsz m.shape * boxTotal m.shape
/-- Whether the box side is the device space. -/
def boxDevice (m : CpCmd) : Bool := fld m.shape 53 53 = 1
/-- The inside positions. -/
def insides (m : CpCmd) : List Nat := (upTo (boxTotal m.shape)).filter (cpInside m)
/-- Whether the fields of a shape record are rejected, its positions apart (R317). -/
def shapeBad (r : BitVec 512) : Bool :=
  let n := cpEsz r
  let dims := fld r 52 50
  fld r 511 488 != 0 || fld r 127 112 != 0 || fld r 63 54 != 0 || dims = 0 || decide (5 < dims) ||
    ((upTo 5).any fun d => decide (dims ≤ d) &&
      (extentOf r d != 0 || fld r (455 + 8 * d) (448 + 8 * d) != 0 || (d != 0 && strideOf r d != 0))) ||
    fld r 47 0 % n != 0 || ((upTo 5).any fun d => strideOf r d % n != 0) || decide (2 ^ 18 < n * boxTotal r)
/-- Whether a device box meets the interval of the inside tensor elements (R317). -/
def boxMeets (m : CpCmd) : Bool :=
  match (insides m).map (tensorAddr m) with
  | [] => false
  | a :: r =>
    let lo := r.foldl min a
    let hi := r.foldl max a
    rangesMeet (boxBase m) (boxBytes m) lo (hi + cpEsz m.shape - lo)
/-- Whether a shape record or its command is rejected (R317). -/
def cpBad (tr : Train) (m : CpCmd) : Bool :=
  shapeBad m.shape || boxBase m % cpEsz m.shape != 0 || m.counter.toNat % 8 != 0 ||
    (if boxDevice m then decide (2 ^ 48 < boxBase m + boxBytes m) || boxMeets m
     else decide (boxBase m < tr.sbase) || decide (tr.sbase + tr.slen < boxBase m + boxBytes m))

/-- A number placed in an ascending list without repeats. -/
def insertNat (x : Nat) : List Nat → List Nat
  | [] => [x]
  | y :: r => if x < y then x :: y :: r else if x = y then y :: r else y :: insertNat x r
/-- The virtual lines of the device destination, ascending (R318). -/
def destLines (m : CpCmd) : List Nat :=
  if m.store then (insides m).foldl (fun l p => insertNat (tensorAddr m p / 128) l) []
  else if boxDevice m then scrRange (boxBase m) (boxBase m + boxBytes m)
  else []
/-- The scratch lines to fill, or to pin. -/
def boxLines (m : CpCmd) : List Nat := if boxDevice m then [] else scrRange (boxBase m) (boxBase m + boxBytes m)
/-- Whether a destination line holds a command of a core's engine: another engine owns it, this one has given it up and its notice is on
the way, or it cannot be taken yet (step 1 of R318). -/
def destHeld (s : State) (core line : Nat) : Bool :=
  let e := dirGet s line
  if e.eo then !(e.ecore = core && engineHolds (s.core core) line) else !canTake s core line
/-- The device destination lines translated for writing, in ascending address: each physical line with its virtual one, or the first
outcome that is no line (step 1 of R318). A failure names the address the operation named, its record, or the table entry of a walk
(Table 9-12). (DEDUCED, log entry 24.) -/
def destTranslate (s : State) (core ctx lid named id : Nat) : List Nat → List (Nat × Nat) → State × Except EngRes (List (Nat × Nat))
  | [], acc => (s, .ok acc)
  | l :: r, acc =>
    if 2 ^ 41 ≤ l then (s, .error (.fail 6 named))
    else
      let q := translateEng s core ctx (l * 128) .write
      match q.2 with
      | .ok pa _ _ _ => if destHeld q.1 core (pa / 128) then (q.1, .error .wait) else destTranslate q.1 core ctx lid named id r (acc ++ [(pa / 128, l)])
      | .missing =>
        let e := metMissing q.1 core ctx lid (l / 512) true (metCommand id)
        (e.1, .error (if e.2 then .fail 5 named else .stall))
      | .fail c f => (q.1, .error (.fail c (if f = l * 128 then named else f)))
      | _ => (q.1, .error .wait)
/-- Lines taken one after another, those that the core's engine owns already as they are; none where one has to wait. -/
def takeLines (s : State) (core : Nat) : List Nat → Option State
  | [] => some s
  | l :: r =>
    if destHeld s core l then none
    else takeLines (if (dirGet s l).eo then s else takeLine s core l) core r
/-- A scratch line offered as a fill: its presence is cleared (R46). -/
def offerFill (id : Nat) (k : Core) (l : Nat) : Core := scrPut k l { scrGet k l with present := false, fill := some id, cause := 0 }
/-- A copy command changed. -/
def cpMod (s : State) (core id : Nat) (f : CpCmd → CpCmd) : State :=
  s.modCore core fun k => { k with cpq := k.cpq.map fun m => if m.id = id then f m else m }
/-- A copy command removed. -/
def cpDrop (s : State) (core id : Nat) : State := s.modCore core fun k => { k with cpq := k.cpq.filter fun m => m.id != id }
/-- A copy command whose destination lines have been taken offers its fills and takes its sources, and resolves (R318); accepted commands
stand before the others, in acceptance order (R319). -/
def cpEnter (s : State) (core : Nat) (m : CpCmd) (owned : List (Nat × Nat)) : State :=
  let fills := if m.store then [] else boxLines m
  let q := pinLinesOf (fills.foldl (offerFill m.id) (s.core core)) (if m.store then boxLines m else [])
  let m' := { m with accepted := true, owned := owned, fills := fills, pins := q.2, stop := pinsLost q.1 q.2 }
  let s := s.modCore core fun _ =>
    { q.1 with cpq := (q.1.cpq.filter fun x => x.accepted) ++ [m'] ++ q.1.cpq.filter fun x => !x.accepted && x.id != m.id }
  resolveOp s m.thread m.seq.toNat

/-! Copy commands executed (R316, R319, R320). -/

/-- The copy command that the engine of a core runs. -/
def cpHead? (k : Core) : Option CpCmd := k.cpq.find? fun m => m.accepted
/-- The physical lines that a command owns. -/
def ownLines (m : CpCmd) : List Nat := m.owned.map (·.1)
/-- An element read at its source: the tensor for a gather; for a scatter the box, in the device space or as it was read from scratch. -/
def cpSource (s : State) (core : Nat) (m : CpCmd) (p : Nat) : State × EngRes :=
  let tr := s.train m.train
  let n := cpEsz m.shape
  if m.store then
    if boxDevice m then engRead s core tr.ctx tr.launch true (metCommand m.id) (boxAddr m p) n else (s, .ok (memReadN m.read (boxAddr m p) n))
  else if cpInside m p then engRead s core tr.ctx tr.launch true (metCommand m.id) (tensorAddr m p) n
  else (s, .ok (List.replicate n 0))
/-- The bytes that positions bring to their places, or the first outcome that is no bytes. -/
def cpGather (s : State) (core : Nat) (m : CpCmd) (dst : Nat → Nat) : List Nat → SMap Byte → State × Except EngRes (SMap Byte)
  | [], acc => (s, .ok acc)
  | p :: r, acc =>
    let q := cpSource s core m p
    match q.2 with
    | .ok b => cpGather q.1 core m dst r ((b.zipIdx.foldl (fun a x => mapSet a (dst p + x.2) x.1) acc))
    | x => (q.1, .error x)
/-- The positions whose destination lies in given lines. -/
def cpPositions (m : CpCmd) (lines : List Nat) : List Nat :=
  if m.store then (insides m).filter fun p => lines.contains (tensorAddr m p / 128)
  else (upTo (boxTotal m.shape)).filter fun p => lines.contains (boxAddr m p / 128)
/-- The bytes that a command writes to destination lines, by address. (DEDUCED, log entry 30.) -/
def cpBytes (s : State) (core : Nat) (m : CpCmd) (lines : List Nat) : State × Except EngRes (SMap Byte) :=
  cpGather s core m (fun p => if m.store then tensorAddr m p else boxAddr m p) (cpPositions m lines) []
/-- A late pin that becomes an early one when its line arrives (R46). -/
def pinArrives (line : Nat) (l : List Nat) : List Nat := l.map fun p => if p = 2 * line + 1 then 2 * line else p
/-- A filled scratch line: written and present, its late count moved to the early one (R46). -/
def fillLine (k : Core) (line : Nat) (b : SMap Byte) : Core :=
  let x := scrGet k line
  let k := { k with
    scratch := b.foldl (fun m p => memWrite m p.1 p.2) k.scratch
    mxq := k.mxq.map fun m => { m with pins := pinArrives line m.pins }
    cpq := k.cpq.map fun m => { m with pins := pinArrives line m.pins, fills := m.fills.filter fun l => !(x.fill = some m.id && l = line) } }
  scrPut k line { x with present := true, early := x.late, late := 0, fill := none, cause := 0 }
/-- The 128 bytes of a pinned line read by a command, and its pin removed (R46, R305). -/
def readPinned (k : Core) (line : Nat) : Core × List Byte := (unpin k (2 * line), memReadN k.scratch (line * 128) 128)

/-- The completion counter of a command changed by a strong atomic at its home's service train, where one is named: whether it waits. The
value is one that a strong read of it reads the phase clock for (R132, R139, R320, R408, R410). -/
def cpCounter (s : State) (core : Nat) (m : CpCmd) (f : DWord → DWord) : State × EngRes :=
  if m.counter = 0 then (s, .ok [])
  else
    let tr := s.train m.train
    let r := translateEng s core tr.ctx m.counter.toNat .write
    match r.2 with
    | .ok pa _ _ _ =>
      if lineWaits r.1 (pa / 128) true ∨ atomAdmits r.1 (pa / 128) (nameOf r.1 m.thread) 0xFF = false then (r.1, .wait)
      else
        let s := writeClocks r.1 core 3 (r.1.core core).lt
        let q := physRead s pa 8
        let v := f (dwordOfBytes q.2)
        let s := physWrite q.1 core pa (bytesOfDWord v)
        (atomLogged { s with handOvers := mapSet s.handOvers pa (3, v) } (pa / 128) (nameOf s m.thread) 0xFF, .ok [])
    | .missing => engMissing r.1 core tr.ctx tr.launch m.counter.toNat true (metCommand m.id)
    | .fail c a => (r.1, .fail c a)
    | _ => (r.1, .wait)
/-- Fills that will not come: their lines stay absent with no fill pending, and every command that waits for one of them under a late pin
has lost it (R46, R50). -/
def loseFills (k : Core) (l : List Nat) (cause : Nat) : Core :=
  let late := fun (pins : List Nat) => (l.find? fun i => pins.contains (2 * i + 1)).map fun i => (cause, i * 128)
  let k := l.foldl (fun k i => scrPut k i { scrGet k i with fill := none, cause := cause }) k
  { k with
    mxq := k.mxq.map fun m => { m with lost := match m.lost with
      | some x => some x
      | none => late m.pins }
    cpq := k.cpq.map fun m => { m with stop := match m.stop with
      | some x => some x
      | none => late m.pins } }
/-- A command stopped, and out of the queue: pins and owned lines given back, the lines it did not fill left absent with no fill pending
(R50, R320). -/
def cpRelease (s : State) (core : Nat) (m : CpCmd) (cause : Nat) : State :=
  let s := cpDrop s core m.id
  giveUp (s.modCore core fun k => loseFills (m.pins.foldl unpin k) m.fills cause) core ((ownLines m).map fun l => (m.id, l))
/-- Why the head copy command stops: a failed fill's cause and address, or a source of an owned line that fails (R320). -/
def cpStop (s : State) (core : Nat) (m : CpCmd) : State × Option (Nat × Nat) :=
  match m.stop with
  | some x => (s, some x)
  | none =>
    if m.owned = [] ∨ m.pins ≠ [] then (s, none)
    else
      let r := cpBytes s core m (m.owned.map (·.2))
      match r.2 with
      | .error (.fail c f) => (r.1, some (c, f))
      | _ => (s, none)
/-- A command's stop: its lines are given back and the stop is traced; without a counter that shows it its train's task is killed (R313,
R320). -/
def cpStopped (s : State) (core : Nat) (m : CpCmd) (c a : Nat) (shown : Bool) : State :=
  let s := trace (cpRelease s core m c) { actorOf s m.thread with core := core } 0x06 c 0 (BitVec.ofNat 64 a)
  if shown then s else taskKill s m.train 2

/-! The Escapement and the Regulator. -/

/-- The place of an operation of the Escapement in its group: 1 where an older lane of the same bundle still waits.
(DEDUCED, log entry 42.) -/
def escFirst (s : State) (t : Nat) (o : Op) : Bool :=
  let d := s.dieOf t
  let tr := s.trainOf t
  !(s.threads.any fun p =>
    p.1 != t && decide (s.dieOf p.1 = d) && (s.trainOf p.1).core = tr.core && (s.trainOf p.1).quarter = tr.quarter &&
      decide (p.2.lane < (s.thread t).lane) &&
      p.2.ops.any fun x => x.kind = 0x60 && x.group = o.group && (x.phase = .unitWait || x.phase = .roomWait) &&
        escStream x.insn = escStream o.insn)
/-- An operation of the Escapement arrives at its stream. -/
def escArrive (s : State) (t : Nat) (o : Op) (n : Nat) : State :=
  let d := s.dieOf t
  let x := streamGet s d n
  let x := match escBodies o.insn with
    | some k => if o.phase = .unitWait then x.unreserve k else x
    | none => x
  let gate := streamGate d n
  match x.arrive o.insn o.data (s.launchOf t) with
  | some y => resolveOp (gatePass (logEvent (streamMoves s d n y) d gate t 1) gate) t o.seq.toNat
  | none => failOp (streamPut s d n x) t o.seq.toNat 14 0

/-- Whether a queue configuration record is rejected (R340, Table 13-6); one whose spill area passes 2^48 is, too. (DESIGN CHOICE, log entry
79.) -/
def cfgBad (x : XQueue) (r : BitVec 256) : Bool :=
  let home := fld r 70 64
  fld r 167 160 != 0 || fld r 119 71 != 0 || fld r 63 16 != 0 || fld r 12 12 != 0 || fld r 223 208 != 0 || fld r 191 168 = 0 ||
    fld r 159 144 = 0 || decide (256 < fld r 159 144) || fld r 143 128 = 0 || decide (4096 < fld r 143 128) || decide (95 < home) ||
    decide (2 ^ 48 < fld r 255 208 + fld r 207 192 * 2 ^ 16) ||
    (!x.tokens.isEmpty && (fld x.cfg 70 64 != home || fld r 13 13 = 0))
/-- `xq.cfg` accepted (R340). -/
def acceptCfg (s : State) (t : Nat) (o : Op) : State × EngRes :=
  let core := s.coreOf t
  let r := engRead s core (s.ctxOf t) (s.launchOf t) false (metRegulator t) o.addr.toNat 32
  match r.2 with
  | .ok b =>
    let c := BitVec.ofNat 256 (natOfBytes b)
    let q := fld c 11 0
    let x := queueGet r.1 q
    if cfgBad x c then (failOp r.1 t o.seq.toNat 16 o.addr, .ok [])
    else
      -- tokens that the queue holds count for the new launch from here on (R363, R364)
      let s' := queuePut r.1 q { x with cfg := c, launch := s.launchOf t }
      (resolveOp (settleCounts r.1 s' x.launch) t o.seq.toNat, .ok [])
  | .fail c f => (failOp r.1 t o.seq.toNat c (BitVec.ofNat 64 f), .ok [])
  | x => (r.1, x)
/-- A local `xq.in` accepted (R341, R342). -/
def acceptIn (s : State) (t : Nat) (o : Op) : State × EngRes :=
  let q := acceptToken s Config.deviceId ((wordOfBytes o.data).toNat % 4096) (wordsOfBytes 8 (o.data.drop 4))
  match q.2 with
  | .accepted => (resolveOp q.1 t o.seq.toNat, .ok [])
  | .wait => (q.1, .stall)
  | .fail c => (failOp q.1 t o.seq.toNat c 0, .ok [])
/-- The place of one of the two addresses of a local `xq.done`: translated for a write, and not waited for. -/
def acceptPlace (s : State) (t a : Nat) : State × Except EngRes Nat :=
  if 2 ^ 48 < a + 8 then (s, .error (.fail 6 a))
  else
    let r := translateEng s (s.coreOf t) (s.ctxOf t) a .write
    match r.2 with
    | .ok pa _ _ _ => if lineWaits r.1 (pa / 128) true then (r.1, .error .wait) else (r.1, .ok pa)
    | .missing =>
      let e := engMissing r.1 (s.coreOf t) (s.ctxOf t) (s.launchOf t) a true (metRegulator t)
      (e.1, .error e.2)
    | .fail c f => (r.1, .error (.fail c f))
    | _ => (r.1, .error .wait)
/-- A local `xq.done` performed: both addresses translated, then the data stored and the counter decremented at its home's service train; a
strong read that sees the counter at zero reads the device's phase clock (R132, R346, R408). -/
def acceptDone (s : State) (t : Nat) (o : Op) : State × EngRes :=
  let core := s.coreOf t
  let e := natOfBytes o.value
  let comb := e / 2 ^ 208
  let a := acceptPlace s t (comb + 8 + 8 * (e / 2 ^ 48 % 8))
  match a.2 with
  | .error (.fail c f) => (failOp a.1 t o.seq.toNat c (BitVec.ofNat 64 f), .ok [])
  | .error x => (a.1, x)
  | .ok pa =>
    let b := acceptPlace a.1 t comb
    match b.2 with
    | .error (.fail c f) => (failOp b.1 t o.seq.toNat c (BitVec.ofNat 64 f), .ok [])
    | .error x => (b.1, x)
    | .ok pb =>
      if lineWaits b.1 (pa / 128) true ∨ atomAdmits b.1 (pb / 128) (nameOf s t) (auxOf s t) = false then (b.1, .wait)
      else
        let s := physWrite b.1 core pa o.data
        let q := physRead s pb 8
        let v := dwordOfBytes q.2 - 1
        let s := physWrite q.1 core pb (bytesOfDWord v)
        let s := if v = 0 then { s with handOvers := mapSet s.handOvers pb (4, v) } else s
        (resolveOp (atomLogged s (pb / 128) (nameOf s t) (auxOf s t)) t o.seq.toNat, .ok [])

/-- Spilled tokens read back (R342). -/
def readBack (s : State) (x : XQueue) (ctx : Nat) : List Token → List Token → State × Except (Nat × TrRes) (List Token)
  | [], acc => (s, .ok acc)
  | k :: r, acc =>
    if !k.spilled then readBack s x ctx r (acc ++ [k])
    else
      let va := fld x.cfg 255 208 + 32 * k.spot
      let q := virtRead s (some (fld x.cfg 70 64)) ctx va 4
      match q.2 with
      | .ok b => readBack q.1 x ctx r (acc ++ [entryToken b k.at'])
      | .error e => (q.1, .error (va, e))
/-- The task record of a firing (R343). -/
def fireRecord (l : Launch) (x : XQueue) (q idx n : Nat) : BitVec 512 :=
  BitVec.ofNat 512 (fld x.cfg 127 120 * 2 ^ 312 + n * 2 ^ 192 + idx * 2 ^ 160 + q * 2 ^ 128 + fld l.header 463 416 * 2 ^ 64)

/-- The data of a fill reaches a scratch line whose early count is zero: the line is written and present (R46, R316). -/
def execScratchFillArrival (core line : Nat) (s : State) : Host.Outcome State Fault Refusal :=
  match cpHead? (s.core core) with
  | none => notEnabled "SCRATCH_FILL_ARRIVAL"
  | some m =>
    let x := scrGet (s.core core) line
    if m.stop.isSome || !m.fills.contains line || x.early != 0 then notEnabled "SCRATCH_FILL_ARRIVAL"
    else
      let r := cpBytes s core m [line]
      match r.2 with
      | .ok b => .next (r.1.modCore core fun k => fillLine k line b)
      | .error .stall => .next r.1
      | .error _ => notEnabled "SCRATCH_FILL_ARRIVAL"

/-- The command that an engine runs has read a scratch line that it pinned while the line was present (R46, R305); the matrix engine's
command comes before the copy engine's where both have pinned the line. -/
def execEngineReadDone (core line : Nat) (s : State) : Host.Outcome State Fault Refusal :=
  let k := s.core core
  let mx := match mxHead? k with
    | some m => if m.lost.isNone && m.pins.contains (2 * line) then some m else none
    | none => none
  match mx with
  | some m =>
    let q := readPinned k line
    .next (mxMod (s.modCore core fun _ => q.1) core m.id fun m =>
      { m with pins := m.pins.erase (2 * line), read := memWriteN m.read (line * 128) q.2 })
  | none =>
    match cpHead? k with
    | some m =>
      if m.stop.isNone && m.pins.contains (2 * line) then
        let q := readPinned k line
        .next (cpMod (s.modCore core fun _ => q.1) core m.id fun m =>
          { m with pins := m.pins.erase (2 * line), read := memWriteN m.read (line * 128) q.2 })
      else notEnabled "ENGINE_READ_DONE"
    | none => notEnabled "ENGINE_READ_DONE"

/-- A source of a pending fill fails with the cause named: the command stops, the lines it did not fill stay absent with no fill pending, and
the commands that wait for them under a late pin have lost them (R46, R50, R320). -/
def execFillFailure (core line cause : Nat) (s : State) : Host.Outcome State Fault Refusal :=
  match cpHead? (s.core core) with
  | none => notEnabled "FILL_FAILURE"
  | some m =>
    if m.stop.isSome || !m.fills.contains line then notEnabled "FILL_FAILURE"
    else
      let r := cpBytes s core m [line]
      match r.2 with
      | .error (.fail c f) =>
        if c ≠ cause then notEnabled "FILL_FAILURE"
        else
          let s := r.1.modCore core fun k => loseFills k m.fills c
          .next (cpMod s core m.id fun m => { m with fills := [], stop := some (c, f) })
      | _ => notEnabled "FILL_FAILURE"

/-- Whether a store command has still to read scratch bytes of some lines of its box. -/
def readsLeft (m : CpCmd) (vs : List Nat) : Bool :=
  m.store && !boxDevice m && (cpPositions m vs).any fun p => m.pins.any fun x => x / 2 = boxAddr m p / 128
/-- The line written whole by the copy engine that owns it, which gives it up (R91, R137). -/
def storeOwned (s : State) (core line : Nat) (m : CpCmd) (b : List (Nat × Byte)) : State :=
  let b' := b.foldl (fun a x => mapSet a (x.1 % 128) x.2) ([] : SMap Byte)
  giveUp (cpMod (ownWrite s core line b') core m.id fun m => { m with owned := m.owned.filter fun l => l.1 != line }) core [(m.id, line)]
/-- The EDone of a core's engine for a line, where it is the oldest message of its link: taken by the home (R88, R91, R99). -/
def edoneArrives (core line : Nat) (s : State) : Host.Outcome State Fault Refusal :=
  let l := dieLink s (dieOfCore core) (homeDie line)
  match l.fifo with
  | m :: r =>
    if m.kind = .eDone ∧ m.line = line ∧ linkHeld l = false ∧ dieOfCore core ≠ homeDie line then
      .next (takeMsg (dieLinkPut s (dieOfCore core) (homeDie line) { l with fifo := r }) (dieOfCore core) (homeDie line) m)
    else notEnabled "EDONE"
  | [] => notEnabled "EDONE"

/-- The copy engine of a core has written a device line that it owns: the line is written whole, and what waited for it goes on, once the
notice has reached a home on another die (R91, R137). -/
def execEdone (core line : Nat) (s : State) : Host.Outcome State Fault Refusal :=
  match cpHead? (s.core core) with
  | none => edoneArrives core line s
  | some m =>
    let vs := (m.owned.filter fun l => l.1 = line).map (·.2)
    if vs = [] then edoneArrives core line s
    else if m.stop.isSome || readsLeft m vs then notEnabled "EDONE"
    else
      let r := cpBytes s core m vs
      match r.2 with
      | .ok b => .next (storeOwned r.1 core line m b)
      | .error .stall => .next r.1
      | .error _ => notEnabled "EDONE"

/-- Whether every quarter of a core has had its turn in this clock: a command is accepted after the stores that issue in its clock, so that it
reads what they store (R303, R388). -/
def clockIssued (s : State) (core : Nat) : Bool := !((upTo 4).any (quarterDue s core))
/-- The oldest matrix command of a core that is neither accepted, failed nor cancelled takes the steps of R303. A command behind a failed
operation of its thread is cancelled (R241). -/
def execMxAccept (core : Nat) (s : State) : Host.Outcome State Fault Refusal :=
  match (s.core core).mxq.find? fun m => !m.accepted && !cmdCancelled s m with
  | none => notEnabled "MX_ACCEPT"
  | some m =>
    let tr := s.train m.train
    if 32 ≤ ((s.core core).mxq.filter fun x => x.accepted && !x.done).length ∨ !commandMay (s.thread m.thread) m.seq.toNat ∨
        !clockIssued s core then
      notEnabled "MX_ACCEPT"
    else if m.sampled then
      if pinsFull (s.core core) (mxLines m.pb) then notEnabled "MX_ACCEPT" else .next (mxEnter s core m)
    else
      let r := engRead s core tr.ctx tr.launch false (metCommand m.id) m.block.toNat 64
      match r.2 with
      | .wait => notEnabled "MX_ACCEPT"
      | .stall => .next r.1
      | .fail c f => .next (mxFails r.1 core m c (BitVec.ofNat 64 f))
      | .ok b =>
        let pb := BitVec.ofNat 512 (natOfBytes b)
        if mxBad tr pb then .next (mxFails r.1 core m 16 m.block)
        else if scalesComing r.1 m.train pb then notEnabled "MX_ACCEPT"
        else .next (mxEnter r.1 core (mxSample r.1 m pb))

/-- The matrix command that the engine of a core runs writes its destination (R223, R305); its batch may be complete (R308). -/
def execMxCommandDone (core : Nat) (s : State) : Host.Outcome State Fault Refusal :=
  match mxHead? (s.core core) with
  | none => notEnabled "MX_COMMAND_DONE"
  | some m =>
    if m.pins ≠ [] ∨ m.lost.isSome then notEnabled "MX_COMMAND_DONE"
    else
      let r := mxOperands s core m
      match r.2 with
      | .ok (a, b) =>
        let w := mxWrite m.pb (r.1.train m.train).tile m.sa m.sb a b (r.1.core core)
        let s := mxMod (r.1.modCore core fun _ => w.1) core m.id fun m => { m with done := true, flags := w.2 }
        .next (settleBatches s m.train 9)
      | .error .stall => .next r.1
      | .error _ => notEnabled "MX_COMMAND_DONE"

/-- A device operand of the running matrix command fails translation or protection, or an accepted command has lost a scratch line that it
waited for under a late pin: its train's task is killed (R50, R313). -/
def execMxOperandFault (core : Nat) (s : State) : Host.Outcome State Fault Refusal :=
  let k := s.core core
  match (match k.mxq.find? fun m => m.accepted && !m.done && m.lost.isSome with
    | some m => some m
    | none => mxHead? k) with
  | none => notEnabled "MX_OPERAND_FAULT"
  | some m =>
    if m.lost.isSome then .next (taskKill s m.train 1)
    else if m.pins ≠ [] then notEnabled "MX_OPERAND_FAULT"
    else
      let r := mxOperands s core m
      match r.2 with
      | .error (.fail _ _) => .next (taskKill r.1 m.train 1)
      | _ => notEnabled "MX_OPERAND_FAULT"

/-- A copy command that fails at its acceptance: its thread's access fails, and the command is no more (R319). -/
def cpFails (s : State) (core : Nat) (m : CpCmd) (cause : Nat) (faddr : DWord) : State :=
  failOp (cpDrop s core m.id) m.thread m.seq.toNat cause faddr
/-- Whether a copy command waits for its scratch lines: for their pin counts, or for the fills that they hold (R44, R45). -/
def boxBusy (k : Core) (m : CpCmd) : Bool :=
  if m.store then pinsFull k (boxLines m) else (boxLines m).any fun l => (scrGet k l).fill.isSome
/-- A copy command accepted whose shape has been read: the shape judged, its destination translated, its lines pinned and taken. -/
def cpTake (s : State) (core : Nat) (m : CpCmd) : Host.Outcome State Fault Refusal :=
  let tr := s.train m.train
  if cpBad tr m then .next (cpFails s core m 16 m.record)
  else
    let q := destTranslate s core tr.ctx tr.launch m.record.toNat m.id (destLines m) []
    match q.2 with
    | .error (.fail c f) => .next (cpFails q.1 core m c (BitVec.ofNat 64 f))
    | .error .stall => .next q.1
    | .error _ => notEnabled "CP_ACCEPT"
    | .ok owned =>
      if boxBusy (q.1.core core) m then notEnabled "CP_ACCEPT"
      else
        match takeLines q.1 core (distinct (ownLines { m with owned := owned })) with
        | some s => .next (cpEnter s core m owned)
        | none => notEnabled "CP_ACCEPT"
/-- The k-th copy command of a core that is neither accepted nor failed takes its destination and its sources, and resolves (R317,
R318). -/
def execCpAccept (core k : Nat) (s : State) : Host.Outcome State Fault Refusal :=
  match ((s.core core).cpq.filter fun m => !m.accepted)[k]? with
  | none => notEnabled "CP_ACCEPT"
  | some m =>
    let tr := s.train m.train
    if 32 ≤ ((s.core core).cpq.filter fun x => x.accepted).length ∨ !commandMay (s.thread m.thread) m.seq.toNat ∨ !clockIssued s core then
      notEnabled "CP_ACCEPT"
    else
      let r := engRead s core tr.ctx tr.launch true (metCommand m.id) m.record.toNat 64
      match r.2 with
      | .wait => notEnabled "CP_ACCEPT"
      | .stall => .next r.1
      | .fail c f => .next (cpFails r.1 core m c (BitVec.ofNat 64 f))
      | .ok b => cpTake r.1 core { m with shape := BitVec.ofNat 512 (natOfBytes b) }

/-- Every destination write of the running copy command has been performed: its counter rises by 1 (R139, R320). A counter whose page fails
stops the command as one without a counter is stopped. (DEDUCED, log entry 30.) -/
def execCpCommandDone (core : Nat) (s : State) : Host.Outcome State Fault Refusal :=
  match cpHead? (s.core core) with
  | none => notEnabled "CP_COMMAND_DONE"
  | some m =>
    if m.stop.isSome || m.fills != [] || m.owned != [] || m.pins != [] then notEnabled "CP_COMMAND_DONE"
    else
      let r := cpCounter s core m (· + 1)
      match r.2 with
      | .ok _ => .next (cpDrop r.1 core m.id)
      | .stall => .next r.1
      | .fail c a => .next (cpStopped r.1 core m c a false)
      | .wait => notEnabled "CP_COMMAND_DONE"

/-- The running copy command stops: its lines are given back, the stop is traced, and its counter shows it, or without one its train's
task is killed (R320). -/
def execCpFault (core : Nat) (s : State) : Host.Outcome State Fault Refusal :=
  match cpHead? (s.core core) with
  | none => notEnabled "CP_FAULT"
  | some m =>
    let q := cpStop s core m
    match q.2 with
    | none => notEnabled "CP_FAULT"
    | some (c, a) =>
      let r := cpCounter q.1 core m fun x => (x ||| 0x8000000000000000) + 1
      match r.2 with
      | .ok _ => .next (cpStopped r.1 core m c a (m.counter != 0))
      | .stall => .next r.1
      | .fail _ _ => .next (cpStopped r.1 core m c a false)
      | .wait => notEnabled "CP_FAULT"

/-- A push, `esc.open` or `esc.end` of a thread arrives at its stream (R334 to R336, R408, R410). -/
def execEscapementArrival (t seq : Nat) (s : State) : Host.Outcome State Fault Refusal :=
  match opOf? (s.thread t) seq with
  | none => notEnabled "ESCAPEMENT_ARRIVAL"
  | some o =>
    match escStream o.insn with
    | none => notEnabled "ESCAPEMENT_ARRIVAL"
    | some n =>
      let room := o.phase = .unitWait || (o.phase = .roomWait && (match escBodies o.insn with
        | some k => (streamGet s (s.dieOf t) n).room k
        | none => true))
      let older := (olderOps seq (s.thread t).ops).any fun x => x.kind = 0x60 && x.phase != .resolved && escStream x.insn = some n
      if liveThread s t && room && !older && commandMay (s.thread t) seq && escFirst s t o && gateAdmits s (streamGate (s.dieOf t) n) t 1 then
        .next (escArrive s t o n)
      else notEnabled "ESCAPEMENT_ARRIVAL"

/-- A replayed push has waited for room for its thread's watchdog period: it fails with the watchdog cause (R335). -/
def execPushWatchdogExpiry (t seq : Nat) (s : State) : Host.Outcome State Fault Refusal :=
  match opOf? (s.thread t) seq with
  | none => notEnabled "PUSH_WATCHDOG_EXPIRY"
  | some o =>
    let w := (s.thread t).wdog.toNat
    if o.phase = .roomWait ∧ w ≠ 0 ∧ o.since + w * 1024 ≤ s.clk then .next (failOp s t seq 18 0) else notEnabled "PUSH_WATCHDOG_EXPIRY"

/-- A Regulator operation on this device is accepted: a configuration applied, a token queued, a combine slot stored (R340 to R342,
R346). -/
def execTokenAcceptance (t seq : Nat) (s : State) : Host.Outcome State Fault Refusal :=
  match opOf? (s.thread t) seq with
  | none => notEnabled "TOKEN_ACCEPTANCE"
  | some o =>
    if o.kind ≠ 0x61 ∨ o.phase ≠ .unitWait ∨ liveThread s t = false ∨ commandMay (s.thread t) seq = false then notEnabled "TOKEN_ACCEPTANCE"
    else
      let r := match o.insn with
        | .xqCfg _ _ => acceptCfg s t o
        | .xqIn _ _ _ => acceptIn s t o
        | _ => acceptDone s t o
      match r.2 with
      | .ok _ => .next r.1
      | .stall => .next r.1
      | _ => notEnabled "TOKEN_ACCEPTANCE"

/-- A die that has not fired a queue in this clock fires the first of its eligible ones: a task for its oldest tokens is placed on the home
core's queue (R342, R343). -/
def execQueueFiring (die : Nat) (s : State) : Host.Outcome State Fault Refusal :=
  match if (s.die die).firedAt = s.clk + 1 then none else fireQueue s die with
  | none => notEnabled "QUEUE_FIRING"
  | some (q, x) =>
    match s.launch? x.launch with
    | none => notEnabled "QUEUE_FIRING"
    | some l =>
      let home := fld x.cfg 70 64
      let n := min x.tokens.length (fld x.cfg 159 144)
      let idx := (firstFrom (fun i => (mapGet? x.fired i).isNone) 8 0).getD 0
      let b := readBack s x l.ctx (x.tokens.take n) []
      match b.2 with
      | .error (va, .missing) =>
        let e := metMissing b.1 home l.ctx x.launch (va / 2 ^ 16) false (metSpill q)
        .next (if e.2 then launchFail e.1 x.launch 6 { core := home } else e.1)
      | .error (_, .frozen) => notEnabled "QUEUE_FIRING"
      | .error _ => .next (launchFail b.1 x.launch 6 { core := home })
      | .ok ts =>
        let rc := fireRecord l x q idx n
        let e := typeEntry b.1 x.launch home (recType rc)
        match e.2.1 with
        | .wait => .next e.1
        | _ =>
          if e.2.1 = .bad ∨ recordBad rc e.2.2 then .next (launchFail e.1 x.launch 3 { core := home })
          else
            let onChip := ((x.tokens.take n).filter fun k => !k.spilled).length
            let s := (queuePut e.1 q { x with tokens := x.tokens.drop n, fired := mapSet x.fired idx (ts, e.1.clk) }).modDie die fun d =>
              { d with pool := d.pool - onChip, firedAt := s.clk + 1 }
            .next (placeTask s x.launch home rc 0 (some (q, idx)) none)

/-- The firing that is due on a die in this clock: one whose page is not there, or frozen, is tried again in the next (R343, R344). -/
def forcedFiring (die : Nat) (s : State) : Host.Outcome State Fault Refusal :=
  let mark := fun (s : State) => s.modDie die fun d => { d with firedAt := s.clk + 1 }
  match execQueueFiring die s with
  | .next s' => .next (mark s')
  | _ => .next (mark s)

end Sys2Proof.Machine
end

