-- ==== Sys2Proof/Machine/EvFabric.lean ====
section
/-! DEFINITION. The fabric and the host link: requests of other devices, answers, links, domain time, snoops and inbound
accesses (R33, R36, R103 to R107, R140 to R147, R411 to R419). -/

namespace Sys2Proof.Machine
open Sys2Proof

/-! The target of a remote request (R12, R13, R28, R32, R141 to R146). -/

/-- The translation of a page for a remote request: in the job's context, to a leaf with XD set (R12, R13). (DESIGN CHOICE, log entry 17.) -/
def remotePage (s : State) (va : Nat) (acc : Acc) : State × TrRes :=
  match (walk s s.jobCtx va acc).2 with
  | .leaf e _ _ => if fld e 9 9 = 0 then (s, .fail 6 va) else translateSettled s none s.jobCtx va acc
  | _ => translateSettled s none s.jobCtx va acc
/-- What a remote page gives: its physical address and leaf, a cause, or nothing while it is frozen, or its line has to be waited for
(R35, R91). A page that is not there, once the target's system cores have declined it, is the cause of R16. -/
def remotePlace (s : State) (va : Nat) (acc : Acc) : State × Option (Except Nat (Nat × DWord)) :=
  let r := remotePage s va acc
  match r.2 with
  | .ok pa leaf _ _ => if lineWaits r.1 (pa / 128) (acc = .write) then (r.1, none) else (r.1, some (.ok (pa, leaf)))
  | .fail c _ => (r.1, some (.error c))
  | .missing => (r.1, some (.error 5))
  | _ => (r.1, none)

/-- Bytes of one line of device memory written over the fabric: through the loop-back under the logical time of the core that issued the
store (R12, R74), else, for an agent that is no core of the device, under that of the line's home core; and with the device's phase clock
raised to the store's time, so that a boundary that follows a read of it bounds weak loads (R102, R123). (DESIGN CHOICE, log entry 71.) -/
def outerLine (s : State) (core : Option Nat) (line : Nat) (b : SMap Byte) : State :=
  let q := storeHome (settleAll s line true) (core.getD (homeCore line)) line b
  { q.1 with dpc := max q.1.dpc q.2 }
/-- Bytes of device memory written so. (DESIGN CHOICE, log entry 71.) -/
def outerWrite (s : State) (core : Option Nat) (pa : Nat) (bs : List Byte) : State :=
  let c := core.getD (homeCore (pa / 128))
  let s := physWrite s c pa bs
  { s with dpc := max s.dpc (s.core c).lt }
/-- A read of a line over the loop-back returns to the core that issued it: its logical time rises, and a unit that a hand-over has left is
seen (R71, R77, R132). -/
def outerRead (s : State) (core : Option Nat) (line : Nat) (units : List (Nat × List Byte)) : State :=
  match core with
  | none => s
  | some c => units.foldl (fun s u => sawHandOvers s c (line * 128 + u.1 % 128) u.2 4) (raiseLt s c (l2Get s line).wts)
/-- The accesses of a request, lane by lane: address, length and data (R56). -/
abbrev Accs := List (Nat × Nat × List Byte)
/-- The contributions of a request to a line at its home's service train. -/
def contributions (op : BitVec 4) (w64 : Bool) (l : Accs) : List AtomReq :=
  let n := if w64 then 8 else 4
  l.zipIdx.map fun x =>
    let b := x.1.2.2.drop (if op = 9 then n else 0)
    { thread := 0, seq := 0, group := 0, pa := x.1.1, op := op, w64 := w64, b := dwordOfBytes (b.take n),
      cmp := dwordOfBytes (x.1.2.2.take n), lane := x.2 }
/-- The old values that lanes receive, as bytes. -/
def oldBytes (l : List (AtomReq × DWord)) : List Byte := l.flatMap fun x => (bytesOfDWord x.2).take (if x.1.w64 then 8 else 4)

/-- Two places translated before either is touched; then the data is written and the aligned word changed, which is a contribution at its
home's service train under the name of the request (R143, R346, R408). A combine counter that reaches zero hands over (R132). -/
def performPair (s : State) (core : Option Nat) (names : List (DWord × Nat)) (va aux : Nat) (data : List Byte) (f : DWord → DWord) (hands : Bool) :
    State × Option FabAns :=
  let a := remotePlace s va .write
  match a.2 with
  | none => (a.1, none)
  | some (.error c) => (a.1, some (.fail c))
  | some (.ok (pa, _)) =>
    let b := remotePlace a.1 aux .write
    match b.2 with
    | none => (b.1, none)
    | some (.error c) => (b.1, some (.fail c))
    | some (.ok (pb, _)) =>
      if lineWaits b.1 (pa / 128) true || !namesAdmit b.1 (pb / 128) (names.take 1) then (b.1, none)
      else
        let q := physRead (outerWrite b.1 core pa data) pb 8
        let v := f (dwordOfBytes q.2)
        let s := namesLogged (outerWrite q.1 core pb (bytesOfDWord v)) (pb / 128) (names.take 1)
        (if hands ∧ v = 0 then { s with handOvers := mapSet s.handOvers pb (4, v) } else s, some (.ok []))

/-- One remote request performed at its target under the names of its lanes, and for the loop-back by the core that issued it: its answer,
the lanes' bytes one after another or a line, or none while it must wait. -/
def performRemote (s : State) (core : Option Nat) (names : List (DWord × Nat)) (src : Nat) (kind : ReqKind) (l : Accs) (aux : DWord) : State × Option FabAns :=
  let va := (l.map (·.1)).headD 0
  let data := (l.map (·.2.2)).headD []
  let place := fun (acc : Acc) (f : State → Nat → DWord → State × Option FabAns) =>
    let a := remotePlace s va acc
    match a.2 with
    | none => (a.1, none)
    | some (.error c) => (a.1, some (.fail c))
    | some (.ok (pa, leaf)) => f a.1 (pa / 128) leaf
  match kind with
  | .load => place .read fun s line _ =>
      let q := settleRead s line
      let us := l.map fun x => (x.1, (q.2.drop (x.1 % 128)).take x.2.1)
      (outerRead q.1 core line us, some (.ok (us.flatMap (·.2))))
  | .fill => place .read fun s line leaf =>
      -- a page with RM = 1 is answered with a line that is not retained (R32)
      let q := settleRead s line
      (outerRead q.1 core line (l.map fun x => (x.1, (q.2.drop (x.1 % 128)).take x.2.1)), some (if fld leaf 10 10 = 0 then .ok q.2 else .noRetain q.2))
  | .store => place .write fun s line _ => (outerLine s core line (l.flatMap fun x => lineBytes x.1 x.2.2), some (.ok []))
  | .masked m => place .write fun s line _ => (outerLine s core line (bytesUnder data m), some (.ok []))
  | .atomic op w64 => place .write fun s line _ =>
      if namesAdmit s line names then
        let q := settleRead s.fresh line
        let rs := contributions op w64 l
        let w := atomServe q.1 line q.2 rs
        let s := outerLine q.1 core line (bytesUnder w.1 (atomMask rs))
        let s := match core with
          | some c => rs.foldl (fun s r => sawHandOver s c (line * 128 + r.pa % 128) ((q.2.drop (r.pa % 128)).take (if w64 then 8 else 4))) s
          | none => s
        (namesLogged s line names, some (.ok (oldBytes w.2)))
      else (s, none)
  | .stf => performPair s core names va aux.toNat data (· + 1) false
  | .xqDone => performPair s core names va aux.toNat data (· - 1) true
  | .push =>
    let q := acceptToken s src (va / 128) (wordsOfBytes 8 data)
    match q.2 with
    | .accepted => (q.1, some (.ok []))
    | .wait => (q.1, none)
    | .fail c => (q.1, some (.fail c))

/-- Whether a request is one that a source can send: the bytes of every lane within one line, and as many data bytes as its kind
carries. -/
def reqFits (kind : ReqKind) (l : Accs) (aux : DWord) : Bool :=
  let va := (l.map (·.1)).headD 0
  let len := (l.map (·.2.1)).headD 0
  let same := l.all fun x => decide (x.1 / 128 = va / 128) && decide (x.2.1 = len) && decide (x.1 % len = 0)
  let sized := fun (n : Nat) => l.all fun x => decide (x.2.2.length = n)
  let alone := decide (l.length = 1)
  decide (va < 2 ^ 48) && decide (aux.toNat < 2 ^ 48) &&
    (match kind with
     | .load => [1, 2, 4, 8, 16, 32].contains len && same && sized 0
     | .fill => [1, 2, 4, 8, 16, 32].contains len && same && sized 0
     | .store => [1, 2, 4, 8, 16, 32].contains len && same && sized len
     | .stf => [4, 8].contains len && same && sized len && alone && decide (aux.toNat % 8 = 0)
     | .masked _ => decide (len = 128) && same && sized 128 && alone
     | .atomic op w64 => decide (len = if w64 then 8 else 4) && same && decide (op < 14) && sized (if op = 9 then 2 * len else len)
     | .push => decide (va % 128 = 0) && decide (va / 128 < 4096) && decide (len = 32) && sized 32 && alone
     | .xqDone => decide (len = 8) && same && sized 8 && alone && decide (aux.toNat % 8 = 0))
/-- The accesses of a request that reaches this device. -/
def reqAccs (r : FabReq) : Accs := (r.va, r.len, r.data) :: r.more
/-- The accesses of a request of this device. -/
def OutReq.accs (r : OutReq) : Accs := (r.va, r.len, r.data) :: r.more
/-- The names of the lanes of a request of another device, which carries none: the device's id. (DESIGN CHOICE, log entry 71.) -/
def srcNames (r : FabReq) : List (DWord × Nat) := (reqAccs r).map fun _ => (BitVec.ofNat 64 r.src, 0xFF)
/-- The names of the lanes of a request of this device (R408). -/
def whoNames (s : State) (r : OutReq) : List (DWord × Nat) := r.who.map fun x => (nameOf s x.1, auxOf s x.1)

/-- A reply-cache entry added: with the cache full the oldest leaves, and its source's floor rises to its issue time (R146). -/
def cacheReply (s : State) (e : ReplyEntry) : State :=
  match s.replies with
  | o :: r =>
    if 16384 ≤ s.replies.length then
      { s with replies := r ++ [e], floors := mapSet s.floors o.src (max (mapGetD s.floors o.src 0) o.issue) }
    else { s with replies := s.replies ++ [e] }
  | [] => { s with replies := [e] }
/-- The reply-cache entries that a source's request releases leave (R146). (DEDUCED, log entry 37.) -/
def freeReplies (s : State) (r : FabReq) : State :=
  { s with replies := s.replies.filter fun e => !(e.src = r.src && r.frees.contains e.tag) }
/-- A request performed or refused here counted in R, once (R366). -/
def countR (s : State) (r : FabReq) : State :=
  if s.counted.contains (r.src, r.tag, r.issue) then s
  else { s with rCount := s.rCount + 1, counted := (r.src, r.tag, r.issue) :: s.counted }
/-- The age of a request in clocks, by the domain time base (R145). (DEDUCED, log entry 18.) -/
def ageOf (s : State) (issue : Nat) : Nat := (s.dt - issue) * 5 / 2
/-- Something the outside sees. -/
def emit (s : State) (o : Out) : State := { s with outs := s.outs ++ [o] }

/-! The source of a remote request (R28, R29, R103, R105, R106, R142, R145 to R147). -/

/-- The lanes that have a request outstanding pinned to the path they are on (R415). -/
def pinLanes (s : State) : State :=
  s.out.foldl (fun s p =>
    if p.2.host = false ∧ 0 < p.2.copies ∧ p.2.dst ≠ Config.deviceId then
      match pathOf s p.2.dst p.2.lane with
      | some l => { s with rebound := mapSet s.rebound (p.2.dst * 8 + p.2.lane) l }
      | none => s
    else s) s
/-- Lanes without a request outstanding return to their path (R415). -/
def freeLanes (s : State) : State := { s with rebound := s.rebound.filter fun p => laneBusy s (p.1 / 8) (p.1 % 8) }
/-- A request that has its final outcome taken off the list. -/
def finishOut (s : State) (rid : Nat) : State := freeLanes { s with out := mapDel s.out rid }

/-- The device line that a copy of an address of a device filled by the loop-back stands for (R12, R39). -/
def loopHome (s : State) (dst va : Nat) : Option Nat :=
  if dst ≠ Config.deviceId then none
  else
    match (walk s s.jobCtx va .read).2 with
    | .leaf e _ big => some (leafPa e big va / 128)
    | _ => none
/-- A failed writeback: the line stays, or comes back, dirty and marked; the die counts it and traces it (R103). -/
def writebackFails (s : State) (d key : Nat) (m : BitVec 128) (data : List Byte) (addr : Nat) : State :=
  let s := match rdcGet? s d key with
    | some y => rdcPut s d key
        { y with data := applyBytes y.data (bytesUnder data (m &&& ~~~y.dirty)), dirty := y.dirty ||| m, failed := true, leaving := false, owned := true }
    | none =>
      if heldElsewhere s d key then s
      else rdcInstall s d key {
        st := .untracked, data := data, wts := 0, rts := 0, dirty := m, failed := true, owned := true
        home := if key < 2 ^ 60 then loopHome s (key / 2 ^ 41 % 512) addr else none }
  trace (s.modDie d fun k => { k with wbFailed := k.wbFailed + 1 }) { core := d * Config.coresPerDie } 0x0C 0xFF 0 (BitVec.ofNat 64 addr)
/-- Whether a request waits for an operation that invalidates. -/
def invalidates (s : State) (r : OutReq) : Bool := r.who.any fun x => match opOf? (s.thread x.1) x.2.toNat with
  | some o => o.kind = 0x41
  | none => false
/-- A writeback answered. On success the line of an eviction or of an invalidate leaves, but for bytes stored since. On failure it stays
dirty: marked, where an eviction sent it, for the bytes of an eviction count as dirty until then (R62, R66, R103). -/
def answerWriteback (s : State) (r : OutReq) (m : BitVec 128) (a : FabAns) : State :=
  match r.line with
  | none => s
  | some (d, key) =>
    match rdcGet? s d key, a with
    | none, .fail _ => writebackFails s d key m r.data r.va
    | none, _ => s
    | some x, .fail _ =>
      if r.who = [] || (m &&& ~~~x.dirty) = 0 then writebackFails s d key m r.data r.va
      else rdcPut s d key { x with dirty := x.dirty ||| m, leaving := false, owned := true }
    | some x, _ =>
      if !x.leaving then s
      else
        let left := maskOf ((bytesUnder x.data x.dirty).filter fun b => !(m.getLsbD b.1 && decide (r.data.getD b.1 0 = b.2)))
        if left = 0 ∧ ((m &&& ~~~x.dirty) = 0 ∨ invalidates s r = true) then rdcDrop s d key
        else rdcPut s d key { x with dirty := left, leaving := false, failed := false }

/-- An operation of a thread fails with the cause that its request met; a request whose fate is unknown leaves it indeterminate
(R147). -/
def failRemote (s : State) (t seq c : Nat) (addr : DWord) : State :=
  if c = 8 then s.modThread t fun th => modOp th seq fun o => { o with phase := .indeterminate, faddr := addr }
  else failOp s t seq c addr
/-- A range operation learns that a writeback that it waits for has been answered (R62, R66). -/
def walkedOne (a : FabAns) (s : State) (x : Nat × BitVec 16) : State :=
  match opOf? (s.thread x.1) x.2.toNat with
  | none => s
  | some o =>
    if o.phase ≠ .started then s
    else
      match a with
      | .fail c => failRemote s x.1 x.2.toNat c o.addr
      | _ => if hasOut s x.1 x.2 then s else resolveOp s x.1 x.2.toNat

/-- The reduction of an aperture (Table 1-7) as the operation of an atomic that computes it: left operand old, right operand new. R27
does not refuse OP 0, 1 or 2 with a floating-point FMT, and R29 gives `fadd`, `fmin` and `fmax` other codes: such a reduction is the
integer one of the bit patterns. (DESIGN CHOICE, log entry 72.) -/
def apertureOp (op : Nat) : BitVec 4 :=
  if op = 0 then 0 else if op = 1 then 1 else if op = 2 then 2 else if op = 3 then 5 else if op = 4 then 6 else if op = 5 then 7
  else if op = 8 then 10 else if op = 9 then 12 else 13
/-- A value of a reduction: a NaN of a floating-point one is canonical, where one member alone has no operation to make it so (R211,
R218). -/
def apertureLone (op : BitVec 4) (w64 : Bool) (x : DWord) : DWord :=
  if op.toNat < 10 then x else atomFloat w64 fMin x x
/-- The elements of a list of bytes. -/
def elements (el : Nat) (b : List Byte) : Nat → List DWord
  | 0 => []
  | n + 1 => dwordOfBytes (b.take el) :: elements el (b.drop el) n
/-- The value of an aperture load: every element reduced over the members in ascending device id (R29). -/
def apertureValue (desc : BitVec 512) (len : Nat) (l : List (List Byte)) : List Byte :=
  let fmt := fld desc 11 8
  let w64 := decide (fmt = 1 ∨ fmt = 3)
  let el := if w64 then 8 else 4
  let op := apertureOp (fld desc 15 12)
  let vs := l.map fun b => elements el b (len / el)
  let fold := fun (l : List DWord) => match l with
    | [x] => apertureLone op w64 x
    | _ => treeFold (fun a b => atomNew op w64 a b 0) 0 9 l
  (upTo (len / el)).flatMap fun i => (bytesOfDWord (fold (vs.map fun v => v.getD i 0))).take el

/-- Answers in ascending device id. -/
def insertAns (x : Nat × FabAns) : List (Nat × FabAns) → List (Nat × FabAns)
  | [] => [x]
  | y :: r => if x.1 < y.1 then x :: y :: r else y :: insertAns x r
/-- The cause of the failing member of lowest device id (R28). -/
def firstFail : List (Nat × FabAns) → Option Nat
  | [] => none
  | (_, .fail c) :: _ => some c
  | _ :: r => firstFail r
/-- The bytes of the answers that carry them. -/
def okBytes (l : List (Nat × FabAns)) : List (List Byte) := l.filterMap fun p => match p.2 with
  | .fail _ => none
  | a => some (ansBytes a)
/-- An answer of one member of an aperture (R28, R29). The descriptor that reduces a load is the one that stands in the table when the last
answer arrives. (DESIGN CHOICE, log entry 72.) -/
def answerAperture (s : State) (t : Nat) (o : Op) (dst : Nat) (a : FabAns) : State :=
  let seq := o.seq.toNat
  let l := insertAns (dst, a) o.answers
  if hasOut s t o.seq then s.modThread t fun th => modOp th seq fun o => { o with answers := l }
  else
    match firstFail l with
    | some c => failRemote s t seq c o.addr
    | none =>
      if o.kind = 0x22 then resolveOp s t seq
      else
        let desc := mapGetD s.apertures (o.addr.toNat / 2 ^ 40 % 256) 0
        deliver s t seq (apertureValue desc (accessLen o.insn) (okBytes l))

/-- Bytes cut into the lanes' pieces. -/
def cutBytes : Accs → List Byte → List (List Byte)
  | [], _ => []
  | x :: r, b => b.take x.2.1 :: cutBytes r (b.drop x.2.1)
/-- What each lane of a request receives of an answer: its bytes of a line, its piece of the bytes, or the cause (R56). -/
def laneAnswers (r : OutReq) (a : FabAns) : List FabAns :=
  match a, r.kind with
  | .fail c, _ => r.accs.map fun _ => .fail c
  | a, .fill => r.accs.map fun x => .ok (((ansBytes a).drop (x.1 % 128)).take x.2.1)
  | a, _ => (cutBytes r.accs (ansBytes a)).map .ok
/-- Whether a request brings its operations bytes. -/
def wantsReply (k : ReqKind) : Bool :=
  match k with
  | .load => true
  | .fill => true
  | .atomic _ _ => true
  | _ => false
/-- The answer of one lane of a request: its operation fails, receives its bytes, or resolves. -/
def answerLane (r : OutReq) (s : State) (x : (Nat × BitVec 16) × FabAns) : State :=
  let t := x.1.1
  let seq := x.1.2.toNat
  match opOf? (s.thread t) seq with
  | none => s
  | some o =>
    if memSpace o.insn = 3 ∧ 0 < accessLen o.insn then answerAperture s t o r.dst x.2
    else
      match x.2 with
      | .fail c => failRemote s t seq c o.addr
      | a => if wantsReply r.kind then deliver s t seq (ansBytes a) else resolveOp s t seq
/-- The answers of the lanes of a request. -/
def answerLanes (s : State) (r : OutReq) (a : FabAns) : State := (r.who.zip (laneAnswers r a)).foldl (answerLane r) s
/-- Whether an operation that a request is for is still in its window. -/
def anyLive (s : State) (r : OutReq) : Bool := r.who.any fun x => (opOf? (s.thread x.1) x.2.toNat).isSome

/-- A remote line returned: kept clean in the die's remote-data cache unless it is not to be retained, and read by the lanes (R32, R103).
(DEDUCED, log entry 37.) -/
def answerFill (s : State) (r : OutReq) (a : FabAns) : State :=
  match a, r.who with
  | .ok b, (t, _) :: _ =>
    let d := s.dieOf t
    let key := remoteKey r.dst r.va
    let s := if (rdcGet? s d key).isSome || !anyLive s r then s
      else rdcInstall s d key { st := .untracked, data := b, wts := 0, rts := 0, dirty := 0, home := loopHome s r.dst r.va }
    answerLanes s r (match rdcGet? s d key with
      | some x => .ok x.data
      | none => a)
  | _, _ => answerLanes s r a

/-- A host line held by a die, once an RdOwn has returned its bytes (R105). (DEDUCED, log entry 36.) -/
def hostOwned (x : RdcLine) (b : List Byte) : RdcLine :=
  if x.owned then x else { x with owned := true, data := applyBytes b (bytesUnder x.data x.dirty) }
/-- One lane of a request for a host line of a software-managed window: a load reads the line, and a store is performed in it; where nothing
could be installed, the store's bytes go back at once (R103, R105, R142). -/
def hostLane (d key : Nat) (b : List Byte) (s : State) (x : Nat × BitVec 16) : State :=
  let t := x.1
  let seq := x.2.toNat
  match opOf? (s.thread t) seq with
  | none => s
  | some o =>
    let off := o.addr.toNat % 128
    match rdcGet? s d key with
    | some y =>
      if o.kind = 0x22 then resolveOp (storeCopy s d key (hostOwned y b) off o.data) t seq
      else deliver s t seq ((y.data.drop off).take (accessLen o.insn))
    | none =>
      if o.kind = 0x22 then
        let y : RdcLine := { st := .untracked, data := spliceBytes b off o.data, wts := 0, rts := 0, dirty := byteMask off o.data.length }
        resolveOp (sendOut s (writebackReq d key y)) t seq
      else deliver s t seq ((b.drop off).take (accessLen o.insn))
/-- A host line of a software-managed window returned: kept in the die's remote-data cache, and used by the lanes (R105). -/
def answerHostLine (s : State) (r : OutReq) (d key : Nat) (b : List Byte) : State :=
  let writes := r.who.any fun x => match opOf? (s.thread x.1) x.2.toNat with
    | some o => o.kind = 0x22
    | none => false
  let s := hostTake s d key writes
  let s := if (rdcGet? s d key).isSome || !anyLive s r then s
    else rdcInstall s d key { st := .untracked, data := b, wts := 0, rts := 0, dirty := 0 }
  r.who.foldl (hostLane d key b) s
/-- A host line taken with RdOwn for an atomic, from the die that holds it now where one does: performed at the service train of cluster 0,
which logs it, and released (R105, R106, R408). No other access of the device to the line leaves in between (R120). -/
def answerHostAtomic (s : State) (r : OutReq) (op : BitVec 4) (w64 : Bool) (b : List Byte) : State :=
  let key := hostKey r.va
  let s := (hostTake s 0 key true).fresh
  let held := rdcGet? s 0 key
  let line := match held with
    | some x => (hostOwned x b).data
    | none => b
  let rs := contributions op w64 r.accs
  let w := atomServe s 0 line rs
  let x : RdcLine :=
    { st := .untracked, data := w.1, wts := 0, rts := 0, dirty := (match held with
        | some y => y.dirty
        | none => 0) ||| atomMask rs, owned := true, failed := (match held with
        | some y => y.failed
        | none => false) }
  let s := if r.aux = 1 ∧ held.isNone then sendOut s { writebackReq 0 key x with line := none }
    else
      let s := rdcInstall s 0 key x
      if (rdcGet? s 0 key).isSome then s else sendOut s (writebackReq 0 key x)
  answerLanes (namesLogged s 0 (whoNames s r)) r (.ok (oldBytes w.2))

/-- The final outcome of a request of this device; what waited at the port for it leaves (R142). (DESIGN CHOICE, log entry 16.) -/
def answerOut (s : State) (rid : Nat) (r : OutReq) (a : FabAns) : State :=
  let s := finishOut s rid
  pump (match r.kind, a with
    | .masked m, a => r.who.foldl (walkedOne a) (answerWriteback s r m a)
    | .fill, .ok b => (match r.line with
      | some (d, key) => answerHostLine s r d key b
      | none => answerFill s r a)
    | .atomic op w64, .ok b => if r.host then answerHostAtomic s r op w64 b else answerLanes s r a
    | _, a => answerLanes s r a)

/-- Whether an answer is one that a request can have: a cause of R13 or R341, or as many bytes as it asks for. A host writeback that a range
operation waits for may fail (R66). -/
def ansFits (r : OutReq) (a : FabAns) : Bool :=
  let lines := decide (r.kind = .fill)
  match a with
  | .fail c =>
    if r.host then (c = 5 || c = 6) && r.who != [] && (match r.kind with
      | .masked _ => true
      | _ => false)
    else c = 5 || c = 6 || (r.kind = .push && (c = 13 || c = 16))
  | .noRetain b => lines && !r.host && decide (b.length = 128)
  | .bound => false
  | .ok b =>
    match r.kind with
    | .load => decide (b.length = r.len * r.accs.length)
    | .fill => decide (b.length = 128)
    | .atomic _ w64 => decide (b.length = if r.host then 128 else (if w64 then 8 else 4) * r.accs.length)
    | _ => b.isEmpty
/-- Whether a request asks for bytes and its target has not been seen to have performed the read yet. -/
def canBind (r : OutReq) : Bool := wantsReply r.kind && !r.bound && r.who != [] && (r.host || decide (0 < r.copies))
/-- The target of a request has performed the read that it asks for, and the answer is on its way: the value of an operation is bound once
that holds of every request of it (row 2 of Table 4-4). (DEDUCED, log entry 23.) -/
def bindReads (s : State) (rid : Nat) (r : OutReq) : State :=
  let s := { s with out := mapSet s.out rid { r with bound := true } }
  let open' := fun (x : Nat × BitVec 16) => s.out.any fun p => p.2.who.contains x && !p.2.bound
  pump ((r.who.filter fun x => !open' x).foldl (fun s x => s.modThread x.1 fun th => modOp th x.2.toNat fun o => { o with bound := true }) s)
/-- A request outstanding in the fabric, its loop-back apart; a link that retrains holds what comes over it (R416). -/
def outFab? (s : State) (rid : Nat) : Option OutReq :=
  match mapGet? s.out rid with
  | some r => if r.host || decide (r.dst = Config.deviceId) || portHeld s (outPort s r.dst r.lane) then none else some r
  | none => none
/-- The flits of an answer to a request received (R413, R416). -/
def answerFlits (s : State) (r : OutReq) (a : FabAns) : State := receiveFlits s (outPort s r.dst r.lane) (flitCount (ansBytes a).length)

/-! Links (R411 to R416). -/

/-- Whether two devices have a link: they share a row or a column (R411). -/
def hasLink (a b : Nat) : Bool :=
  decide (a < 384) && decide (b < 384) && decide (a ≠ b) && (decide (rowOf a = rowOf b) || decide (colOf a = colOf b))
/-- The port of this device that a link between two devices stands at, if it is one of its links. -/
def endPort (a b : Nat) : Option Nat := if a = Config.deviceId then portTo b else if b = Config.deviceId then portTo a else none

/-- A lane rebound after a link it uses went down: its outstanding requests are to be sent again over the new path, in their order; without
a path they stay as they are (R414, R415). (DEDUCED, log entry 44.) -/
def rebindLane (s : State) (lane : Nat) : State :=
  match freshPath s (lane / 8) (lane % 8) with
  | some p =>
    { s with
      rebound := mapSet s.rebound lane p
      out := mapEach (fun _ r =>
        if r.host = false ∧ 0 < r.copies ∧ r.dst * 8 + r.lane = lane then { r with again := true } else r) s.out }
  | none => { s with rebound := mapDel s.rebound lane }
/-- A link goes down: the lanes that use it are rebound, and their requests leave again as they may be injected; an end of it reports (R415 to
R417). -/
def linkDown (s : State) (a b : Nat) : State :=
  let key := linkKey a b
  let s := pinLanes s
  let hit := (s.rebound.filter fun p => (pathLinks p.2).contains key).map (·.1)
  let s := hit.foldl rebindLane { s with down := key :: s.down }
  sendHeld (match endPort a b with
    | some p => emit (fabLinkPut s p { fabLink s p with up := false, retraining := false, replays := [], buffer := [] }) (.linkReport a b)
    | none => s)
/-- A link comes back: busy lanes keep their path, and requests that waited for one leave (R415). -/
def linkUp (s : State) (a b : Nat) : State :=
  let s := pinLanes s
  let s := { s with down := s.down.filter (· != linkKey a b) }
  sendHeld (match endPort a b with
    | some p => fabLinkPut s p {}
    | none => s)

/-! The host link (R33, R105, R107, R419). -/

/-- The inbound window of a BAR2 range that lies in one window (R419). -/
def inboundAt (s : State) (off len : Nat) : Option (BitVec 128) :=
  if off / 2 ^ 34 < 16 ∧ off % 2 ^ 34 + len ≤ 2 ^ 34 then mapGet? s.inbound (off / 2 ^ 34) else none
/-- The pieces of physical memory of a host access, or the first outcome of a translation that is no address. -/
def inboundPieces (s : State) (w : BitVec 128) (acc : Acc) (off len : Nat) : State × Except (Nat × TrRes) (List (Nat × Nat)) :=
  let va := fld w 127 80 + off % 2 ^ 34
  transPieces s none (fld w 23 16) acc (pagePieces va (va + len) (len / 2 ^ 16 + 2)) []
/-- Whether a line of the pieces has to be waited for (R91, R99). -/
def piecesWait (s : State) (l : List (Nat × Nat)) (write : Bool) : Bool := l.any fun p => bytesWait s p.1 p.2 write
/-- A snoop of a host line: what is shown, which copies leave, and whether those that stay are owned (R33, R105). A line that a die has
dirty leaves every die. (DEDUCED, log entry 36.) -/
def snoop (name : String) (drops keeps : Bool) (line : Nat) (s : State) : Host.Outcome State Fault Refusal :=
  let key := 2 ^ 60 + line
  let l := s.dies.filterMap fun p => (rdcGet? s p.1 key).map fun x => (p.1, x)
  if 2 ^ 45 ≤ line then notEnabled name
  else
    match (match l.find? fun x => x.2.dirty != 0 || x.2.owned with
      | some x => some x
      | none => l.head?) with
    | none => .next (emit s (.snoopMiss line))
    | some (_, x) =>
      let gone := drops || l.any fun y => y.2.dirty != 0
      let s := l.foldl (fun s y => if gone then rdcDrop s y.1 key else rdcPut s y.1 key { y.2 with owned := y.2.owned && keeps }) s
      .next (emit s (.snoopData line x.data))

/-- Whether a target refuses a tagged request: its issue time is at or below its source's floor, or it is too old (R145, R146). -/
def reqRefused (s : State) (r : FabReq) : Bool :=
  (mapGet? s.floors r.src).any (fun f => decide (r.issue ≤ f)) || decide (120000 < ageOf s r.issue)
/-- The lane of a source that a request travels on. -/
def laneKey (r : FabReq) : Nat := r.src * 8 + laneOf r.va
/-- Whether a tagged request was injected before one that its lane has had performed here (R141). -/
def laneOld (s : State) (r : FabReq) : Bool :=
  tagged r.kind && (match mapGet? s.laneTags (laneKey r) with
    | some v => decide (r.issue ≤ v / 2 ^ 24) && decide ((v % 2 ^ 24 + 2 ^ 24 - r.tag % 2 ^ 24) % 2 ^ 24 < 2 ^ 23)
    | none => false)
/-- A request of another device that has been performed here: counted, remembered, the last of its lane, and no longer waiting (R141, R146,
R366). -/
def reqDone (s : State) (r : FabReq) (a : FabAns) : State :=
  let s := { s with arrivals := s.arrivals.erase r }
  if tagged r.kind then
    let s := cacheReply (countR s r) { src := r.src, tag := r.tag, issue := r.issue, ans := a }
    { s with laneTags := mapSet s.laneTags (laneKey r) (r.issue * 2 ^ 24 + r.tag % 2 ^ 24) }
  else s
/-- An answer sent back to a source on the lane of its request, and shown (R412, R413). -/
def sendAnswer (s : State) (r : FabReq) (type : FlitType) (bytes : List Byte) (o : Out) : State :=
  sendFlits (emit s o) (inPort s r.src (laneOf r.va)) type r.src (laneOf r.va) bytes
/-- The flit type of an answer. -/
def answerType (k : ReqKind) : FlitType := match k with
  | .load => .reply
  | .fill => .reply
  | .atomic _ _ => .reply
  | _ => .acknowledgement
/-- An answer of this device to a request of another. -/
def answerTo (s : State) (r : FabReq) (a : FabAns) : State := sendAnswer s r (answerType r.kind) (ansBytes a) (.fabAnswer r.src r.tag a)
/-- The bytes of a request that arrives: a header of 24, and its data. -/
def reqBytes (r : FabReq) : Nat := 24 + ((reqAccs r).map fun x => x.2.2.length).foldl (· + ·) 0
/-- A request of another device reaches this one: answered from the reply cache, refused, or performed in its lane's order; one that has to
wait, or stands behind one that does, keeps its place, and is performed when it comes up again (R141, R146). -/
def reqArrives (r : FabReq) (s : State) : Host.Outcome State Fault Refusal :=
  let s := receiveFlits (freeReplies s r) (if s.arrivals.contains r then none else inPort s r.src (laneOf r.va)) (flitCount (reqBytes r))
  let seen := if tagged r.kind then s.replies.find? fun e => e.src = r.src && e.tag = r.tag else none
  let ahead := (s.arrivals.filter fun x => laneKey x = laneKey r).head?
  match seen with
  | some e => .next (answerTo s r e.ans)
  | none =>
    if tagged r.kind && reqRefused s r then
      .next (sendAnswer (countR { s with arrivals := s.arrivals.erase r } r) r .noreply [] (.noReply r.src r.tag))
    else if laneOld s r then notEnabled "FABRIC_REQUEST"
    else if ahead.isNone || ahead = some r then
      let q := performRemote s none (srcNames r) r.src r.kind (reqAccs r) r.aux
      match q.2 with
      | some a => .next (answerTo (reqDone q.1 r a) r a)
      | none => if ahead.isNone then .next { s with arrivals := s.arrivals ++ [r] } else notEnabled "FABRIC_REQUEST"
    else if s.arrivals.contains r then notEnabled "FABRIC_REQUEST"
    else .next { s with arrivals := s.arrivals ++ [r] }
/-- A request that was refused: with one copy sent it is sent anew under a fresh tag and time, else its fate is not known (R146, Table
4-6). -/
def refusedOut (s : State) (rid : Nat) (r : OutReq) : State :=
  if r.copies = 1 then sendOut (finishOut s rid) r else answerOut s rid r (.fail 8)
/-- Whether a request is the one that a request of this device carries. -/
def sameReq (r : FabReq) (p : OutReq) : Bool :=
  decide (p.kind = r.kind) && decide (p.accs = reqAccs r) && decide (p.aux = r.aux) && decide (p.tag = r.tag) && decide (p.issue = r.issue)
/-- The loop-back of this device's own oldest request on its lane: through the dedup window, and answered at once (R12, R141, R146). -/
def reqLoops (r : FabReq) (s : State) : Host.Outcome State Fault Refusal :=
  match s.out.find? fun p => p.2.host = false && decide (p.2.dst = r.src) && decide (p.2.lane = laneOf r.va) && decide (0 < p.2.copies) with
  | none => notEnabled "FABRIC_REQUEST"
  | some p =>
    if !sameReq r p.2 then notEnabled "FABRIC_REQUEST"
    else if tagged r.kind && reqRefused s r then .next (refusedOut (countR s r) p.1 p.2)
    else
      let q := performRemote s (p.2.who.head?.map fun x => s.coreOf x.1) (whoNames s p.2) r.src r.kind (reqAccs r) r.aux
      match q.2 with
      | none => notEnabled "FABRIC_REQUEST"
      | some a => .next (answerOut (reqDone q.1 r a) p.1 p.2 a)

/-- A remote request reaches this device: performed, answered from the reply cache, or refused with NOREPLY (R141, R145, R146). One
from this device itself is its own loop-back (R12). -/
def execFabricRequest (r : FabReq) (s : State) : Host.Outcome State Fault Refusal :=
  if !reqFits r.kind (reqAccs r) r.aux || decide (384 ≤ r.src) then notEnabled "FABRIC_REQUEST"
  else if r.src = Config.deviceId then reqLoops r s
  else if portHeld s (inPort s r.src (laneOf r.va)) then notEnabled "FABRIC_REQUEST"
  else reqArrives r s

/-- The reply of a remote load, line fill or atomic reaches this device (R147), or its target has performed it and the reply is on its way
(row 2 of Table 4-4). -/
def execFabricReply (rid : Nat) (ans : FabAns) (s : State) : Host.Outcome State Fault Refusal :=
  match outFab? s rid with
  | none => notEnabled "FABRIC_REPLY"
  | some r =>
    if ans = .bound then (if canBind r then .next (bindReads s rid r) else notEnabled "FABRIC_REPLY")
    else if wantsReply r.kind && decide (0 < r.copies) && ansFits r ans then .next (answerOut (answerFlits s r ans) rid r ans)
    else notEnabled "FABRIC_REPLY"

/-- The acknowledgement of any other remote request reaches this device (R147). -/
def execFabricAcknowledgement (rid : Nat) (ans : FabAns) (s : State) : Host.Outcome State Fault Refusal :=
  match outFab? s rid with
  | none => notEnabled "FABRIC_ACKNOWLEDGEMENT"
  | some r =>
    if !wantsReply r.kind && decide (0 < r.copies) && ansFits r ans then .next (answerOut (answerFlits s r ans) rid r ans)
    else notEnabled "FABRIC_ACKNOWLEDGEMENT"

/-- A refusal reaches this device: the one copy sent is sent anew under a fresh tag and time; after a retransmission the outcome is
indeterminate (R146, Table 4-6). -/
def execNoreply (rid : Nat) (s : State) : Host.Outcome State Fault Refusal :=
  match outFab? s rid with
  | none => notEnabled "NOREPLY"
  | some r =>
    if tagged r.kind = false ∨ r.copies = 0 then notEnabled "NOREPLY" else .next (refusedOut (answerFlits s r (.fail 8)) rid r)

/-- An idle flit acknowledges flits of a link (R412, R416). -/
def execIdleFlit (port ack : Nat) (s : State) : Host.Outcome State Fault Refusal :=
  let l := fabLink s port
  if port < 38 ∧ l.up = true ∧ l.held = false then .next (fabLinkPut s port (l.ackTo ack)) else notEnabled "IDLE_FLIT"

/-- A flit of this device fails its CRC on a serial lane of a link, or arrives out of order, and is dropped: the sender replays from the first
unacknowledged flit (R416). -/
def execFlitCrcFailure (port : LinkLane) (s : State) : Host.Outcome State Fault Refusal :=
  let l := fabLink s port.far
  if 38 ≤ port.far ∨ 4 ≤ port.lane ∨ l.up = false ∨ l.held = true ∨ l.retired.contains port.lane = true ∨ l.buffer = [] then
    notEnabled "FLIT_CRC_FAILURE"
  else
    .next (emit (fabLinkPut s port.far { l with replays := mapSet l.replays port.lane (mapGetD l.replays port.lane 0 + 1) }) (.flits port.far l.buffer))

/-- A serial lane that failed 8 replays in a row is retired and its link retrains; with fewer than two lanes left the link is down
(R416). -/
def execSerialLaneRetirement (port : LinkLane) (s : State) : Host.Outcome State Fault Refusal :=
  let l := fabLink s port.far
  let x := { l with retired := port.lane :: l.retired, replays := mapDel l.replays port.lane }
  if 38 ≤ port.far ∨ l.up = false ∨ mapGetD l.replays port.lane 0 < 8 then notEnabled "SERIAL_LANE_RETIREMENT"
  else if x.lanes < 2 then .next (linkDown (fabLinkPut s port.far x) Config.deviceId (portPeer port.far))
  else .next (fabLinkPut s port.far { x with retraining := true, since := s.clk })

/-- A fabric link that retrained in time goes on at its width, and what it held leaves (R416). -/
def execLinkRetrainComplete (port : Nat) (s : State) : Host.Outcome State Fault Refusal :=
  let l := fabLink s port
  if port < 38 ∧ l.retraining = true ∧ s.clk ≤ l.since + 25000 then .next (sendHeld (fabLinkPut s port { l with retraining := false }))
  else notEnabled "LINK_RETRAIN_COMPLETE"

/-- A link of this device whose retraining has not completed within 25,000 clocks is down (R416). -/
def dropLink (port : Nat) (s : State) : Host.Outcome State Fault Refusal := .next (linkDown s Config.deviceId (portPeer port))

/-- A link goes down (R414, R415). -/
def execLinkDown (a b : Nat) (s : State) : Host.Outcome State Fault Refusal :=
  if hasLink a b && !s.down.contains (linkKey a b) then .next (linkDown s a b) else notEnabled "LINK_DOWN"

/-- A link comes back (R415). -/
def execLinkUp (a b : Nat) (s : State) : Host.Outcome State Fault Refusal :=
  if s.down.contains (linkKey a b) then .next (linkUp s a b) else notEnabled "LINK_UP"

/-- This device gives up on a request 50 µs after it last left, its loop-back too: unreachable where no copy left or for a load, else
indeterminate (R12, R145, Table 4-6). -/
def execRemoteGiveUp (rid : Nat) (s : State) : Host.Outcome State Fault Refusal :=
  match mapGet? s.out rid with
  | none => notEnabled "REMOTE_GIVE_UP"
  | some r =>
    if r.host || decide (s.clk < r.left + 125000) then notEnabled "REMOTE_GIVE_UP"
    else .next (answerOut s rid r (.fail (if r.copies = 0 ∨ tagged r.kind = false then 9 else 8)))

/-- A reply-cache entry is freed 60 µs after its issue time (R146). -/
def execReplyCacheExpiry (src tag : Nat) (s : State) : Host.Outcome State Fault Refusal :=
  if s.replies.any fun e => e.src = src && e.tag = tag && decide (e.issue + 60000 ≤ s.dt) then
    .next { s with replies := s.replies.filter fun e => !(e.src = src && e.tag = tag) }
  else notEnabled "REPLY_CACHE_EXPIRY"

/-- A time flit reaches this device: DT is its value plus the link's delay, held requests may leave, and a device of the first row sends
the flit on along its column (R417). -/
def execTimeFlit (value delay : Nat) (s : State) : Host.Outcome State Fault Refusal :=
  if Config.deviceId = 0 then notEnabled "TIME_FLIT"
  else
    let s := { s with dt := (value + delay) % 2 ^ 64, lastTime := s.clk, injectStopped := false }
    .next (sendHeld (if rowOf Config.deviceId = 0 then emit s (.timeFlit s.dt) else s))

/-- Device 0 broadcasts a time flit, every 100 µs (R417). Device 0 of the job is taken to be the device of the domain whose id is 0,
whichever devices belong to the job. (DEDUCED, log entry 44.) -/
def execTimeBroadcast  (s : State) : Host.Outcome State Fault Refusal :=
  if Config.deviceId = 0 ∧ s.clk % 250000 = 0 then .next (emit s (.timeFlit s.dt)) else notEnabled "TIME_BROADCAST"

/-- After 10 ms without a time flit this device injects no tagged request (R417). -/
def execTimeFlitTimeout  (s : State) : Host.Outcome State Fault Refusal :=
  if Config.deviceId ≠ 0 ∧ s.injectStopped = false ∧ s.lastTime + 25000000 ≤ s.clk then .next { s with injectStopped := true }
  else notEnabled "TIME_FLIT_TIMEOUT"

/-- The old home of a migrated page stops forwarding 25,000 clocks after the switch (step 5 of R36). -/
def execMigrationForwardEnd (page : Nat) (s : State) : Host.Outcome State Fault Refusal :=
  let overdue := fun (f : Forward) => f.page = page && decide (f.since + 25000 ≤ s.clk)
  if s.forwards.any overdue then .next { s with forwards := s.forwards.filter fun f => !overdue f } else notEnabled "MIGRATION_FORWARD_END"

/-- The writeback of an evicted remote or host line fails: the line stays, marked (R103). -/
def execWritebackFailure (rid cause : Nat) (s : State) : Host.Outcome State Fault Refusal :=
  match mapGet? s.out rid with
  | none => notEnabled "WRITEBACK_FAILURE"
  | some r =>
    match r.kind with
    | .masked m =>
      if r.who = [] ∧ r.line.isSome ∧ (r.host = true ∨ 0 < r.copies) ∧ (cause = 5 ∨ cause = 6) then
        .next (pump (answerWriteback (finishOut s rid) r m (.fail cause)))
      else notEnabled "WRITEBACK_FAILURE"
    | _ => notEnabled "WRITEBACK_FAILURE"

/-- The host snoops a line to share it (R33, R105). -/
def execSnpdata (line : Nat) (s : State) : Host.Outcome State Fault Refusal :=
  snoop "SNPDATA" false false line s

/-- The host snoops a line to own it: no copy stays (R33, R105). -/
def execSnpinv (line : Nat) (s : State) : Host.Outcome State Fault Refusal :=
  snoop "SNPINV" true false line s

/-- The host snoops the current value of a line (R33, R105). -/
def execSnpcur (line : Nat) (s : State) : Host.Outcome State Fault Refusal :=
  snoop "SNPCUR" false true line s

/-- The host answers a request of this device; an atomic waits for the order gate of cluster 0 in replay (R105, R106, R410). -/
def execCxlResponse (rid : Nat) (ans : FabAns) (s : State) : Host.Outcome State Fault Refusal :=
  match mapGet? s.out rid with
  | none => notEnabled "CXL_RESPONSE"
  | some r =>
    let held := match r.kind with
      | .atomic _ _ => !namesAdmit s 0 (whoNames s r)
      | _ => false
    if r.host && decide (ans = .bound) then (if canBind r then .next (bindReads s rid r) else notEnabled "CXL_RESPONSE")
    else if r.host && ansFits r ans && !held then .next (answerOut s rid r ans) else notEnabled "CXL_RESPONSE"

/-- The host reads device memory through an inbound window (R107, R419). -/
def execHostInboundRead (off len : Nat) (s : State) : Host.Outcome State Fault Refusal :=
  if len = 0 ∨ 2 ^ 38 < off + len ∨ 2 ^ 34 < off % 2 ^ 34 + len then notEnabled "HOST_INBOUND_READ"
  else
    match inboundAt s off len with
    | none => .next (emit s .completerAbort)
    | some w =>
      if fld w 0 0 = 0 ∨ fld w 1 1 = 0 then .next (emit s .completerAbort)
      else
        let r := inboundPieces s w .read off len
        match r.2 with
        | .error (_, .frozen) => notEnabled "HOST_INBOUND_READ"
        | .error _ => .next (emit s .completerAbort)
        | .ok l =>
          if piecesWait r.1 l false then notEnabled "HOST_INBOUND_READ"
          else
            let q := l.foldl (fun (x : State × List Byte) p =>
              let y := physRead x.1 p.1 p.2
              (y.1, x.2 ++ y.2)) (r.1, [])
            .next (emit q.1 (.hostData q.2))

/-- The host writes device memory through an inbound window (R107, R419). -/
def execHostInboundWrite (off : Nat) (bytes : List Byte) (s : State) : Host.Outcome State Fault Refusal :=
  let len := bytes.length
  if len = 0 ∨ 2 ^ 38 < off + len ∨ 2 ^ 34 < off % 2 ^ 34 + len then notEnabled "HOST_INBOUND_WRITE"
  else
    match inboundAt s off len with
    | none => .next (emit s .completerAbort)
    | some w =>
      if fld w 0 0 = 0 ∨ fld w 2 2 = 0 then .next (emit s .completerAbort)
      else
        let r := inboundPieces s w .write off len
        match r.2 with
        | .error (_, .frozen) => notEnabled "HOST_INBOUND_WRITE"
        | .error _ => .next (emit s .completerAbort)
        | .ok l =>
          if piecesWait r.1 l true then notEnabled "HOST_INBOUND_WRITE"
          else
            let q := l.foldl (fun (x : State × List Byte) p => (outerWrite x.1 none p.1 (x.2.take p.2), x.2.drop p.2)) (r.1, bytes)
            .next (emit q.1 .hostWriteDone)

end Sys2Proof.Machine
end

