-- ==== Sys2Proof/Machine/Digest.lean ====
section
/-! DEFINITION. SHA-256, by which each stage of the boot measures the next (R421, R422). -/

namespace Sys2Proof.Machine
open Sys2Proof

/-- The eight words of a SHA-256 digest under way. -/
structure Sha where
  a : Word
  b : Word
  c : Word
  d : Word
  e : Word
  f : Word
  g : Word
  h : Word
  deriving DecidableEq, Repr

/-- The 64 round constants of SHA-256. -/
def shaK : List Word :=
  [0x428a2f98, 0x71374491, 0xb5c0fbcf, 0xe9b5dba5, 0x3956c25b, 0x59f111f1, 0x923f82a4, 0xab1c5ed5] ++
  [0xd807aa98, 0x12835b01, 0x243185be, 0x550c7dc3, 0x72be5d74, 0x80deb1fe, 0x9bdc06a7, 0xc19bf174] ++
  [0xe49b69c1, 0xefbe4786, 0x0fc19dc6, 0x240ca1cc, 0x2de92c6f, 0x4a7484aa, 0x5cb0a9dc, 0x76f988da] ++
  [0x983e5152, 0xa831c66d, 0xb00327c8, 0xbf597fc7, 0xc6e00bf3, 0xd5a79147, 0x06ca6351, 0x14292967] ++
  [0x27b70a85, 0x2e1b2138, 0x4d2c6dfc, 0x53380d13, 0x650a7354, 0x766a0abb, 0x81c2c92e, 0x92722c85] ++
  [0xa2bfe8a1, 0xa81a664b, 0xc24b8b70, 0xc76c51a3, 0xd192e819, 0xd6990624, 0xf40e3585, 0x106aa070] ++
  [0x19a4c116, 0x1e376c08, 0x2748774c, 0x34b0bcb5, 0x391c0cb3, 0x4ed8aa4a, 0x5b9cca4f, 0x682e6ff3] ++
  [0x748f82ee, 0x78a5636f, 0x84c87814, 0x8cc70208, 0x90befffa, 0xa4506ceb, 0xbef9a3f7, 0xc67178f2]
/-- The initial words of SHA-256. -/
def shaInit : Sha := ⟨0x6a09e667, 0xbb67ae85, 0x3c6ef372, 0xa54ff53a, 0x510e527f, 0x9b05688c, 0x1f83d9ab, 0x5be0cd19⟩
/-- One round of SHA-256 with the sum of a constant and a word of the schedule. -/
def shaRound (s : Sha) (k : Word) : Sha :=
  let t1 := s.h + (s.e.rotateRight 6 ^^^ s.e.rotateRight 11 ^^^ s.e.rotateRight 25) + ((s.e &&& s.f) ^^^ (~~~s.e &&& s.g)) + k
  let t2 := (s.a.rotateRight 2 ^^^ s.a.rotateRight 13 ^^^ s.a.rotateRight 22) + ((s.a &&& s.b) ^^^ (s.a &&& s.c) ^^^ (s.b &&& s.c))
  ⟨t1 + t2, s.a, s.b, s.c, s.d + t1, s.e, s.f, s.g⟩
/-- The schedule of a block extended, newest word first. -/
def shaExtend : Nat → List Word → List Word
  | 0, l => l
  | n + 1, l =>
    let x := l.getD 14 0
    let y := l.getD 1 0
    let w := l.getD 15 0 + (x.rotateRight 7 ^^^ x.rotateRight 18 ^^^ (x >>> 3)) + l.getD 6 0 + (y.rotateRight 17 ^^^ y.rotateRight 19 ^^^ (y >>> 10))
    shaExtend n (w :: l)
/-- A block of 16 words taken in. -/
def shaBlock (s : Sha) (l : List Word) : Sha :=
  let r := (((shaExtend 48 l.reverse).reverse.zip shaK).map fun x => x.1 + x.2).foldl shaRound s
  ⟨s.a + r.a, s.b + r.b, s.c + r.c, s.d + r.d, s.e + r.e, s.f + r.f, s.g + r.g, s.h + r.h⟩
/-- The first words of bytes, high byte first. -/
def bigWords : Nat → List Byte → List Word
  | 0, _ => []
  | n + 1, b => (b.getD 0 0 ++ b.getD 1 0 ++ b.getD 2 0 ++ b.getD 3 0) :: bigWords n (b.drop 4)
/-- Blocks of 64 bytes taken in one after another. -/
def shaBlocks : Nat → List Byte → Sha → Sha
  | 0, _, s => s
  | n + 1, b, s => shaBlocks n (b.drop 64) (shaBlock s (bigWords 16 b))
/-- A message padded to whole blocks. -/
def shaPad (b : List Byte) : List Byte :=
  b ++ [0x80] ++ List.replicate ((119 - b.length % 64) % 64) 0 ++ (bytesOfNat 8 (8 * b.length)).reverse
/-- The SHA-256 digest of bytes, its first byte in bits 7:0. -/
def sha256 (b : List Byte) : BitVec 256 :=
  let p := shaPad b
  let s := shaBlocks (p.length / 64) p shaInit
  BitVec.ofNat 256 (natOfBytes ([s.a, s.b, s.c, s.d, s.e, s.f, s.g, s.h].flatMap fun w => (bytesOfWord w).reverse))

end Sys2Proof.Machine
end

