-- ==== Sys2Proof/Machine/EvSystem.lean ====
section
/-! DEFINITION. Reset and boot, temperature, and the mailbox requests of the system services (R30, R34 to R39, R75, R381, R418 to
R423). -/

namespace Sys2Proof.Machine
open Sys2Proof

/-! Reset and boot (R381, R421). -/

/-- Whether the checks of the boot ROM accept an image: the signature verifies, and the version is not below the fused counter
(R421). (DESIGN CHOICE, log entry 15.) -/
def imageOk (img : Firmware) : Bool := img.signatureOk && decide (Config.fusedVersion ≤ img.version)
/-- The device with an accepted image started: each stage measures the next before it starts it (R421). -/
def booted (s : State) (img : Firmware) : State :=
  { s with
    recovery := false
    firmware := sha256 img.image
    hypervisor := sha256 img.hypervisor
    systems := img.systems.foldl (fun m x => mapSet m x.1 (sha256 x.2)) [] }
/-- The device right after a reset that was not a power-on: DRAM, its owner tags, the complete checkpoints and the logs stay (R381,
R407); everything else is as at reset. (DEDUCED, log entry 54.) -/
def afterReset (s : State) : State :=
  { State.reset with
    agenda := s.agenda
    free := s.free
    mem := s.mem
    frames := s.frames
    ckpts := s.ckpts
    dies := mapEach (fun _ d => { ({} : Die) with log := d.log, logStopped := d.logStopped }) s.dies
    nextThread := s.nextThread
    nextTrain := s.nextTrain
    nextLaunch := s.nextLaunch
    outs := s.outs }

/-! Pages that move, change their mode, or change their owner (R34 to R39). -/

/-- Whether an operation of a thread translated to a range has not been performed, an atomic waits for it, an engine owns a line of it, or
the writeback of a loop-back copy of it is under way: the sequences of the system cores wait for all of them (R34, R36). (DESIGN CHOICE, log entry 53.) -/
def rangeBusy (s : State) (pa len : Nat) : Bool :=
  let inr := fun (a : Nat) => decide (pa ≤ a) && decide (a < pa + len)
  (s.threads.any fun p => p.2.ops.any fun o => !o.performed && o.pa != 0 && inr o.pa && !opDead o && o.phase != .walk && !(o.kind = 0x20)) ||
    (s.atoms.any fun a => inr a.pa) || ((loopCopies s pa len).any fun x => x.2.2.leaving) ||
    s.dies.any fun d => d.2.dir.any fun e => e.2.eo && inr (e.1 * 128)
/-- The lines of a range that a directory, a cache or a buffer of the device knows. -/
def knownLines (s : State) (pa len : Nat) : List Nat :=
  let inr := fun (l : Nat) => decide (pa ≤ l * 128) && decide (l * 128 < pa + len)
  ((s.dies.flatMap fun d => d.2.dir.map (·.1) ++ d.2.rdc.map (·.1) ++ d.2.fills.map (·.1) ++ d.2.evicting.map (·.1)) ++ s.cores.flatMap fun k => k.2.l1.map (·.1)).filter inr
/-- Every copy of a range brought home, and out of the home's L2 (step 2 of R36). -/
def bringHome (s : State) (pa len : Nat) : State :=
  let s := (knownLines s pa len).eraseDups.foldl (fun s l => settleAll s l true) (dropPlain s pa len)
  let inr := fun (l : Nat) => decide (pa ≤ l * 128) && decide (l * 128 < pa + len)
  s.dies.foldl (fun s d => ((d.2.l2.filter fun p => inr p.1).map (·.1)).foldl (fun s l => l2Evict s d.1 l) s) s
/-- Bytes of a range copied to another (step 3 of R36). -/
def copyRange (m : Memory) (src dst len : Nat) : Memory :=
  (m.filter fun b => decide (src ≤ b.1) && decide (b.1 < src + len)).foldl (fun m b => memWrite m (dst + (b.1 - src)) b.2)
    (m.filter fun b => !(decide (dst ≤ b.1) && decide (b.1 < dst + len)))
/-- What the threads hold of a range follows it to its new frame: the old home forwards (step 5 of R36). -/
def followRange (s : State) (src dst len : Nat) : State :=
  let move := fun (a : Nat) => if src ≤ a ∧ a < src + len then dst + (a - src) else a
  { s with threads := mapEach (fun _ th => { th with
      ops := th.ops.map fun o => { o with
        pa := move o.pa, seen := o.seen.map fun w => w.map fun e => { e with line := move (e.line * 128) / 128 } }
      ws := th.ws.map fun e => { e with line := move (e.line * 128) / 128 } }) s.threads }
/-- A leaf with a new frame, released. -/
def leafMoved (e : DWord) (home frame : Nat) : DWord :=
  (e &&& ~~~(0x7FFFFF#64 <<< 32) &&& ~~~(1#64 <<< 11)) ||| (BitVec.ofNat 64 home <<< 48) ||| (BitVec.ofNat 64 frame <<< 32)
/-- A leaf with a new region mode, released. -/
def leafMode (e : DWord) (rm : Nat) : DWord := (e &&& ~~~(3#64 <<< 10)) ||| (BitVec.ofNat 64 (rm % 2) <<< 10)

/-- The leaves of a region of pages: each with its place, physical range and virtual base; none where a page has no leaf, or is frozen
already (R35). -/
def regionLeaves (s : State) (ctx : Nat) : List Nat → Option (State × List (DWord × Nat × Nat × Nat × Nat))
  | [] => some (s, [])
  | p :: ps =>
    let va := p * 2 ^ 16
    let r := walk s ctx va .read
    match r.2 with
    | .leaf e entry big =>
      if fld e 11 11 = 1 then none
      else
        let len := if big then 2 ^ 21 else 2 ^ 16
        match regionLeaves r.1 ctx ps with
        | some (s, l) => some (s, (e, entry, leafPa e big 0, len, va / len * len) :: l.filter fun x => x.2.1 != entry)
        | none => none
    | _ => none
/-- Whether a request of an operation of this device to a range of another device's addresses is outstanding (step 2 of R34). -/
def importBusy (s : State) (home va len : Nat) : Bool :=
  s.out.any fun p => !p.2.host && p.2.who != [] && decide (p.2.dst = home) && decide (va ≤ p.2.va) && decide (p.2.va < va + len)
/-- The copies that this device holds of a region of another device, by die and key. -/
def importKeys (s : State) (home va len : Nat) : List (Nat × Nat) :=
  let lo := remoteKey home va
  s.dies.flatMap fun d => ((d.2.rdc ++ d.2.fills).filter fun p => decide (lo ≤ p.1) && decide (p.1 < lo + len / 128)).map fun p => (d.1, p.1)
/-- Whether every line that this device imported of a region has left, and its dirty bytes have reached the home (step 3 of R34). -/
def importDone (s : State) (home va len : Nat) : Bool :=
  (importKeys s home va len).isEmpty && !(s.out.any fun p => !p.2.host && (match p.2.kind with
    | .masked _ => true
    | _ => false) && decide (p.2.dst = home) && decide (va ≤ p.2.va) && decide (p.2.va < va + len))
/-- The lines that this device imports of a region of another device invalidated, dirty ones once their writeback is answered, those whose
writeback failed before among them (step 3 of R34). -/
def importFlush (s : State) (home va len : Nat) : State :=
  (importKeys s home va len).foldl (fun s k => match rdcGet? s k.1 k.2 with
    | some x => if x.leaving then s else rdcEvict s k.1 k.2 x
    | none => s) s
/-- One leaf of a region switched (R34). (DESIGN CHOICE, log entry 53.) -/
def switchLeaf (s : State) (ctx rm : Nat) (x : DWord × Nat × Nat × Nat × Nat) : State :=
  let pa := x.2.2.1
  let len := x.2.2.2.1
  let va := x.2.2.2.2
  let s := (knownLines s pa len).eraseDups.foldl (fun s l => settleAll s l true) (dropPlain s pa len)
  let s := physWrite s (homeCore (x.2.1 / 128)) x.2.1 (bytesOfDWord (leafMode x.1 rm))
  shootdown s ctx va len (upTo Config.numCores)

/-- The 192 signed bytes of an attestation report (Table 22-5). (DESIGN CHOICE, log entry 15.) -/
def reportBody (s : State) (part : Nat) (nonce : BitVec 256) : List Byte :=
  bytesOfNat 32 nonce.toNat ++ bytesOfNat 16 Config.serial.toNat ++ bytesOfNat 32 s.firmware.toNat ++ bytesOfNat 32 s.hypervisor.toNat ++
    bytesOfNat 32 (mapGetD s.systems part 0).toNat ++ bytesOfDWord (Config.maskField (mapGetD s.parts part 0).toNat Config.fusedVersion) ++
    List.replicate 40 0
/-- The counters of a die: corrected errors by tier, failed eviction writebacks, the state and lanes of its links and of the fabric
ports, and dropped trace records (R68, R103, R420). (DESIGN CHOICE, log entry 38.) -/
def counterList (s : State) (die : Nat) : List Nat :=
  let d := s.die die
  (upTo 8).map (fun i => mapGetD d.corrected i 0) ++ [d.wbFailed] ++
    ((((upTo 4).filter (· != die)).map fun o => mapGetD s.links (die * 4 + o) {}).flatMap fun l => [if l.retraining then 1 else 0, l.lanes]) ++
    ((upTo 38).map fun p => mapGetD s.fabLinks p {}).flatMap (fun l => [if l.up then 1 else 0, l.lanes]) ++ [d.traceDrop]
/-- Whether an inbound window is configured for a context of another partition. -/
def windowTaken (s : State) (part i : Nat) : Bool := match mapGet? s.inbound i with
  | some w => fld w 0 0 = 1 && !ownsCtx s part (fld w 23 16)
  | none => false

/-- A die reaches 105 °C or the module its power limit: the issue units of the die skip clocks (R423). -/
def execJunction105c (die : Nat) (s : State) : Host.Outcome State Fault Refusal :=
  if die < 4 ∧ (s.die die).throttled = false then .next (s.modDie die fun d => { d with throttled := true }) else notEnabled "JUNCTION_105C"

/-- A die recovers, and its issue units go on (R423). -/
def execThermalRecovery (die : Nat) (s : State) : Host.Outcome State Fault Refusal :=
  if (s.die die).throttled then .next (s.modDie die fun d => { d with throttled := false }) else notEnabled "THERMAL_RECOVERY"

/-- A die reaches 115 °C: the device takes a device-level fault (R423, R381). -/
def execJunction115c (die : Nat) (s : State) : Host.Outcome State Fault Refusal :=
  if die < 4 then .next (deviceLevelFault s) else notEnabled "JUNCTION_115C"

/-- The device is reset: the boot ROM checks the firmware image, and starts it or stays in recovery (R421). -/
def execDeviceReset (img : Firmware) (s : State) : Host.Outcome State Fault Refusal :=
  let r := afterReset s
  if imageOk img then .next (booted r img) else .next { r with recovery := true }

/-- A device in recovery takes a new image through BAR0 and checks it as at reset (R421). -/
def execNewFirmwareImage (img : Firmware) (s : State) : Host.Outcome State Fault Refusal :=
  if s.recovery = false then notEnabled "NEW_FIRMWARE_IMAGE"
  else if imageOk img then .next { booted s img with outs := s.outs ++ [.imageAccepted] }
  else .next s

/-- System software sets the LEASE of a die, for the grants made after it (R75). -/
def execSetLease (part die value : Nat) (s : State) : Host.Outcome State Fault Refusal :=
  if !ownsDie s part die then .next (refuse s)
  else if value = 0 ∨ 255 < value then notEnabled "SET_LEASE"
  else .next (s.modDie die fun d => { d with lease := value })

/-- A thread's state in the layout of Table 15-4: its 64 bytes, then its g registers (R404). (DEDUCED, log entry 49.) -/
def threadBytes (s : State) (n : Nat) (th : Thread) : List Byte := savedThread s th ++ (upTo n).flatMap fun i => bytesOfWord (getG th i)
/-- The registers of a thread's train. -/
def regsOf (s : State) (t : Nat) : Nat := (s.train (s.thread t).train).regs
/-- The counters of a die read, or where a line is named the directory entry of the line at its home die (R85, R420). -/
def readDie (part die : Nat) (line : Option Nat) (s : State) : Host.Outcome State Fault Refusal :=
  if !ownsDie s part die then .next (refuse s)
  else
    match line with
    | none => .next { s with outs := s.outs ++ [.counters (counterList s die)] }
    | some l =>
      if homeDie l = die then .next { s with outs := s.outs ++ [.counters [(dirWord l (dirGet s l)).toNat]] } else notEnabled "READ_COUNTERS"
/-- The counters of a die are returned, the directory entry of a line, the state of a halted thread, or the time record of a launch (R85,
R404, R406, R420). -/
def execReadCounters (part : Nat) (what : Readout) (s : State) : Host.Outcome State Fault Refusal :=
  match what.thread, what.launch with
  | some t, _ =>
    if !liveThread s t || !(s.thread t).halted then notEnabled "READ_COUNTERS"
    else if !ownsCtx s part (s.ctxOf t) then .next (refuse s)
    else .next { s with outs := s.outs ++ [.readout (threadBytes s (regsOf s t) (s.thread t))] }
  | none, some lid =>
    (match s.launch? lid with
    | none => notEnabled "READ_COUNTERS"
    | some l => .next (if l.part = part then { s with outs := s.outs ++ [.readout (timeRecord l)] } else refuse s))
  | none, none => readDie part what.die what.line s

/-- System software configures a host window of a context (R30). -/
def execSetHostWindow (part ctx i : Nat) (value : BitVec 128) (s : State) : Host.Outcome State Fault Refusal :=
  if !ownsCtx s part ctx then .next (refuse s)
  else if 16 ≤ i ∨ fld value 23 4 ≠ 0 ∨ fld value 127 104 ≠ 0 then notEnabled "SET_HOST_WINDOW"
  else
    let x := s.ctx ctx
    .next { s with ctxs := mapSet s.ctxs ctx { x with windows := mapSet x.windows i value } }

/-- System software configures a BAR2 inbound window (R419). -/
def execSetInboundWindow (part i : Nat) (value : BitVec 128) (s : State) : Host.Outcome State Fault Refusal :=
  if !ownsCtx s part (fld value 23 16) || windowTaken s part i then .next (refuse s)
  else if 16 ≤ i ∨ fld value 79 24 ≠ 0 ∨ fld value 15 3 ≠ 0 ∨ fld value 113 80 ≠ 0 then notEnabled "SET_INBOUND_WINDOW"
  else .next { s with inbound := mapSet s.inbound i value }

/-- Forwarding from a range that takes a new use ends (R36). -/
def forwardsDrop (s : State) (pa len : Nat) : State :=
  { s with forwards := s.forwards.filter fun f => decide (f.src + f.len ≤ pa) || decide (pa + len ≤ f.src) }
/-- The bytes of a page copied to its new frame, which the context owns, and its entry switched (R36). (DESIGN CHOICE, log entry 53.) -/
def movePage (s : State) (part ctx home frame entry src dst len : Nat) (e : DWord) : State :=
  let s := bringHome s src len
  let s := discardLines s fun l => decide (dst ≤ l * 128) && decide (l * 128 < dst + len)
  let s := followRange { s with mem := copyRange s.mem src dst len } src dst len
  let s := { s with frames := (upTo (len / 2 ^ 16)).foldl (fun m i => mapSet m (dst / 2 ^ 16 + i) { part := part, ctx := ctx }) s.frames }
  physWrite s (homeCore (entry / 128)) entry (bytesOfDWord (leafMoved e home frame))

/-- A page moves to a new frame of its partition: frozen, completed, copied, switched, and forwarded (R36, R37). -/
def execPageMigration (part ctx page home frame : Nat) (s : State) : Host.Outcome State Fault Refusal :=
  let va := page * 2 ^ 16
  let r := walk s ctx va .read
  if !ownsCtx s part ctx then .next (refuse s)
  else match r.2 with
  | .leaf e entry big =>
    let len := if big then 2 ^ 21 else 2 ^ 16
    let src := leafPa e big 0
    let dst := home * 2 ^ 32 + frame * 2 ^ 16
    if !framesOwned s part dst len then .next (refuse s)
    else if fld e 11 11 = 1 ∨ Config.numCores ≤ home ∨ 0xA000 ≤ frame ∨ (big = true ∧ frame % 32 ≠ 0) ∨ (src < dst + len ∧ dst < src + len) ∨
        rangeBusy r.1 src len = true then notEnabled "PAGE_MIGRATION"
    else
      let s := shootdown (movePage r.1 part ctx home frame entry src dst len e) ctx (va / len * len) len (upTo Config.numCores)
      let s := forwardsDrop s dst len
      .next { s with forwards := s.forwards ++ [{ ctx := ctx, page := page, since := s.clk, src := src, dst := dst, len := len }] }
  | _ => notEnabled "PAGE_MIGRATION"

/-- The mode of a region of pages changes at its home: frozen, drained, flushed, rebuilt, and released (R34, R35). A region of another
home is drained and flushed here, where this device imports it: the lines leave as their writebacks are acknowledged, and the device reports
done in the step that finds none held and no dirty bytes on their way; until then the request is made again. -/
def execRegionModeChange (part ctx page count : Nat) (mode : RegionMode) (s : State) : Host.Outcome State Fault Refusal :=
  let rm := mode.rm
  let home := mode.home
  if !ownsCtx s part ctx then .next (refuse s)
  else if count = 0 ∨ 1 < rm ∨ 384 ≤ home then notEnabled "REGION_MODE_CHANGE"
  else if home ≠ Config.deviceId then
    if ctx ≠ s.jobCtx then .next s
    else if importBusy s home (page * 2 ^ 16) (count * 2 ^ 16) then notEnabled "REGION_MODE_CHANGE"
    else
      let s := importFlush s home (page * 2 ^ 16) (count * 2 ^ 16)
      .next (if importDone s home (page * 2 ^ 16) (count * 2 ^ 16) then { s with outs := s.outs ++ [.regionFlushed home page count] } else s)
  else
    match regionLeaves s ctx ((upTo count).map (page + ·)) with
    | some (s, l) =>
      if l.any fun x => rangeBusy s x.2.2.1 x.2.2.2.1 then notEnabled "REGION_MODE_CHANGE"
      else .next (l.foldl (fun s x => switchLeaf s ctx rm x) s)
    | none => notEnabled "REGION_MODE_CHANGE"

/-- A frame takes a new owner: its bytes become zero and every cached copy is discarded before the tag takes effect (R39). -/
def execOwnerTagChange (part home frame ctx : Nat) (s : State) : Host.Outcome State Fault Refusal :=
  let pa := home * 2 ^ 32 + frame * 2 ^ 16
  if !ownsCtx s part ctx || !framesOf s part pa (2 ^ 16) then .next (refuse s)
  else if Config.numCores ≤ home ∨ 0xA000 ≤ frame ∨ rangeBusy s pa (2 ^ 16) = true then notEnabled "OWNER_TAG_CHANGE"
  else
    let inr := fun (l : Nat) => l / 512 = pa / 2 ^ 16
    let s := forwardsDrop (discardLines s fun l => inr l) pa (2 ^ 16)
    .next { s with
      mem := s.mem.filter fun b => b.1 / 2 ^ 16 != pa / 2 ^ 16
      frames := mapSet s.frames (pa / 2 ^ 16) { part := part, ctx := ctx }
      threads := mapEach (fun _ th => { th with
        ws := th.ws.filter fun e => !decide (inr e.line)
        ops := th.ops.map fun o => { o with seen := o.seen.map fun w => w.filter fun e => !decide (inr e.line) } }) s.threads }

/-- A signed report about the requesting partition (R422). -/
def execAttestationReport (part : Nat) (nonce : BitVec 256) (s : State) : Host.Outcome State Fault Refusal :=
  if (mapGet? s.parts part).isNone then .next (refuse s)
  else
    let b := reportBody s part nonce
    .next { s with outs := s.outs ++ [.report (b ++ bytesOfNat 64 (Config.sign (sha256 b)).toNat)] }

/-- A halted thread with one 64-bit word of its state written, in the layout of Table 15-4: its 64 bytes, then its g registers (R404).
(DEDUCED, log entry 49.) -/
def pokeThread (s : State) (n word : Nat) (value : DWord) (th : Thread) : Thread :=
  let b := threadBytes s n th
  let b := b.take (8 * word) ++ bytesOfDWord value ++ b.drop (8 * word + 8)
  { restoreThread s (b.take 64) (b.drop 64) [] false n 0 th with lane := th.lane }

/-- A write of a system register that has no behaviour of its own: what it holds changes, and nothing else (R420).
(DESIGN CHOICE, log entry 17.) -/
def execRegisterWrite (r : SysReg) (value : DWord) (s : State) : Host.Outcome State Fault Refusal :=
  match r with
  | .root ctx => .next { s with ctxs := mapSet s.ctxs ctx { s.ctx ctx with root := value } }
  | .slice ctx => .next { s with ctxs := mapSet s.ctxs ctx { s.ctx ctx with slice := value.toNat } }
  | .partition ctx => .next { s with ctxs := mapSet s.ctxs ctx { s.ctx ctx with part := value.toNat } }
  | .dies part => .next { s with parts := mapSet s.parts part (value.setWidth 4) }
  | .member d =>
    if 384 ≤ d then notEnabled "REGISTER_WRITE"
    else .next { s with members := (upTo 384).filter fun m => if m = d then value.getLsbD 0 else s.members.contains m }
  | .jobContext => .next { s with jobCtx := value.toNat }
  | .aperture id word =>
    if 256 ≤ id ∨ 8 ≤ word then notEnabled "REGISTER_WRITE"
    else
      let d := mapGetD s.apertures id 0
      .next { s with apertures := mapSet s.apertures id ((d &&& ~~~((0xFFFFFFFFFFFFFFFF#512) <<< (64 * word))) ||| (value.setWidth 512 <<< (64 * word))) }
  | .overflow c =>
    if Config.numCores ≤ c then notEnabled "REGISTER_WRITE"
    else .next (s.modCore c fun k => { k with overflowBase := value.toNat % 2 ^ 32, overflowLen := value.toNat / 2 ^ 32 })
  | .thread part t word =>
    let n := regsOf s t
    if !liveThread s t || !(s.thread t).halted || decide (64 + 4 * n ≤ 8 * word) then notEnabled "REGISTER_WRITE"
    else if !ownsCtx s part (s.ctxOf t) then .next (refuse s)
    else .next (s.modThread t (pokeThread s n word value))
  | .other number => .next { s with sysRegs := mapSet s.sysRegs number value }

end Sys2Proof.Machine
end

