-- ==== Sys2Proof/Machine/Helpers.lean ====
section
/-! DEFINITION. Helpers: recruitment, the dispenser, leaving and joining (R321 to R332). -/

namespace Sys2Proof.Machine
open Sys2Proof

/-- The quarter's recruitments that hold a bank; an evicted train's are saved with it (R378). -/
def banksHeld (s : State) (c q : Nat) : Nat :=
  (s.threads.filter fun p => p.2.bank.isSome && (s.trainOf p.1).evicted.isNone && (s.trainOf p.1).core = c && (s.trainOf p.1).quarter = q).length
/-- The helpers of a quarter, each of which has a horizon window. -/
def windowsHeld (s : State) (c q : Nat) : Nat :=
  (s.threads.filter fun p => p.2.helper.isSome && (s.trainOf p.1).core = c && (s.trainOf p.1).quarter = q).length
/-- The lanes of a quarter on which a train of a launch is placed, ascending (R322). -/
def eligibleLanes (s : State) (lid c q : Nat) : List Nat :=
  (upTo 64).filter fun l => s.trains.any fun p =>
    p.2.launch = lid && p.2.core = c && p.2.quarter = q && p.2.evicted.isNone && decide (p.2.lane ≤ l) && decide (l < p.2.lane + p.2.width)

/-- The code of a recruitment (Table 13-1); `n` is Reg[gN]. -/
def grantCode (s : State) (t n : Nat) : Nat :=
  let tr := s.trainOf t
  if (s.thread t).helper.isSome then 2
  else if (match s.launch? tr.launch with
      | some l => l.header.getLsbD 1
      | none => false) then 5
  else if (s.core tr.core).preempt.isSome then 3
  else if n = 0 then 4
  else if 8 ≤ banksHeld s tr.core tr.quarter then 1
  else if 256 ≤ windowsHeld s tr.core tr.quarter then 6
  else 0
/-- The number of helpers granted under code 0 (R322). -/
def grantCount (s : State) (t r n c : Nat) : Nat :=
  let tr := s.trainOf t
  min (min (min r 64) ((n + c - 1) / c))
    (min (eligibleLanes s tr.launch tr.core tr.quarter).length (256 - windowsHeld s tr.core tr.quarter))

/-- The state in which helper `i` of `n` starts (R323): g0 to g47 are the bank's copy, g48 is h0 and g49 is h1. (DEDUCED, log entry 34.) -/
def helperThread (th : Thread) (t i n lane : Nat) (pc : Addr) : Thread :=
  { train := th.train, tidx := i, lane := lane, helper := some (t, i), pc := pc, slot := th.slot,
    g := mapSet (mapSet (th.g.filter fun p => p.1 < 48) 48 (BitVec.ofNat 32 i)) 49 (BitVec.ofNat 32 n) }
/-- Helpers started on lanes, from index `i` on. -/
def startHelpers (s : State) (t n : Nat) (pc : Addr) : List Nat → Nat → State
  | [], _ => s
  | l :: ls, i =>
    let s := { s.setThread s.nextThread (helperThread (s.thread t) t i n l pc) with nextThread := s.nextThread + 1 }
    startHelpers s t n pc ls (i + 1)
/-- A dispenser armed (step 6 of R322). -/
def armDispenser (th : Thread) (n : Word) (c : Nat) : Thread :=
  { th with next := 0, endIter := n, chunk := c, armed := true, returns := [] }

/-- Steps 2 to 6 of R322; the target's checks are those of `jr` (R231). -/
def recruitBody (i : Instr) (c b a d : BitVec 6) (s : State) (t : Nat) : State :=
  let th := s.thread t
  let n := getG th a.toNat
  let target := getX th b.toNat
  if th.bank.isSome ∨ th.returns ≠ [] then raise s t 1 0
  else if 0x7FFFFFFF < n.toNat then raise s t 1 0
  else if target.extractLsb' 48 16 ≠ 0 then raise s t 6 target
  else if target.getLsbD 0 then raise s t 4 target
  else
    let r := landCheck s t target
    match r.2 with
    | some (some cause) => raise r.1 t cause target
    | some none => r.1
    | none =>
      let s := r.1
      let chunk := c.toNat + 1
      let code := grantCode s t n.toNat
      let k := if code = 0 then grantCount s t (getG th d.toNat).toNat n.toNat chunk else 0
      let tr := s.trainOf t
      let s := if code = 2 then s else s.modThread t fun th => armDispenser th n chunk
      let key := s.nextThread
      let s := startHelpers s t k (target.setWidth 48) ((eligibleLanes s tr.launch tr.core tr.quarter).take k) 0
      let s := if k = 0 then s
        else s.modThread t fun th =>
          { th with bank := some { n := k, live := (upTo k).map (key + ·), regs := [], flags := 0, forced := false, charged := [], copy := th.g.filter fun p => p.1 < 48 } }
      s.modThread t fun th => past i (putResult th (plainResult d.toNat (BitVec.ofNat 32 (k + code * 256))))

/-- The next chunk of a dispenser (R325), and the dispenser after the claim. -/
def claimChunk (th : Thread) : Thread × Word × Word :=
  match th.returns with
  | x :: r => ({ th with returns := r }, x.1, x.2)
  | [] =>
    if th.armed = false ∨ th.endIter ≤ th.next then (th, 0xFFFFFFFF, 0xFFFFFFFF)
    else
      let hi := BitVec.ofNat 32 (min (th.next.toNat + th.chunk) th.endIter.toNat)
      ({ th with next := hi }, th.next, hi)
/-- `rnext` (R325, R328). -/
def rnextBody (i : Instr) (d : BitVec 6) (s : State) (t : Nat) : State :=
  let th := s.thread t
  let give := fun (s : State) (lo hi : Word) => s.modThread t fun th => past i (putResult th (plainPair d.toNat (hi ++ lo)))
  match th.helper with
  | none =>
    let r := claimChunk th
    give (s.setThread t r.1) r.2.1 r.2.2
  | some (o, _) =>
    let forced := match (s.thread o).bank with
      | some b => b.forced
      | none => false
    if unresolved th ≠ 0 then park s t .ownHorizon
    else if forced then give s 0xFFFFFFFF 0xFFFFFFFF
    else
      let r := claimChunk (s.thread o)
      let s := s.setThread o r.1
      let s := if r.2.1 = 0xFFFFFFFF then s else s.modThread t fun th => { th with claimed := some (r.2.1, r.2.2) }
      give s r.2.1 r.2.2

/-- A helper gone from its recruitment, its window free. -/
def dropHelper (s : State) (t o : Nat) : State :=
  let s := { s with threads := mapDel s.threads t }
  s.modThread o fun th => { th with bank := th.bank.map fun b => { b with live := b.live.filter (· != t) } }
/-- A helper leaves: what is on its way arrives, and its h registers and flags stay with the bank (R326, R327). -/
def helperLeaves (s : State) (t o i : Nat) : State :=
  let th := (s.thread t).results.foldl writeResult (s.thread t)
  let s := s.modThread o fun r => { r with bank := r.bank.map (bankKeeps th i) }
  dropHelper s t o
/-- `rleave` (R326). -/
def rleaveBody (s : State) (t : Nat) : State :=
  match (s.thread t).helper with
  | none => raise s t 1 0
  | some (o, i) =>
    let r := boundaryStep s t 1
    if r.2 then helperLeaves r.1 t o i else r.1

/-- Whether iterations of a thread's dispenser are unclaimed: q7 after `rjoin` (R327). -/
def unclaimed (th : Thread) : Bool := decide (th.next < th.endIter) || !th.returns.isEmpty
/-- A fold of the helpers' registers in ascending index: the registers written and the flags (R327). -/
abbrev Fold := Thread → Bank → List (Nat × Word) × Word
/-- A fold of one word of each helper. -/
def foldWord (d h : Nat) (f : Word → Word → Word × Word) : Fold := fun th b =>
  let r := (upTo b.n).foldl (fun (v : Word × Word) i =>
    let x := f v.1 (mapGetD b.regs (16 * i + h) 0)
    (x.1, v.2 ||| x.2)) (getG th d, 0)
  ([(d, r.1)], r.2)
/-- A fold of one pair of each helper. -/
def foldPair (d h : Nat) (f : DWord → DWord → DWord × Word) : Fold := fun th b =>
  let r := (upTo b.n).foldl (fun (v : DWord × Word) i =>
    let x := f v.1 (mapGetD b.regs (16 * i + h + 1) 0 ++ mapGetD b.regs (16 * i + h) 0)
    (x.1, v.2 ||| x.2)) (getX th d, 0)
  ([(d, r.1.setWidth 32), (d + 1, r.1.extractLsb' 32 32)], r.2)
/-- An integer fold step. -/
def foldInt (o : BitVec 3) (d b : BitVec 6) : Fold := foldWord d.toNat b.toNat fun x y => (redInt o x y, 0)
/-- A single-precision fold step. -/
def foldF32 (o : BitVec 2) (d b : BitVec 6) : Fold := foldWord d.toNat b.toNat fun x y =>
  let r := redNode fp32 o (x.toNat, 0) (y.toNat, 0)
  (BitVec.ofNat 32 r.1, r.2)
/-- A double-precision fold step. -/
def foldF64 (o : BitVec 2) (d b : BitVec 6) : Fold := foldPair d.toNat b.toNat fun x y =>
  let r := redNode fp64 o (x.toNat, 0) (y.toNat, 0)
  (BitVec.ofNat 64 r.1, r.2)

/-- The end of `rjoin`: the fold, the helpers' flags, q7 and the movement phase clock; the plain form releases the bank once no
helper's trap is left to deliver (R327). In handler mode, where such a trap cannot be delivered, it keeps the bank and goes on. (DESIGN
CHOICE, log entry 80.) -/
def joined (i : Instr) (fold : Option Fold) (s : State) (t : Nat) : State :=
  let s := readClocks s (s.coreOf t) 1
  s.modThread t fun th =>
    let r := match th.bank with
      | some b =>
        let x := match fold with
          | some f => f th b
          | none => ([], 0)
        (x.1, x.2 ||| b.flags)
      | none => ([], 0)
    let th := if fold.isNone then { th with bank := th.bank.filter fun b => !b.charged.isEmpty } else th
    past i (putResult th { regs := r.1, preds := [(7, unclaimed th)], flags := r.2 })
/-- `rjoin` of any form: it parks until every helper has left; a trap charged to the thread is then delivered, outside handler
mode (R327, R330, R370). -/
def rjoinBody (i : Instr) (fold : Option Fold) (s : State) (t : Nat) : State :=
  match (s.thread t).bank with
  | none => joined i fold s t
  | some b =>
    if b.live.isEmpty ∧ (s.thread t).hm then joined i fold s t
    else afterHelpers (joined i fold) s t

/-- `recruit` (R322 to R325). -/
def execRecruit (c : BitVec 6) (b : BitVec 6) (a : BitVec 6) (d : BitVec 6) (sm : BitVec 1) (s : State) : Host.Outcome State Fault Refusal :=
  issueEach (.recruit c b a d sm) (markedBody (recruitBody (.recruit c b a d sm) c b a d)) s

/-- `rnext` (R325, R328). -/
def execRnext (d : BitVec 6) (sm : BitVec 1) (s : State) : Host.Outcome State Fault Refusal :=
  issueEach (.rnext d sm) (rnextBody (.rnext d sm) d) s

/-- `rleave` (R326). -/
def execRleave (sm : BitVec 1) (s : State) : Host.Outcome State Fault Refusal :=
  issueEach (.rleave sm) (rleaveBody) s

/-- `rjoin` (R327). -/
def execRjoin (sm : BitVec 1) (s : State) : Host.Outcome State Fault Refusal :=
  issueEach (.rjoin sm) (rjoinBody (.rjoin sm) none) s

/-- `rjoin.add` (R327, R332). -/
def execRjoinAdd (b : BitVec 6) (d : BitVec 6) (sm : BitVec 1) (s : State) : Host.Outcome State Fault Refusal :=
  issueEach (.rjoinAdd b d sm) (rjoinBody (.rjoinAdd b d sm) (some (foldInt 0 d b))) s

/-- `rjoin.min` (R327, R332). -/
def execRjoinMin (b : BitVec 6) (d : BitVec 6) (sm : BitVec 1) (s : State) : Host.Outcome State Fault Refusal :=
  issueEach (.rjoinMin b d sm) (rjoinBody (.rjoinMin b d sm) (some (foldInt 1 d b))) s

/-- `rjoin.max` (R327, R332). -/
def execRjoinMax (b : BitVec 6) (d : BitVec 6) (sm : BitVec 1) (s : State) : Host.Outcome State Fault Refusal :=
  issueEach (.rjoinMax b d sm) (rjoinBody (.rjoinMax b d sm) (some (foldInt 2 d b))) s

/-- `rjoin.minu` (R327, R332). -/
def execRjoinMinu (b : BitVec 6) (d : BitVec 6) (sm : BitVec 1) (s : State) : Host.Outcome State Fault Refusal :=
  issueEach (.rjoinMinu b d sm) (rjoinBody (.rjoinMinu b d sm) (some (foldInt 3 d b))) s

/-- `rjoin.maxu` (R327, R332). -/
def execRjoinMaxu (b : BitVec 6) (d : BitVec 6) (sm : BitVec 1) (s : State) : Host.Outcome State Fault Refusal :=
  issueEach (.rjoinMaxu b d sm) (rjoinBody (.rjoinMaxu b d sm) (some (foldInt 4 d b))) s

/-- `rjoin.and` (R327, R332). -/
def execRjoinAnd (b : BitVec 6) (d : BitVec 6) (sm : BitVec 1) (s : State) : Host.Outcome State Fault Refusal :=
  issueEach (.rjoinAnd b d sm) (rjoinBody (.rjoinAnd b d sm) (some (foldInt 5 d b))) s

/-- `rjoin.or` (R327, R332). -/
def execRjoinOr (b : BitVec 6) (d : BitVec 6) (sm : BitVec 1) (s : State) : Host.Outcome State Fault Refusal :=
  issueEach (.rjoinOr b d sm) (rjoinBody (.rjoinOr b d sm) (some (foldInt 6 d b))) s

/-- `rjoin.xor` (R327, R332). -/
def execRjoinXor (b : BitVec 6) (d : BitVec 6) (sm : BitVec 1) (s : State) : Host.Outcome State Fault Refusal :=
  issueEach (.rjoinXor b d sm) (rjoinBody (.rjoinXor b d sm) (some (foldInt 7 d b))) s

/-- `rjoin.fadd.f32` (R327, R332). -/
def execRjoinFaddF32 (b : BitVec 6) (d : BitVec 6) (sm : BitVec 1) (s : State) : Host.Outcome State Fault Refusal :=
  issueEach (.rjoinFaddF32 b d sm) (rjoinBody (.rjoinFaddF32 b d sm) (some (foldF32 0 d b))) s

/-- `rjoin.fadd.f64` (R327, R332). -/
def execRjoinFaddF64 (b : BitVec 6) (d : BitVec 6) (sm : BitVec 1) (s : State) : Host.Outcome State Fault Refusal :=
  issueEach (.rjoinFaddF64 b d sm) (rjoinBody (.rjoinFaddF64 b d sm) (some (foldF64 0 d b))) s

/-- `rjoin.fmin.f32` (R327, R332). -/
def execRjoinFminF32 (b : BitVec 6) (d : BitVec 6) (sm : BitVec 1) (s : State) : Host.Outcome State Fault Refusal :=
  issueEach (.rjoinFminF32 b d sm) (rjoinBody (.rjoinFminF32 b d sm) (some (foldF32 1 d b))) s

/-- `rjoin.fmin.f64` (R327, R332). -/
def execRjoinFminF64 (b : BitVec 6) (d : BitVec 6) (sm : BitVec 1) (s : State) : Host.Outcome State Fault Refusal :=
  issueEach (.rjoinFminF64 b d sm) (rjoinBody (.rjoinFminF64 b d sm) (some (foldF64 1 d b))) s

/-- `rjoin.fmax.f32` (R327, R332). -/
def execRjoinFmaxF32 (b : BitVec 6) (d : BitVec 6) (sm : BitVec 1) (s : State) : Host.Outcome State Fault Refusal :=
  issueEach (.rjoinFmaxF32 b d sm) (rjoinBody (.rjoinFmaxF32 b d sm) (some (foldF32 2 d b))) s

/-- `rjoin.fmax.f64` (R327, R332). -/
def execRjoinFmaxF64 (b : BitVec 6) (d : BitVec 6) (sm : BitVec 1) (s : State) : Host.Outcome State Fault Refusal :=
  issueEach (.rjoinFmaxF64 b d sm) (rjoinBody (.rjoinFmaxF64 b d sm) (some (foldF64 2 d b))) s

end Sys2Proof.Machine
end

