-- ==== Sys2Proof/Machine/LoadStore.lean ====
section
/-! DEFINITION. Loads and stores (R274 to R283). -/

namespace Sys2Proof.Machine
open Sys2Proof

/-- `ld`: a weak load in the device space (R274 to R283). -/
def execLd (o : BitVec 4) (w : BitVec 3) (p : BitVec 3) (a : BitVec 6) (d : BitVec 6) (sm : BitVec 1) (s : State) : Host.Outcome State Fault Refusal :=
  issueAccess (.ld o w p a d sm) (memBody (.ld o w p a d sm) o w a) s

/-- `ld.sx` (R274 to R283). -/
def execLdSx (o : BitVec 4) (w : BitVec 3) (p : BitVec 3) (a : BitVec 6) (d : BitVec 6) (sm : BitVec 1) (s : State) : Host.Outcome State Fault Refusal :=
  issueAccess (.ldSx o w p a d sm) (memBody (.ldSx o w p a d sm) o w a) s

/-- `st` (R274 to R283). -/
def execSt (o : BitVec 4) (w : BitVec 3) (p : BitVec 3) (a : BitVec 6) (d : BitVec 6) (sm : BitVec 1) (s : State) : Host.Outcome State Fault Refusal :=
  issueAccess (.st o w p a d sm) (memBody (.st o w p a d sm) o w a) s

/-- `ld.s` (R274 to R283). -/
def execLdS (o : BitVec 4) (w : BitVec 3) (p : BitVec 3) (a : BitVec 6) (d : BitVec 6) (sm : BitVec 1) (s : State) : Host.Outcome State Fault Refusal :=
  issueAccess (.ldS o w p a d sm) (memBody (.ldS o w p a d sm) o w a) s

/-- `ld.sx.s` (R274 to R283). -/
def execLdSxS (o : BitVec 4) (w : BitVec 3) (p : BitVec 3) (a : BitVec 6) (d : BitVec 6) (sm : BitVec 1) (s : State) : Host.Outcome State Fault Refusal :=
  issueAccess (.ldSxS o w p a d sm) (memBody (.ldSxS o w p a d sm) o w a) s

/-- `st.s` (R274 to R283). -/
def execStS (o : BitVec 4) (w : BitVec 3) (p : BitVec 3) (a : BitVec 6) (d : BitVec 6) (sm : BitVec 1) (s : State) : Host.Outcome State Fault Refusal :=
  issueAccess (.stS o w p a d sm) (memBody (.stS o w p a d sm) o w a) s

end Sys2Proof.Machine
end

