-- ==== Sys2Proof/Machine/System.lean ====
section
/-! DEFINITION. The system instructions, control registers and `hzreplay` (R249, R368, R371 to R374). -/

namespace Sys2Proof.Machine
open Sys2Proof

/-- The 64-bit value of a special register (Tables 6-1 and 7-12). -/
def specialReg (s : State) (t : Nat) (a : BitVec 6) : DWord :=
  let th := s.thread t
  let tr := s.train th.train
  match a.toNat with
  | 0 => BitVec.ofNat 64 th.lane
  | 1 => BitVec.ofNat 64 th.tidx
  | 2 => tr.number.setWidth 64
  | 3 => BitVec.ofNat 64 tr.core
  | 4 => BitVec.ofNat 64 (dieOfCore tr.core)
  | 5 => BitVec.ofNat 64 Config.deviceId
  | 6 => th.hz.setWidth 64
  | 7 => th.seq.setWidth 64
  | _ => BitVec.ofNat 64 s.clk
/-- `srd` (R374): one word, or for CLK a pair. -/
def srdBody (i : Instr) (a d : BitVec 6) (s : State) (t : Nat) : State :=
  let v := specialReg s t a
  variableBody i (fun _ => if a = 8 then plainPair d.toNat v else plainResult d.toNat (v.setWidth 32)) s t

/-- The value of a control register (Table 15-2); a helper reads its recruiter's TVEC and TAREA (R368). -/
def csrRead (s : State) (t : Nat) (n : BitVec 6) : Word :=
  let th := s.thread t
  let r := s.thread (recruiterOf s t)
  match n.toNat with
  | 0 => th.fstat
  | 2 => r.tvec.setWidth 32
  | 3 => (r.tvec.extractLsb' 32 16).setWidth 32
  | 4 => r.tarea.setWidth 32
  | 5 => (r.tarea.extractLsb' 32 16).setWidth 32
  | 6 => th.tpend
  | 7 => (if th.hm then 1 else 0) ||| (if th.recHeld then 2 else 0)
  | 8 => th.wdog
  | _ => 0
/-- A control register written; reserved bits read as zero (Table 15-2, Table 8-2). Flags that hardware ORs into FSTAT in the same clock
are ORed into the written value (R217). -/
def csrWrite (th : Thread) (n : BitVec 6) (v : Word) : Thread :=
  match n.toNat with
  | 0 => { th with fstat := (v &&& 0x3F) ||| th.flagsNow }
  | 2 => { th with tvec := th.tvec.extractLsb' 32 16 ++ (v &&& 0xFFFFFFFE) }
  | 3 => { th with tvec := v.setWidth 16 ++ th.tvec.setWidth 32 }
  | 4 => { th with tarea := th.tarea.extractLsb' 32 16 ++ (v &&& 0xFFFFFFC0) }
  | 5 => { th with tarea := v.setWidth 16 ++ th.tarea.setWidth 32 }
  | 8 => { th with wdog := v }
  | _ => th
/-- A control register changed by a function of its value and Reg[gB]. -/
def csrBody (i : Instr) (f : Word → Word → Word) (b a : BitVec 6) (s : State) (t : Nat) : State :=
  let v := f (csrRead s t a) (getG (s.thread t) b.toNat)
  s.modThread t fun th => past i (csrWrite th a v)

/-- `eret` (R371, R374). -/
def eretBody (s : State) (t : Nat) : State :=
  if (s.thread t).hm then markedBody (fun s t => if (s.thread t).tpend ≠ 0 then deliverHeld s t else returnTrap s t) s t
  else raise s t 1 0

/-! Replay (R249). -/

/-- The KIND of a failable instruction (Table 9-9). -/
def kindOf (i : Instr) : Option Nat :=
  match memKind? i with
  | some k => some k
  | none => match i with
    | .rflushDev _ _ _ => some 0x40
    | .rflushRem _ _ _ => some 0x40
    | .rflushHost _ _ _ => some 0x40
    | .rinvalDev _ _ _ => some 0x41
    | .rinvalRem _ _ _ => some 0x41
    | .rinvalHost _ _ _ => some 0x41
    | .cpTileLd _ _ _ _ => some 0x50
    | .cpTileSt _ _ _ _ => some 0x50
    | .mxOp _ _ => some 0x51
    | .escOpen _ _ => some 0x60
    | .escIn _ _ _ _ _ => some 0x60
    | .escEnd _ _ => some 0x60
    | .xqCfg _ _ => some 0x61
    | .xqIn _ _ _ => some 0x61
    | .xqDone _ _ _ => some 0x61
    | _ => none
/-- The space that a range instruction names. -/
def rangeSpace : Instr → Nat
  | .rflushRem _ _ _ => 2
  | .rinvalRem _ _ _ => 2
  | .rflushHost _ _ _ => 4
  | .rinvalHost _ _ _ => 4
  | _ => 1
/-- The number of data bytes that an instruction captures (R248). -/
def dataLen (i : Instr) : Nat :=
  match memForm? i with
  | some f => if f.store then max 4 f.bytes else 0
  | none => match atomForm? i with
    | some f => if f.op = 9 then 2 * f.bytes else f.bytes
    | none => match i with
      | .stf w _ _ _ _ => (if w = 1 then 8 else 4) + 8
      | .cpTileLd _ _ _ _ => 32
      | .cpTileSt _ _ _ _ => 32
      | .escIn _ _ k _ _ => 4 + 4 * k.toNat
      | .xqIn _ _ _ => 36
      | .xqDone _ _ _ => 8
      | .mxOp _ _ => 0
      | .escOpen _ _ => 0
      | .escEnd _ _ => 0
      | .xqCfg _ _ => 0
      | _ => 4
/-- What `hzreplay` re-runs. -/
structure Replayed where
  insn : Instr
  kind : Nat
  pc : Addr
  addr : DWord
  data : List Byte
  deriving DecidableEq, Repr

/-- A failable operation performed again under a new sequence number, as its instruction performed it (R249); it is of no bundle, so it shares
no request (R286). -/
def startOp (s : State) (t : Nat) (e : Replayed) : State :=
  let data := e.data.take (dataLen e.insn)
  if (memKind? e.insn).isSome then pump (startMem s.fresh t e.kind (s.free + 1) e.insn e.pc e.addr data)
  else if e.kind = 0x40 ∨ e.kind = 0x41 then startRange s t e.kind (rangeSpace e.insn) e.insn e.pc e.addr data
  else if e.kind = 0x51 then startMx s t e.insn e.pc e.addr
  else if e.kind = 0x50 then startCp s t e.insn e.pc e.addr data
  else if e.kind = 0x60 then startEsc s.fresh t s.free e.insn e.pc data
  else startXq s t e.insn e.pc e.addr data

/-- The entry of a slot of a record, where it is HELD or FAULT and its KIND and INSN describe one failable operation that
the thread's registers hold (R246, R249). Its PC has the header's bits [47:32], also where PCLO is 0xFFFF_FFFF and they were not recorded.
(DEDUCED, log entry 41.) -/
def replayEntry (th : Thread) (regs : Nat) (rc : List Byte) (i : Nat) : Option (Nat × Replayed) :=
  let e := (rc.drop (64 + 32 * i)).take 32
  let x := (rc.drop (576 + 32 * i)).take 32
  let n := fun (l : List Byte) (o k : Nat) => natOfBytes ((l.drop o).take k)
  match decodeBytes (x.take 4) with
  | .ok (insn, _, _) =>
    if (n e 2 1 = 2 ∨ n e 2 1 = 4) ∧ kindOf insn = some (n e 3 1) ∧ boundCheck th regs insn = none then
      some ((n e 0 2 + 65536 - n rc 4 2) % 65536,
        { insn := insn, kind := n e 3 1, pc := BitVec.ofNat 48 (n rc 12 2 * 2 ^ 32 + n e 4 4), addr := dwordOfBytes (e.drop 8),
          data := e.drop 16 ++ x.drop 8 })
    else none
  | .error _ => none
/-- Entries in ascending distance of their numbers from FSEQ. -/
def insertEntry (x : Nat × Replayed) : List (Nat × Replayed) → List (Nat × Replayed)
  | [] => [x]
  | y :: r => if x.1 < y.1 then x :: y :: r else y :: insertEntry x r
/-- The entries of a record that `hzreplay` re-runs, in order. -/
def replayList (th : Thread) (regs : Nat) (rc : List Byte) : List Replayed :=
  ((upTo (min 16 (natOfBytes ((rc.drop 6).take 1)))).foldl (fun l i =>
    match replayEntry th regs rc i with
    | some e => insertEntry e l
    | none => l) []).map (·.2)
/-- What an entry waits for before it can be re-run: an absent line for `xq.done` (R346), a miss entry (R19). -/
def replayWait (s : State) (t : Nat) (e : Replayed) : Option Wait :=
  match e.insn with
  | .xqDone _ _ _ =>
    let a := e.addr.toNat
    if scrOutside s t e.addr 32 then none else scrHold (s.core (s.coreOf t)) a (a + 32) false
  | _ => if (memKind? e.insn).isSome && needsMissRoom s t e.insn e.addr then some .missRoom else none
/-- `hzreplay` (R249): held causes are delivered first; the record is read as it stands, handler mode ends, and its HELD and FAULT
entries run again. -/
def hzreplayBody (s : State) (t : Nat) : State :=
  let th := s.thread t
  if !th.hm then raise s t 1 0
  else if th.tpend ≠ 0 then markedBody deliverHeld s t
  else
    let r := readArea s t 0 136
    match r.2.1 with
    | .wait => r.1
    | .bad => overflow r.1 t
    | .ok =>
      let rc := r.2.2
      let l := replayList th (s.trainOf t).regs rc
      if 16 < unresolved th + l.length then park r.1 t (.horizon (16 - l.length))
      else match l.findSome? (replayWait r.1 t) with
        | some w => park r.1 t w
        | none =>
          let s := r.1.modThread t fun th => goTo (endHandler th) (evenPc (natOfBytes ((rc.drop 16).take 8)))
          l.foldl (fun s e => startOp s t e) s

/-- `srd` (R374). -/
def execSrd (a : BitVec 6) (d : BitVec 6) (sm : BitVec 1) (s : State) : Host.Outcome State Fault Refusal :=
  issueEach (.srd a d sm) (srdBody (.srd a d sm) a d) s

/-- `csrr` (R374). -/
def execCsrr (a : BitVec 6) (d : BitVec 6) (sm : BitVec 1) (s : State) : Host.Outcome State Fault Refusal :=
  issueEach (.csrr a d sm) (fun s t => let v := csrRead s t a
    s.modThread t fun th => past (.csrr a d sm) (setG th d.toNat v)) s

/-- `csrw` (R374). -/
def execCsrw (b : BitVec 6) (a : BitVec 6) (sm : BitVec 1) (s : State) : Host.Outcome State Fault Refusal :=
  issueEach (.csrw b a sm) (csrBody (.csrw b a sm) (fun _ v => v) b a) s

/-- `csrs` (R374). -/
def execCsrs (b : BitVec 6) (a : BitVec 6) (sm : BitVec 1) (s : State) : Host.Outcome State Fault Refusal :=
  issueEach (.csrs b a sm) (csrBody (.csrs b a sm) (fun o v => o ||| v) b a) s

/-- `csrc` (R374). -/
def execCsrc (b : BitVec 6) (a : BitVec 6) (sm : BitVec 1) (s : State) : Host.Outcome State Fault Refusal :=
  issueEach (.csrc b a sm) (csrBody (.csrc b a sm) (fun o v => o &&& ~~~v) b a) s

/-- `eret` (R371). -/
def execEret (sm : BitVec 1) (s : State) : Host.Outcome State Fault Refusal :=
  issueEach (.eret sm) (eretBody) s

/-- `brk` (R374): the breakpoint trap, with the next instruction as its resume PC. -/
def execBrk (a : BitVec 6) (sm : BitVec 1) (s : State) : Host.Outcome State Fault Refusal :=
  issueEach (.brk a sm) (fun s t => raiseAt s t 17 (a.setWidth 64) (pcAfter (s.thread t) (.brk a sm))) s

/-- `hzreplay` (R249). -/
def execHzreplay (sm : BitVec 1) (s : State) : Host.Outcome State Fault Refusal :=
  issueEach (.hzreplay sm) (hzreplayBody) s

end Sys2Proof.Machine
end

