-- ==== Sys2Proof/Machine/Dispatch.lean ====
section
/-! DEFINITION. What each instruction and each step without an encoding does: one arm a constructor, one call a meaning. -/

namespace Sys2Proof.Machine
open Sys2Proof

def exec (i : Instr) (s : State) : Host.Outcome State Fault Refusal :=
  match i with
  | .movFormH b d sm => Sys2Proof.Machine.execMovFormH b d sm s
  | .addFormH b d sm => Sys2Proof.Machine.execAddFormH b d sm s
  | .subFormH b d sm => Sys2Proof.Machine.execSubFormH b d sm s
  | .andFormH b d sm => Sys2Proof.Machine.execAndFormH b d sm s
  | .orFormH b d sm => Sys2Proof.Machine.execOrFormH b d sm s
  | .xorFormH b d sm => Sys2Proof.Machine.execXorFormH b d sm s
  | .shlFormH b d sm => Sys2Proof.Machine.execShlFormH b d sm s
  | .shrFormH b d sm => Sys2Proof.Machine.execShrFormH b d sm s
  | .addiFormH imm d sm => Sys2Proof.Machine.execAddiFormH imm d sm s
  | .mulFormH b d sm => Sys2Proof.Machine.execMulFormH b d sm s
  | .faddF32FormH b d sm => Sys2Proof.Machine.execFaddF32FormH b d sm s
  | .fsubF32FormH b d sm => Sys2Proof.Machine.execFsubF32FormH b d sm s
  | .fmulF32FormH b d sm => Sys2Proof.Machine.execFmulF32FormH b d sm s
  | .fmaxF32FormH b d sm => Sys2Proof.Machine.execFmaxF32FormH b d sm s
  | .fminF32FormH b d sm => Sys2Proof.Machine.execFminF32FormH b d sm s
  | .moviFormH imm d sm => Sys2Proof.Machine.execMoviFormH imm d sm s
  | .add g b a d sm => Sys2Proof.Machine.execAdd g b a d sm s
  | .sub g b a d sm => Sys2Proof.Machine.execSub g b a d sm s
  | .mul g b a d sm => Sys2Proof.Machine.execMul g b a d sm s
  | .mulhi g b a d sm => Sys2Proof.Machine.execMulhi g b a d sm s
  | .mulhu g b a d sm => Sys2Proof.Machine.execMulhu g b a d sm s
  | .and g b a d sm => Sys2Proof.Machine.execAnd g b a d sm s
  | .or g b a d sm => Sys2Proof.Machine.execOr g b a d sm s
  | .xor g b a d sm => Sys2Proof.Machine.execXor g b a d sm s
  | .shl g b a d sm => Sys2Proof.Machine.execShl g b a d sm s
  | .shr g b a d sm => Sys2Proof.Machine.execShr g b a d sm s
  | .sar g b a d sm => Sys2Proof.Machine.execSar g b a d sm s
  | .min g b a d sm => Sys2Proof.Machine.execMin g b a d sm s
  | .max g b a d sm => Sys2Proof.Machine.execMax g b a d sm s
  | .minu g b a d sm => Sys2Proof.Machine.execMinu g b a d sm s
  | .maxu g b a d sm => Sys2Proof.Machine.execMaxu g b a d sm s
  | .mov g b a d sm => Sys2Proof.Machine.execMov g b a d sm s
  | .add64 g b a d sm => Sys2Proof.Machine.execAdd64 g b a d sm s
  | .sub64 g b a d sm => Sys2Proof.Machine.execSub64 g b a d sm s
  | .addw g b a d sm => Sys2Proof.Machine.execAddw g b a d sm s
  | .adduw g b a d sm => Sys2Proof.Machine.execAdduw g b a d sm s
  | .shl64 g b a d sm => Sys2Proof.Machine.execShl64 g b a d sm s
  | .shr64 g b a d sm => Sys2Proof.Machine.execShr64 g b a d sm s
  | .sar64 g b a d sm => Sys2Proof.Machine.execSar64 g b a d sm s
  | .mulw g b a d sm => Sys2Proof.Machine.execMulw g b a d sm s
  | .addi imm a d sm => Sys2Proof.Machine.execAddi imm a d sm s
  | .andi imm a d sm => Sys2Proof.Machine.execAndi imm a d sm s
  | .clz a d sm => Sys2Proof.Machine.execClz a d sm s
  | .ctz a d sm => Sys2Proof.Machine.execCtz a d sm s
  | .popc a d sm => Sys2Proof.Machine.execPopc a d sm s
  | .brev a d sm => Sys2Proof.Machine.execBrev a d sm s
  | .sext8 a d sm => Sys2Proof.Machine.execSext8 a d sm s
  | .sext16 a d sm => Sys2Proof.Machine.execSext16 a d sm s
  | .addsat b a d sm => Sys2Proof.Machine.execAddsat b a d sm s
  | .subsat b a d sm => Sys2Proof.Machine.execSubsat b a d sm s
  | .addsatu b a d sm => Sys2Proof.Machine.execAddsatu b a d sm s
  | .subsatu b a d sm => Sys2Proof.Machine.execSubsatu b a d sm s
  | .rol b a d sm => Sys2Proof.Machine.execRol b a d sm s
  | .bfx b a d sm => Sys2Proof.Machine.execBfx b a d sm s
  | .liLo imm d sm => Sys2Proof.Machine.execLiLo imm d sm s
  | .liHi imm d sm => Sys2Proof.Machine.execLiHi imm d sm s
  | .icmp g b a c q sm => Sys2Proof.Machine.execIcmp g b a c q sm s
  | .ucmp g b a c q sm => Sys2Proof.Machine.execUcmp g b a c q sm s
  | .fcmpF32 g b a c q sm => Sys2Proof.Machine.execFcmpF32 g b a c q sm s
  | .fcmpF64 g b a c q sm => Sys2Proof.Machine.execFcmpF64 g b a c q sm s
  | .pand g b a q sm => Sys2Proof.Machine.execPand g b a q sm s
  | .por g b a q sm => Sys2Proof.Machine.execPor g b a q sm s
  | .pxor g b a q sm => Sys2Proof.Machine.execPxor g b a q sm s
  | .pandn g b a q sm => Sys2Proof.Machine.execPandn g b a q sm s
  | .pnot g a q sm => Sys2Proof.Machine.execPnot g a q sm s
  | .pmov g a q sm => Sys2Proof.Machine.execPmov g a q sm s
  | .pget g d sm => Sys2Proof.Machine.execPget g d sm s
  | .pset g a sm => Sys2Proof.Machine.execPset g a sm s
  | .faddF32 g b a d sm => Sys2Proof.Machine.execFaddF32 g b a d sm s
  | .fsubF32 g b a d sm => Sys2Proof.Machine.execFsubF32 g b a d sm s
  | .fmulF32 g b a d sm => Sys2Proof.Machine.execFmulF32 g b a d sm s
  | .fminF32 g b a d sm => Sys2Proof.Machine.execFminF32 g b a d sm s
  | .fmaxF32 g b a d sm => Sys2Proof.Machine.execFmaxF32 g b a d sm s
  | .faddRzF32 g b a d sm => Sys2Proof.Machine.execFaddRzF32 g b a d sm s
  | .fmulRzF32 g b a d sm => Sys2Proof.Machine.execFmulRzF32 g b a d sm s
  | .fsgnjF32 g b a d sm => Sys2Proof.Machine.execFsgnjF32 g b a d sm s
  | .faddF64 g b a d sm => Sys2Proof.Machine.execFaddF64 g b a d sm s
  | .fsubF64 g b a d sm => Sys2Proof.Machine.execFsubF64 g b a d sm s
  | .fmulF64 g b a d sm => Sys2Proof.Machine.execFmulF64 g b a d sm s
  | .fminF64 g b a d sm => Sys2Proof.Machine.execFminF64 g b a d sm s
  | .fmaxF64 g b a d sm => Sys2Proof.Machine.execFmaxF64 g b a d sm s
  | .faddRzF64 g b a d sm => Sys2Proof.Machine.execFaddRzF64 g b a d sm s
  | .fmulRzF64 g b a d sm => Sys2Proof.Machine.execFmulRzF64 g b a d sm s
  | .fsgnjF64 g b a d sm => Sys2Proof.Machine.execFsgnjF64 g b a d sm s
  | .faddF16x2 g b a d sm => Sys2Proof.Machine.execFaddF16x2 g b a d sm s
  | .fmulF16x2 g b a d sm => Sys2Proof.Machine.execFmulF16x2 g b a d sm s
  | .ffmaF16x2 g b a d sm => Sys2Proof.Machine.execFfmaF16x2 g b a d sm s
  | .fmaxF16x2 g b a d sm => Sys2Proof.Machine.execFmaxF16x2 g b a d sm s
  | .faddBf16x2 g b a d sm => Sys2Proof.Machine.execFaddBf16x2 g b a d sm s
  | .fmulBf16x2 g b a d sm => Sys2Proof.Machine.execFmulBf16x2 g b a d sm s
  | .ffmaBf16x2 g b a d sm => Sys2Proof.Machine.execFfmaBf16x2 g b a d sm s
  | .fmaxBf16x2 g b a d sm => Sys2Proof.Machine.execFmaxBf16x2 g b a d sm s
  | .ffmaF32 c b a d sm => Sys2Proof.Machine.execFfmaF32 c b a d sm s
  | .ffmaF64 c b a d sm => Sys2Proof.Machine.execFfmaF64 c b a d sm s
  | .cvtF32F64 a d sm => Sys2Proof.Machine.execCvtF32F64 a d sm s
  | .cvtRzF32F64 a d sm => Sys2Proof.Machine.execCvtRzF32F64 a d sm s
  | .cvtF64F32 a d sm => Sys2Proof.Machine.execCvtF64F32 a d sm s
  | .cvtF32S32 a d sm => Sys2Proof.Machine.execCvtF32S32 a d sm s
  | .cvtF32Uns32 a d sm => Sys2Proof.Machine.execCvtF32Uns32 a d sm s
  | .cvtS32F32 a d sm => Sys2Proof.Machine.execCvtS32F32 a d sm s
  | .cvtRzS32F32 a d sm => Sys2Proof.Machine.execCvtRzS32F32 a d sm s
  | .cvtF64S32 a d sm => Sys2Proof.Machine.execCvtF64S32 a d sm s
  | .cvtS32F64 a d sm => Sys2Proof.Machine.execCvtS32F64 a d sm s
  | .cvtRzS32F64 a d sm => Sys2Proof.Machine.execCvtRzS32F64 a d sm s
  | .cvtF16x2F32 b a d sm => Sys2Proof.Machine.execCvtF16x2F32 b a d sm s
  | .cvtBf16x2F32 b a d sm => Sys2Proof.Machine.execCvtBf16x2F32 b a d sm s
  | .cvtRzBf16x2F32 b a d sm => Sys2Proof.Machine.execCvtRzBf16x2F32 b a d sm s
  | .cvtF32F16 h a d sm => Sys2Proof.Machine.execCvtF32F16 h a d sm s
  | .cvtF32Bf16 h a d sm => Sys2Proof.Machine.execCvtF32Bf16 h a d sm s
  | .d8Pack y a d sm => Sys2Proof.Machine.execD8Pack y a d sm s
  | .d8Unpack y a d sm => Sys2Proof.Machine.execD8Unpack y a d sm s
  | .cvtS8F32 y a d sm => Sys2Proof.Machine.execCvtS8F32 y a d sm s
  | .cvtF32S8 y a d sm => Sys2Proof.Machine.execCvtF32S8 y a d sm s
  | .fsint a d sm => Sys2Proof.Machine.execFsint a d sm s
  | .fcost a d sm => Sys2Proof.Machine.execFcost a d sm s
  | .fexp2 a d sm => Sys2Proof.Machine.execFexp2 a d sm s
  | .flog2 a d sm => Sys2Proof.Machine.execFlog2 a d sm s
  | .frcp a d sm => Sys2Proof.Machine.execFrcp a d sm s
  | .frsq a d sm => Sys2Proof.Machine.execFrsq a d sm s
  | .fsqrt a d sm => Sys2Proof.Machine.execFsqrt a d sm s
  | .fdiv b a d sm => Sys2Proof.Machine.execFdiv b a d sm s
  | .frcpF64 a d sm => Sys2Proof.Machine.execFrcpF64 a d sm s
  | .fsqrtF64 a d sm => Sys2Proof.Machine.execFsqrtF64 a d sm s
  | .fdivF64 b a d sm => Sys2Proof.Machine.execFdivF64 b a d sm s
  | .lswap m imm a d sm => Sys2Proof.Machine.execLswap m imm a d sm s
  | .shfl m b a d sm => Sys2Proof.Machine.execShfl m b a d sm s
  | .bcast m imm a d sm => Sys2Proof.Machine.execBcast m imm a d sm s
  | .ballot m a d sm => Sys2Proof.Machine.execBallot m a d sm s
  | .redOp m o a d sm => Sys2Proof.Machine.execRedOp m o a d sm s
  | .redFopF32 m o a d sm => Sys2Proof.Machine.execRedFopF32 m o a d sm s
  | .scanAdd m a d sm => Sys2Proof.Machine.execScanAdd m a d sm s
  | .redFopF64 m o a d sm => Sys2Proof.Machine.execRedFopF64 m o a d sm s
  | .br x v q sm => Sys2Proof.Machine.execBr x v q sm s
  | .call x sm => Sys2Proof.Machine.execCall x sm s
  | .exit sm => Sys2Proof.Machine.execExit sm s
  | .jr a sm => Sys2Proof.Machine.execJr a sm s
  | .jalr a d sm => Sys2Proof.Machine.execJalr a d sm s
  | .ret a sm => Sys2Proof.Machine.execRet a sm s
  | .land sm => Sys2Proof.Machine.execLand sm s
  | .join d sm => Sys2Proof.Machine.execJoin d sm s
  | .leave d sm => Sys2Proof.Machine.execLeave d sm s
  | .waitm d sm => Sys2Proof.Machine.execWaitm d sm s
  | .mrd a d sm => Sys2Proof.Machine.execMrd a d sm s
  | .hzrd d sm => Sys2Proof.Machine.execHzrd d sm s
  | .hzwait a sm => Sys2Proof.Machine.execHzwait a sm s
  | .hzbr x sm => Sys2Proof.Machine.execHzbr x sm s
  | .hzbrn x sm => Sys2Proof.Machine.execHzbrn x sm s
  | .hzreplay sm => Sys2Proof.Machine.execHzreplay sm s
  | .ld o w p a d sm => Sys2Proof.Machine.execLd o w p a d sm s
  | .ldSx o w p a d sm => Sys2Proof.Machine.execLdSx o w p a d sm s
  | .st o w p a d sm => Sys2Proof.Machine.execSt o w p a d sm s
  | .ldS o w p a d sm => Sys2Proof.Machine.execLdS o w p a d sm s
  | .ldSxS o w p a d sm => Sys2Proof.Machine.execLdSxS o w p a d sm s
  | .stS o w p a d sm => Sys2Proof.Machine.execStS o w p a d sm s
  | .atomAdd w p b a d sm => Sys2Proof.Machine.execAtomAdd w p b a d sm s
  | .atomMin w p b a d sm => Sys2Proof.Machine.execAtomMin w p b a d sm s
  | .atomMax w p b a d sm => Sys2Proof.Machine.execAtomMax w p b a d sm s
  | .atomMinu w p b a d sm => Sys2Proof.Machine.execAtomMinu w p b a d sm s
  | .atomMaxu w p b a d sm => Sys2Proof.Machine.execAtomMaxu w p b a d sm s
  | .atomAnd w p b a d sm => Sys2Proof.Machine.execAtomAnd w p b a d sm s
  | .atomOr w p b a d sm => Sys2Proof.Machine.execAtomOr w p b a d sm s
  | .atomXor w p b a d sm => Sys2Proof.Machine.execAtomXor w p b a d sm s
  | .atomExch w p b a d sm => Sys2Proof.Machine.execAtomExch w p b a d sm s
  | .atomCas w p b a d sm => Sys2Proof.Machine.execAtomCas w p b a d sm s
  | .atomFadd w p b a d sm => Sys2Proof.Machine.execAtomFadd w p b a d sm s
  | .atomFaddRa w p b a d sm => Sys2Proof.Machine.execAtomFaddRa w p b a d sm s
  | .atomFmin w p b a d sm => Sys2Proof.Machine.execAtomFmin w p b a d sm s
  | .atomFmax w p b a d sm => Sys2Proof.Machine.execAtomFmax w p b a d sm s
  | .stf w b a d sm => Sys2Proof.Machine.execStf w b a d sm s
  | .phaseTrain sm => Sys2Proof.Machine.execPhaseTrain sm s
  | .phaseMovement sm => Sys2Proof.Machine.execPhaseMovement sm s
  | .phaseCalibre sm => Sys2Proof.Machine.execPhaseCalibre sm s
  | .phaseDevice sm => Sys2Proof.Machine.execPhaseDevice sm s
  | .phaseDomain sm => Sys2Proof.Machine.execPhaseDomain sm s
  | .fenceTrain sm => Sys2Proof.Machine.execFenceTrain sm s
  | .fenceMovement sm => Sys2Proof.Machine.execFenceMovement sm s
  | .fenceCalibre sm => Sys2Proof.Machine.execFenceCalibre sm s
  | .fenceDevice sm => Sys2Proof.Machine.execFenceDevice sm s
  | .fenceDomain sm => Sys2Proof.Machine.execFenceDomain sm s
  | .barTrain d sm => Sys2Proof.Machine.execBarTrain d sm s
  | .barMovement imm a sm => Sys2Proof.Machine.execBarMovement imm a sm s
  | .barCalibre imm a sm => Sys2Proof.Machine.execBarCalibre imm a sm s
  | .barDevice imm a sm => Sys2Proof.Machine.execBarDevice imm a sm s
  | .rflushDev b a sm => Sys2Proof.Machine.execRflushDev b a sm s
  | .rflushRem b a sm => Sys2Proof.Machine.execRflushRem b a sm s
  | .rflushHost b a sm => Sys2Proof.Machine.execRflushHost b a sm s
  | .rinvalDev b a sm => Sys2Proof.Machine.execRinvalDev b a sm s
  | .rinvalRem b a sm => Sys2Proof.Machine.execRinvalRem b a sm s
  | .rinvalHost b a sm => Sys2Proof.Machine.execRinvalHost b a sm s
  | .prsWait b a sm => Sys2Proof.Machine.execPrsWait b a sm s
  | .prsTest a q sm => Sys2Proof.Machine.execPrsTest a q sm s
  | .mxOp a sm => Sys2Proof.Machine.execMxOp a sm s
  | .mxCommit d sm => Sys2Proof.Machine.execMxCommit d sm s
  | .mxWait imm sm => Sys2Proof.Machine.execMxWait imm sm s
  | .mxRd t a d sm => Sys2Proof.Machine.execMxRd t a d sm s
  | .mxWr b a t sm => Sys2Proof.Machine.execMxWr b a t sm s
  | .mxRd64 t a d sm => Sys2Proof.Machine.execMxRd64 t a d sm s
  | .mxWr64 b a t sm => Sys2Proof.Machine.execMxWr64 b a t sm s
  | .mxZero t sm => Sys2Proof.Machine.execMxZero t sm s
  | .cpTileLd b a d sm => Sys2Proof.Machine.execCpTileLd b a d sm s
  | .cpTileSt b a d sm => Sys2Proof.Machine.execCpTileSt b a d sm s
  | .rnext d sm => Sys2Proof.Machine.execRnext d sm s
  | .rleave sm => Sys2Proof.Machine.execRleave sm s
  | .rjoin sm => Sys2Proof.Machine.execRjoin sm s
  | .rjoinAdd b d sm => Sys2Proof.Machine.execRjoinAdd b d sm s
  | .rjoinMin b d sm => Sys2Proof.Machine.execRjoinMin b d sm s
  | .rjoinMax b d sm => Sys2Proof.Machine.execRjoinMax b d sm s
  | .rjoinMinu b d sm => Sys2Proof.Machine.execRjoinMinu b d sm s
  | .rjoinMaxu b d sm => Sys2Proof.Machine.execRjoinMaxu b d sm s
  | .rjoinAnd b d sm => Sys2Proof.Machine.execRjoinAnd b d sm s
  | .rjoinOr b d sm => Sys2Proof.Machine.execRjoinOr b d sm s
  | .rjoinXor b d sm => Sys2Proof.Machine.execRjoinXor b d sm s
  | .rjoinFaddF32 b d sm => Sys2Proof.Machine.execRjoinFaddF32 b d sm s
  | .rjoinFminF32 b d sm => Sys2Proof.Machine.execRjoinFminF32 b d sm s
  | .rjoinFmaxF32 b d sm => Sys2Proof.Machine.execRjoinFmaxF32 b d sm s
  | .rjoinFaddF64 b d sm => Sys2Proof.Machine.execRjoinFaddF64 b d sm s
  | .rjoinFminF64 b d sm => Sys2Proof.Machine.execRjoinFminF64 b d sm s
  | .rjoinFmaxF64 b d sm => Sys2Proof.Machine.execRjoinFmaxF64 b d sm s
  | .recruit c b a d sm => Sys2Proof.Machine.execRecruit c b a d sm s
  | .escOpen d sm => Sys2Proof.Machine.execEscOpen d sm s
  | .escIn b a k imm sm => Sys2Proof.Machine.execEscIn b a k imm sm s
  | .escEnd d sm => Sys2Proof.Machine.execEscEnd d sm s
  | .escNext a d sm => Sys2Proof.Machine.execEscNext a d sm s
  | .escDone b a sm => Sys2Proof.Machine.execEscDone b a sm s
  | .xqCfg a sm => Sys2Proof.Machine.execXqCfg a sm s
  | .xqIn b a sm => Sys2Proof.Machine.execXqIn b a sm s
  | .xqTake a d sm => Sys2Proof.Machine.execXqTake a d sm s
  | .xqDone b a sm => Sys2Proof.Machine.execXqDone b a sm s
  | .tkSpawn b a sm => Sys2Proof.Machine.execTkSpawn b a sm s
  | .tkHand a sm => Sys2Proof.Machine.execTkHand a sm s
  | .krd a d sm => Sys2Proof.Machine.execKrd a d sm s
  | .rgSend a d sm => Sys2Proof.Machine.execRgSend a d sm s
  | .rgRecv a d sm => Sys2Proof.Machine.execRgRecv a d sm s
  | .rgEos d sm => Sys2Proof.Machine.execRgEos d sm s
  | .phEnd d sm => Sys2Proof.Machine.execPhEnd d sm s
  | .srd a d sm => Sys2Proof.Machine.execSrd a d sm s
  | .csrr a d sm => Sys2Proof.Machine.execCsrr a d sm s
  | .csrw b a sm => Sys2Proof.Machine.execCsrw b a sm s
  | .csrs b a sm => Sys2Proof.Machine.execCsrs b a sm s
  | .csrc b a sm => Sys2Proof.Machine.execCsrc b a sm s
  | .eret sm => Sys2Proof.Machine.execEret sm s
  | .brk a sm => Sys2Proof.Machine.execBrk a sm s
  | .starvedListJoin t => Sys2Proof.Machine.execStarvedListJoin t s
  | .loadResultArrival t seq => Sys2Proof.Machine.execLoadResultArrival t seq s
  | .translationWalkComplete ctx core page => Sys2Proof.Machine.execTranslationWalkComplete ctx core page s
  | .serviceableFaultServiced core install => Sys2Proof.Machine.execServiceableFaultServiced core install s
  | .translationShootdown ctx lo len cores => Sys2Proof.Machine.execTranslationShootdown ctx lo len cores s
  | .classifierRun ctx page => Sys2Proof.Machine.execClassifierRun ctx page s
  | .rebase => Sys2Proof.Machine.execRebase s
  | .ltTick core => Sys2Proof.Machine.execLtTick core s
  | .overflowAreaServiced core room => Sys2Proof.Machine.execOverflowAreaServiced core room s
  | .scratchFillArrival core line => Sys2Proof.Machine.execScratchFillArrival core line s
  | .engineReadDone core line => Sys2Proof.Machine.execEngineReadDone core line s
  | .fillFailure core line cause => Sys2Proof.Machine.execFillFailure core line cause s
  | .rangeWalkStart t seq => Sys2Proof.Machine.execRangeWalkStart t seq s
  | .gets src dst => Sys2Proof.Machine.execGets src dst s
  | .getx src dst => Sys2Proof.Machine.execGetx src dst s
  | .upg src dst => Sys2Proof.Machine.execUpg src dst s
  | .data src dst => Sys2Proof.Machine.execData src dst s
  | .fwds src dst => Sys2Proof.Machine.execFwds src dst s
  | .fwdx src dst => Sys2Proof.Machine.execFwdx src dst s
  | .fdata src dst => Sys2Proof.Machine.execFdata src dst s
  | .fack src dst => Sys2Proof.Machine.execFack src dst s
  | .inv src dst => Sys2Proof.Machine.execInv src dst s
  | .iack src dst => Sys2Proof.Machine.execIack src dst s
  | .recalls src dst => Sys2Proof.Machine.execRecalls src dst s
  | .recalli src dst => Sys2Proof.Machine.execRecalli src dst s
  | .rdata src dst => Sys2Proof.Machine.execRdata src dst s
  | .wb src dst => Sys2Proof.Machine.execWb src dst s
  | .evict src dst => Sys2Proof.Machine.execEvict src dst s
  | .wback src dst => Sys2Proof.Machine.execWback src dst s
  | .claim src dst => Sys2Proof.Machine.execClaim src dst s
  | .claimok src dst => Sys2Proof.Machine.execClaimok src dst s
  | .merge src dst => Sys2Proof.Machine.execMerge src dst s
  | .mdata src dst => Sys2Proof.Machine.execMdata src dst s
  | .edone core line => Sys2Proof.Machine.execEdone core line s
  | .serviceTrainAtomic k => Sys2Proof.Machine.execServiceTrainAtomic k s
  | .dieLinkLaneFailure src dst => Sys2Proof.Machine.execDieLinkLaneFailure src dst s
  | .patrolScrub visit => Sys2Proof.Machine.execPatrolScrub visit s
  | .fabricRequest r => Sys2Proof.Machine.execFabricRequest r s
  | .fabricReply rid ans => Sys2Proof.Machine.execFabricReply rid ans s
  | .fabricAcknowledgement rid ans => Sys2Proof.Machine.execFabricAcknowledgement rid ans s
  | .noreply rid => Sys2Proof.Machine.execNoreply rid s
  | .idleFlit port ack => Sys2Proof.Machine.execIdleFlit port ack s
  | .remoteGiveUp rid => Sys2Proof.Machine.execRemoteGiveUp rid s
  | .replyCacheExpiry src tag => Sys2Proof.Machine.execReplyCacheExpiry src tag s
  | .serialLaneRetirement port => Sys2Proof.Machine.execSerialLaneRetirement port s
  | .linkRetrainComplete port => Sys2Proof.Machine.execLinkRetrainComplete port s
  | .linkDown a b => Sys2Proof.Machine.execLinkDown a b s
  | .linkUp a b => Sys2Proof.Machine.execLinkUp a b s
  | .timeFlit value delay => Sys2Proof.Machine.execTimeFlit value delay s
  | .timeBroadcast => Sys2Proof.Machine.execTimeBroadcast s
  | .timeFlitTimeout => Sys2Proof.Machine.execTimeFlitTimeout s
  | .migrationForwardEnd page => Sys2Proof.Machine.execMigrationForwardEnd page s
  | .writebackFailure rid cause => Sys2Proof.Machine.execWritebackFailure rid cause s
  | .snpdata line => Sys2Proof.Machine.execSnpdata line s
  | .snpinv line => Sys2Proof.Machine.execSnpinv line s
  | .snpcur line => Sys2Proof.Machine.execSnpcur line s
  | .cxlResponse rid ans => Sys2Proof.Machine.execCxlResponse rid ans s
  | .hostInboundRead off len => Sys2Proof.Machine.execHostInboundRead off len s
  | .hostInboundWrite off bytes => Sys2Proof.Machine.execHostInboundWrite off bytes s
  | .mxAccept core => Sys2Proof.Machine.execMxAccept core s
  | .mxCommandDone core => Sys2Proof.Machine.execMxCommandDone core s
  | .mxOperandFault core => Sys2Proof.Machine.execMxOperandFault core s
  | .cpAccept core k => Sys2Proof.Machine.execCpAccept core k s
  | .cpCommandDone core => Sys2Proof.Machine.execCpCommandDone core s
  | .cpFault core => Sys2Proof.Machine.execCpFault core s
  | .escapementArrival t seq => Sys2Proof.Machine.execEscapementArrival t seq s
  | .pushWatchdogExpiry t seq => Sys2Proof.Machine.execPushWatchdogExpiry t seq s
  | .tokenAcceptance t seq => Sys2Proof.Machine.execTokenAcceptance t seq s
  | .queueFiring die => Sys2Proof.Machine.execQueueFiring die s
  | .gangPlacement lid => Sys2Proof.Machine.execGangPlacement lid s
  | .unitMigration train core quarter lane row => Sys2Proof.Machine.execUnitMigration train core quarter lane row s
  | .taskDispatch core lid => Sys2Proof.Machine.execTaskDispatch core lid s
  | .trainRetire train => Sys2Proof.Machine.execTrainRetire train s
  | .domainSweep others => Sys2Proof.Machine.execDomainSweep others s
  | .trapDelivery t => Sys2Proof.Machine.execTrapDelivery t s
  | .helperFailure t => Sys2Proof.Machine.execHelperFailure t s
  | .watchdogExpiry t => Sys2Proof.Machine.execWatchdogExpiry t s
  | .timeSliceExpiry core ctx => Sys2Proof.Machine.execTimeSliceExpiry core ctx s
  | .partialEviction train save => Sys2Proof.Machine.execPartialEviction train save s
  | .trainRestoration train => Sys2Proof.Machine.execTrainRestoration train s
  | .breakpointMatch t part n => Sys2Proof.Machine.execBreakpointMatch t part n s
  | .traceSample core quarter => Sys2Proof.Machine.execTraceSample core quarter s
  | .checkpointCut n => Sys2Proof.Machine.execCheckpointCut n s
  | .logAreaThreshold die => Sys2Proof.Machine.execLogAreaThreshold die s
  | .replayGateTimeout gate => Sys2Proof.Machine.execReplayGateTimeout gate s
  | .junction105c die => Sys2Proof.Machine.execJunction105c die s
  | .thermalRecovery die => Sys2Proof.Machine.execThermalRecovery die s
  | .junction115c die => Sys2Proof.Machine.execJunction115c die s
  | .deviceReset img => Sys2Proof.Machine.execDeviceReset img s
  | .newFirmwareImage img => Sys2Proof.Machine.execNewFirmwareImage img s
  | .submitLaunch part ctx addr => Sys2Proof.Machine.execSubmitLaunch part ctx addr s
  | .setLease part die value => Sys2Proof.Machine.execSetLease part die value s
  | .readCounters part what => Sys2Proof.Machine.execReadCounters part what s
  | .setTraceRing part die base len => Sys2Proof.Machine.execSetTraceRing part die base len s
  | .setSampling part die period => Sys2Proof.Machine.execSetSampling part die period s
  | .setBreakpoint part n value => Sys2Proof.Machine.execSetBreakpoint part n value s
  | .haltRequest part t => Sys2Proof.Machine.execHaltRequest part t s
  | .debugResume part t => Sys2Proof.Machine.execDebugResume part t s
  | .setCheckpointPeriod part ms => Sys2Proof.Machine.execSetCheckpointPeriod part ms s
  | .replay part n => Sys2Proof.Machine.execReplay part n s
  | .setHostWindow part ctx imm value => Sys2Proof.Machine.execSetHostWindow part ctx imm value s
  | .setInboundWindow part imm value => Sys2Proof.Machine.execSetInboundWindow part imm value s
  | .pageMigration part ctx page home frame => Sys2Proof.Machine.execPageMigration part ctx page home frame s
  | .regionModeChange part ctx page count mode => Sys2Proof.Machine.execRegionModeChange part ctx page count mode s
  | .ownerTagChange part home frame ctx => Sys2Proof.Machine.execOwnerTagChange part home frame ctx s
  | .attestationReport part nonce => Sys2Proof.Machine.execAttestationReport part nonce s
  | .registerWrite r value => Sys2Proof.Machine.execRegisterWrite r value s
  | .illegalInstruction => Sys2Proof.Machine.execIllegalInstruction s
  | .variableLatencyResultArrival t k => Sys2Proof.Machine.execVariableLatencyResultArrival t k s
  | .atomicReplyArrival t seq => Sys2Proof.Machine.execAtomicReplyArrival t seq s
  | .performedAcknowledgement t k => Sys2Proof.Machine.execPerformedAcknowledgement t k s
  | .dieLinkCrcFailure src dst => Sys2Proof.Machine.execDieLinkCrcFailure src dst s
  | .dieLinkRetrainComplete src dst => Sys2Proof.Machine.execDieLinkRetrainComplete src dst s
  | .flitCrcFailure port => Sys2Proof.Machine.execFlitCrcFailure port s

end Sys2Proof.Machine
end

