-- ==== Sys2Proof/Machine/Step.lean ====
section
/-! DEFINITION. One step of the device, and a state whose next step runs a given instruction. -/

namespace Sys2Proof.Machine
open Sys2Proof

/-- Whether a step may happen while the device stands in a fault or in recovery: a reset, or a new image (R381, R421). -/
def allowedDown : Option Act → Bool
  | some (.event (.deviceReset _)) => true
  | some (.event (.newFirmwareImage _)) => true
  | _ => false

/-- One step: what is due happens, or the clocks of the next agenda entry pass, and then a quarter issues or the step without an encoding
happens (R71, R78, R170, R172, R343, R402). -/
def step (s : State) : Host.Outcome State Fault Refusal :=
  let a := (nextAct s).2
  if s.deviceFault && !allowedDown a then .fault .deviceFault
  else if s.recovery && !allowedDown a then .fault .recovery
  else
    let s := beginStep s
    match a with
    | none => .next s
    | some (.issue c q) =>
      let r := issueQuarter s c q
      match r.2 with
      | none => .next r.1
      | some i => exec i r.1
    | some (.event i) => if i.length = 0 then exec i s else .refused (.notEnabled "ISSUE")
    | some (.rise c) => execLtTick c s
    | some (.join t) => execStarvedListJoin t s
    | some .rebase => execRebase s
    | some (.dropLink p) => dropLink p s
    | some (.fire d) => forcedFiring d s
    | some (.sample c q) => execTraceSample c q s

/-- The leaf of the page that holds the placed instruction: home core 0, frame 1, READONLY, executable, accessed, valid. -/
def placedLeaf : DWord := 0x4000000100000061

/-- The state with an instruction stored where the next step fetches it: a thread of a new train of a new launch of context 0
on core 0, first in the starved list of quarter 0, its PC at a page that core 0 has translated, and the instruction's bytes in
that page. It stands for the placement of a program by system software (log entry 20). -/
def State.withFetchWord (s : State) (nbits w : Nat) : State :=
  let t := s.nextThread
  let tr := s.nextTrain
  let lid := s.nextLaunch
  let line := 0x10000 / 128
  let train : Train := { launch := lid, regs := 64, kregs := 32, acc := 16, masks := [(0, 255)], slen := 0x300000 }
  let thread : Thread := { train := tr, pc := 0x10000 }
  let launch : Launch :=
    { ctx := 0, part := 0, header := 0, roles := [0], state := .running, nextGang := 1, tasks := 0, rings := [], submitted := 0,
      wall := 0, exec := 0, wait := 0, fsvc := 0, queue := 0, entry := 0, order := 0 }
  let s := { s with
    agenda := [{ dt := 0, act := .issue 0 0 }]
    recovery := false
    deviceFault := false
    nextThread := t + 1
    nextTrain := tr + 1
    nextLaunch := lid + 1
    threads := mapSet s.threads t thread
    trains := mapSet s.trains tr train
    launches := mapSet s.launches lid launch
    frames := mapSet s.frames 1 { part := (s.ctx 0).part, ctx := 0 }
    forwards := []
    mem := memWriteN s.mem 0x10000 (bytesOfNat 8 (w % 2 ^ nbits)) }
  let s := s.modDie 0 fun d =>
    { d with throttled := false, l2 := mapDel d.l2 line, dir := mapDel d.dir line }
  s.modCore 0 fun k =>
    { k with
      stall := none
      icache := mapDel k.icache line
      slotQ := 0
      starved := mapSet k.starved 0 (t :: mapGetD k.starved 0 [])
      qtlb := mapSet k.qtlb 0 ({ ctx := 0, page := 1, leaf := placedLeaf, big := false, entry := 0 } :: mapGetD k.qtlb 0 [])
      tlb := { ctx := 0, page := 1, leaf := placedLeaf, big := false, entry := 0 } :: k.tlb }

end Sys2Proof.Machine
end

