-- ==== Sys2Proof/Safety.lean ====
section
/-! DEFINITION. What claims are stated in: the invariant that every step keeps, a safe run, when a thread may issue an instruction
(R183, R184, R188, R192, R240, R324), and what an instruction may change. -/

namespace Sys2Proof.Machine
open Sys2Proof

/-- The invariant that every step keeps: memory stays in its canonical form. -/
def Inv (s : State) : Prop := memWf s.mem = true

/-- The state after `n` steps, where none of them stops. -/
def runs : Nat → State → Option State
  | 0, s => some s
  | n + 1, s =>
    match step s with
    | .next t => runs n t
    | _ => none
/-- A safe run of `n` steps: no fault and no refusal stops it. -/
def Safe (n : Nat) (s : State) : Prop := ∃ t, runs n s = some t

/-! When an instruction issues. -/

/-- Whether a register of a thread with `n` registers exists: below the bound, or in a helper one of h0 to h15, which are 48 to 63
(R42, R324). -/
def regExists (th : Thread) (n r : Nat) : Prop := r < n ∨ (th.helper.isSome = true ∧ 48 ≤ r)
/-- The pending bits that an instruction meets: a marked one clears every bit before its checks (R183). -/
def meetsG (th : Thread) (i : Instr) (r : Nat) : Bool := !(operands i).mark && th.pendG.getLsbD r
/-- The predicate pending bits that an instruction meets. -/
def meetsQ (th : Thread) (i : Instr) (q : Nat) : Bool := !(operands i).mark && th.pendQ.getLsbD q

/-- What a helper may execute: neither a barred instruction nor a write to one of g0 to g47; `rnext` names a pair of its own (R324,
R325). -/
def helperMay (i : Instr) : Prop :=
  match i with
  | .rnext d _ => 48 ≤ d.toNat ∧ d.toNat % 2 = 0
  | _ => (operands i).barred = false ∧ ∀ r ∈ (operands i).wr, 48 ≤ r

/-- The conditions under which a thread with `n` registers issues and executes an instruction (R183, R184, R188, R192, R240). -/
structure MayIssue (th : Thread) (n : Nat) (i : Instr) : Prop where
  /-- A marked instruction has no result outstanding (R183). -/
  waits : (operands i).mark = true → outstanding th = false
  /-- Every register that the instruction names exists (R188). -/
  bound : ∀ r ∈ (operands i).rd ++ (operands i).wr, regExists th n r
  /-- A helper may execute it (R324). -/
  helper : th.helper.isSome = true → helperMay i
  /-- The guard's predicate is not pending, and the guard holds (R188, R192). -/
  guardReady : meetsQ th i ((operands i).guard.extractLsb' 1 3).toNat = false
  guard : guardHolds th (operands i).guard = true
  /-- No operand is pending (R184). -/
  regs : ∀ r ∈ (operands i).rd ++ (operands i).wr, meetsG th i r = false
  preds : ∀ q ∈ (operands i).prd ++ (operands i).pwr, meetsQ th i q = false
  /-- A failable operation has room in the window (R240). -/
  window : (operands i).failable = true → unresolved th < 16

/-- Every thread of the bundle may issue the instruction. -/
def Ready (s : State) (i : Instr) : Prop := s.bundle.Nodup ∧ ∀ t ∈ s.bundle, MayIssue (s.thread t) (s.trainOf t).regs i
/-- The bundle is one thread, which may issue the instruction. -/
def Alone (s : State) (t : Nat) (i : Instr) : Prop := s.bundle = [t] ∧ MayIssue (s.thread t) (s.trainOf t).regs i

/-! What an instruction may change. -/

/-- Nothing but threads has changed, and the bundle has issued: every byte of memory reads as before. -/
def OnlyThreads (s t : State) : Prop := t = { s with threads := t.threads, bundle := [] } ∧ ∀ a, memRead t.mem a = memRead s.mem a
/-- Each thread of the bundle has changed as `post` says, and no other thread has changed. -/
def EachThread (s t : State) (post : Thread → Thread → Prop) : Prop :=
  (∀ u ∈ s.bundle, post (s.thread u) (t.thread u)) ∧ ∀ u, u ∉ s.bundle → t.thread u = s.thread u

/-- What is left of a thread that has completed an instruction: nothing holds it, and its pending bits are cleared where the
instruction carries the marker (R183). -/
def issued (i : Instr) (th : Thread) (pc : Addr) : Thread :=
  { th with
    pc := pc
    park := .none
    bnd := none
    stage := 0
    passed := 0
    pendG := if (operands i).mark then 0 else th.pendG
    pendQ := if (operands i).mark then 0 else th.pendQ }
/-- The PC after an instruction. -/
def nextPc (i : Instr) (th : Thread) : Addr := th.pc + BitVec.ofNat 48 i.length

/-- A thread has completed a fixed-latency instruction that writes registers, predicates and flags and nothing else, and stands at
`pc`. Predicate q0 reads as true always. -/
structure Completed (i : Instr) (th th' : Thread) (pc : Addr) (regs : List (Nat × Word)) (preds : List (Nat × Bool)) (flags : Word) :
    Prop where
  reg : ∀ r, getG th' r = mapGetD regs r (getG th r)
  pred : ∀ q, getQ th' q = (decide (q = 0) || mapGetD preds q (getQ th q))
  flag : th'.fstat = th.fstat ||| flags
  now : th'.flagsNow = th.flagsNow ||| flags
  rest : th' = { issued i th pc with g := th'.g, q := th'.q, fstat := th'.fstat, flagsNow := th'.flagsNow }

/-- A thread has issued a variable-latency instruction: its result is on its way, and the registers and predicates that it will
write are pending (R182, R183). -/
structure Sent (i : Instr) (th th' : Thread) (r : Result) : Prop where
  pendG : ∀ k < 64, th'.pendG.getLsbD k = ((issued i th th.pc).pendG.getLsbD k || (r.regs.map (·.1)).contains k)
  pendQ : ∀ k < 8, th'.pendQ.getLsbD k = ((issued i th th.pc).pendQ.getLsbD k || (decide (k ≠ 0) && (r.preds.map (·.1)).contains k))
  rest : th' = { issued i th (nextPc i th) with results := th.results ++ [r], pendG := th'.pendG, pendQ := th'.pendQ }

end Sys2Proof.Machine
end

