-- ==== Sys2Proof/Certificates/Slice0/Obligations.lean ====
section
/-! DEFINITION. The statements for the provers, each a proposition about the machine, and the words they are said in. -/

namespace Sys2Proof.Claims
open Sys2Proof Sys2Proof.Machine

/-! Registers as integers. -/

/-- Reg[i] as an unsigned integer. -/
def u {n : Nat} (th : Thread) (i : BitVec n) : Int := (getG th i.toNat).toNat
/-- Reg[i] as a signed integer. -/
def si {n : Nat} (th : Thread) (i : BitVec n) : Int := (getG th i.toNat).toInt
/-- The pair at an even register as an unsigned integer, the even register low (R253). -/
def ux {n : Nat} (th : Thread) (i : BitVec n) : Int := (getG th i.toNat).toNat + (getG th (i.toNat + 1)).toNat * 2 ^ 32
/-- The pair as a signed integer. -/
def sx {n : Nat} (th : Thread) (i : BitVec n) : Int := if ux th i < 2 ^ 63 then ux th i else ux th i - 2 ^ 64
/-- The amount of a shift: Reg[i] whole, so that an amount of the width or more shifts everything out. -/
def amount {n : Nat} (th : Thread) (i : BitVec n) : Nat := (getG th i.toNat).toNat
/-- One register written with the low 32 bits of an integer. -/
def word {n : Nat} (d : BitVec n) (x : Int) : List (Nat × Word) := [(d.toNat, BitVec.ofInt 32 x)]
/-- A pair written with the low 64 bits of an integer. -/
def pair {n : Nat} (d : BitVec n) (x : Int) : List (Nat × Word) := [(d.toNat, BitVec.ofInt 32 x), (d.toNat + 1, BitVec.ofInt 32 (x / 2 ^ 32))]

/-! Integer arithmetic (Tables 10-1 to 10-4). -/

/-- The register that an integer instruction with one 32-bit result writes, and the result, as the tables give it in integers. -/
def wordOf : Instr → Option (Thread → List (Nat × Word))
  | .movFormH b d _ => some fun th => word d (u th b)
  | .addFormH b d _ => some fun th => word d (u th d + u th b)
  | .subFormH b d _ => some fun th => word d (u th d - u th b)
  | .andFormH b d _ => some fun th => [(d.toNat, getG th d.toNat &&& getG th b.toNat)]
  | .orFormH b d _ => some fun th => [(d.toNat, getG th d.toNat ||| getG th b.toNat)]
  | .xorFormH b d _ => some fun th => [(d.toNat, getG th d.toNat ^^^ getG th b.toNat)]
  | .shlFormH b d _ => some fun th => word d (u th d * 2 ^ amount th b)
  | .shrFormH b d _ => some fun th => word d (u th d / 2 ^ amount th b)
  | .mulFormH b d _ => some fun th => word d (u th d * u th b)
  | .addiFormH i d _ => some fun th => word d (u th d + i.toInt)
  | .moviFormH i d _ => some fun _ => word d i.toInt
  | .add _ b a d _ => some fun th => word d (u th a + u th b)
  | .sub _ b a d _ => some fun th => word d (u th a - u th b)
  | .mul _ b a d _ => some fun th => word d (u th a * u th b)
  | .mulhi _ b a d _ => some fun th => word d (si th a * si th b / 2 ^ 32)
  | .mulhu _ b a d _ => some fun th => word d (u th a * u th b / 2 ^ 32)
  | .and _ b a d _ => some fun th => [(d.toNat, getG th a.toNat &&& getG th b.toNat)]
  | .or _ b a d _ => some fun th => [(d.toNat, getG th a.toNat ||| getG th b.toNat)]
  | .xor _ b a d _ => some fun th => [(d.toNat, getG th a.toNat ^^^ getG th b.toNat)]
  | .shl _ b a d _ => some fun th => word d (u th a * 2 ^ amount th b)
  | .shr _ b a d _ => some fun th => word d (u th a / 2 ^ amount th b)
  | .sar _ b a d _ => some fun th => word d (si th a / 2 ^ amount th b)
  | .min _ b a d _ => some fun th => word d (min (si th a) (si th b))
  | .max _ b a d _ => some fun th => word d (max (si th a) (si th b))
  | .minu _ b a d _ => some fun th => word d (min (u th a) (u th b))
  | .maxu _ b a d _ => some fun th => word d (max (u th a) (u th b))
  | .mov _ b _ d _ => some fun th => word d (u th b)
  | .addi i a d _ => some fun th => word d (u th a + i.toInt)
  | .andi i a d _ => some fun th => [(d.toNat, getG th a.toNat &&& BitVec.ofInt 32 i.toInt)]
  | .liLo i d _ => some fun _ => word d i.toInt
  | .liHi i d _ => some fun th => word d (u th d % 2 ^ 16 + i.toNat * 2 ^ 16)
  | _ => none

/-- The integer instructions with a 64-bit result. -/
def pairOf : Instr → Option (Thread → List (Nat × Word))
  | .add64 _ b a d _ => some fun th => pair d (ux th a + ux th b)
  | .sub64 _ b a d _ => some fun th => pair d (ux th a - ux th b)
  | .addw _ b a d _ => some fun th => pair d (ux th a + si th b)
  | .adduw _ b a d _ => some fun th => pair d (ux th a + u th b)
  | .shl64 _ b a d _ => some fun th => pair d (ux th a * 2 ^ amount th b)
  | .shr64 _ b a d _ => some fun th => pair d (ux th a / 2 ^ amount th b)
  | .sar64 _ b a d _ => some fun th => pair d (sx th a / 2 ^ amount th b)
  | .mulw _ b a d _ => some fun th => pair d (si th a * si th b)
  | _ => none

/-- The zeros of a word above its highest one bit. -/
def zerosAbove (a : Nat) : Nat := if a = 0 then 32 else 31 - Nat.log2 a
/-- The zeros of a word below its lowest one bit. -/
def zerosBelow (a : Nat) : Nat := ((List.range 32).takeWhile fun i => !a.testBit i).length
/-- The one bits of a word. -/
def ones (a : Nat) : Nat := ((List.range 32).filter fun i => a.testBit i).length
/-- The bits of a word in reverse order. -/
def reversed (a : Nat) : Nat := ((List.range 32).map fun i => if a.testBit i then 2 ^ (31 - i) else 0).sum
/-- A byte or halfword read as a signed integer. -/
def signedLow (w : Nat) (x : Int) : Int := (x + 2 ^ (w - 1)) % 2 ^ w - 2 ^ (w - 1)

/-- The counting, extending, rotating and extracting instructions (Table 10-4). -/
def bitsOf : Instr → Option (Thread → List (Nat × Word))
  | .clz a d _ => some fun th => word d (zerosAbove (amount th a))
  | .ctz a d _ => some fun th => word d (zerosBelow (amount th a))
  | .popc a d _ => some fun th => word d (ones (amount th a))
  | .brev a d _ => some fun th => word d (reversed (amount th a))
  | .sext8 a d _ => some fun th => word d (signedLow 8 (u th a))
  | .sext16 a d _ => some fun th => word d (signedLow 16 (u th a))
  | .rol b a d _ => some fun th => word d (u th a * 2 ^ (amount th b % 32) + u th a / 2 ^ (32 - amount th b % 32))
  | .bfx b a d _ => some fun th => word d (u th a / 2 ^ (amount th b % 32) % 2 ^ min (amount th b / 2 ^ 8 % 64) 32)
  | _ => none

/-- A saturating instruction: its destination, its exact result and the range it is clamped to (R260). -/
def clampOf : Instr → Option (BitVec 6 × (Thread → Int) × Int × Int)
  | .addsat b a d _ => some (d, (fun th => si th a + si th b), -2 ^ 31, 2 ^ 31 - 1)
  | .subsat b a d _ => some (d, (fun th => si th a - si th b), -2 ^ 31, 2 ^ 31 - 1)
  | .addsatu b a d _ => some (d, (fun th => u th a + u th b), 0, 2 ^ 32 - 1)
  | .subsatu b a d _ => some (d, (fun th => u th a - u th b), 0, 2 ^ 32 - 1)
  | _ => none
/-- The SAT flag, bit 5 of FSTAT (R260). -/
def satFlag : Word := 0x20

/-! Predicates and compares (R226 to R228). -/

/-- The six conditions on integers (Table 9-1). -/
def holds (c : BitVec 3) (x y : Int) : Bool :=
  match c.toNat with
  | 0 => decide (x = y)
  | 1 => decide (x ≠ y)
  | 2 => decide (x < y)
  | 3 => decide (x ≤ y)
  | 4 => decide (y < x)
  | 5 => decide (y ≤ x)
  | _ => false
/-- The place of a non-NaN encoding among the values of its format: its magnitude bits with its sign, so that both zeros are 0. -/
def place (f : Fmt) (a : Nat) : Int := if a / f.signBit % 2 = 1 then -((a % f.signBit : Nat) : Int) else (a % f.signBit : Nat)
/-- Whether an encoding is a NaN, and whether it is a signalling one: the top fraction bit is 0. -/
def codeNaN (f : Fmt) (a : Nat) : Bool := decide (f.infBits < a % f.signBit)
/-- Whether an encoding is a signalling NaN. -/
def codeSig (f : Fmt) (a : Nat) : Bool := codeNaN f a && decide (a % f.signBit < f.nanBits)
/-- The predicate and the flags of a floating-point compare (R228): NV is bit 0 of FSTAT. -/
def fpCompare (f : Fmt) (c : BitVec 3) (a b : Nat) : Bool × Word :=
  let un := codeNaN f a || codeNaN f b
  (if un then c = 1 || c = 6 else holds c (place f a) (place f b),
    if codeSig f a || codeSig f b || (un && decide (2 ≤ c.toNat) && decide (c.toNat ≤ 5)) then 1 else 0)
/-- A register, and a pair, as an encoding. -/
def bits {n : Nat} (th : Thread) (i : BitVec n) : Nat := (getG th i.toNat).toNat
/-- A pair as an encoding. -/
def bitsX {n : Nat} (th : Thread) (i : BitVec n) : Nat := (getG th i.toNat).toNat + (getG th (i.toNat + 1)).toNat * 2 ^ 32

/-- The fixed-latency instructions that write a predicate: the predicate, its value and the flags. -/
def predOf : Instr → Option (Thread → BitVec 3 × Bool × Word)
  | .icmp _ b a c q _ => some fun th => (q, holds c (si th a) (si th b), 0)
  | .ucmp _ b a c q _ => some fun th => (q, holds c (u th a) (u th b), 0)
  | .fcmpF32 _ b a c q _ => some fun th => (q, fpCompare fp32 c (bits th a) (bits th b))
  | .pand _ b a q _ => some fun th => (q, getQ th a.toNat && getQ th b.toNat, 0)
  | .por _ b a q _ => some fun th => (q, getQ th a.toNat || getQ th b.toNat, 0)
  | .pxor _ b a q _ => some fun th => (q, xor (getQ th a.toNat) (getQ th b.toNat), 0)
  | .pandn _ b a q _ => some fun th => (q, getQ th a.toNat && !getQ th b.toNat, 0)
  | .pnot _ a q _ => some fun th => (q, !getQ th a.toNat, 0)
  | .pmov _ a q _ => some fun th => (q, getQ th a.toNat, 0)
  | _ => none
/-- The word of the predicates q0 to q7. -/
def predBits (th : Thread) : Nat := ((List.range 8).map fun k => if getQ th k then 2 ^ k else 0).sum

/-! Floating-point results (Tables 10-6 to 10-9): the operation, its operands and its rounding mode. -/

/-- The fixed-latency instructions with an FP32 result: the destination, and the encoding and flags. -/
def fpOf : Instr → Option (Thread → Nat × Nat × Word)
  | .faddF32FormH b d _ => some fun th => (d.toNat, fAdd fp32 false (bits th d) (bits th b))
  | .fsubF32FormH b d _ => some fun th => (d.toNat, fSub fp32 false (bits th d) (bits th b))
  | .fmulF32FormH b d _ => some fun th => (d.toNat, fMul fp32 false (bits th d) (bits th b))
  | .fmaxF32FormH b d _ => some fun th => (d.toNat, fMax fp32 (bits th d) (bits th b))
  | .fminF32FormH b d _ => some fun th => (d.toNat, fMin fp32 (bits th d) (bits th b))
  | .faddF32 _ b a d _ => some fun th => (d.toNat, fAdd fp32 false (bits th a) (bits th b))
  | .fsubF32 _ b a d _ => some fun th => (d.toNat, fSub fp32 false (bits th a) (bits th b))
  | .fmulF32 _ b a d _ => some fun th => (d.toNat, fMul fp32 false (bits th a) (bits th b))
  | .fminF32 _ b a d _ => some fun th => (d.toNat, fMin fp32 (bits th a) (bits th b))
  | .fmaxF32 _ b a d _ => some fun th => (d.toNat, fMax fp32 (bits th a) (bits th b))
  | .faddRzF32 _ b a d _ => some fun th => (d.toNat, fAdd fp32 true (bits th a) (bits th b))
  | .fmulRzF32 _ b a d _ => some fun th => (d.toNat, fMul fp32 true (bits th a) (bits th b))
  | .fsgnjF32 _ b a d _ => some fun th => (d.toNat, fSgnj fp32 (bits th a) (bits th b), 0)
  | .ffmaF32 c b a d _ => some fun th => (d.toNat, fFma fp32 (bits th a) (bits th b) (bits th c))
  | _ => none

/-- A word result on its way, with its flags. -/
def wordR (d : BitVec 6) (r : Nat × Word) : Result := { regs := [(d.toNat, BitVec.ofNat 32 r.1)], preds := [], flags := r.2 }
/-- A pair result on its way, with its flags. -/
def pairR (d : BitVec 6) (r : Nat × Word) : Result :=
  { regs := [(d.toNat, BitVec.ofNat 32 r.1), (d.toNat + 1, BitVec.ofNat 32 (r.1 / 2 ^ 32))], preds := [], flags := r.2 }
/-- Half h of a word: h = 0 is the low half. -/
def half {n : Nat} (th : Thread) (i : BitVec n) (h : Nat) : Nat := bits th i / 2 ^ (16 * h) % 2 ^ 16
/-- A packed result: each half by itself, the flags of both ORed (R265). -/
def packed (d : BitVec 6) (f : Nat → Nat × Word) : Result := wordR d ((f 0).1 + (f 1).1 * 2 ^ 16, (f 0).2 ||| (f 1).2)
/-- Byte y of a word. -/
def byteAt {n : Nat} (th : Thread) (i : BitVec n) (y : BitVec 2) : Byte := (getG th i.toNat).extractLsb' (8 * y.toNat) 8
/-- A word with byte y replaced. -/
def withByte {n : Nat} (th : Thread) (i : BitVec n) (y : BitVec 2) (b : Byte) : Nat :=
  let k := 2 ^ (8 * y.toNat)
  bits th i % k + b.toNat * k + bits th i / (k * 256) * (k * 256)
/-- The value of an integer in a format. -/
def fpOfInt (f : Fmt) (x : Int) : Nat × Word := packFV f false (.fin (decide (x < 0)) x.natAbs 1)

/-- The variable-latency instructions of MAJ 0x07 and 0x09 to 0x0B: the result that leaves for its registers. -/
def fpSentOf : Instr → Option (Thread → Result)
  | .fcmpF64 _ b a c q _ => some fun th =>
      { regs := [], preds := [(q.toNat, (fpCompare fp64 c (bitsX th a) (bitsX th b)).1)], flags := (fpCompare fp64 c (bitsX th a) (bitsX th b)).2 }
  | .faddF64 _ b a d _ => some fun th => pairR d (fAdd fp64 false (bitsX th a) (bitsX th b))
  | .fsubF64 _ b a d _ => some fun th => pairR d (fSub fp64 false (bitsX th a) (bitsX th b))
  | .fmulF64 _ b a d _ => some fun th => pairR d (fMul fp64 false (bitsX th a) (bitsX th b))
  | .fminF64 _ b a d _ => some fun th => pairR d (fMin fp64 (bitsX th a) (bitsX th b))
  | .fmaxF64 _ b a d _ => some fun th => pairR d (fMax fp64 (bitsX th a) (bitsX th b))
  | .faddRzF64 _ b a d _ => some fun th => pairR d (fAdd fp64 true (bitsX th a) (bitsX th b))
  | .fmulRzF64 _ b a d _ => some fun th => pairR d (fMul fp64 true (bitsX th a) (bitsX th b))
  | .fsgnjF64 _ b a d _ => some fun th => pairR d (fSgnj fp64 (bitsX th a) (bitsX th b), 0)
  | .faddF16x2 _ b a d _ => some fun th => packed d fun h => fAdd fp16 false (half th a h) (half th b h)
  | .fmulF16x2 _ b a d _ => some fun th => packed d fun h => fMul fp16 false (half th a h) (half th b h)
  | .ffmaF16x2 _ b a d _ => some fun th => packed d fun h => fFma fp16 (half th a h) (half th b h) (half th d h)
  | .fmaxF16x2 _ b a d _ => some fun th => packed d fun h => fMax fp16 (half th a h) (half th b h)
  | .faddBf16x2 _ b a d _ => some fun th => packed d fun h => fAdd bf16 false (half th a h) (half th b h)
  | .fmulBf16x2 _ b a d _ => some fun th => packed d fun h => fMul bf16 false (half th a h) (half th b h)
  | .ffmaBf16x2 _ b a d _ => some fun th => packed d fun h => fFma bf16 (half th a h) (half th b h) (half th d h)
  | .fmaxBf16x2 _ b a d _ => some fun th => packed d fun h => fMax bf16 (half th a h) (half th b h)
  | .ffmaF64 c b a d _ => some fun th => pairR d (fFma fp64 (bitsX th a) (bitsX th b) (bitsX th c))
  | _ => none

/-- The conversions and functions of MAJ 0x0C and 0x0D: the result that leaves for its registers. -/
def convertOf : Instr → Option (Thread → Result)
  | .cvtF32F64 a d _ => some fun th => wordR d (fCvt fp64 fp32 false (bitsX th a))
  | .cvtRzF32F64 a d _ => some fun th => wordR d (fCvt fp64 fp32 true (bitsX th a))
  | .cvtF64F32 a d _ => some fun th => pairR d (fCvt fp32 fp64 false (bits th a))
  | .cvtF32S32 a d _ => some fun th => wordR d (fpOfInt fp32 (si th a))
  | .cvtF32Uns32 a d _ => some fun th => wordR d (fpOfInt fp32 (u th a))
  | .cvtS32F32 a d _ => some fun th => wordR d ((fToInt fp32 32 false (bits th a)).1.toNat, (fToInt fp32 32 false (bits th a)).2)
  | .cvtRzS32F32 a d _ => some fun th => wordR d ((fToInt fp32 32 true (bits th a)).1.toNat, (fToInt fp32 32 true (bits th a)).2)
  | .cvtF64S32 a d _ => some fun th => pairR d (fpOfInt fp64 (si th a))
  | .cvtS32F64 a d _ => some fun th => wordR d ((fToInt fp64 32 false (bitsX th a)).1.toNat, (fToInt fp64 32 false (bitsX th a)).2)
  | .cvtRzS32F64 a d _ => some fun th => wordR d ((fToInt fp64 32 true (bitsX th a)).1.toNat, (fToInt fp64 32 true (bitsX th a)).2)
  | .cvtF16x2F32 b a d _ => some fun th => packed d fun h => fCvt fp32 fp16 false (if h = 0 then bits th a else bits th b)
  | .cvtBf16x2F32 b a d _ => some fun th => packed d fun h => fCvt fp32 bf16 false (if h = 0 then bits th a else bits th b)
  | .cvtRzBf16x2F32 b a d _ => some fun th => packed d fun h => fCvt fp32 bf16 true (if h = 0 then bits th a else bits th b)
  | .cvtF32F16 h a d _ => some fun th => wordR d (fCvt fp16 fp32 false (half th a h.toNat))
  | .cvtF32Bf16 h a d _ => some fun th => wordR d (fCvt bf16 fp32 false (half th a h.toNat))
  | .d8Pack y a d _ => some fun th =>
      wordR d (withByte th d y (d8Encode (unpackFV fp32 (bits th a))).1, (d8Encode (unpackFV fp32 (bits th a))).2)
  | .d8Unpack y a d _ => some fun th => wordR d (packFV fp32 false (d8Value (byteAt th a y)))
  | .cvtS8F32 y a d _ => some fun th => wordR d (withByte th d y (fToInt fp32 8 false (bits th a)).1, (fToInt fp32 8 false (bits th a)).2)
  | .cvtF32S8 y a d _ => some fun th => wordR d (fpOfInt fp32 (byteAt th a y).toInt)
  | .fsint a d _ => some fun th => wordR d (fSint (bits th a))
  | .fcost a d _ => some fun th => wordR d (fCost (bits th a))
  | .fexp2 a d _ => some fun th => wordR d (fExp2 (bits th a))
  | .flog2 a d _ => some fun th => wordR d (fLog2 (bits th a))
  | .frcp a d _ => some fun th => wordR d (fRcp fp32 (bits th a))
  | .frsq a d _ => some fun th => wordR d (fRsq fp32 (bits th a))
  | .fsqrt a d _ => some fun th => wordR d (fSqrt fp32 (bits th a))
  | .fdiv b a d _ => some fun th => wordR d (fDiv fp32 (bits th a) (bits th b))
  | .frcpF64 a d _ => some fun th => pairR d (fRcp fp64 (bitsX th a))
  | .fsqrtF64 a d _ => some fun th => pairR d (fSqrt fp64 (bitsX th a))
  | .fdivF64 b a d _ => some fun th => pairR d (fDiv fp64 (bitsX th a) (bitsX th b))
  | _ => none

/-- The four IEEE formats of Table 8-1. -/
def formats : List Fmt := [fp64, fp32, fp16, bf16]
/-- The magnitude that a finite encoding without its sign stands for, as a fraction (R210). -/
def magnitude (f : Fmt) (m : Nat) : ℚ :=
  let e := m / 2 ^ f.fb
  let x : ℚ := if e = 0 then m else (m % 2 ^ f.fb + 2 ^ f.fb : Nat)
  x * 2 ^ ((max e 1 : Int) - f.bias - f.fb)

/-! Issue (R183, R184, R188, R240). -/

/-- Memory and scratch read as before. -/
def SameBytes (s s' : State) : Prop :=
  (∀ a, memRead s'.mem a = memRead s.mem a) ∧ ∀ c a, memRead (s'.core c).scratch a = memRead (s.core c).scratch a
/-- No thread but `t` has changed, but that one may have left a gathered group, so that its mates gather anew (R178, R181). -/
def OthersKept (s s' : State) (t : Nat) : Prop :=
  ∀ v, v ≠ t → s'.thread v = s.thread v ∨ s'.thread v = { s.thread v with stage := 0 }
/-- A trap can be raised, and does not overflow, outside handler mode and in a helper (R330, R370). -/
def takesTraps (th : Thread) : Prop := th.helper.isSome = true ∨ th.hm = false
/-- A thread awaits the delivery of a precise trap at its instruction: it has executed nothing, and its pending bits are those that its
instruction met. -/
def Trapped (i : Instr) (s s' : State) (t cause : Nat) (faddr : DWord) (rpc : Addr) : Prop :=
  s'.thread t = { issued i (s.thread t) (s.thread t).pc with
    passed := (s.thread t).passed
    trap := some { cause := cause, pc := (s.thread t).pc, rpc := rpc, faddr := faddr } } ∧
  OthersKept s s' t ∧ SameBytes s s'
/-- A thread is held at its instruction with nothing changed but what it waits for, and the clock at which that wait began. -/
def Held (s s' : State) (t : Nat) (w : Wait) : Prop :=
  s' = { s with threads := s'.threads, bundle := [], free := s'.free } ∧ (∀ v, v ≠ t → s'.thread v = s.thread v) ∧
    s'.thread t = { s.thread t with park := w, since := (s'.thread t).since }
/-- The checks of an instruction before its guard hold (steps 2 and 3 of R188, the marker wait of R183). -/
structure BeforeGuard (th : Thread) (n : Nat) (i : Instr) : Prop where
  waits : (operands i).mark = true → outstanding th = false
  bound : ∀ r ∈ (operands i).rd ++ (operands i).wr, regExists th n r
  helper : th.helper.isSome = true → helperMay i

/-! Reset and the step. -/

/-- The die and core numbers of a device (R2). -/
def dies4 : List Nat := [0, 1, 2, 3]

/-- A quarter may take its turn: nothing stops its core, the turn of this clock is not over, and no lower quarter of the core is to issue
first (R170, R174, R303). -/
structure MayTakeTurn (s : State) (c q : Nat) : Prop where
  free : issueStopped s c = false
  turn : openSlot s c q = true
  first : ∀ k < q, quarterDue s c k = false

/-! Control flow, masks, the horizon and cross-lane (R177 to R181, R229 to R245, R272, R273). -/

/-- A PC moved by a signed number of halfwords (R229). -/
def movedBy (pc : Addr) (x : Int) : Addr := BitVec.ofInt 48 (pc.toNat + 2 * x)
/-- The link that `call` and `jalr` write to a pair: the PC of the next instruction. -/
def linkAt (d : Nat) (pc : Addr) : List (Nat × Word) :=
  let l : Nat := (pc.toNat + 4) % 2 ^ 48
  [(d, BitVec.ofNat 32 l), (d + 1, BitVec.ofNat 32 (l / 2 ^ 32))]
/-- The branches that read only their own thread, with `land`: where the thread stands afterwards, and the registers written. -/
def branchOf : Instr → Option (Thread → Addr × List (Nat × Word))
  | .br x v q _ => some fun th =>
      (if q = 0 ∨ getQ th q.toNat ≠ (v = 1) then movedBy th.pc x.toInt else th.pc + 4, [])
  | .call x _ => some fun th => (movedBy th.pc x.toInt, linkAt 0 th.pc)
  | .land _ => some fun th => (th.pc + 4, [])
  | _ => none
/-- The indirect jumps: the pair that holds the target, whether the target may have to be a landing instruction, and the link. -/
def jumpOf : Instr → Option (BitVec 6 × Bool × (Thread → List (Nat × Word)))
  | .jr a _ => some (a, true, fun _ => [])
  | .jalr a d _ => some (a, true, fun th => linkAt d.toNat th.pc)
  | .ret a _ => some (a, false, fun _ => [])
  | _ => none
/-- Whether the launch of a thread asks for landing checks: bit 0 of its header (R231). -/
def landChecked (s : State) (t : Nat) : Bool :=
  match s.launch? (s.launchOf t) with
  | some l => l.header.getLsbD 0
  | none => false
/-- The unresolved operations of a thread with those of its helpers (R238, R329): SEQ - HZ modulo 2^16, summed. -/
def openOps (s : State) (t : Nat) : Nat :=
  let n := fun v => ((s.thread v).seq - (s.thread v).hz).toNat
  n t + (match (s.thread t).bank with
    | some b => (b.live.map n).sum
    | none => 0)
/-- The horizon instructions, with where the thread stands afterwards where it goes on (R244, R245). -/
def horizonOf : Instr → Option (Nat → Thread → Option Addr)
  | .hzwait a _ => some fun n th => if n ≤ a.toNat then some (th.pc + 4) else none
  | .hzbr x _ => some fun n th => some (if n = 0 then movedBy th.pc x.toInt else th.pc + 4)
  | .hzbrn x _ => some fun n th => some (if n = 0 then th.pc + 4 else movedBy th.pc x.toInt)
  | _ => none
/-- A mask register of a train. -/
def maskReg (s : State) (tr m : Nat) : DWord := mapGetD (s.train tr).masks m 0
/-- The instructions that gather on a mask (R178, R237, R272). -/
def gathersOn : Instr → Option Nat
  | .lswap m _ _ _ _ => some m.toNat
  | .shfl m _ _ _ _ => some m.toNat
  | .bcast m _ _ _ _ => some m.toNat
  | .ballot m _ _ _ => some m.toNat
  | .redOp m _ _ _ _ => some m.toNat
  | .redFopF32 m _ _ _ _ => some m.toNat
  | .scanAdd m _ _ _ => some m.toNat
  | .redFopF64 m _ _ _ _ => some m.toNat
  | .waitm d _ => some d.toNat
  | _ => none
/-- Whether a thread of a train stands gathered at an address on a mask and has not issued. -/
def waitsAt (th : Thread) (m : Nat) (pc : Addr) : Prop := th.park = .gather m ∧ th.pc = pc ∧ th.stage = 0 ∧ th.trap = none
/-- Whether a thread is a member of a mask of a train: helpers are not. -/
def memberOf (s : State) (tr m v : Nat) : Prop :=
  (∃ p ∈ s.threads, p.1 = v ∧ p.2.train = tr ∧ p.2.helper = none) ∧ (maskReg s tr m).getLsbD (s.thread v).tidx = true

/-- The value at a train index of a gathered group; the thread's own value where the index is not a member's (R273). -/
def laneSource (g : List Thread) (own : Thread) (i : Nat) (a : BitVec 6) : Int :=
  match g.find? fun v => v.tidx = i with
  | some v => u v a
  | none => u own a
/-- The integer reductions of Table 10-15. -/
def reduceInt (o : Nat) (l : List Word) : Word :=
  match o with
  | 0 => BitVec.ofNat 32 (l.map (·.toNat)).sum
  | 1 => BitVec.ofInt 32 ((l.map (·.toInt)).foldl min (2 ^ 31 - 1))
  | 2 => BitVec.ofInt 32 ((l.map (·.toInt)).foldl max (-2 ^ 31))
  | 3 => BitVec.ofNat 32 ((l.map (·.toNat)).foldl min (2 ^ 32 - 1))
  | 4 => BitVec.ofNat 32 ((l.map (·.toNat)).foldl max 0)
  | 5 => l.foldl (· &&& ·) 0xFFFFFFFF
  | 6 => l.foldl (· ||| ·) 0
  | _ => l.foldl (· ^^^ ·) 0
/-- One level of the tree of R29: neighbours combined, an odd last value carried unchanged. -/
def levelOf {α : Type} (op : α → α → α) : List α → List α
  | a :: b :: r => op a b :: levelOf op r
  | l => l
/-- The tree of R29 over at most 64 values. -/
def reduceTree {α : Type} (op : α → α → α) (l : List α) : List α := (List.range 6).foldl (fun l _ => levelOf op l) l
/-- A node of a floating-point reduction, with the flags of all below it (R273). -/
def fpNode (f : Fmt) (o : Nat) (a b : Nat × Word) : Nat × Word :=
  let r := if o = 0 then fAdd f false a.1 b.1 else if o = 1 then fMin f a.1 b.1 else fMax f a.1 b.1
  (r.1, a.2 ||| b.2 ||| r.2)
/-- A floating-point reduction; a lone value gives what `fmin` of it with itself gives, its NaN a canonical one (R211, R261). -/
def reduceFp (f : Fmt) (o : Nat) (l : List Nat) : Nat × Word :=
  match l with
  | [v] => fMin f v v
  | _ => (reduceTree (fpNode f o) (l.map fun v => (v, 0))).headD (0, 0)
/-- The cross-lane instructions with a result: what a member of a gathered group, given in ascending train index, receives. -/
def crossOf : Instr → Option (List Thread → Thread → Result)
  | .lswap _ i a d _ => some fun g own => { regs := word d (laneSource g own (own.tidx ^^^ i.toNat) a), preds := [], flags := 0 }
  | .shfl _ b a d _ => some fun g own => { regs := word d (laneSource g own (bits own b) a), preds := [], flags := 0 }
  | .bcast _ i a d _ => some fun g own => { regs := word d (laneSource g own i.toNat a), preds := [], flags := 0 }
  | .ballot _ a d _ => some fun g _ =>
      { regs := pair d ((List.range 64).map fun k => if g.any (fun v => v.tidx = k && getQ v a.toNat) then (2 : Int) ^ k else 0).sum
        preds := [], flags := 0 }
  | .redOp _ o a d _ => some fun g _ => { regs := [(d.toNat, reduceInt o.toNat (g.map fun v => getG v a.toNat))], preds := [], flags := 0 }
  | .redFopF32 _ o a d _ => some fun g _ => wordR d (reduceFp fp32 o.toNat (g.map fun v => bits v a))
  | .scanAdd _ a d _ => some fun g own =>
      { regs := word d ((g.filter fun v => v.tidx ≤ own.tidx).map fun v => u v a).sum, preds := [], flags := 0 }
  | .redFopF64 _ o a d _ => some fun g _ => pairR d (reduceFp fp64 o.toNat (g.map fun v => bitsX v a))
  | _ => none
/-- The gathered group of a thread of the bundle: the threads of its own train in it (R180, R181). -/
def groupIn (s : State) (t : Nat) : List Thread := (s.bundle.filter fun v => (s.thread v).train = (s.thread t).train).map s.thread

/-! Loads, stores, atomics (R238 to R242, R274 to R288). -/

/-- A memory instruction: its space (Table 1-1), its bytes, its address from the registers, its KIND (Tables 9-9 and 11-3), the data it
captures at issue, and the registers its result goes to. In scratch, where an access has no kind, a store carries 0x22 and a load 0x11. -/
structure MemAccess where
  space : Nat
  size : Nat
  addr : Thread → Nat
  kind : Nat
  data : Thread → List Byte
  dests : List Nat

/-- The bytes of `n` registers from one on, in memory order (Table 11-4). -/
def regsAsBytes (th : Thread) (d n : Nat) : List Byte :=
  (List.range (4 * n)).map fun k => (getG th (d + k / 4)).extractLsb' (8 * (k % 4)) 8
/-- The registers that an access of a width spans. -/
def spanned (w : Nat) : Nat := if w ≤ 2 then 1 else 2 ^ (w - 2)
/-- A load or store: the base pair plus the offset in units of the width, modulo 2^64 (R276). -/
def plainAccess (store strong : Bool) (o : BitVec 4) (w p : BitVec 3) (a d : BitVec 6) : MemAccess :=
  { space := p.toNat
    size := 2 ^ w.toNat
    addr := fun th => ((ux th a).toNat + o.toNat * 2 ^ w.toNat) % 2 ^ 64
    kind := if store then (if p = 1 then (if strong then 0x21 else 0x20) else 0x22) else (if p = 1 ∧ !strong then 0x10 else 0x11)
    data := fun th => if store then (regsAsBytes th d.toNat (spanned w.toNat)).take (2 ^ w.toNat) else []
    dests := if store then [] else (List.range (spanned w.toNat)).map (d.toNat + ·) }
/-- An atomic: the base pair itself; a compare-and-swap captures its compare value before its operand (R248, R284). -/
def atomicAccess (cas : Bool) (w : BitVec 1) (p : BitVec 2) (b a d : BitVec 6) : MemAccess :=
  let n := if w = 1 then 2 else 1
  { space := if p = 0 then 1 else if p = 1 then 2 else 4
    size := 4 * n
    addr := fun th => (ux th a).toNat
    kind := if p = 0 then 0x30 else 0x31
    data := fun th => (if cas then regsAsBytes th d.toNat n else []) ++ regsAsBytes th b.toNat n
    dests := (List.range n).map (d.toNat + ·) }
/-- The memory instructions. -/
def accessOf : Instr → Option MemAccess
  | .ld o w p a d _ => some (plainAccess false false o w p a d)
  | .ldSx o w p a d _ => some (plainAccess false false o w p a d)
  | .st o w p a d _ => some (plainAccess true false o w p a d)
  | .ldS o w p a d _ => some (plainAccess false true o w p a d)
  | .ldSxS o w p a d _ => some (plainAccess false true o w p a d)
  | .stS o w p a d _ => some (plainAccess true true o w p a d)
  | .atomAdd w p b a d _ => some (atomicAccess false w p b a d)
  | .atomMin w p b a d _ => some (atomicAccess false w p b a d)
  | .atomMax w p b a d _ => some (atomicAccess false w p b a d)
  | .atomMinu w p b a d _ => some (atomicAccess false w p b a d)
  | .atomMaxu w p b a d _ => some (atomicAccess false w p b a d)
  | .atomAnd w p b a d _ => some (atomicAccess false w p b a d)
  | .atomOr w p b a d _ => some (atomicAccess false w p b a d)
  | .atomXor w p b a d _ => some (atomicAccess false w p b a d)
  | .atomExch w p b a d _ => some (atomicAccess false w p b a d)
  | .atomCas w p b a d _ => some (atomicAccess true w p b a d)
  | .atomFadd w p b a d _ => some (atomicAccess false w p b a d)
  | .atomFaddRa w p b a d _ => some (atomicAccess false w p b a d)
  | .atomFmin w p b a d _ => some (atomicAccess false w p b a d)
  | .atomFmax w p b a d _ => some (atomicAccess false w p b a d)
  | .stf w b a d _ => some
      { space := 2, size := if w = 1 then 8 else 4, addr := fun th => (ux th a).toNat, kind := 0x23
        data := fun th => regsAsBytes th d.toNat (if w = 1 then 2 else 1) ++ regsAsBytes th b.toNat 2, dests := [] }
  | _ => none
/-- Whether a load extends the sign. -/
def signed : Instr → Bool
  | .ldSx _ _ _ _ _ _ => true
  | .ldSxS _ _ _ _ _ _ => true
  | _ => false
/-- The integer of bytes in memory order. -/
def littleEndian (l : List Byte) : Nat := ((List.range l.length).map fun k => (l.getD k 0).toNat * 256 ^ k).sum
/-- The registers that loaded bytes fill (Table 11-4). -/
def filled (i : Instr) (m : MemAccess) (bs : List Byte) : List (Nat × Word) :=
  if m.size < 4 then m.dests.map fun d => (d, BitVec.ofInt 32 (if signed i then signedLow (8 * m.size) (littleEndian bs) else littleEndian bs))
  else m.dests.zipIdx.map fun p => (p.1, BitVec.ofNat 32 (littleEndian ((bs.drop (4 * p.2)).take 4)))

/-- The scratch range of a train holds an access (R11). -/
def inScratch (s : State) (t a n : Nat) : Prop :=
  a < 2 ^ 22 ∧ (s.trainOf t).sbase ≤ a ∧ a + n ≤ (s.trainOf t).sbase + (s.trainOf t).slen
/-- Each scratch line of an access is present (R46). -/
def linesPresent (s : State) (t a n : Nat) : Prop :=
  ∀ l, a / 128 ≤ l → l ≤ (a + n - 1) / 128 → (scrGet (s.core (s.coreOf t)) l).present = true
/-- Each scratch line of an access is free of pins (R46). -/
def linesUnpinned (s : State) (t a n : Nat) : Prop :=
  ∀ l, a / 128 ≤ l → l ≤ (a + n - 1) / 128 →
    (scrGet (s.core (s.coreOf t)) l).early = 0 ∧ (scrGet (s.core (s.coreOf t)) l).late = 0
/-- Every older read and atomic of a thread has its value (row 2 of Table 4-4, R121). -/
def readsBound (th : Thread) : Prop := ∀ o ∈ th.ops, opHasResult o = true → o.performed = true

/-- The bits that an address of a space must have zero (Table 1-1): the layouts of the device, remote, aperture and host spaces. -/
def layoutOk (space a : Nat) : Prop := a < (if space = 2 then 2 ^ 57 else if space = 4 then 2 ^ 52 else 2 ^ 48)
/-- The flag address of `stf`, the last eight bytes that it captures. -/
def flagAddr (i : Instr) (th : Thread) : Option Nat :=
  match i with
  | .stf _ b _ _ _ => some (ux th b).toNat
  | _ => none
/-- An operation has begun (R238, R276): it took the number SEQ, its instruction is past, its result registers are pending, and no
register, predicate or flag has changed. `o` is the operation as the window now holds it. -/
structure Began (i : Instr) (m : MemAccess) (th th' : Thread) (o : Op) : Prop where
  held : o ∈ th'.ops
  seq : o.seq = th.seq ∧ th'.seq = th.seq + 1
  what : o.kind = m.kind ∧ o.pc = th.pc ∧ o.insn = i ∧ o.addr.toNat = m.addr th ∧ o.data = m.data th
  pend : ∀ k < 64, th'.pendG.getLsbD k = ((issued i th th.pc).pendG.getLsbD k || m.dests.contains k)
  rest : th' = { issued i th (nextPc i th) with
    ops := th'.ops, seq := th'.seq, hz := th'.hz, crc := th'.crc, stores := th'.stores, diverged := th'.diverged, ws := th'.ws,
    pendG := th'.pendG }
/-- The state but for one thread, the bundle and the free counter is as it was. -/
def OneThread (s s' : State) (t : Nat) : Prop :=
  s' = { s with threads := s'.threads, bundle := [], free := s'.free } ∧ ∀ v, v ≠ t → s'.thread v = s.thread v
/-- The physical address that a cached translation gives: where the leaf says, or where a page that moved less than 25,000 clocks ago is
now (R17, R36). -/
def physOf (s : State) (e : TlbEntry) (a : Nat) : Nat := forwarded s (leafPa e.leaf e.big a)
/-- A translation that a core's caches hold and that an access of a core passes as it stands: the frame is tagged with the context and its
partition (R38), the page is neither frozen (R35) nor in conflict (Table 1-6), it may be written where the access writes, and A, D and
OWNER need no change (R20). -/
structure Cached (s : State) (t a : Nat) (acc : Acc) (e : TlbEntry) : Prop where
  found : tlbFind (s.core (s.coreOf t)) (s.trainOf t).quarter (s.ctxOf t) a = some e
  noMiss : missOf (s.core (s.coreOf t)) (s.ctxOf t) a = none
  writable : acc = .write → e.leaf.getLsbD 4 = true
  owned : mapGet? s.frames (physOf s e a / 2 ^ 16) = some { part := (s.ctx (s.ctxOf t)).part, ctx := s.ctxOf t }
  thawed : e.leaf.getLsbD 11 = false
  fits : classConflict e.leaf (some (s.coreOf t)) acc = false
  marked : leafAfter e.leaf (some (s.coreOf t)) acc = e.leaf
/-- What a memory instruction does to its page. -/
def accessAcc (m : MemAccess) : Acc := if m.kind = 0x10 ∨ m.kind = 0x11 then .read else .write
/-- Nothing but one thread, the translation caches of its core and the home service trains' requests has changed. -/
def TranslatedOnly (s s' : State) (t : Nat) : Prop :=
  s' = { s with threads := s'.threads, cores := s'.cores, atoms := s'.atoms, bundle := [], free := s'.free } ∧
    (∀ v, v ≠ t → s'.thread v = s.thread v) ∧ (∀ c, c ≠ s.coreOf t → s'.core c = s.core c) ∧
    s'.core (s.coreOf t) = { s.core (s.coreOf t) with tlb := (s'.core (s.coreOf t)).tlb, qtlb := (s'.core (s.coreOf t)).qtlb }
/-- No operation of the window carries the number that SEQ will give next. -/
def seqFree (th : Thread) : Prop := ∀ o ∈ th.ops, o.seq ≠ th.seq
/-- A byte that a thread's weak stores hold for itself at a physical address in its present mode (R79). -/
def ownByte (th : Thread) (pa : Nat) : Option Byte :=
  match th.ws.find? fun e => e.line = pa / 128 && e.handler = th.hm with
  | some e => mapGet? e.bytes (pa % 128)
  | none => none

/-! Phases, fences, barriers, ranges, presence (R126 to R132, R290 to R295). Scopes are 0 train, 1 movement, 2 calibre, 3 device,
4 domain. -/

/-- The scope of a boundary. -/
def phaseOf : Instr → Option Nat
  | .phaseTrain _ => some 0
  | .phaseMovement _ => some 1
  | .phaseCalibre _ => some 2
  | .phaseDevice _ => some 3
  | .phaseDomain _ => some 4
  | _ => none
/-- The fences; whether one is of domain scope. -/
def fenceOf : Instr → Option Bool
  | .fenceTrain _ => some false
  | .fenceMovement _ => some false
  | .fenceCalibre _ => some false
  | .fenceDevice _ => some false
  | .fenceDomain _ => some true
  | _ => none
/-- The barriers beyond a train: the scope, the id and the register of the count. -/
def barrierOf : Instr → Option (Nat × Nat × BitVec 6)
  | .barMovement i a _ => some (1, i.toNat, a)
  | .barCalibre i a _ => some (2, i.toNat, a)
  | .barDevice i a _ => some (3, i.toNat, a)
  | _ => none
/-- The range operations, as accesses whose data is the length register. -/
def rangeOf : Instr → Option MemAccess
  | .rflushDev b a _ => some ⟨1, 0, fun th => (ux th a).toNat, 0x40, fun th => regsAsBytes th b.toNat 1, []⟩
  | .rflushRem b a _ => some ⟨2, 0, fun th => (ux th a).toNat, 0x40, fun th => regsAsBytes th b.toNat 1, []⟩
  | .rflushHost b a _ => some ⟨4, 0, fun th => (ux th a).toNat, 0x40, fun th => regsAsBytes th b.toNat 1, []⟩
  | .rinvalDev b a _ => some ⟨1, 0, fun th => (ux th a).toNat, 0x41, fun th => regsAsBytes th b.toNat 1, []⟩
  | .rinvalRem b a _ => some ⟨2, 0, fun th => (ux th a).toNat, 0x41, fun th => regsAsBytes th b.toNat 1, []⟩
  | .rinvalHost b a _ => some ⟨4, 0, fun th => (ux th a).toNat, 0x41, fun th => regsAsBytes th b.toNat 1, []⟩
  | _ => none
/-- The thread may pass step 1 of a boundary: a clear horizon, and everything older performed (R126). -/
def quiet (s : State) (t : Nat) : Prop := openOps s t = 0 ∧ ∀ o ∈ (s.thread t).ops, o.performed = true
/-- The write set of the thread's present mode is empty (R83, R251). -/
def nothingToPublish (th : Thread) : Prop := ∀ e ∈ th.ws, e.handler ≠ th.hm
/-- The thread has no boundary under way. -/
def noBoundary (th : Thread) : Prop := th.bnd = none
/-- The thread's core's logical time and the phase clocks of a scope raised as steps 3 and 4 of R126 say, and nothing else of cores and
dies changed (R83, Table 4-2). -/
def ClocksRaised (s s' : State) (t scope : Nat) : Prop :=
  let l := (s.core (s.coreOf t)).lt
  let cpc := (s.die (s.dieOf t)).cpc
  let top := max (max l (if 2 ≤ scope then cpc else 0)) (if 3 ≤ scope then s.dpc else 0)
  (∀ c, s'.core c = if c = s.coreOf t then { s.core c with lt := top } else s.core c) ∧
    (∀ d, s'.die d = if d = s.dieOf t ∧ 2 ≤ scope then { s.die d with cpc := max cpc l } else s.die d) ∧
    s'.dpc = if 3 ≤ scope then max s.dpc l else s.dpc
/-- The threads that one barrier group holds of a launch (R293). -/
def groupCapacity (scope : Nat) : Nat := if scope = 1 then 16384 else if scope = 2 then 393216 else 1572864
/-- The barrier that a thread's arrival is at: one of 16 of its launch in its scope group. -/
def barrierAt (s : State) (t scope id : Nat) : Nat := barrierKey (s.launchOf t) scope (scopeGroup scope (s.coreOf t)) id
/-- A barrier as it stands. -/
def barrierState (s : State) (k : Nat) : Barrier := mapGetD s.barriers k { need := 0, arrived := [], generation := 0 }

/-! The matrix and copy engines (R296 to R320). -/

/-- Whether a thread may issue to an engine, the matrix engine with role kind 2 and the copy engine with role kind 1: its launch has no
roles, or it runs a task, or it has that role (R297, R349, R359). -/
def roleFits (s : State) (t k : Nat) : Prop :=
  ∀ l, s.launch? (s.launchOf t) = some l → l.noRoles = true ∨ (s.trainOf t).task ≠ none ∨ (s.trainOf t).kind = k
/-- The bundle is threads of one train, each of which may issue the instruction, and `e` is the one of lowest train index (R296). -/
def Elected (s : State) (i : Instr) (e : Nat) : Prop :=
  Ready s i ∧ e ∈ s.bundle ∧ ∀ v ∈ s.bundle, v ≠ e → (s.thread v).train = (s.thread e).train ∧ (s.thread e).tidx < (s.thread v).tidx
/-- The commands: the role kind, and what is captured at issue (R303, R316). -/
def commandOf : Instr → Option (Nat × MemAccess)
  | .mxOp a _ => some (2, ⟨1, 64, fun th => (ux th a).toNat, 0x51, fun _ => [], []⟩)
  | .cpTileLd b a d _ => some (1, ⟨1, 64, fun th => (ux th a).toNat, 0x50, fun th => regsAsBytes th b.toNat 6 ++ regsAsBytes th d.toNat 2, []⟩)
  | .cpTileSt b a d _ => some (1, ⟨1, 64, fun th => (ux th a).toNat, 0x50, fun th => regsAsBytes th b.toNat 6 ++ regsAsBytes th d.toNat 2, []⟩)
  | _ => none
/-- The counter address that a copy command captures behind its six coordinates; none for a matrix command. -/
def counterOf (i : Instr) (th : Thread) : Nat :=
  match i with
  | .cpTileLd _ _ d _ => (ux th d).toNat
  | .cpTileSt _ _ d _ => (ux th d).toNat
  | _ => 0
/-- The failure of a command at issue (step 1 of R303, R317). -/
def commandFails (i : Instr) (m : MemAccess) (th : Thread) : Option Nat :=
  if 2 ^ 48 ≤ m.addr th then some 6 else if m.addr th % 64 ≠ 0 then some 4 else if 2 ^ 48 ≤ counterOf i th then some 6 else none
/-- The commits of a train whose batches are not complete (R307). -/
def commitsOpen (s : State) (t : Nat) : Nat := (s.trainOf t).committed.length
/-- A batch of a train is complete: every command of it is done, and one without a command has had its number returned (R307, R308). -/
def batchDone (s : State) (k : Nat) (b : Batch) : Prop :=
  let mine := fun (m : MxCmd) => m ∈ (s.core (s.train k).core).mxq ∧ m.id ∈ b.cmds
  (∀ m, mine m → m.done = true) ∧ ((∃ m, mine m) ∨ b.returned = true)
/-- The tile instructions that one thread executes: the tiles that they name, the index, and whether they write (R298, R310). -/
def tileOf : Instr → Option (List Nat × (Thread → Nat) × Bool)
  | .mxRd t a _ _ => some ([t.toNat], fun th => bits th a, false)
  | .mxWr _ a t _ => some ([t.toNat], fun th => bits th a, true)
  | .mxRd64 t a _ _ => some ([t.toNat, t.toNat + 1], fun th => bits th a, false)
  | .mxWr64 _ a t _ => some ([t.toNat, t.toNat + 1], fun th => bits th a, true)
  | .mxZero t _ => some ([t.toNat], fun _ => 0, true)
  | _ => none
/-- A command of the train that has been accepted and whose batch is not complete names the tile as a destination, or, where `any`, as its
A operand (R309). -/
def tileNamed (s : State) (t tile : Nat) (any : Bool) : Prop :=
  ∃ m ∈ (s.core (s.coreOf t)).mxq, m.accepted = true ∧ m.train = (s.thread t).train ∧
    (tile ∈ mxDest m.pb ∨ (any = true ∧ fld m.pb 7 6 = 2 ∧ fld m.pb 23 20 = tile))
/-- An `mx.op` of the train is issued and neither accepted nor failed (R309). -/
def opAwaited (s : State) (t : Nat) : Prop := ∃ m ∈ (s.core (s.coreOf t)).mxq, m.train = (s.thread t).train ∧ m.accepted = false
/-- A tile instruction may act (R297, R298, R309, R310). -/
structure TileReady (s : State) (t : Nat) (tiles : List Nat) (x : Nat) (writes : Bool) : Prop where
  role : roleFits s t 2
  named : ∀ k ∈ tiles, k < (s.trainOf t).acc
  known : ¬opAwaited s t
  idle : ∀ k ∈ tiles, ¬tileNamed s t k writes
  index : x < 4096
/-- The words of a core's tiles, by physical tile, row and column. -/
def accWord (s : State) (c tile r j : Nat) : Word := mapGetD (s.core c).acc (tile * 4096 + r * 64 + j) 0
/-- Tiles are the only thing of cores that has changed, and only the words of one core for which `p` holds; the rest of the state is as it
was but for threads. -/
def TilesOnly (s s' : State) (c : Nat) (p : Nat → Nat → Nat → Prop) : Prop :=
  s' = { s with threads := s'.threads, cores := s'.cores, bundle := [] } ∧ (∀ k, s'.core k = { s.core k with acc := (s'.core k).acc }) ∧
    (∀ k tile r j, k ≠ c → accWord s' k tile r j = accWord s k tile r j) ∧
    ∀ tile r j, r < 64 → j < 64 → ¬p tile r j → accWord s' c tile r j = accWord s c tile r j

/-! Helpers (R321 to R332). -/

/-- The code of a recruitment of n iterations: the first condition of Table 13-1 that holds. -/
def recruitCode (s : State) (t : Nat) (n : Int) : Nat :=
  if (s.thread t).helper.isSome then 2
  else if (match s.launch? (s.launchOf t) with
    | some l => l.header.getLsbD 1
    | none => false) then 5
  else if (s.core (s.coreOf t)).preempt.isSome then 3
  else if n = 0 then 4
  else if 8 ≤ banksHeld s (s.coreOf t) (s.trainOf t).quarter then 1
  else if 256 ≤ windowsHeld s (s.coreOf t) (s.trainOf t).quarter then 6
  else 0
/-- The home lanes on which a helper of the thread may stand (R322). -/
def helperLanes (s : State) (t : Nat) : List Nat := eligibleLanes s (s.launchOf t) (s.coreOf t) (s.trainOf t).quarter
/-- The number of helpers granted: the least of the request up to 64, the chunks, the eligible lanes and the free windows (R322). -/
def recruitCount (s : State) (t : Nat) (r n chunk : Nat) : Nat :=
  min (min (min r 64) ((n + chunk - 1) / chunk))
    (min (helperLanes s t).length (256 - windowsHeld s (s.coreOf t) (s.trainOf t).quarter))
/-- What a claim takes from a dispenser, and the dispenser's next and return list afterwards (R325). -/
def claimOf (th : Thread) : Nat × Nat × Word × List (Word × Word) :=
  match th.returns with
  | x :: r => (x.1.toNat, x.2.toNat, th.next, r)
  | [] =>
    if th.armed = true ∧ th.next.toNat < th.endIter.toNat then
      let hi := min (th.next.toNat + th.chunk) th.endIter.toNat
      (th.next.toNat, hi, BitVec.ofNat 32 hi, [])
    else (0xFFFFFFFF, 0xFFFFFFFF, th.next, [])
/-- A claimed range on its way to a pair. -/
def rangeResult (d : BitVec 6) (lo hi : Nat) : Result :=
  { regs := [(d.toNat, BitVec.ofNat 32 lo), (d.toNat + 1, BitVec.ofNat 32 hi)], preds := [], flags := 0 }
/-- A forced release of a recruiter's helpers has begun (R328). -/
def releasedOf (s : State) (o : Nat) : Bool := ((s.thread o).bank.map (·.forced)).getD false
/-- The fold of the helpers' h registers in ascending index, from the destination's own value on (R327). -/
def foldWords (o : Nat) (b d : BitVec 6) (th : Thread) (k : Bank) : List (Nat × Word) × Word :=
  ([(d.toNat, reduceInt o (getG th d.toNat :: (List.range k.n).map fun i => mapGetD k.regs (16 * i + b.toNat) 0))], 0)
/-- The same in FP32. -/
def foldSingles (o : Nat) (b d : BitVec 6) (th : Thread) (k : Bank) : List (Nat × Word) × Word :=
  let r := ((List.range k.n).map fun i => (mapGetD k.regs (16 * i + b.toNat) 0).toNat).foldl (fun v y => fpNode fp32 o v (y, 0)) (bits th d, 0)
  ([(d.toNat, BitVec.ofNat 32 r.1)], r.2)
/-- The same in FP64. -/
def foldDoubles (o : Nat) (b d : BitVec 6) (th : Thread) (k : Bank) : List (Nat × Word) × Word :=
  let h := fun i => (mapGetD k.regs (16 * i + b.toNat) 0).toNat + (mapGetD k.regs (16 * i + b.toNat + 1) 0).toNat * 2 ^ 32
  let r := ((List.range k.n).map h).foldl (fun v y => fpNode fp64 o v (y, 0)) (bitsX th d, 0)
  ([(d.toNat, BitVec.ofNat 32 r.1), (d.toNat + 1, BitVec.ofNat 32 (r.1 / 2 ^ 32))], r.2)
/-- The forms of `rjoin`: what is folded where a bank is held, and whether the form is plain. -/
def joinOf : Instr → Option (Bool × (Thread → Bank → List (Nat × Word) × Word))
  | .rjoin _ => some (true, fun _ _ => ([], 0))
  | .rjoinAdd b d _ => some (false, foldWords 0 b d)
  | .rjoinMin b d _ => some (false, foldWords 1 b d)
  | .rjoinMax b d _ => some (false, foldWords 2 b d)
  | .rjoinMinu b d _ => some (false, foldWords 3 b d)
  | .rjoinMaxu b d _ => some (false, foldWords 4 b d)
  | .rjoinAnd b d _ => some (false, foldWords 5 b d)
  | .rjoinOr b d _ => some (false, foldWords 6 b d)
  | .rjoinXor b d _ => some (false, foldWords 7 b d)
  | .rjoinFaddF32 b d _ => some (false, foldSingles 0 b d)
  | .rjoinFminF32 b d _ => some (false, foldSingles 1 b d)
  | .rjoinFmaxF32 b d _ => some (false, foldSingles 2 b d)
  | .rjoinFaddF64 b d _ => some (false, foldDoubles 0 b d)
  | .rjoinFminF64 b d _ => some (false, foldDoubles 1 b d)
  | .rjoinFmaxF64 b d _ => some (false, foldDoubles 2 b d)
  | _ => none
/-- What `rjoin` sends: the fold, the helpers' flags with the fold's, and to q7 whether iterations are left (R327). -/
def joinResult (f : Thread → Bank → List (Nat × Word) × Word) (th : Thread) : Result :=
  let x := match th.bank with
    | some k => ((f th k).1, (f th k).2 ||| k.flags)
    | none => ([], 0)
  { regs := x.1, preds := [(7, decide (th.next.toNat < th.endIter.toNat) || !th.returns.isEmpty)], flags := x.2 }

/-! The Escapement, the Regulator, tasks and rings (R333 to R346, R353 to R366). -/

/-- The thread passes an implicit boundary at once: nothing is under way, older or to be published (R126, Table 4-5). -/
def boundaryFree (s : State) (t : Nat) : Prop := noBoundary (s.thread t) ∧ quiet s t ∧ nothingToPublish (s.thread t)
/-- The clocks alone, raised as steps 3 and 4 of R126 say: every core's logical time, every die's calibre clock and the device clock. -/
def ClocksAt (s s' : State) (t scope : Nat) : Prop :=
  let l := (s.core (s.coreOf t)).lt
  let cpc := (s.die (s.dieOf t)).cpc
  let top := max (max l (if 2 ≤ scope then cpc else 0)) (if 3 ≤ scope then s.dpc else 0)
  (∀ c, (s'.core c).lt = if c = s.coreOf t then top else (s.core c).lt) ∧
    (∀ d, (s'.die d).cpc = if d = s.dieOf t ∧ 2 ≤ scope then max cpc l else (s.die d).cpc) ∧
    s'.dpc = if 3 ≤ scope then max s.dpc l else s.dpc
/-- Whether a stream is allotted to the launch of a thread (ESCS of the launch block, bits 232 to 239). -/
def streamAllotted (s : State) (t n : Nat) : Prop := ∃ l, s.launch? (s.launchOf t) = some l ∧ l.header.getLsbD (232 + n) = true
/-- A stream of a die as it stands. -/
def streamOf (s : State) (d n : Nat) : Stream := mapGetD (s.die d).streams n {}
/-- An operation without an address: its KIND, its data. -/
def unitAccess (kind : Nat) (addr : Thread → Nat) (data : Thread → List Byte) : MemAccess := ⟨0, 0, addr, kind, data, []⟩
/-- The stream marks: the stream that they name. -/
def markOf : Instr → Option Nat
  | .escOpen d _ => some d.toNat
  | .escEnd d _ => some d.toNat
  | _ => none
/-- A push that takes the batcher trap whatever its stream: a count that is not 1 to 4, or a body register with bits above 23 (R335). -/
def pushWrong (th : Thread) (b : BitVec 6) (k : Nat) : Prop := k = 0 ∨ 4 < k ∨ ∃ j < k, 2 ^ 24 ≤ (getG th (b.toNat + j)).toNat
/-- The constraints that a stream holds in any of its four sets (R334). -/
def heldBy (x : Stream) : List Constraint := x.wait ++ x.openBatch ++ x.closed.flatten ++ x.released
/-- Room for one constraint and k bodies, reservations counted (R333, R335). -/
def roomFor (x : Stream) (k : Nat) : Prop :=
  (heldBy x).length + x.reserved + 1 ≤ 1024 ∧ ((heldBy x).map fun c => c.bodies.length).sum + x.reservedBodies + k ≤ 4096
/-- A pair on its way, as two words. -/
def twoWords (d : BitVec 6) (lo hi : Word) : Result := { regs := [(d.toNat, lo), (d.toNat + 1, hi)], preds := [], flags := 0 }
/-- What a retirement leaves of a stream: the constraint gone, the next closed batch released where that was the last of its batch, and the
stream Drained, with nobody parked at it, where it had ended and holds nothing (R334, R338, Table 13-4). -/
def retired (x : Stream) (slot : Nat) : Stream :=
  let r := x.released.filter fun c => c.slot ≠ slot
  let y := if r = [] then { x with released := x.closed.headD [], closed := x.closed.tail } else { x with released := r }
  let z := if x.st = .ended ∧ heldBy y = [] then { y with st := .drained } else y
  if z.st = .drained then { z with parked := [] } else z

/-- The device that a selector names: bit 31 says whether its field applies (R341). -/
def pushDevice (w : Nat) : Nat := if w / 2 ^ 31 % 2 = 1 then w / 2 ^ 16 % 512 else Config.deviceId
/-- The failure of a push's selector or token (R341). -/
def pushFields (w : Nat) (th : Thread) (b : BitVec 6) : Prop :=
  w / 2 ^ 12 % 16 = 0 ∧ w / 2 ^ 25 % 64 = 0 ∧ (getG th (b.toNat + 2)).toNat < 8 ∧ (getG th (b.toNat + 5)).toNat < 2 ^ 16 ∧
    (getG th (b.toNat + 7)).toNat < 2 ^ 16 ∧ (getG th (b.toNat + 6)).toNat % 8 = 0
/-- A thread's task was made by a firing: the queue, the fired-list index and whether it has been taken. -/
def firingOf (s : State) (t : Nat) : Option (Nat × Nat × Bool) :=
  match (s.trainOf t).task with
  | some k => k.fired.map fun f => (f.1, f.2, k.taken)
  | none => none
/-- The entries of a batch that an `xq.take` which waits has written (R48). -/
def entriesWritten (s : State) (t : Nat) : Nat :=
  match (s.trainOf t).task with
  | some k => if (s.thread t).stage = 1 then k.wrote else 0
  | none => 0
/-- A ring of the gang of a thread that runs no task: the key within its launch. -/
def ringKey (s : State) (t r : Nat) : Nat := (s.trainOf t).gang * 4 + r
/-- The thread's gang has a ring. -/
def RingIs (s : State) (t r : Nat) (l : Launch) (x : Ring) : Prop :=
  s.launch? (s.launchOf t) = some l ∧ (s.trainOf t).task = none ∧ mapGet? l.rings (ringKey s t r) = some x
/-- A send or an end is out of protocol: the train has ended, or is not among the producers and every place is taken (R362). -/
def outOfProtocol (x : Ring) (tr : Nat) : Prop := tr ∈ x.ended ∨ (tr ∉ x.producers ∧ x.nprod ≤ x.producers.length)
/-- A ring instruction out of protocol (R362): one on a ring that the thread's gang does not have, or a send or an end that the ring takes no
more. -/
def ringWrong (i : Instr) (s : State) (t r : Nat) : Prop :=
  let none' := ¬∃ l x, RingIs s t r l x
  ((∃ (d : BitVec 6) (sm : BitVec 1), r = d.toNat ∧ ((∃ a, i = .rgSend a d sm) ∨ i = .rgEos d sm)) ∧
    (none' ∨ ∃ l x, RingIs s t r l x ∧ outOfProtocol x (s.thread t).train)) ∨
  ((∃ (a d : BitVec 6) (sm : BitVec 1), i = .rgRecv a d sm ∧ r = a.toNat) ∧ none')
/-- The ring with a train among its producers. -/
def producing (x : Ring) (tr : Nat) : Ring := if tr ∈ x.producers then x else { x with producers := x.producers ++ [tr] }
/-- One ring has changed, and nothing else of launches. -/
def RingChanged (s s' : State) (t r : Nat) (l : Launch) (x' : Ring) : Prop :=
  ∀ k, s'.launch? k = if k = s.launchOf t then some { l with rings := mapSet l.rings (ringKey s t r) x' } else s.launch? k

/-! System instructions and control registers (R249, R368, R371 to R374). -/

/-- What `srd` sends for each selector (Tables 6-1 and 7-12). -/
def selected (s : State) (th : Thread) (d : BitVec 6) (n : Nat) : Option (List (Nat × Word)) :=
  match n with
  | 0 => some (word d th.lane)
  | 1 => some (word d th.tidx)
  | 2 => some (word d (s.train th.train).number.toNat)
  | 3 => some (word d (s.train th.train).core)
  | 4 => some (word d ((s.train th.train).core / 24 : Nat))
  | 5 => some (word d Config.deviceId)
  | 6 => some (word d th.hz.toNat)
  | 7 => some (word d th.seq.toNat)
  | 8 => some (pair d s.clk)
  | _ => none
/-- A control register of a thread (Table 15-2); TVEC and TAREA of a helper are its recruiter's. -/
def controlReg (s : State) (t n : Nat) : Option Nat :=
  let th := s.thread t
  let r := match th.helper with
    | some (o, _) => s.thread o
    | none => th
  match n with
  | 0 => some th.fstat.toNat
  | 2 => some (r.tvec.toNat % 2 ^ 32)
  | 3 => some (r.tvec.toNat / 2 ^ 32)
  | 4 => some (r.tarea.toNat % 2 ^ 32)
  | 5 => some (r.tarea.toNat / 2 ^ 32)
  | 6 => some th.tpend.toNat
  | 7 => some ((if th.hm then 1 else 0) + (if th.recHeld then 2 else 0))
  | 8 => some th.wdog.toNat
  | _ => none
/-- A thread with a control register given a value: reserved bits stay zero, the other half of an address stays, and
the flags that the hardware ORs into FSTAT in the same clock stay set (R217, Table 15-2). -/
def withControl (th : Thread) (n v : Nat) : Option Thread :=
  match n with
  | 0 => some { th with fstat := BitVec.ofNat 32 (v % 2 ^ 6) ||| th.flagsNow }
  | 2 => some { th with tvec := BitVec.ofNat 48 (th.tvec.toNat / 2 ^ 32 * 2 ^ 32 + v / 2 * 2) }
  | 3 => some { th with tvec := BitVec.ofNat 48 (v % 2 ^ 16 * 2 ^ 32 + th.tvec.toNat % 2 ^ 32) }
  | 4 => some { th with tarea := BitVec.ofNat 48 (th.tarea.toNat / 2 ^ 32 * 2 ^ 32 + v / 64 * 64) }
  | 5 => some { th with tarea := BitVec.ofNat 48 (v % 2 ^ 16 * 2 ^ 32 + th.tarea.toNat % 2 ^ 32) }
  | 8 => some { th with wdog := BitVec.ofNat 32 v }
  | _ => none
/-- The control-register writes: the register, and its new value from its old one and Reg[gB] (R374). -/
def controlWrite : Instr → Option (BitVec 6 × BitVec 6 × (Nat → Nat → Nat))
  | .csrw b a _ => some (a, b, fun _ v => v)
  | .csrs b a _ => some (a, b, fun x v => x ||| v)
  | .csrc b a _ => some (a, b, fun x v => x - (x &&& v))
  | _ => none
/-- A cause is the lowest that a thread holds in TPEND. -/
def lowestHeld (th : Thread) (c : Nat) : Prop := c < 21 ∧ th.tpend.getLsbD c = true ∧ ∀ b < c, th.tpend.getLsbD b = false

/-! Steps without an encoding: threads (R172, R182, R279, R307, R330, R369, R375). -/

/-- One thread has taken a trap request and waits for its delivery; other threads may have left a gathered group with it. -/
def RaisedAt (s s' : State) (t cause : Nat) : Prop :=
  let th := s.thread t
  s'.thread t = { th with trap := some { cause := cause, pc := th.pc, rpc := th.pc, faddr := 0 }, park := .none, bnd := none, stage := 0 } ∧
    OthersKept s s' t ∧ SameBytes s s'
/-- A result has been written: its registers, predicates and flags, and nothing else but that it is no longer on its way. -/
structure Arrived (th th' : Thread) (r : Result) (left : List Result) : Prop where
  reg : ∀ k, getG th' k = mapGetD r.regs k (getG th k)
  pred : ∀ q < 8, getQ th' q = (decide (q = 0) || mapGetD r.preds q (getQ th q))
  rest : th' = { th with results := left, g := th'.g, q := th'.q, fstat := th.fstat ||| r.flags, flagsNow := th.flagsNow ||| r.flags }
/-- A result stands between others, behind `k` of its own sort. -/
def standsAt (th : Thread) (k : Nat) (before : List Result) (r : Result) (after : List Result) : Prop :=
  th.results = before ++ r :: after ∧ (before.filter fun x => x.load = r.load).length = k ∧
    (r.regs.map (·.1)).Nodup ∧ (r.preds.map (·.1)).Nodup
/-- Only one core has changed, as given. -/
def OneCore (s s' : State) (c : Nat) (k : Core) : Prop :=
  s' = { s with cores := s'.cores } ∧ ∀ x, s'.core x = if x = c then k else s.core x
/-- A page of a cached translation meets a range of virtual addresses of a context. -/
def pageMeets (e : TlbEntry) (ctx lo len : Nat) : Bool :=
  let sz : Nat := if e.big then 2 ^ 21 else 2 ^ 16
  decide (e.ctx = ctx ∧ e.page * sz < lo + len ∧ lo < (e.page + 1) * sz)
/-- One of the pages that a line was reached through meets a range of virtual addresses of a context. -/
def reachedIn (tags : List (Nat × Nat)) (ctx lo len : Nat) : Prop :=
  ∃ x ∈ tags, x.1 = ctx ∧ x.2 * 2 ^ 16 < lo + len ∧ lo < (x.2 + 1) * 2 ^ 16
/-- An entry of a die's walk cache stands for a page, or a table of pages, that meets a range. -/
def walkMeets (w : WalkEntry) (ctx lo len : Nat) : Prop :=
  let sz : Nat := if w.level = 3 then 2 ^ 21 else 2 ^ 16
  w.ctx = ctx ∧ w.page * sz < lo + len ∧ lo < (w.page + 1) * sz
/-- A thread's first scratch-load result of a bundle stands between others. -/
def firstOf (g : Nat) (th : Thread) (before : List Result) (r : Result) (after : List Result) : Prop :=
  th.results = before ++ r :: after ∧ r.load = true ∧ r.group = g ∧ ∀ x ∈ before, ¬(x.load = true ∧ x.group = g)
/-- The operation that a number of a thread's window names is delivered the bytes of its access: its registers hold them as Table 11-4
and Table 11-7 say, it is resolved and performed, and nothing else of the device has changed. -/
def OpDelivered (q p : State) (t seq : Nat) (o : Op) (m : MemAccess) (b : List Byte) : Prop :=
  p = { q with threads := p.threads } ∧ (∀ v, v ≠ t → p.thread v = q.thread v) ∧
    (∀ k, getG (p.thread t) k = mapGetD (filled o.insn m b) k (getG (q.thread t) k)) ∧
    ∀ x, opOf? (p.thread t) seq = some x → x.phase = .resolved ∧ x.performed = true

/-! Messages between dies (Tables 3-4 and 3-5, R86 to R101). -/

/-- A message is the oldest of a link that carries traffic, and the state without it is given. -/
structure Oldest (s p : State) (src dst : Nat) (k : MsgKind) (m : Msg) : Prop where
  kind : m.kind = k
  head : ∃ r, (dieLink s src dst).fifo = m :: r ∧ p = dieLinkPut s src dst { dieLink s src dst with fifo := r }
  steady : linkHeld (dieLink s src dst) = false
  first : m.again = false
/-- A message has joined the end of a link. -/
def Sends (p s' : State) (src dst : Nat) (m : Msg) : Prop :=
  (dieLink s' src dst).fifo = (dieLink p src dst).fifo ++ [m]
/-- No message has been sent or taken. -/
def NoneSent (p s' : State) : Prop := ∀ a b, (dieLink s' a b).fifo = (dieLink p a b).fifo
/-- Something waits at a line that only a core can do: a message behind it stays where it is (R86). -/
def coreFirst (s : State) (line : Nat) : Prop :=
  ∃ w r, (dirGet s line).waiting = w :: r ∧ waiterLive s line w = true ∧ ∀ x, w ≠ .msg x
/-- The messages that are requests, in a die's directory: what arrives waits where the line's entry is busy or others wait (R86). -/
def requestOf : Instr → Option (MsgKind × Nat × Nat)
  | .gets a b => some (.getS, a, b)
  | .getx a b => some (.getX, a, b)
  | .upg a b => some (.upg, a, b)
  | .claim a b => some (.claim, a, b)
  | _ => none
/-- The kind of message that each step handles, with the two ends of the link. -/
def messageOf : Instr → Option (MsgKind × Nat × Nat)
  | .gets a b => some (.getS, a, b)
  | .getx a b => some (.getX, a, b)
  | .upg a b => some (.upg, a, b)
  | .data a b => some (.data, a, b)
  | .fwds a b => some (.fwdS, a, b)
  | .fwdx a b => some (.fwdX, a, b)
  | .fdata a b => some (.fData, a, b)
  | .fack a b => some (.fAck, a, b)
  | .inv a b => some (.inv, a, b)
  | .iack a b => some (.iAck, a, b)
  | .recalls a b => some (.recallS, a, b)
  | .recalli a b => some (.recallI, a, b)
  | .rdata a b => some (.rData, a, b)
  | .wb a b => some (.wb, a, b)
  | .evict a b => some (.evict, a, b)
  | .wback a b => some (.wbAck, a, b)
  | .claim a b => some (.claim, a, b)
  | .claimok a b => some (.claimOK, a, b)
  | .merge a b => some (.merge, a, b)
  | .mdata a b => some (.mData, a, b)
  | _ => none
/-- A line stands at its home alone: its directory entry is free, with nothing waiting there (R85, R86), no message about it is under way, no
die has a copy of it and no L1 an unleased one (R76), and its L2 holds its 128 bytes or has a way for them. -/
structure AtHome (s : State) (line : Nat) : Prop where
  free : dirGet s line = {}
  quiet : ∀ l ∈ s.links, ∀ m ∈ l.2.fifo, m.line ≠ line
  noRdc : ∀ p ∈ s.dies, rdcGet? s p.1 line = none
  noPlain : ∀ p ∈ s.cores, ∀ x, mapGet? p.2.l1 line = some x → x.leased = true
  stands : match mapGet? (s.die (homeDie line)).l2 line with
    | some x => x.data.length = 128
    | none => ((s.die (homeDie line)).l2.filter fun p => p.1 % 16384 = line % 16384).length < 24
/-- A byte of memory as it stands at its home: in the L2 where that holds its line, and else in DRAM. -/
def homeByte (s : State) (a : Nat) : Byte := (l2Get s (a / 128)).data.getD (a % 128) 0
/-- The rts that a line has at its home, or has once it is there: one that comes from DRAM takes the die's MT (R72). -/
def homeRts (s : State) (line : Nat) : Nat := match mapGet? (s.die (homeDie line)).l2 line with
  | some x => x.rts
  | none => (s.die (homeDie line)).mt
/-- Memory with the contribution of one lane of an atomic made: its word, or pair of words, holds the new value (R285, R286). -/
def laneMade (m : Nat → Byte) (r : AtomReq) : Nat → Byte := fun a =>
  let n := if r.w64 then 8 else 4
  if r.pa ≤ a ∧ a < r.pa + n
  then (bytesOfDWord (atomNew r.op r.w64 (dwordOfBytes ((upTo n).map fun i => m (r.pa + i))) r.b r.cmp)).getD (a - r.pa) 0 else m a
/-- A set of dies with one added. -/
def withDie (h : BitVec 4) (d : Nat) : BitVec 4 := h ||| (1 <<< d)
/-- The answers to a directory: the message kind, its step and whether the answer may bring data. -/
def answerOf : Instr → Option (MsgKind × Nat × Nat)
  | .iack a b => some (.iAck, a, b)
  | .rdata a b => some (.rData, a, b)
  | .mdata a b => some (.mData, a, b)
  | _ => none

/-! The fabric and the host link (R33, R103 to R107, R141 to R147, R412 to R419). -/

/-- What the outside is shown, and nothing else. -/
def Shows (s s' : State) (o : Out) : Prop := s' = { s with outs := s.outs ++ [o] }
/-- An answer to a request of another device is shown, and its flits leave on the lane of the request, by the port by which it came, and stay
in the replay buffer of that link (R412, R413, R416). -/
structure Answers (p s' : State) (r : FabReq) (type : FlitType) (bytes : List Byte) (o : Out) : Prop where
  rest : s' = { p with outs := s'.outs, fabLinks := s'.fabLinks }
  outs : s'.outs = p.outs ++ o :: (match inPort p r.src (laneOf r.va) with
    | some n => [.flits n (flitsOf (fabLink p n) type r.src (laneOf r.va) bytes)]
    | none => [])
  kept : ∀ n, inPort p r.src (laneOf r.va) = some n →
    (fabLink s' n).buffer = (fabLink p n).buffer ++ flitsOf (fabLink p n) type r.src (laneOf r.va) bytes
  others : ∀ n, inPort p r.src (laneOf r.va) ≠ some n → fabLink s' n = fabLink p n
/-- A message has left over a link, or over none where there is no way: nothing but the links and what the outside is shown has changed, and
that by flits alone. -/
def OnlyFlits (l l' : List Out) : Prop := ∃ m, l' = l ++ m ∧ ∀ o ∈ m, ∃ p f, o = .flits p f
/-- No request of this device waits at the port. -/
def NoneAtPort (s : State) : Prop := ∀ p ∈ s.out, p.2.host = false → 0 < p.2.copies ∧ p.2.again = false
/-- A request of this device is outstanding for an operation of a thread, one that is no aperture access. -/
structure Outstanding (s : State) (rid : Nat) (r : OutReq) (t : Nat) (seq : BitVec 16) (o : Op) : Prop where
  listed : mapGet? s.out rid = some r
  owner : r.who = [(t, seq)]
  alone : r.more = []
  op : opOf? (s.thread t) seq.toNat = some o
  plain : memSpace o.insn ≠ 3
  kind : ∀ m, r.kind ≠ .masked m
/-- An operation of a thread has come to a phase, and nothing else of the device has changed. -/
def OpEnds (q p : State) (t seq : Nat) (ph : OpPhase) : Prop :=
  p = { q with threads := p.threads } ∧ (∀ v, v ≠ t → p.thread v = q.thread v) ∧
    ∀ x, opOf? (p.thread t) seq = some x → x.phase = ph
/-- The state without a request, whose lane may return to its path (R415). -/
def Finished (s q : State) (rid : Nat) : Prop :=
  q = { s with out := q.out, rebound := q.rebound } ∧ mapGet? q.out rid = none ∧ ∀ k, k ≠ rid → mapGet? q.out k = mapGet? s.out k
/-- The request that stands first of those that wait here on the lane of one, if any (R141). -/
def firstOfLane (s : State) (r : FabReq) : Option FabReq :=
  (s.arrivals.filter fun x => x.src * 8 + laneOf x.va = r.src * 8 + laneOf r.va).head?
/-- A snoop of a host line: its line, and whether it takes the line away. -/
def snoopOf : Instr → Option (Nat × Bool)
  | .snpdata l => some (l, false)
  | .snpinv l => some (l, true)
  | .snpcur l => some (l, false)
  | _ => none

/-! The steps of the engines, the Escapement and the Regulator (R46, R50, R91, R303 to R320, R334 to R346). -/

/-- A command of an engine has failed: it is gone from its queue, and its operation holds the cause. -/
def CommandFailed (s' : State) (gone : Prop) (t seq cause : Nat) : Prop :=
  gone ∧ ∀ x, opOf? (s'.thread t) seq = some x → x.phase = .failed cause
/-- The bytes of 64 as an integer of 512 bits. -/
def blockOf (b : List Byte) : BitVec 512 := BitVec.ofNat 512 (littleEndian b)
/-- A byte of a row of bytes as a signed integer. -/
def int8At (rows : List (List Byte)) (i k : Nat) : Int := (((rows.getD i []).drop k).headD 0).toInt

/-! Launches, gangs, tasks and scheduling (R42, R166, R348 to R366, R377 to R379). -/

/-- Two trains of a core stand apart: in different quarters, or with no register row or no lane in common (R166), and with no tile in
common (R298). -/
def Apart (x y : Train) : Prop :=
  (x.quarter = y.quarter → ¬(x.row < y.row + y.regs ∧ y.row < x.row + x.regs) ∨ ¬(x.lane < y.lane + y.width ∧ y.lane < x.lane + x.width)) ∧
    (x.acc = 0 ∨ y.acc = 0 ∨ ¬(x.tile < y.tile + y.acc ∧ y.tile < x.tile + x.acc))
/-- A thread of a train at its start: at the entry, with index, lane and train, registers as the rows of the bank give them, and all else
as at reset. -/
def Started (s' : State) (key n i pc : Nat) (y : Train) : Prop :=
  ∃ th, mapGet? s'.threads (n + i) = some th ∧
    th = { train := key, tidx := i, lane := y.lane + i, pc := BitVec.ofNat 48 (pc / 2 * 2), slot := y.slot, g := th.g }
/-- The table of task types that a launch names, as far as a gang needs it: the scratch of type 0 in KiB. -/
def gangTable (s : State) (l : Launch) : State × Except TrRes (List Byte) :=
  if l.ttab = 0 then (s, .ok []) else virtRead s none l.ctx l.ttab 2
/-- What stands of a train when it may retire (R49, R314, R359): it is listed and not evicted, its threads have all exited, its engines
are idle and its scratch range is quiet. -/
structure MayRetire (s : State) (k : Nat) : Prop where
  listed : (mapGet? s.trains k).isSome = true
  here : (s.train k).evicted = none
  ended : ∀ p ∈ s.threads, p.2.train = k → p.2.exited = true
  idle : enginesIdle s k = true
  quiet : rangeQuiet (s.core (s.train k).core) (s.train k).sbase (s.train k).slen = true

/-! Debug, trace and replay (R399 to R410). -/

/-- A partition owns a die, and a context. -/
def Owns (s : State) (part d : Nat) : Prop := d < 4 ∧ (mapGetD s.parts part 0).getLsbD d = true
/-- A context belongs to a partition. -/
def OwnsCtx (s : State) (part ctx : Nat) : Prop := (s.ctx ctx).part = part
/-- A request that names what another partition owns: it is answered with status 1, and nothing else changes (R420). -/
def Refused (i : Instr) (s : State) : Prop := ∃ s', exec i s = .next s' ∧ Shows s s' (.refusedRequest 1)
/-- Only one die has changed, as given. -/
def OneDie (s s' : State) (d : Nat) (k : Die) : Prop :=
  s' = { s with dies := s'.dies } ∧ ∀ x, s'.die x = if x = d then k else s.die x
/-- A thread's mates at a halt of its train: the threads of the train, helpers apart, and itself. -/
def haltedAll (s : State) (t : Nat) (u : Nat) : Prop := u = t ∨ u ∈ s.membersOf (s.thread t).train

/-! Where the steps without an encoding complete: the conditions on the state and the operands alone. -/

/-- The oldest message of a link that does not retrain is of a kind (R88, R99). -/
def atHead (s : State) (src dst : Nat) (k : MsgKind) : Prop :=
  linkHeld (dieLink s src dst) = false ∧ ∃ m r, (dieLink s src dst).fifo = m :: r ∧ m.kind = k
/-- A request of this device stands in the fabric and an answer is one that it can have (R147). -/
def awaits (s : State) (rid : Nat) (a : FabAns) (bytes : Bool) : Prop :=
  ∃ r, mapGet? s.out rid = some r ∧ r.host = false ∧ r.dst ≠ Config.deviceId ∧ 0 < r.copies ∧ portHeld s (outPort s r.dst r.lane) = false ∧
    wantsReply r.kind = bytes ∧ ansFits r a = true
/-- A live thread may be named by a debug request of its context's partition (R404, R420). -/
def debugOf (s : State) (part t : Nat) (halted : Bool) : Prop :=
  liveThread s t = true ∧ (s.thread t).halted = halted ∧ OwnsCtx s part (s.ctxOf t)
/-- A steady walk of a page whose leaf is not frozen. -/
def leafAt (s : State) (ctx page : Nat) (e : DWord) (big : Bool) : Prop :=
  ∃ entry, (walk s ctx (page * 2 ^ 16) .read).2 = .leaf e entry big ∧ e.getLsbD 11 = false

/-- Where a step of threads, translation, clocks, boundaries or atomics completes. -/
def threadHappens (i : Instr) (s : State) : Prop :=
  match i with
  | .starvedListJoin t => liveThread s t = true ∧ starves s t = true ∧ ∀ p ∈ s.threads, p.1 ≠ t → starves s p.1 = false
  | .loadResultArrival t seq => liveThread s t = true ∧ seq < 2 ^ 16 ∧ ∃ o, opOf? (s.thread t) seq = some o ∧ loadReady o = true ∧
      mayPerform (s.thread t) o = true ∧ o.group = 0 ∧ (performLoad s t o (.op t o.seq.toNat)).2.isSome = true
  | .variableLatencyResultArrival t k => liveThread s t = true ∧ ∃ r a b, standsAt (s.thread t) k a r b ∧ r.load = false ∧ r.after = []
  | .translationWalkComplete ctx c page => ∃ m ∈ (s.core c).misses, m.ctx = ctx ∧ m.page = page ∧ m.faulted = false
  | .serviceableFaultServiced c _ => c < 96 ∧ ∃ m ∈ (s.core c).misses, m.faulted = true
  | .translationShootdown ctx lo len cs => shootAcks s ctx lo len cs = true
  | .classifierRun ctx page => ∃ e big, leafAt s ctx page e big ∧ e.extractLsb' 62 2 ≠ 2 ∧ conflictWaits s ctx page e big = true
  | .rebase => 2 ^ 62 ≤ s.dpc ∨ ∃ p ∈ s.cores, 2 ^ 62 ≤ p.2.lt
  | .ltTick c => c < 96 ∧ (s.core c).ticks < s.clk / 1024
  | .overflowAreaServiced c _ => (s.core c).overflowFull = true
  | .rangeWalkStart t seq => ∃ o m, opOf? (s.thread t) seq = some o ∧ rangeOf o.insn = some m ∧ m.kind = o.kind ∧ o.phase = .ready ∧
      (∀ x ∈ olderOps seq (s.thread t).ops, x.phase = .resolved) ∧ m.space ≠ 1
  | .serviceTrainAtomic k => ∃ g, (atomGroups s.atoms)[k]? = some g ∧ servedLanes s g ≠ [] ∧ atomsMay s (servedLanes s g) = true
  | .atomicReplyArrival t seq => ∃ o, opOf? (s.thread t) seq = some o ∧ o.kind = 0x30 ∧ o.phase = .sent ∧ o.value ≠ []
  | .performedAcknowledgement t k => (∃ seq o, (strongStores (s.thread t))[k]? = some seq ∧ opOf? (s.thread t) seq = some o ∧
        ∀ x ∈ storeLanes s t o, mayPerform (s.thread x.1) x.2 = true) ∨
      (strongStores (s.thread t) = [] ∧ boundaryEntries (s.thread t) = [] ∧ ∃ b, (s.thread t).bnd = some b ∧ b.done = false)
  | .trapDelivery t => liveThread s t = true ∧ (s.thread t).helper = none ∧ (s.thread t).halted = false ∧ (s.thread t).hm = false ∧
      (s.thread t).results = [] ∧ (s.thread t).trap.isSome = true ∧ window (s.thread t).ops = [] ∧ (checkArea s t).2 = .ok
  | .helperFailure t => (s.thread t).helper.isSome = true ∧ (s.thread t).halted = false ∧ (s.thread t).trap.isSome = true ∧
      window (s.thread t).ops = [] ∧ ∀ x ∈ (s.thread t).ops, x.phase = .resolved → x.performed = true
  | .watchdogExpiry t => liveThread s t = true ∧ (s.trainOf t).evicted = none ∧ watchCounts (s.thread t).park = true ∧ waitDone s t = false ∧ (s.thread t).wdog ≠ 0 ∧
      (s.thread t).since + (s.thread t).wdog.toNat * 1024 ≤ s.clk ∧ (s.thread t).trap = none
  | .illegalInstruction => s.bundle ≠ []
  | _ => False

/-- Where a step of coherence or of the links between the dies completes. -/
def coherenceHappens (i : Instr) (s : State) : Prop :=
  match i with
  | .gets a b => atHead s a b .getS
  | .getx a b => atHead s a b .getX
  | .upg a b => atHead s a b .upg
  | .data a b => atHead s a b .data
  | .fwds a b => atHead s a b .fwdS
  | .fwdx a b => atHead s a b .fwdX
  | .fdata a b => atHead s a b .fData
  | .fack a b => atHead s a b .fAck
  | .inv a b => atHead s a b .inv
  | .iack a b => atHead s a b .iAck
  | .recalls a b => atHead s a b .recallS
  | .recalli a b => atHead s a b .recallI
  | .rdata a b => atHead s a b .rData
  | .wb a b => atHead s a b .wb
  | .evict a b => atHead s a b .evict
  | .wback a b => atHead s a b .wbAck
  | .claim a b => atHead s a b .claim
  | .claimok a b => atHead s a b .claimOK
  | .merge a b => atHead s a b .merge
  | .mdata a b => atHead s a b .mData
  | .edone c line => ∃ m v, cpHead? (s.core c) = some m ∧ m.stop = none ∧ (line, v) ∈ m.owned ∧
      readsLeft m ((m.owned.filter fun l => l.1 = line).map (·.2)) = false ∧
      ∃ b, (cpBytes s c m ((m.owned.filter fun l => l.1 = line).map (·.2))).2 = .ok b
  | .dieLinkCrcFailure a b => a < 4 ∧ b.far < 4 ∧ a ≠ b.far ∧ b.lane < 32 ∧ linkHeld (dieLink s a b.far) = false ∧ (dieLink s a b.far).fifo ≠ []
  | .dieLinkLaneFailure a b => a < 4 ∧ b.far < 4 ∧ a ≠ b.far ∧ b.lane < 32 ∧ 8 ≤ mapGetD (dieLink s a b.far).replays b.lane 0
  | .dieLinkRetrainComplete a b => (dieLink s a b).retraining = true
  | .patrolScrub v => v.line < 96 * 2 ^ 25 ∧ v.err = none
  | _ => False

/-- Where a step of the fabric, of the host link or of domain time completes. -/
def fabricHappens (i : Instr) (s : State) : Prop :=
  match i with
  | .fabricRequest r => reqFits r.kind (reqAccs r) r.aux = true ∧ r.src < 384 ∧ r.src ≠ Config.deviceId ∧ tagged r.kind = false ∧
      portHeld s (inPort s r.src (laneOf r.va)) = false ∧ firstOfLane s r = none
  | .fabricReply rid a => awaits s rid a true
  | .fabricAcknowledgement rid a => awaits s rid a false
  | .noreply rid => ∃ r, mapGet? s.out rid = some r ∧ r.host = false ∧ r.dst ≠ Config.deviceId ∧ 0 < r.copies ∧ tagged r.kind = true ∧
      portHeld s (outPort s r.dst r.lane) = false
  | .remoteGiveUp rid => ∃ r, mapGet? s.out rid = some r ∧ r.host = false ∧ r.left + 125000 ≤ s.clk
  | .idleFlit p _ => p < 38 ∧ (fabLink s p).up = true ∧ (fabLink s p).held = false
  | .flitCrcFailure p => p.far < 38 ∧ p.lane < 4 ∧ (fabLink s p.far).up = true ∧ (fabLink s p.far).held = false ∧ p.lane ∉ (fabLink s p.far).retired ∧
      (fabLink s p.far).buffer ≠ []
  | .serialLaneRetirement p => p.far < 38 ∧ (fabLink s p.far).up = true ∧ 8 ≤ mapGetD (fabLink s p.far).replays p.lane 0
  | .linkRetrainComplete p => p < 38 ∧ (fabLink s p).retraining = true ∧ s.clk ≤ (fabLink s p).since + 25000
  | .linkDown a b => a < 384 ∧ b < 384 ∧ a ≠ b ∧ (a / 24 = b / 24 ∨ a % 24 = b % 24) ∧ linkKey a b ∉ s.down
  | .linkUp a b => linkKey a b ∈ s.down
  | .timeFlit _ _ => Config.deviceId ≠ 0
  | .timeBroadcast => Config.deviceId = 0 ∧ s.clk % 250000 = 0
  | .timeFlitTimeout => Config.deviceId ≠ 0 ∧ s.injectStopped = false ∧ s.lastTime + 25000000 ≤ s.clk
  | .replyCacheExpiry src tag => ∃ e ∈ s.replies, e.src = src ∧ e.tag = tag ∧ e.issue + 60000 ≤ s.dt
  | .migrationForwardEnd page => ∃ f ∈ s.forwards, f.page = page ∧ f.since + 25000 ≤ s.clk
  | .writebackFailure rid cause => (cause = 5 ∨ cause = 6) ∧ ∃ r m, mapGet? s.out rid = some r ∧ r.kind = .masked m ∧ r.who = [] ∧
      r.line.isSome = true ∧ (r.host = true ∨ 0 < r.copies)
  | .snpdata l => l < 2 ^ 45
  | .snpinv l => l < 2 ^ 45
  | .snpcur l => l < 2 ^ 45
  | .cxlResponse rid a => ∃ r, mapGet? s.out rid = some r ∧ r.host = true ∧ ansFits r a = true ∧ ∀ op w, r.kind ≠ .atomic op w
  | .hostInboundRead off n => ∃ pa, 0 < n ∧ off + n ≤ 2 ^ 38 ∧ off % 2 ^ 34 + n ≤ 2 ^ 34 ∧
      (mapGetD s.inbound (off / 2 ^ 34) 0).getLsbD 0 = true ∧ (mapGetD s.inbound (off / 2 ^ 34) 0).getLsbD 1 = true ∧
      (inboundPieces s (mapGetD s.inbound (off / 2 ^ 34) 0) .read off n).2 = .ok [(pa, n)] ∧
      piecesWait (inboundPieces s (mapGetD s.inbound (off / 2 ^ 34) 0) .read off n).1 [(pa, n)] false = false
  | .hostInboundWrite off b => ∃ pa, b ≠ [] ∧ off + b.length ≤ 2 ^ 38 ∧ off % 2 ^ 34 + b.length ≤ 2 ^ 34 ∧
      (mapGetD s.inbound (off / 2 ^ 34) 0).getLsbD 0 = true ∧ (mapGetD s.inbound (off / 2 ^ 34) 0).getLsbD 2 = true ∧
      (inboundPieces s (mapGetD s.inbound (off / 2 ^ 34) 0) .write off b.length).2 = .ok [(pa, b.length)] ∧
      piecesWait (inboundPieces s (mapGetD s.inbound (off / 2 ^ 34) 0) .write off b.length).1 [(pa, b.length)] true = false
  | _ => False

/-- Where a step of an engine, of the Escapement or of the Regulator completes. -/
def engineHappens (i : Instr) (s : State) : Prop :=
  match i with
  | .scratchFillArrival c line => ∃ m b, cpHead? (s.core c) = some m ∧ m.stop = none ∧ line ∈ m.fills ∧ (scrGet (s.core c) line).early = 0 ∧
      (cpBytes s c m [line]).2 = .ok b
  | .engineReadDone c line => ∃ m, mxHead? (s.core c) = some m ∧ m.lost = none ∧ 2 * line ∈ m.pins
  | .fillFailure c line x => ∃ m f, cpHead? (s.core c) = some m ∧ m.stop = none ∧ line ∈ m.fills ∧ (cpBytes s c m [line]).2 = .error (.fail x f)
  | .mxAccept c => ∃ m, ((s.core c).mxq.find? fun x => !x.accepted && !cmdCancelled s x) = some m ∧ m.sampled = true ∧
      clockIssued s c = true ∧ ((s.core c).mxq.filter fun x => x.accepted && !x.done).length < 32 ∧ commandMay (s.thread m.thread) m.seq.toNat = true ∧
      pinsFull (s.core c) (mxLines m.pb) = false
  | .mxCommandDone c => ∃ m x, mxHead? (s.core c) = some m ∧ m.lost = none ∧ m.pins = [] ∧ (mxOperands s c m).2 = .ok x
  | .mxOperandFault c => ∃ m ∈ (s.core c).mxq, m.accepted = true ∧ m.done = false ∧ m.lost.isSome = true
  | .cpAccept c n => ∃ m b, ((s.core c).cpq.filter fun x => !x.accepted)[n]? = some m ∧ clockIssued s c = true ∧
      ((s.core c).cpq.filter fun x => x.accepted).length < 32 ∧ commandMay (s.thread m.thread) m.seq.toNat = true ∧
      (let tr := s.train m.train
       let r := engRead s c tr.ctx tr.launch true (metCommand m.id) m.record.toNat 64
       let m' : CpCmd := { m with shape := blockOf b }
       let q := destTranslate r.1 c tr.ctx tr.launch m.record.toNat m.id (destLines m') []
       r.2 = .ok b ∧ b.length = 64 ∧ cpBad tr m' = false ∧ ∃ owned, q.2 = .ok owned ∧ boxBusy (q.1.core c) m' = false ∧
         (takeLines q.1 c (distinct (owned.map (·.1)))).isSome = true)
  | .cpCommandDone c => ∃ m, cpHead? (s.core c) = some m ∧ m.stop = none ∧ m.fills = [] ∧ m.owned = [] ∧ m.pins = [] ∧
      ((cpCounter s c m (· + 1)).2 = .ok [] ∨ m.counter = 0)
  | .cpFault c => ∃ m, cpHead? (s.core c) = some m ∧ m.stop.isSome = true ∧ m.counter = 0
  | .escapementArrival t seq => ∃ o n, opOf? (s.thread t) seq = some o ∧ escStream o.insn = some n ∧ liveThread s t = true ∧
      o.phase = .unitWait ∧ (∀ x ∈ olderOps seq (s.thread t).ops, x.kind ≠ 0x60) ∧ commandMay (s.thread t) seq = true ∧
      escFirst s t o = true ∧ s.replaying = false
  | .pushWatchdogExpiry t seq => ∃ o, opOf? (s.thread t) seq = some o ∧ o.phase = .roomWait ∧ (s.thread t).wdog ≠ 0 ∧
      o.since + (s.thread t).wdog.toNat * 1024 ≤ s.clk
  | .tokenAcceptance t seq => ∃ o b a sm, opOf? (s.thread t) seq = some o ∧ o.insn = .xqIn b a sm ∧ o.kind = 0x61 ∧ o.phase = .unitWait ∧
      liveThread s t = true ∧ commandMay (s.thread t) seq = true ∧ (s.die ((fld (queueGet s ((wordOfBytes o.data).toNat % 4096)).cfg 70 64) / 24)).pool < 65536 ∧
      ((queueGet s ((wordOfBytes o.data).toNat % 4096)).tokens.filter fun k => !k.spilled).length < 4096
  | .queueFiring d => ∃ q x l ent, (s.die d).firedAt ≠ s.clk + 1 ∧ fireQueue s d = some (q, x) ∧ s.launch? x.launch = some l ∧
      (∀ k ∈ x.tokens, k.spilled = false) ∧
      (let idx := ((List.range 8).find? fun i => (mapGet? x.fired i).isNone).getD 0
       let rc := fireRecord l x q idx (min x.tokens.length (x.cfg.extractLsb' 144 16).toNat)
       (typeEntry s x.launch (x.cfg.extractLsb' 64 7).toNat (recType rc)).2 = (.ok, ent) ∧ recordBad rc ent = false)
  | _ => False

/-- Where a step of launches, tasks, trains and time slices completes. -/
def launchHappens (i : Instr) (s : State) : Prop :=
  match i with
  | .gangPlacement lid => ∃ l tb c, s.launch? lid = some l ∧ launchLive l = true ∧ l.nextGang < l.ngang ∧ launchHeld s lid l = false ∧
      s.cutDue = none ∧ (gangTable s l).2 = .ok tb ∧
      ((launchCores l).find? fun c => (fitGang (gangTable s l).1 l lid c (littleEndian tb / 2 ^ 112)).isSome) = some c
  | .unitMigration k c q lane row => (mapGet? s.trains k).isSome = true ∧
      (let x := s.train k
       c / 24 = x.core / 24 ∧ c ≠ x.core ∧ q < 4 ∧ lane % x.width = 0 ∧ lane + x.width ≤ 64 ∧ row % 8 = 0 ∧ row + x.regs ≤ 2048 ∧
       rectFree (residents s c) q row x.regs lane x.width = true ∧ quarterTakes (residents s c) (someEvicted s c) q x.width x.ctx = true ∧
       unitOf s k = [k] ∧ unitMoves s [k] = true ∧ gangWaits s (c / 24) x.ctx = true ∧
       areaFits s c (s.membersOf k) = true ∧
       (fitTiles (residents s c) x.acc).isSome = true ∧ (fitScratch (scratchHeld s c) (x.slen / 1024)).isSome = true)
  | .taskDispatch c lid => ∃ l k rest t, s.launch? lid = some l ∧ s.cutDue = none ∧ mapGetD (s.core c).taskq lid [] = k :: rest ∧
      (let e := typeEntry s lid c (recType k.record)
       let f := fun (lo n : Nat) => (t.extractLsb' lo n).toNat
       let x : Shape := { width := f 104 8, regs := f 96 8, kregs := f 88 8, acc := f 80 8 }
       let draft : Train := { launch := lid, ctx := l.ctx, core := c, task := some k, number := BitVec.ofNat 32 (0x80000000 + k.number) }
       e.2 = (.ok, t) ∧ t.getLsbD 48 = true ∧ f 49 31 = 0 ∧ x.ok = true ∧ f 112 16 ≤ 3072 ∧ (fitTrain [] false x draft).isSome = true ∧
         (fitTrain (residents e.1 c) (someEvicted e.1 c) x draft).isSome = true ∧
         (k.range.isSome = true ∨ (fitScratch (scratchHeld e.1 c) (f 112 16)).isSome = true))
  | .trainRetire k => MayRetire s k ∧ (s.train k).task = none
  | .domainSweep others => others.length = (s.members.filter (· != Config.deviceId)).length
  | .timeSliceExpiry c ctx => (∃ t ∈ residents s c, t.ctx = ctx) ∧ (s.ctx ctx).slice ≤ mapGetD (s.core c).slices ctx 0 ∧
      (s.core c).preempt = none ∧ otherWaits s c ctx = true
  | .partialEviction k a => (mapGet? s.trains k).isSome = true ∧ (s.train k).evicted = none ∧ a % 128 = 0 ∧
      (((s.train k).stopped = false ∧ (s.core (s.train k).core).preempt = some (s.train k).ctx ∧
        (∀ p ∈ s.trains, p.1 ≠ k → p.2.core = (s.train k).core → p.2.ctx = (s.train k).ctx → p.2.evicted = none → p.2.stopped = false →
          p.2.slot < (s.train k).slot ∨ (p.2.slot = (s.train k).slot ∧ p.2.placed ≤ (s.train k).placed)) ∧
        moreNeeded s (s.train k).core (s.train k).ctx = true) ∨ ((s.train k).stopped = true ∧ enginesIdle s k = true ∧
        ∀ t ∈ s.membersOf k, helpersOf s t = [] ∧ threadStill s t = true ∧ (s.thread t).trap = none))
  | .trainRestoration k => ∃ a, (s.train k).evicted = some a ∧
      (let x := s.train k
       (fitTiles (residents s x.core) x.acc).isSome = true ∧ (restoreBase s k).isSome = true ∧
       rectFree (residents s x.core) x.quarter x.row x.regs x.lane x.width = true ∧
       quarterTakes (residents s x.core) true x.quarter x.width x.ctx = true ∧ (s.core x.core).preempt ≠ some x.ctx)
  | .submitLaunch part ctx addr => (s.ctx ctx).part = part ∧ addr % 64 = 0 ∧
      let s0 := { s with submits := s.submits.filter fun x => !(x.1 = part && x.2.1 = ctx && x.2.2.1 = addr) }
      ∃ hb rb, (virtRead s0 none ctx addr 8).2 = .ok hb ∧
        (virtRead (virtRead s0 none ctx addr 8).1 none ctx (addr + 64) (4 * ((blockOf hb).extractLsb' 4 2).toNat)).2 = .ok rb
  | _ => False

/-- Where a step of debug, temperature, reset or the system services completes. -/
def systemHappens (i : Instr) (s : State) : Prop :=
  match i with
  | .breakpointMatch t part n =>
      let v := mapGetD s.breakpoints (part * 8 + n) 0
      liveThread s t = true ∧ (s.thread t).halted = false ∧ (s.thread t).trap = none ∧ n < 8 ∧ OwnsCtx s part (s.ctxOf t) ∧
        (s.thread t).passed.getLsbD n = false ∧ v.getLsbD 64 = true ∧ v.extractLsb' 0 48 = (s.thread t).pc ∧ v.extractLsb' 48 16 = 0xFFFF
  | .traceSample c q => (mapGet? (s.core c).samples q).isSome = true
  | .checkpointCut n => s.cutDue = none ∧ s.ckptOn = true ∧ 0 < n ∧ (∀ k ∈ s.ckpts, k.number < n) ∧ n * s.ckptPeriod * 1000000 ≤ s.dt
  | .logAreaThreshold d => s.cutDue = none ∧ (s.die d).logging = true ∧ 7 * Config.logChunks ≤ 8 * logLength (s.die d)
  | .replayGateTimeout g => s.replaying = true ∧ mapGetD s.gates g [] ≠ [] ∧ (heldAt s g ≠ [] ∨ othersHeld s g = true) ∧ mapGetD s.gateSince g 0 + 2 ^ 20 ≤ s.clk
  | .junction105c d => d < 4 ∧ (s.die d).throttled = false
  | .thermalRecovery d => (s.die d).throttled = true
  | .junction115c d => d < 4
  | .deviceReset _ => True
  | .newFirmwareImage _ => s.recovery = true
  | .setLease part d v => Owns s part d ∧ 1 ≤ v ∧ v ≤ 255
  | .readCounters part w => Owns s part w.die ∧ w.line = none ∧ w.thread = none ∧ w.launch = none
  | .setTraceRing part d a n => Owns s part d ∧ framesOf s part a n = true ∧ a % 2 ^ 16 = 0 ∧ 2 ^ 16 ≤ n ∧ n ≤ 2 ^ 30 ∧ a / 2 ^ 32 < 96 ∧
      a % 2 ^ 32 + n ≤ 0xA0000000
  | .setSampling part d v => Owns s part d ∧ 1024 ≤ v ∧ v ≤ 2 ^ 24
  | .setBreakpoint _ n v => n < 8 ∧ v.extractLsb' 82 14 = 0 ∧ v.extractLsb' 65 15 = 0 ∧ v.extractLsb' 80 2 ≠ 3
  | .haltRequest part t => debugOf s part t false
  | .debugResume part t => debugOf s part t true
  | .setCheckpointPeriod part ms => OwnsCtx s part s.jobCtx ∧ 1 ≤ ms ∧ ms ≤ 1000
  | .replay part n => OwnsCtx s part s.jobCtx ∧
      ∃ k, (s.ckpts.find? fun k => k.number = n) = some k ∧ k.replayable = true ∧ placesFree s (jobPart s k) = true
  | .setHostWindow part ctx n v => OwnsCtx s part ctx ∧ n < 16 ∧ v.extractLsb' 4 20 = 0 ∧ v.extractLsb' 104 24 = 0
  | .setInboundWindow part n v => OwnsCtx s part (v.extractLsb' 16 8).toNat ∧ windowTaken s part n = false ∧ n < 16 ∧
      v.extractLsb' 24 56 = 0 ∧ v.extractLsb' 3 13 = 0 ∧ v.extractLsb' 80 34 = 0
  | .pageMigration part ctx page home frame => ∃ e big, leafAt s ctx page e big ∧ OwnsCtx s part ctx ∧ home < 96 ∧ frame < 0xA000 ∧
      (let n : Nat := if big then 2 ^ 21 else 2 ^ 16
       let dst := home * 2 ^ 32 + frame * 2 ^ 16
       framesOwned s part dst n = true ∧ (big = true → frame % 32 = 0) ∧ (dst + n ≤ leafPa e big 0 ∨ leafPa e big 0 + n ≤ dst) ∧
         rangeBusy (walk s ctx (page * 2 ^ 16) .read).1 (leafPa e big 0) n = false)
  | .regionModeChange part ctx page n m => OwnsCtx s part ctx ∧ 0 < n ∧ m.rm ≤ 1 ∧ m.home = Config.deviceId ∧
      ∃ p l, regionLeaves s ctx ((List.range n).map (page + ·)) = some (p, l) ∧ ∀ x ∈ l, rangeBusy p x.2.2.1 x.2.2.2.1 = false
  | .ownerTagChange part home frame ctx => OwnsCtx s part ctx ∧ home < 96 ∧ frame < 0xA000 ∧
      framesOf s part (home * 2 ^ 32 + frame * 2 ^ 16) (2 ^ 16) = true ∧ rangeBusy s (home * 2 ^ 32 + frame * 2 ^ 16) (2 ^ 16) = false
  | .attestationReport part _ => (mapGet? s.parts part).isSome = true
  | .registerWrite r _ => (∃ c, r = .root c ∨ r = .slice c ∨ r = .partition c ∨ r = .other c) ∨ r = .jobContext
  | _ => False

/-! The parts of the statements that have several. -/

/-- R255 to R258 with Tables 10-1 and 10-2: an integer instruction with a 32-bit result completes at issue in every thread of the bundle;
it writes its destination, modulo 2^32, and nothing else. -/
def IntegerWordResults : Prop :=
  ∀ (i : Instr) (f : Thread → List (Nat × Word)) (s : State), wordOf i = some f → Ready s i →
    ∃ t, exec i s = .next t ∧ OnlyThreads s t ∧ EachThread s t fun th th' => Completed i th th' (nextPc i th) (f th) [] 0

/-- R259 with Table 10-3: a pair instruction completes at issue and writes its destination pair, modulo 2^64, and nothing else. -/
def IntegerPairResults : Prop :=
  ∀ (i : Instr) (f : Thread → List (Nat × Word)) (s : State), Claims.pairOf i = some f → Ready s i →
    ∃ t, exec i s = .next t ∧ OnlyThreads s t ∧ EachThread s t fun th th' => Completed i th th' (nextPc i th) (f th) [] 0

/-- R260 with Table 10-4: the counting, extending, rotating and extracting instructions. -/
def IntegerBitResults : Prop :=
  ∀ (i : Instr) (f : Thread → List (Nat × Word)) (s : State), bitsOf i = some f → Ready s i →
    ∃ t, exec i s = .next t ∧ OnlyThreads s t ∧ EachThread s t fun th th' => Completed i th th' (nextPc i th) (f th) [] 0

/-- R260: a saturating instruction writes its exact result clamped to the range of the table, and sets SAT exactly where it clamps. -/
def SaturatingResults : Prop :=
  ∀ (i : Instr) (d : BitVec 6) (x : Thread → Int) (lo hi : Int) (s : State), clampOf i = some (d, x, lo, hi) → Ready s i →
    ∃ t, exec i s = .next t ∧ OnlyThreads s t ∧ EachThread s t fun th th' =>
      Completed i th th' (nextPc i th) (word d (max lo (min hi (x th)))) [] (if lo ≤ x th ∧ x th ≤ hi then 0 else satFlag)

/-- R226 to R228: a compare or predicate operation of fixed latency writes its predicate, except that a write to q0 is discarded; its flags
are ORed into FSTAT, and nothing else changes. -/
def PredicateResults : Prop :=
  ∀ (i : Instr) (f : Thread → BitVec 3 × Bool × Word) (s : State), predOf i = some f → Ready s i →
    ∃ t, exec i s = .next t ∧ OnlyThreads s t ∧ EachThread s t fun th th' =>
      Completed i th th' (nextPc i th) [] [((f th).1.toNat, (f th).2.1)] (f th).2.2

/-- R228: `pget` writes the eight predicates as a word, and `pset` writes q1 to q7 from the bits of a word. -/
def PredicateWords : Prop :=
  (∀ (g : BitVec 4) (d : BitVec 6) (sm : BitVec 1) (s : State), Ready s (.pget g d sm) →
    ∃ t, exec (.pget g d sm) s = .next t ∧ OnlyThreads s t ∧ EachThread s t fun th th' =>
      Completed (.pget g d sm) th th' (nextPc (.pget g d sm) th) (word d (predBits th)) [] 0) ∧
  (∀ (g : BitVec 4) (a : BitVec 6) (sm : BitVec 1) (s : State), Ready s (.pset g a sm) →
    ∃ t, exec (.pset g a sm) s = .next t ∧ OnlyThreads s t ∧ EachThread s t fun th th' =>
      Completed (.pset g a sm) th th' (nextPc (.pset g a sm) th) []
        ((List.range 8).map fun k => (k, (getG th a.toNat).getLsbD k)) 0)

/-- R261 to R266 (FP32, fixed latency): the operation, the operand order and the rounding mode of each row; the flags are ORed into FSTAT
at issue, and nothing else changes. -/
def FloatWordResults : Prop :=
  ∀ (i : Instr) (f : Thread → Nat × Nat × Word) (s : State), fpOf i = some f → Ready s i →
    ∃ t, exec i s = .next t ∧ OnlyThreads s t ∧ EachThread s t fun th th' =>
      Completed i th th' (nextPc i th) [((f th).1, BitVec.ofNat 32 (f th).2.1)] [] (f th).2.2

/-- R261 to R266 (variable latency): the result leaves for its registers, which become pending; nothing is written at issue. -/
def FloatResultsSent : Prop :=
  ∀ (i : Instr) (f : Thread → Result) (s : State), fpSentOf i = some f → Ready s i →
    ∃ t, exec i s = .next t ∧ OnlyThreads s t ∧ EachThread s t fun th th' => Sent i th th' (f th)

/-- R267 to R271: a conversion, a D8 instruction or a function of MAJ 0x0D sends its result to its registers, which become pending;
nothing is written at issue. -/
def ConversionsSent : Prop :=
  ∀ (i : Instr) (f : Thread → Result) (s : State), convertOf i = some f → Ready s i →
    ∃ t, exec i s = .next t ∧ OnlyThreads s t ∧ EachThread s t fun th th' => Sent i th th' (f th)

/-- R212, R213: a finite magnitude rounded to nearest in an IEEE format, without overflow, is as near as any value of the format, and on a
tie its last fraction bit is 0. -/
def RoundsToNearest : Prop :=
  ∀ (f : Fmt) (num den : Nat), f ∈ formats → 0 < num → 0 < den →
    let r := packFV f false (.fin false num den)
    let x : ℚ := (num : ℚ) / den
    r.2 &&& 4 = 0 → r.1 < f.infBits ∧ ∀ m < f.infBits, |magnitude f r.1 - x| ≤ |magnitude f m - x| ∧
      (m ≠ r.1 → |magnitude f r.1 - x| = |magnitude f m - x| → r.1 % 2 = 0)

/-- R211: a sum, difference, product, quotient or fused result that is a NaN is the canonical NaN of its format, with sign 0. -/
def NanIsCanonical : Prop :=
  ∀ (f : Fmt) (rz : Bool) (a b c : Nat), f ∈ formats →
    ∀ r ∈ [(fAdd f rz a b).1, (fSub f rz a b).1, (fMul f rz a b).1, (fDiv f a b).1, (fFma f a b c).1],
      codeNaN f r = true → r = f.nanBits

/-- R183: a marked instruction with results outstanding holds its thread, and nothing executes. -/
def MarkedWaits : Prop :=
  ∀ (i : Instr) (s : State) (t : Nat), i.length ≠ 0 → s.bundle = [t] → (operands i).mark = true → outstanding (s.thread t) = true →
    ∃ s', exec i s = .next s' ∧ Held s s' t .results

/-- R240: a failable operation that would be a seventeenth unresolved one holds its thread at its instruction; where the instruction is
marked, its pending bits stay as they are until it issues. -/
def FullWindowWaits : Prop :=
  ∀ (i : Instr) (s : State) (t : Nat), i.length ≠ 0 → s.bundle = [t] → (operands i).failable = true → 16 ≤ unresolved (s.thread t) →
    BeforeGuard (s.thread t) (s.trainOf t).regs i → meetsQ (s.thread t) i ((operands i).guard.extractLsb' 1 3).toNat = false →
    guardHolds (s.thread t) (operands i).guard = true →
    (∀ r ∈ (operands i).rd ++ (operands i).wr, meetsG (s.thread t) i r = false) →
    (∀ q ∈ (operands i).prd ++ (operands i).pwr, meetsQ (s.thread t) i q = false) →
    ∃ s', exec i s = .next s' ∧ Held s s' t .window

/-- Step 3 of R188 with R42 and R324: a register beyond the count, or in a helper a pair that `rnext` may not name, raises the
illegal-instruction trap whatever the guard; a helper's barred instruction, or its write to one of g0 to g47, the recruit-violation
trap. -/
def RegisterBoundTraps : Prop :=
  ∀ (i : Instr) (s : State) (t : Nat), i.length ≠ 0 → s.bundle = [t] → takesTraps (s.thread t) →
    ((operands i).mark = true → outstanding (s.thread t) = false) →
    ((¬∀ r ∈ (operands i).rd ++ (operands i).wr, regExists (s.thread t) (s.trainOf t).regs r) →
      ∃ s', exec i s = .next s' ∧ Trapped i s s' t 1 0 (s.thread t).pc) ∧
    ((∀ r ∈ (operands i).rd ++ (operands i).wr, regExists (s.thread t) (s.trainOf t).regs r) →
      (s.thread t).helper.isSome = true → ¬helperMay i →
      ∃ s', exec i s = .next s' ∧ Trapped i s s' t (match i with
        | .rnext _ _ => 1
        | _ => 12) 0 (s.thread t).pc)

/-- R184 with steps 4 and 5 of R188: an unmarked read of a pending register or predicate, its guard included, raises the premature-read
trap, and an unmarked write of one the premature-write trap; nothing is executed. -/
def PrematureAccessTraps : Prop :=
  ∀ (i : Instr) (s : State) (t : Nat), i.length ≠ 0 → s.bundle = [t] → takesTraps (s.thread t) →
    BeforeGuard (s.thread t) (s.trainOf t).regs i →
    (meetsQ (s.thread t) i ((operands i).guard.extractLsb' 1 3).toNat = true →
      ∃ s', exec i s = .next s' ∧ Trapped i s s' t 2 0 (s.thread t).pc) ∧
    (meetsQ (s.thread t) i ((operands i).guard.extractLsb' 1 3).toNat = false → guardHolds (s.thread t) (operands i).guard = true →
      (((∃ r ∈ (operands i).rd, meetsG (s.thread t) i r = true) ∨ ∃ q ∈ (operands i).prd, meetsQ (s.thread t) i q = true) →
        ∃ s', exec i s = .next s' ∧ Trapped i s s' t 2 0 (s.thread t).pc) ∧
      ((∀ r ∈ (operands i).rd, meetsG (s.thread t) i r = false) → (∀ q ∈ (operands i).prd, meetsQ (s.thread t) i q = false) →
        ((∃ r ∈ (operands i).wr, meetsG (s.thread t) i r = true) ∨ ∃ q ∈ (operands i).pwr, meetsQ (s.thread t) i q = true) →
        ∃ s', exec i s = .next s' ∧ Trapped i s s' t 3 0 (s.thread t).pc))

/-- Step 4 of R188 with R184 and R192: an instruction whose guard is false ends with its marker passed and changes nothing else, and
pending bits of its other operands do not matter. -/
def FalseGuardSkips : Prop :=
  ∀ (i : Instr) (s : State) (t : Nat), i.length ≠ 0 → s.bundle = [t] → BeforeGuard (s.thread t) (s.trainOf t).regs i →
    meetsQ (s.thread t) i ((operands i).guard.extractLsb' 1 3).toNat = false → guardHolds (s.thread t) (operands i).guard = false →
    ∃ s', exec i s = .next s' ∧ s' = { s with threads := s'.threads, bundle := [], free := s'.free } ∧
      (∀ v, v ≠ t → s'.thread v = s.thread v) ∧ Completed i (s.thread t) (s'.thread t) (nextPc i (s.thread t)) [] [] 0

/-- What reset leaves (R71, R74, R75, R82, R93, Table 3-2, R374): every clock of the device at zero, LEASE 16, no directory entry in use,
and nothing resident. (The values that no rule gives, the domain time and the phase number among them, are the model's, log entry 21.) -/
def ResetState : Prop :=
  State.reset.clk = 0 ∧ State.reset.dt = 0 ∧ State.reset.dpc = 0 ∧ State.reset.phase = 0 ∧
    (∀ c, (State.reset.core c).lt = 0) ∧
    (∀ d, (State.reset.die d).mt = 0 ∧ (State.reset.die d).cpc = 0 ∧ (State.reset.die d).lease = 16 ∧ (State.reset.die d).dir = []) ∧
    State.reset.threads = [] ∧ State.reset.trains = [] ∧ State.reset.launches = [] ∧ State.reset.deviceFault = false ∧
    State.reset.recovery = false

/-- R177, Table 7-12, Table 15-2: a thread not yet written has every register at zero but q0, which reads as true, no pending bit, and the
control registers at the values of Table 15-2. (That a fresh thread's registers and predicates are zero is the model's choice, log entry 5.) -/
def FreshThread : Prop :=
  let th : Thread := {}
  (∀ r, getG th r = 0) ∧ getQ th 0 = true ∧ (∀ q, q ≠ 0 → getQ th q = false) ∧ th.pendG = 0 ∧ th.pendQ = 0 ∧ th.fstat = 0 ∧
    th.tvec = 0 ∧ th.tarea = 0 ∧ th.tpend = 0 ∧ th.hm = false ∧ th.recHeld = false ∧ th.wdog = 2048 ∧ th.hz = th.seq

/-- The state after reset meets the invariant. -/
def ResetInv : Prop := Inv State.reset

/-- R169, R170, R173, R174, R188: where the bytes decode to nothing, the step is that of an illegal instruction; where a fetch faults, every
thread of the bundle traps at its instruction with the cause and the address of the fault, one after the other; where the fetch stalls the
core, nothing issues, and no thread of the bundle has moved in its quarter; and a quarter with no bundle lets its clock pass. Where the
instruction of the bundle cannot be had in this clock otherwise, the bundle is formed of the threads at other PCs and executes, or, there
being none, nothing issues and the wait counts rise (the model's choice, log entry 75). -/
def StepTrapsUndecoded : Prop :=
  ∀ (s : State) (c q : Nat), s.deviceFault = false → s.recovery = false → (nextAct s).2 = some (.issue c q) → MayTakeTurn (beginStep s) c q →
    (formBundle (beginStep s) c q = [] → step s = .next (closeSlot (beginStep s) c q)) ∧
    ∀ (t : Nat) (ts : List Nat), formBundle (beginStep s) c q = t :: ts →
      let b := beginStep s
      let r := fetchAt b c q (b.ctxOf t) (b.launchOf t) (b.thread t).pc.toNat (t :: ts)
      let f := afterForm (closeSlot r.1 c q) c q (t :: ts)
      (∀ bytes e, r.2 = .ok bytes → decodeBytes bytes = .error e →
        step s = exec .illegalInstruction { afterForm (takeSample (closeSlot r.1 c q) c q (t :: ts)) c q (t :: ts) with bundle := t :: ts }) ∧
      (∀ cause faddr, r.2 = .fault cause faddr →
        step s = .next ((t :: ts).foldl (fun s v => raise s v cause (BitVec.ofNat 64 faddr)) f)) ∧
      (r.2 = .stall → issueStopped r.1 c = true → step s = .next (closeSlot r.1 c q)) ∧
      (r.2 = .stall → issueStopped r.1 c = false →
        let but := t :: ts ++ (quarterReady r.1 c q).filter fun v => (b.thread v).pc = (b.thread t).pc && b.ctxOf v = b.ctxOf t
        (formBundleBut r.1 c q but = [] → step s = .next (afterForm (closeSlot r.1 c q) c q [])) ∧
        ∀ v vs bytes i n rest, formBundleBut r.1 c q but = v :: vs →
          let r' := fetchAt r.1 c q (r.1.ctxOf v) (r.1.launchOf v) (r.1.thread v).pc.toNat (v :: vs)
          r'.2 = .ok bytes → decodeBytes bytes = .ok (i, n, rest) → (∀ x ∈ v :: vs, holdAtIssue r'.1 i x = none) →
          step s = exec i { afterForm (takeSample (closeSlot r'.1 c q) c q (v :: vs)) c q (v :: vs) with bundle := v :: vs })

/-- Where the agenda names a step without an encoding, a step is that event at the state in which its clocks have passed; where LT is
behind the clock, a clock has reached its bound, a thread has starved, or a sample is due, the step is the rise, the rebase, the joining or
the sample (R71, R78, R172, R402); where a queue has to fire it fires if it can, and else the die has had its turn (R343, R344); a link that
has retrained for too long goes down (R416); and where nothing is due, only clocks pass. The order of events is the model's own (log entry 1). -/
def StepRunsEvents : Prop :=
  ∀ s : State, s.deviceFault = false → s.recovery = false →
    (∀ i, (nextAct s).2 = some (.event i) → i.length = 0 → step s = exec i (beginStep s)) ∧
    (∀ c, (nextAct s).2 = some (.rise c) → step s = exec (.ltTick c) (beginStep s)) ∧
    (∀ t, (nextAct s).2 = some (.join t) → step s = exec (.starvedListJoin t) (beginStep s)) ∧
    (∀ c q, (nextAct s).2 = some (.sample c q) → step s = exec (.traceSample c q) (beginStep s)) ∧
    (∀ d, (nextAct s).2 = some (.fire d) → ∃ p, step s = .next (p.modDie d fun x => { x with firedAt := p.clk + 1 }) ∧
      (exec (.queueFiring d) (beginStep s) = .next p ∨ ((∀ p, exec (.queueFiring d) (beginStep s) ≠ .next p) ∧ p = beginStep s))) ∧
    (∀ k, (nextAct s).2 = some (.dropLink k) → ∃ s', step s = .next s' ∧ linkKey Config.deviceId (portPeer k) ∈ s'.down) ∧
    ((nextAct s).2 = some .rebase → step s = exec .rebase (beginStep s)) ∧
    ((nextAct s).2 = none → step s = .next (beginStep s))

/-- R381, R421: a device in a device-level fault makes no step but a reset or a new image, and the same holds in recovery. -/
def FaultedDeviceStops : Prop :=
  ∀ s : State, (∀ a, (nextAct s).2 ≠ some (.event (.deviceReset a))) → (∀ a, (nextAct s).2 ≠ some (.event (.newFirmwareImage a))) →
    (s.deviceFault = true → step s = .fault .deviceFault) ∧
      (s.deviceFault = false → s.recovery = true → step s = .fault .recovery)

/-- Words of the spec's own encoding tables decode to the instructions that the tables give beside them. -/
def DecodeWords : Prop :=
  decodeTableWord 16 0x10C4 = some (.addFormH 2 3 0) ∧ decodeTableWord 16 0x28BC = some (.moviFormH 5 2 0) ∧
    decodeTableWord 32 0x020001C5 = some (.leave 3 0) ∧ decodeTableWord 32 0x06006245 = some (.mrd 3 4 0) ∧
    decodeTableWord 32 0x100002C5 = some (.hzrd 5 0) ∧ decodeTableWord 32 0x12008045 = some (.hzwait 4 0) ∧
    decodeTableWord 32 0x14000245 = some (.hzbr 4 0) ∧ decodeTableWord 32 0x08000041 = some (.land 0)

/-- R189, R190, R198: a first halfword of zero, the reserved major codes and a 32-bit word cut short are no instruction. -/
def ReservedEncodingsRejected : Prop :=
  (∀ rest, decodeBytes (0 :: 0 :: rest) = .error .zeroHalfword) ∧
  (∀ (w : BitVec 32) (rest : List Byte), w.getLsbD 0 = true → w.extractLsb' 2 5 = 0x1E ∨ w.extractLsb' 2 5 = 0x1F →
    decodeBytes (w.extractLsb' 0 8 :: w.extractLsb' 8 8 :: w.extractLsb' 16 8 :: w.extractLsb' 24 8 :: rest) = .error .reservedMajor) ∧
  ∀ b0 b1 : Byte, b0.getLsbD 0 = true → decodeBytes [b0, b1] = .error .truncated

/-- R229, R233: `br` and `call` move the PC by their displacement, in halfwords from their own PC, and `call` writes the next PC to x0;
`land` has no effect. Nothing else changes. -/
def BranchResults : Prop :=
  ∀ (i : Instr) (f : Thread → Addr × List (Nat × Word)) (s : State), branchOf i = some f → Ready s i →
    ∃ t, exec i s = .next t ∧ OnlyThreads s t ∧ EachThread s t fun th th' => Completed i th th' (f th).1 (f th).2 [] 0

/-- R231: an indirect jump whose target lies in the device space, is even and needs no landing check goes to its target, and `jalr`
writes the next PC to its pair; the target is read before any write. -/
def JumpResults : Prop :=
  ∀ (i : Instr) (a : BitVec 6) (l : Bool) (f : Thread → List (Nat × Word)) (s : State) (t : Nat), jumpOf i = some (a, l, f) → Alone s t i →
    ux (s.thread t) a < 2 ^ 48 → ux (s.thread t) a % 2 = 0 → l = false ∨ landChecked s t = false →
    ∃ s', exec i s = .next s' ∧ OnlyThreads s s' ∧ EachThread s s' fun th th' =>
      Completed i th th' (BitVec.ofInt 48 (ux th a)) (f th) [] 0

/-- R231: a target beyond 48 bits is a protection trap, and an odd one a misaligned trap, with the target as the faulting address. -/
def JumpTraps : Prop :=
  ∀ (i : Instr) (a : BitVec 6) (l : Bool) (f : Thread → List (Nat × Word)) (s : State) (t : Nat), jumpOf i = some (a, l, f) → Alone s t i →
    takesTraps (s.thread t) →
    (2 ^ 48 ≤ ux (s.thread t) a → ∃ s', exec i s = .next s' ∧ Trapped i s s' t 6 (BitVec.ofInt 64 (ux (s.thread t) a)) (s.thread t).pc) ∧
    (ux (s.thread t) a < 2 ^ 48 → ux (s.thread t) a % 2 = 1 →
      ∃ s', exec i s = .next s' ∧ Trapped i s s' t 4 (BitVec.ofInt 64 (ux (s.thread t) a)) (s.thread t).pc)

/-- R231, R232: where the launch asks for landing checks, `jr` and `jalr` go to a target whose 32 bits are `land` with either marker, and
raise the landing trap at any other; `r` is the fetch of the target. -/
def LandingChecked : Prop :=
  ∀ (i : Instr) (a : BitVec 6) (f : Thread → List (Nat × Word)) (s : State) (t : Nat) (bs : List Byte), jumpOf i = some (a, true, f) →
    Alone s t i → ux (s.thread t) a < 2 ^ 48 → ux (s.thread t) a % 2 = 0 → landChecked s t = true →
    let p := s.modThread t (passMarker i)
    let r := fetch32 p (p.coreOf t) (p.trainOf t).quarter (p.ctxOf t) (p.launchOf t) (ux (s.thread t) a).toNat t
    r.2 = .ok bs → takesTraps (r.1.thread t) →
    ∃ s', exec i s = .next s' ∧
      (wordOfBytes bs &&& 0xFFFFFFFD = 0x08000041 → s' = { r.1 with threads := s'.threads, bundle := [] } ∧
        Completed i (r.1.thread t) (s'.thread t) (BitVec.ofInt 48 (ux (s.thread t) a)) (f (r.1.thread t)) [] 0) ∧
      (wordOfBytes bs &&& 0xFFFFFFFD ≠ 0x08000041 →
        Trapped i r.1 s' t 10 (BitVec.ofInt 64 (ux (s.thread t) a)) (r.1.thread t).pc)

/-- R236, R237: `join` sets the thread's bit of one mask of its train, `leave` clears it, and `mrd` reads a mask into a pair; no other mask
of any train changes. A leave may let other threads' gathering complete, and changes nothing else of them. -/
def MaskResults : Prop :=
  (∀ (d : BitVec 6) (sm : BitVec 1) (s : State) (t : Nat), Alone s t (.join d sm) →
    ∃ s', exec (.join d sm) s = .next s' ∧ s' = { s with threads := s'.threads, trains := s'.trains, bundle := [] } ∧
      (∀ v, v ≠ t → s'.thread v = s.thread v) ∧
      Completed (.join d sm) (s.thread t) (s'.thread t) (nextPc (.join d sm) (s.thread t)) [] [] 0 ∧
      (∀ k m, maskReg s' k m = if k = (s.thread t).train ∧ m = d.toNat then maskReg s k m ||| ((1 : DWord) <<< (s.thread t).tidx) else maskReg s k m) ∧
      ∀ k, s'.train k = { s.train k with masks := (s'.train k).masks }) ∧
  (∀ (d : BitVec 6) (sm : BitVec 1) (s : State) (t : Nat), Alone s t (.leave d sm) →
    ∃ s', exec (.leave d sm) s = .next s' ∧ s' = { s with threads := s'.threads, trains := s'.trains, cores := s'.cores, bundle := [] } ∧
      (∀ v, v ≠ t → s'.thread v = s.thread v ∨ s'.thread v = { s.thread v with stage := 1 }) ∧
      Completed (.leave d sm) (s.thread t) (s'.thread t) (nextPc (.leave d sm) (s.thread t)) [] [] 0 ∧
      (∀ k m, maskReg s' k m = if k = (s.thread t).train ∧ m = d.toNat then maskReg s k m &&& ~~~((1 : DWord) <<< (s.thread t).tidx) else maskReg s k m) ∧
      (∀ k, s'.train k = { s.train k with masks := (s'.train k).masks }) ∧
      ∀ c, s'.core c = { s.core c with groups := (s'.core c).groups }) ∧
  (∀ (a d : BitVec 6) (sm : BitVec 1) (s : State), Ready s (.mrd a d sm) →
    ∃ t, exec (.mrd a d sm) s = .next t ∧ OnlyThreads s t ∧ EachThread s t fun th th' =>
      Completed (.mrd a d sm) th th' (nextPc (.mrd a d sm) th)
        [(d.toNat, (maskReg s th.train a.toNat).setWidth 32), (d.toNat + 1, (maskReg s th.train a.toNat).extractLsb' 32 32)] [] 0)

/-- R243: `hzrd` sends SEQ x 2^16 + HZ, as they stand at issue. -/
def HorizonRead : Prop :=
  ∀ (d : BitVec 6) (sm : BitVec 1) (s : State), Ready s (.hzrd d sm) →
    ∃ t, exec (.hzrd d sm) s = .next t ∧ OnlyThreads s t ∧ EachThread s t fun th th' =>
      Sent (.hzrd d sm) th th' { regs := word d (th.seq.toNat * 2 ^ 16 + th.hz.toNat), preds := [], flags := 0 }

/-- R244, R245, R329: the horizon instructions count the unresolved operations of the thread and its helpers; `hzwait` holds the thread
while there are more than it names, and the branches never wait. -/
def HorizonResults : Prop :=
  ∀ (i : Instr) (f : Nat → Thread → Option Addr) (s : State) (t : Nat), horizonOf i = some f → Alone s t i →
    ∃ s', exec i s = .next s' ∧ OnlyThreads s s' ∧ EachThread s s' fun th th' =>
      match f (openOps s t) th with
      | some pc => Completed i th th' pc [] [] 0
      | none => ∃ a sm, i = .hzwait a sm ∧ th' = { passMarker i th with park := .horizon a.toNat, since := th'.since }

/-- R178, R179, R237: a thread that is a member of the mask gathers and is held while some other member does not stand free at its PC; a thread
that is not a member raises the illegal-instruction trap. Nothing is exchanged and nothing executed. -/
def GatherWaits : Prop :=
  ∀ (i : Instr) (m : Nat) (s : State) (t : Nat), gathersOn i = some m → Alone s t i → (s.thread t).stage = 0 →
    ((maskReg s (s.thread t).train m).getLsbD (s.thread t).tidx = true → (∃ v, v ≠ t ∧ memberOf s (s.thread t).train m v ∧
        ¬(waitsAt (s.thread v) m (s.thread t).pc ∧ threadFree s v = true)) →
      ∃ s', exec i s = .next s' ∧ OnlyThreads s s' ∧ EachThread s s' fun th th' =>
        th' = { passMarker i th with park := .gather m, since := th'.since }) ∧
    ((maskReg s (s.thread t).train m).getLsbD (s.thread t).tidx = false → takesTraps (s.thread t) →
      ∃ s', exec i s = .next s' ∧ Trapped i s s' t 1 0 (s.thread t).pc)

/-- R178, R181: when the last member gathers, every member of the mask stands in one group at that PC, and the group is appended to those of
the quarter; no register changes. -/
def GatherCompletes : Prop :=
  ∀ (i : Instr) (m : Nat) (s : State) (t : Nat), gathersOn i = some m → Alone s t i → (s.thread t).stage = 0 → (s.thread t).trap = none →
    memberOf s (s.thread t).train m t → (∀ v, v ≠ t → memberOf s (s.thread t).train m v → waitsAt (s.thread v) m (s.thread t).pc) →
    (∀ v, memberOf s (s.thread t).train m v → threadFree s v = true) →
    ∃ s', exec i s = .next s' ∧ s' = { s with threads := s'.threads, cores := s'.cores, bundle := [] } ∧
      (∀ v, v ≠ t → (memberOf s (s.thread t).train m v → s'.thread v = { s.thread v with stage := 1 }) ∧
        (¬memberOf s (s.thread t).train m v → s'.thread v = s.thread v)) ∧
      s'.thread t = { passMarker i (s.thread t) with park := .gather m, since := (s'.thread t).since, stage := 1 } ∧
      ∃ g : List Nat, (∀ v, v ∈ g ↔ memberOf s (s.thread t).train m v) ∧
        mapGetD (s'.core (s.trainOf t).core).groups (s.trainOf t).quarter [] =
          mapGetD (s.core (s.trainOf t).core).groups (s.trainOf t).quarter [] ++ [g]

/-- R180, R272, R273 with Table 10-15: when a gathered group issues, every member's sources are read as they stand, and each member's result
leaves for its own registers; `waitm` exchanges nothing. -/
def CrossLaneResults : Prop :=
  (∀ (i : Instr) (f : List Thread → Thread → Result) (s : State), crossOf i = some f → Ready s i → (∀ t ∈ s.bundle, (s.thread t).stage = 1) →
    (∀ t ∈ s.bundle, ((groupIn s t).map (·.tidx)).Pairwise (· < ·) ∧ (groupIn s t).length ≤ 64 ∧ ∀ v ∈ groupIn s t, v.tidx < 64) →
    ∃ s', exec i s = .next s' ∧ OnlyThreads s s' ∧ (∀ v, v ∉ s.bundle → s'.thread v = s.thread v) ∧
      ∀ t ∈ s.bundle, Sent i (s.thread t) (s'.thread t) (f (groupIn s t) (s.thread t))) ∧
  ∀ (d : BitVec 6) (sm : BitVec 1) (s : State), Ready s (.waitm d sm) → (∀ t ∈ s.bundle, (s.thread t).stage = 1) →
    ∃ s', exec (.waitm d sm) s = .next s' ∧ OnlyThreads s s' ∧ EachThread s s' fun th th' =>
      Completed (.waitm d sm) th th' (nextPc (.waitm d sm) th) [] [] 0

/-- R130, R177, R234: outside handler mode, with no recruitment, a clear horizon, every operation performed and nothing to publish, `exit`
ends the thread: it leaves every mask of its train, its registers and all of memory stay as they are, and its core's phase clocks
rise to its logical time. -/
def ExitEnds : Prop :=
  ∀ (sm : BitVec 1) (s : State) (t : Nat), Alone s t (.exit sm) → outstanding (s.thread t) = false → (s.thread t).hm = false →
    (s.thread t).bank = none → openOps s t = 0 → (∀ o ∈ (s.thread t).ops, o.performed = true) → (∀ e ∈ (s.thread t).ws, e.handler = true) →
    (s.thread t).bnd = none →
    ∃ s', exec (.exit sm) s = .next s' ∧ (s'.thread t).exited = true ∧ (s'.thread t).g = (s.thread t).g ∧ (s'.thread t).q = (s.thread t).q ∧
      (s'.thread t).fstat = (s.thread t).fstat ∧
      (∀ v, v ≠ t → s'.thread v = s.thread v ∨ s'.thread v = { s.thread v with stage := 1 }) ∧
      (∀ k m, maskReg s' k m = if k = (s.thread t).train then maskReg s k m &&& ~~~((1 : DWord) <<< (s.thread t).tidx) else maskReg s k m) ∧
      (∀ c, (s.core c).lt ≤ (s'.core c).lt) ∧ (s.core (s.coreOf t)).lt ≤ s'.dpc ∧ (s.core (s.coreOf t)).lt ≤ (s'.die (s.dieOf t)).cpc ∧
      s'.dpc ≤ (s'.core (s.coreOf t)).lt ∧ (s'.die (s.dieOf t)).cpc ≤ (s'.core (s.coreOf t)).lt ∧ SameBytes s s'

/-- R51, R112, R278, Table 11-4 (scratch): a load within the scratch range, aligned and on present lines sends the bytes of its address, in
memory order, to its registers, extended as its mnemonic says, under the number of its bundle; nothing is written at issue, and then
what waits at the port leaves. -/
def ScratchLoads : Prop :=
  ∀ (i : Instr) (m : MemAccess) (s : State) (t : Nat), accessOf i = some m → m.space = 0 → m.kind = 0x11 → Alone s t i →
    inScratch s t (m.addr (s.thread t)) m.size → m.addr (s.thread t) % m.size = 0 → linesPresent s t (m.addr (s.thread t)) m.size →
    ∃ p, exec i s = .next (pump p) ∧ OneThread s p t ∧ Sent i (s.thread t) (p.thread t)
      { regs := filled i m ((List.range m.size).map fun k => memRead (s.core (s.coreOf t)).scratch (m.addr (s.thread t) + k))
        preds := [], flags := 0, load := true, group := s.free + 1 }

/-- R46, R112, R121, R282, R409 (scratch): a store within the scratch range, aligned and on present unpinned lines, with no older read of its
thread open, completes at issue: the bytes of its registers stand at its address, and every other byte of every scratchpad, all of
memory and every register stay as they were. Its address, count and bytes enter the thread's running CRC, at once where no operation of the
window is unresolved, and behind those that are otherwise (the model's reading, log entry 29). -/
def ScratchStores : Prop :=
  ∀ (i : Instr) (m : MemAccess) (s : State) (t : Nat), accessOf i = some m → m.space = 0 → m.kind = 0x22 → Alone s t i →
    inScratch s t (m.addr (s.thread t)) m.size → m.addr (s.thread t) % m.size = 0 → linesPresent s t (m.addr (s.thread t)) m.size →
    linesUnpinned s t (m.addr (s.thread t)) m.size → readsBound (s.thread t) →
    ∃ p, exec i s = .next (pump p) ∧ p = { s with threads := p.threads, cores := p.cores, bundle := [], free := p.free } ∧
      (let x := (BitVec.ofNat 64 (m.addr (s.thread t)), m.data (s.thread t))
       (EachThread s p fun th th' => Completed i (hashScratch th x) th' (nextPc i th) [] [] 0) ∧
       ((∀ o ∈ (s.thread t).ops, o.phase = .resolved) → (p.thread t).crc = crcStore (s.thread t).crc x.1 x.2 ∧
         (p.thread t).stores = (s.thread t).stores + 1)) ∧
      (∀ c a, memRead (p.core c).scratch a =
        if c = s.coreOf t ∧ m.addr (s.thread t) ≤ a ∧ a < m.addr (s.thread t) + m.size then (m.data (s.thread t)).getD (a - m.addr (s.thread t)) 0
        else memRead (s.core c).scratch a) ∧
      ∀ c, p.core c = { s.core c with scratch := (p.core c).scratch }

/-- R11, R46, R47, R276 (scratch): outside the train's range a scratch access is a precise scratch-bounds trap, misaligned within it a
misaligned trap; on an absent line the thread is held until the line is present, and on a present one that is pinned a store until it
is not. That a store also waits for the older reads of its thread is the model's reading of R121 (log entry 23). -/
def ScratchChecks : Prop :=
  ∀ (i : Instr) (m : MemAccess) (s : State) (t : Nat), accessOf i = some m → m.space = 0 → Alone s t i →
    let a := m.addr (s.thread t)
    let held := fun (w : Wait) => ∃ p, exec i s = .next (pump p) ∧ OneThread s p t ∧
      p.thread t = { passMarker i (s.thread t) with park := w, since := (p.thread t).since }
    (¬inScratch s t a m.size → takesTraps (s.thread t) →
      ∃ p, exec i s = .next (pump p) ∧ Trapped i s p t 7 (BitVec.ofNat 64 a) (s.thread t).pc) ∧
    (inScratch s t a m.size → a % m.size ≠ 0 → takesTraps (s.thread t) →
      ∃ p, exec i s = .next (pump p) ∧ Trapped i s p t 4 (BitVec.ofNat 64 a) (s.thread t).pc) ∧
    (inScratch s t a m.size → a % m.size = 0 → ¬linesPresent s t a m.size → held (.scratch a (a + m.size) false)) ∧
    (inScratch s t a m.size → a % m.size = 0 → linesPresent s t a m.size → m.kind = 0x22 → ¬linesUnpinned s t a m.size →
      held (.scratch a (a + m.size) true)) ∧
    (inScratch s t a m.size → a % m.size = 0 → linesPresent s t a m.size → m.kind = 0x22 → linesUnpinned s t a m.size →
      ¬readsBound (s.thread t) → held .reads)

/-- R276, R288: a failable access whose address has a bit set that its space keeps zero fails at issue with the protection cause, and one
that is misaligned with the misaligned cause; the operation holds its number, and nothing else happens. -/
def AddressFailures : Prop :=
  ∀ (i : Instr) (m : MemAccess) (s : State) (t : Nat), accessOf i = some m → 1 ≤ m.space → m.space ≤ 4 → flagAddr i (s.thread t) = none →
    Alone s t i →
    (¬layoutOk m.space (m.addr (s.thread t)) →
      ∃ p o, exec i s = .next (pump p) ∧ OneThread s p t ∧ Began i m (s.thread t) (p.thread t) o ∧ o.phase = .failed 6 ∧
        o.faddr.toNat = m.addr (s.thread t)) ∧
    (layoutOk m.space (m.addr (s.thread t)) → m.addr (s.thread t) % m.size ≠ 0 →
      ∃ p o, exec i s = .next (pump p) ∧ OneThread s p t ∧ Began i m (s.thread t) (p.thread t) o ∧ o.phase = .failed 4 ∧
        o.faddr.toNat = m.addr (s.thread t))

/-- R288: `stf` whose flag lies on another device, or whose either address has a bit set that the layout keeps zero, fails with the
protection cause; otherwise one that is misaligned, or whose flag is, with the misaligned cause. -/
def StoreFlagFailures : Prop :=
  ∀ (w : BitVec 1) (b a d : BitVec 6) (sm : BitVec 1) (m : MemAccess) (s : State) (t f : Nat), accessOf (.stf w b a d sm) = some m →
    Alone s t (.stf w b a d sm) → f = (ux (s.thread t) b).toNat →
    (¬layoutOk 2 (m.addr (s.thread t)) ∨ ¬layoutOk 2 f ∨ f / 2 ^ 48 ≠ m.addr (s.thread t) / 2 ^ 48 →
      ∃ p o, exec (.stf w b a d sm) s = .next (pump p) ∧ OneThread s p t ∧ Began (.stf w b a d sm) m (s.thread t) (p.thread t) o ∧
        o.phase = .failed 6) ∧
    (layoutOk 2 (m.addr (s.thread t)) → layoutOk 2 f → f / 2 ^ 48 = m.addr (s.thread t) / 2 ^ 48 →
      m.addr (s.thread t) % m.size ≠ 0 ∨ f % 8 ≠ 0 →
      ∃ p o, exec (.stf w b a d sm) s = .next (pump p) ∧ OneThread s p t ∧ Began (.stf w b a d sm) m (s.thread t) (p.thread t) o ∧
        o.phase = .failed 4)

/-- R18, R19: a device access whose page the caches of its quarter and core do not hold waits for a walk: its page has one miss entry on the
core, made by the first access that needs it. With all 128 entries busy for other pages the thread is held at its instruction, before
it takes a number. -/
def TranslationMisses : Prop :=
  ∀ (i : Instr) (m : MemAccess) (s : State) (t : Nat), accessOf i = some m → m.space = 1 → Alone s t i →
    layoutOk 1 (m.addr (s.thread t)) → m.addr (s.thread t) % m.size = 0 →
    tlbFind (s.core (s.coreOf t)) (s.trainOf t).quarter (s.ctxOf t) (m.addr (s.thread t)) = none → seqFree (s.thread t) →
    ((s.core (s.coreOf t)).misses.length < 128 ∨ (missOf (s.core (s.coreOf t)) (s.ctxOf t) (m.addr (s.thread t))).isSome = true →
      ∃ p o, exec i s = .next (pump p) ∧ Began i m (s.thread t) (p.thread t) o ∧ o.phase = .walk ∧
        p = { s with threads := p.threads, cores := p.cores, bundle := [], free := p.free } ∧ (∀ v, v ≠ t → p.thread v = s.thread v) ∧
        (p.core (s.coreOf t)).misses = (s.core (s.coreOf t)).misses ++
          (if (missOf (s.core (s.coreOf t)) (s.ctxOf t) (m.addr (s.thread t))).isSome then []
            else [{ ctx := s.ctxOf t, page := m.addr (s.thread t) / 2 ^ 16, write := accessAcc m = .write }])) ∧
    (128 ≤ (s.core (s.coreOf t)).misses.length → missOf (s.core (s.coreOf t)) (s.ctxOf t) (m.addr (s.thread t)) = none →
      ∃ p, exec i s = .next (pump p) ∧ OneThread s p t ∧
        p.thread t = { passMarker i (s.thread t) with park := .missRoom, since := (p.thread t).since })

/-- R79, R82, R117, R238, R239, R286 (device space): an access whose page the caches of its quarter and core hold is translated at issue: a
strong store is resolved, to be performed later, and its bytes leave the thread's write set; a load stands ready to be served; an
atomic goes to its home's service train. No register, flag or byte of memory changes, and then what waits at the port leaves. (That a strong
store resolves here, where R100 keeps it unresolved until its fan-out ends, is the model's reading of Table 9-9, log entry 73.) -/
def DeviceAccesses : Prop :=
  ∀ (i : Instr) (m : MemAccess) (s : State) (t : Nat) (e : TlbEntry), accessOf i = some m → m.space = 1 → m.kind ≠ 0x20 → Alone s t i →
    layoutOk 1 (m.addr (s.thread t)) → m.addr (s.thread t) % m.size = 0 → Cached s t (m.addr (s.thread t)) (accessAcc m) e →
    seqFree (s.thread t) →
    let pa := physOf s e (m.addr (s.thread t))
    ∃ p o, exec i s = .next (pump p) ∧ TranslatedOnly s p t ∧ Began i m (s.thread t) (p.thread t) o ∧ o.pa = pa ∧
      o.phase = (if m.kind = 0x21 then .resolved else if m.kind = 0x30 then .sent else .ready) ∧ o.performed = false ∧
      (m.kind = 0x21 ∨ m.kind = 0x30 → ∀ k < m.size, ownByte (p.thread t) (pa + k) = none) ∧
      (m.kind ≠ 0x30 → p.atoms = s.atoms) ∧
      (m.kind = 0x30 → ∃ r : AtomReq, p.atoms = s.atoms ++ [r] ∧ r.thread = t ∧ r.seq = (s.thread t).seq ∧ r.pa = pa ∧
        r.w64 = decide (m.size = 8) ∧ r.b.toNat = littleEndian ((m.data (s.thread t)).reverse.take m.size).reverse)

/-- R40, R79, R80, R119, R239 (device space): a weak store whose page the caches of its quarter and core hold, with an entry for its line or
room for one in the core's L1, resolves at issue into the thread's write set: the thread's own bytes are the store's data, every other
own byte is as before, and no byte of memory changes. A load or range operation that is still under way finds the write set as it
was (the model's reading of R119, log entry 19). -/
def WeakStores : Prop :=
  ∀ (i : Instr) (m : MemAccess) (s : State) (t : Nat) (e : TlbEntry), accessOf i = some m → m.space = 1 → m.kind = 0x20 → Alone s t i →
    layoutOk 1 (m.addr (s.thread t)) → m.addr (s.thread t) % m.size = 0 → Cached s t (m.addr (s.thread t)) .write e →
    seqFree (s.thread t) →
    let pa := physOf s e (m.addr (s.thread t))
    (∃ x ∈ (s.thread t).ws, x.line = pa / 128 ∧ x.handler = (s.thread t).hm) ∨
      (wsInL1 s (s.coreOf t) < 512 ∧ ((s.core (s.coreOf t)).l1.filter fun p => p.1 % 128 = pa / 128 % 128).length + wsWays s (s.coreOf t) (pa / 128) < 16) →
    ∃ p, exec i s = .next (pump p) ∧ TranslatedOnly s p t ∧ (p.thread t).seq = (s.thread t).seq + 1 ∧
      (p.thread t).pc = nextPc i (s.thread t) ∧ (p.thread t).g = (s.thread t).g ∧ (p.thread t).q = (s.thread t).q ∧
      (p.thread t).fstat = (s.thread t).fstat ∧ (p.thread t).hm = (s.thread t).hm ∧ p.atoms = s.atoms ∧
      (∀ a, ownByte (p.thread t) a =
        if pa ≤ a ∧ a < pa + m.size then (m.data (s.thread t))[a - pa]? else ownByte (s.thread t) a) ∧
      ∀ o ∈ (s.thread t).ops, seesWs o = true → o.phase ≠ .resolved → ∃ o' ∈ (p.thread t).ops, o'.seq = o.seq ∧
        (viewOf (p.thread t) o').ws = (viewOf (s.thread t) o).ws

/-- R12, R27, R28, R30, R141 (remote, aperture and host spaces): an access to a device that is no member of the job, through an unusable
aperture descriptor or outside a host window that permits it fails at issue with the protection cause; any other waits at its
thread's port, from which operations leave in program order. Where none of the operations at the port may leave, nothing happens
there. -/
def OutsideAccesses : Prop :=
  (∀ (i : Instr) (m : MemAccess) (s : State) (t : Nat), accessOf i = some m → 2 ≤ m.space → m.space ≤ 4 → Alone s t i →
    layoutOk m.space (m.addr (s.thread t)) → m.addr (s.thread t) % m.size = 0 →
    (∀ f, flagAddr i (s.thread t) = some f → layoutOk 2 f ∧ f / 2 ^ 48 = m.addr (s.thread t) / 2 ^ 48 ∧ f % 8 = 0) →
    let a := m.addr (s.thread t)
    let may : Bool :=
      if m.space = 2 then decide (a / 2 ^ 48 < 384) && s.members.contains (a / 2 ^ 48)
      else if m.space = 3 then !apertureBad (mapGetD s.apertures (a / 2 ^ 40 % 256) 0) (a % 2 ^ 40) m.size
      else match hostWindow? s (s.ctxOf t) a m.size with
        | some w => windowPermits w a m.size (m.kind ≠ 0x11)
        | none => false
    ∃ p o, exec i s = .next (pump p) ∧ OneThread s p t ∧ Began i m (s.thread t) (p.thread t) o ∧
      o.phase = (if may then .ready else .failed 6)) ∧
  ∀ s : State, nextLeaving s = none → pump s = s

/-- R140, R142, R145, R279, R282: a plain remote access with no older operation in its window, to another device's line of which its die
holds no copy, leaves at once where no other thread has an operation at the port: one request goes out with its virtual address, its
length and its data, and the operation is unresolved. It is injected where its path and port take it and no request of its lane waits before
it, and waits otherwise (R141, R414, R416). No register and no byte of memory changes. -/
def RemoteRequestsLeave : Prop :=
  ∀ (i : Instr) (m : MemAccess) (s : State) (t : Nat), accessOf i = some m → m.space = 2 → m.kind = 0x11 ∨ m.kind = 0x22 → Alone s t i →
    layoutOk 2 (m.addr (s.thread t)) → m.addr (s.thread t) % m.size = 0 → m.addr (s.thread t) / 2 ^ 48 < 384 →
    s.members.contains (m.addr (s.thread t) / 2 ^ 48) = true → (s.thread t).ops = [] →
    (∀ v ∈ s.threads, v.1 ≠ t → portHead v.2 = none) →
    rdcGet? s (s.dieOf t) (remoteKey (m.addr (s.thread t) / 2 ^ 48) (m.addr (s.thread t) % 2 ^ 48)) = none →
    ∃ s' o r, exec i s = .next s' ∧ Began i m (s.thread t) (s'.thread t) o ∧ o.phase = .sent ∧ s'.mem = s.mem ∧
      (∀ v, v ≠ t → s'.thread v = s.thread v) ∧ s'.out = mapSet s.out s.outCount r ∧ s'.outCount = s.outCount + 1 ∧
      r.who = [(t, (s.thread t).seq)] ∧ r.more = [] ∧ r.dst = m.addr (s.thread t) / 2 ^ 48 ∧ r.va = m.addr (s.thread t) % 2 ^ 48 ∧
      r.len = m.size ∧ r.kind = (if m.kind = 0x22 then .store else .fill) ∧ r.data = m.data (s.thread t) ∧ r.host = false ∧
      r.copies = if injectable s r ∧ lanePortHeld s s.outCount r.dst r.lane = false then 1 else 0

/-- R83, R126, R127, R291: a boundary of a thread with a clear horizon, everything older performed and nothing to publish completes at once:
the clocks of its scope rise, the thread goes on, and no register, no byte of memory and no other thread changes. -/
def PhaseCompletes : Prop :=
  ∀ (i : Instr) (k : Nat) (s : State) (t : Nat), phaseOf i = some k → Alone s t i → noBoundary (s.thread t) → quiet s t →
    nothingToPublish (s.thread t) →
    ∃ s', exec i s = .next s' ∧ s' = { s with threads := s'.threads, cores := s'.cores, dies := s'.dies, dpc := s'.dpc, bundle := [] } ∧
      (EachThread s s' fun th th' => Completed i th th' (nextPc i th) [] [] 0) ∧ ClocksRaised s s' t k

/-- R126, R128: a boundary whose thread has an unresolved operation or one not yet performed waits in its step 1; one that has weak stores to
publish waits while they are published. -/
def PhaseWaits : Prop :=
  ∀ (i : Instr) (k : Nat) (s : State) (t : Nat), phaseOf i = some k → Alone s t i → noBoundary (s.thread t) →
    (¬quiet s t → ∃ s', exec i s = .next s' ∧ OnlyThreads s s' ∧ EachThread s s' fun th th' =>
      th' = { passMarker i th with park := .boundaryStart (k = 4), since := th'.since }) ∧
    (quiet s t → ¬nothingToPublish (s.thread t) → ∃ s', exec i s = .next s' ∧ OnlyThreads s s' ∧ EachThread s s' fun th th' =>
      th' = { passMarker i th with bnd := some { scope := k, tmax := 0, pc := th.pc }, park := .boundary, since := th'.since })

/-- R128, R291: a fence goes on once every older strong access of its thread that it covers is performed, and else holds the thread; weak
accesses do not count, remote, aperture and host accesses count at domain scope alone, and no clock rises. -/
def FenceResults : Prop :=
  ∀ (i : Instr) (dom : Bool) (s : State) (t : Nat), fenceOf i = some dom → Alone s t i →
    let strongDone := ∀ o ∈ (s.thread t).ops, o.performed = true ∨ o.kind ∈ [0x10, 0x20, 0x40, 0x41] ∨
      (dom = false ∧ o.kind ∈ [0x11, 0x22, 0x23, 0x31] ∧ 2 ≤ memSpace o.insn)
    (strongDone → ∃ s', exec i s = .next s' ∧ OnlyThreads s s' ∧ EachThread s s' fun th th' =>
      Completed i th th' (nextPc i th) [] [] 0) ∧
    (¬strongDone → ∃ s', exec i s = .next s' ∧ OnlyThreads s s' ∧ EachThread s s' fun th th' =>
      th' = { passMarker i th with park := .fence dom, since := th'.since })

/-- R129, R292: the members of a completed gathering depart from `bar.train` together; a thread that is not a member of its mask raises the
illegal-instruction trap. -/
def TrainBarrierDeparts : Prop :=
  (∀ (d : BitVec 6) (sm : BitVec 1) (s : State), Ready s (.barTrain d sm) → (∀ t ∈ s.bundle, (s.thread t).stage = 1) →
    ∃ s', exec (.barTrain d sm) s = .next s' ∧ OnlyThreads s s' ∧
      EachThread s s' fun th th' => Completed (.barTrain d sm) th th' (nextPc (.barTrain d sm) th) [] [] 0) ∧
  ∀ (d : BitVec 6) (sm : BitVec 1) (s : State) (t : Nat), Alone s t (.barTrain d sm) → (s.thread t).stage = 0 → takesTraps (s.thread t) →
    (maskReg s (s.thread t).train d.toNat).getLsbD (s.thread t).tidx = false →
    ∃ s', exec (.barTrain d sm) s = .next s' ∧ Trapped (.barTrain d sm) s s' t 1 0 (s.thread t).pc

/-- R129, R178, R181, R292: a member of the mask with nothing to publish arrives at `bar.train` and is held until the gathering completes; the
last of them to arrive completes it: every member of the mask stands in one group at that PC, which its quarter holds behind those that it
has, to depart together. -/
def TrainBarrierArrives : Prop :=
  (∀ (d : BitVec 6) (sm : BitVec 1) (s : State) (t : Nat), Alone s t (.barTrain d sm) → (s.thread t).stage = 0 → (s.thread t).trap = none →
    memberOf s (s.thread t).train d.toNat t → noBoundary (s.thread t) → quiet s t → nothingToPublish (s.thread t) →
    (∀ v, v ≠ t → memberOf s (s.thread t).train d.toNat v → waitsAt (s.thread v) d.toNat (s.thread t).pc) →
    (∀ v, memberOf s (s.thread t).train d.toNat v → threadFree s v = true) →
    ∃ s', exec (.barTrain d sm) s = .next s' ∧ s' = { s with threads := s'.threads, cores := s'.cores, bundle := [] } ∧
      (∀ v, v ≠ t → (memberOf s (s.thread t).train d.toNat v → s'.thread v = { s.thread v with stage := 1 }) ∧
        (¬memberOf s (s.thread t).train d.toNat v → s'.thread v = s.thread v)) ∧
      s'.thread t = { passMarker (.barTrain d sm) (s.thread t) with park := .gather d.toNat, since := (s'.thread t).since, stage := 1 } ∧
      ∃ g : List Nat, (∀ v, v ∈ g ↔ memberOf s (s.thread t).train d.toNat v) ∧
        mapGetD (s'.core (s.trainOf t).core).groups (s.trainOf t).quarter [] =
          mapGetD (s.core (s.trainOf t).core).groups (s.trainOf t).quarter [] ++ [g]) ∧
  ∀ (d : BitVec 6) (sm : BitVec 1) (s : State) (t : Nat), Alone s t (.barTrain d sm) → (s.thread t).stage = 0 →
    (maskReg s (s.thread t).train d.toNat).getLsbD (s.thread t).tidx = true → noBoundary (s.thread t) → quiet s t →
    nothingToPublish (s.thread t) →
    (∃ v, v ≠ t ∧ memberOf s (s.thread t).train d.toNat v ∧
      ¬(waitsAt (s.thread v) d.toNat (s.thread t).pc ∧ threadFree s v = true)) →
    ∃ s', exec (.barTrain d sm) s = .next s' ∧ (∀ v, v ≠ t → s'.thread v = s.thread v) ∧ (∀ a, memRead s'.mem a = memRead s.mem a) ∧
      s'.thread t = { passMarker (.barTrain d sm) (s.thread t) with park := .gather d.toNat, since := (s'.thread t).since }

/-- R129, R293: an arrival with a legal count, quiet and with nothing to publish. The first of a generation fixes the number needed. The last
one needed ends the generation and departs, its core's logical time raised to the clock of the scope; any other waits. -/
def BarrierArrivals : Prop :=
  ∀ (i : Instr) (k id : Nat) (a : BitVec 6) (s : State) (t : Nat), barrierOf i = some (k, id, a) → Alone s t i → (s.thread t).stage = 0 →
    0 < u (s.thread t) a → u (s.thread t) a ≤ groupCapacity k → noBoundary (s.thread t) → quiet s t → nothingToPublish (s.thread t) →
    let b := barrierState s (barrierAt s t k id)
    let need : Nat := if b.arrived = [] then (u (s.thread t) a).toNat else b.need
    ∃ s', exec i s = .next s' ∧
      s' = { s with threads := s'.threads, cores := s'.cores, dies := s'.dies, dpc := s'.dpc, barriers := s'.barriers, bundle := [] } ∧
      (∀ j, j ≠ barrierAt s t k id → barrierState s' j = barrierState s j) ∧
      if need ≤ b.arrived.length + 1 then
          barrierState s' (barrierAt s t k id) = { need := need, arrived := [], generation := b.generation + 1 } ∧ ClocksRaised s s' t k ∧
            EachThread s s' fun th th' => Completed i th th' (nextPc i th) [] [] 0
        else
          barrierState s' (barrierAt s t k id) = { need := need, arrived := b.arrived ++ [t], generation := b.generation } ∧
            EachThread s s' fun th th' => th' = { passMarker i th with park := .barrier b.generation, stage := 3, since := th'.since }

/-- R129, R293: a thread whose generation has completed departs: its core's logical time rises to the clock of the scope. A count of zero,
or one above the group's capacity, raises the illegal-instruction trap, and the thread does not arrive. -/
def BarrierDepartsAndChecks : Prop :=
  ∀ (i : Instr) (k id : Nat) (a : BitVec 6) (s : State) (t : Nat), barrierOf i = some (k, id, a) → Alone s t i →
    ((s.thread t).stage = 3 → ∃ s', exec i s = .next s' ∧ s' = { s with threads := s'.threads, cores := s'.cores, bundle := [] } ∧
      (EachThread s s' fun th th' => Completed i th th' (nextPc i th) [] [] 0) ∧
      (s'.core (s.coreOf t)).lt =
        max (max (s.core (s.coreOf t)).lt (if 2 ≤ k then (s.die (s.dieOf t)).cpc else 0)) (if 3 ≤ k then s.dpc else 0)) ∧
    ((s.thread t).stage = 0 → u (s.thread t) a = 0 ∨ groupCapacity k < u (s.thread t) a → takesTraps (s.thread t) →
      ∃ s', exec i s = .next s' ∧ Trapped i s s' t 1 0 (s.thread t).pc ∧ s'.barriers = mapEach (fun _ b =>
        { b with arrived := b.arrived.filter (· != t) }) s.barriers)

/-- R61, R238, R294: a range flush or invalidate takes a number; a range that breaks the rules of its space fails at issue with the
protection cause, and any other waits for its walk. No register and no byte of memory changes. -/
def RangeOperationsBegin : Prop :=
  ∀ (i : Instr) (m : MemAccess) (s : State) (t : Nat), rangeOf i = some m → Alone s t i →
    let a := m.addr (s.thread t)
    let n := littleEndian (m.data (s.thread t))
    let bad : Prop := ¬layoutOk m.space a ∨ (if m.space = 4 then
      2 ^ 52 < a + n ∨ windowsCover (s.ctx (s.ctxOf t)).windows (a + n) 17 a = false else 2 ^ 48 < a % 2 ^ 48 + n)
    ∃ s' o, exec i s = .next s' ∧ OneThread s s' t ∧ Began i m (s.thread t) (s'.thread t) o ∧
      (bad → o.phase = .failed 6) ∧ (¬bad → o.phase = .ready)

/-- R11, R46, R295: `prs.wait` goes on once every line of its range is present and else holds the thread, whatever pins there are;
`prs.test` sends to its predicate whether the line is present; outside the train's scratch range both trap. -/
def PresenceResults : Prop :=
  (∀ (b a : BitVec 6) (sm : BitVec 1) (s : State) (t : Nat), Alone s t (.prsWait b a sm) →
    let i : Instr := .prsWait b a sm
    let x := (ux (s.thread t) a).toNat
    let n := (u (s.thread t) b).toNat
    (inScratch s t x n → n = 0 ∨ linesPresent s t x n → ∃ s', exec i s = .next s' ∧ OnlyThreads s s' ∧
      EachThread s s' fun th th' => Completed i th th' (nextPc i th) [] [] 0) ∧
    (inScratch s t x n → 0 < n → ¬linesPresent s t x n → ∃ s', exec i s = .next s' ∧ OnlyThreads s s' ∧
      EachThread s s' fun th th' => th' = { passMarker i th with park := .scratch x (x + n) false, since := th'.since }) ∧
    (¬inScratch s t x n → takesTraps (s.thread t) →
      ∃ s', exec i s = .next s' ∧ Trapped i s s' t 7 (BitVec.ofNat 64 x) (s.thread t).pc)) ∧
  ∀ (a : BitVec 6) (q : BitVec 3) (sm : BitVec 1) (s : State) (t : Nat), Alone s t (.prsTest a q sm) →
    let i : Instr := .prsTest a q sm
    let x := (ux (s.thread t) a).toNat
    (inScratch s t x 1 → ∃ s', exec i s = .next s' ∧ OnlyThreads s s' ∧ EachThread s s' fun th th' => Sent i th th'
      { regs := [], preds := [(q.toNat, (scrGet (s.core (s.coreOf t)) (x / 128)).present)], flags := 0 }) ∧
    (¬inScratch s t x 1 → takesTraps (s.thread t) →
      ∃ s', exec i s = .next s' ∧ Trapped i s s' t 7 (BitVec.ofNat 64 x) (s.thread t).pc)

/-- R238, R239, R296, R303, R316, R317: an engine command is issued once per train by the elected thread, which takes a number; the other
threads of the train go on. An address or counter with bits above 47, or a record misaligned, fails it at issue; any other waits for its
engine to accept it, behind the commands that the core issued before. No memory changes. (That a train which runs a task may issue to both
engines is the model's reading, log entry 58.) -/
def CommandsIssued : Prop :=
  ∀ (i : Instr) (k : Nat) (m : MemAccess) (s : State) (e : Nat), commandOf i = some (k, m) → Elected s i e → roleFits s e k →
    unresolved (s.thread e) < 16 →
    ∃ s' o, exec i s = .next s' ∧
      s' = { s with threads := s'.threads, cores := s'.cores, trains := s'.trains, bundle := [] } ∧
      Began i m (s.thread e) (s'.thread e) o ∧ (∀ v, v ∉ s.bundle → s'.thread v = s.thread v) ∧
      (∀ v ∈ s.bundle, v ≠ e → Completed i (s.thread v) (s'.thread v) (nextPc i (s.thread v)) [] [] 0) ∧
      (∀ c, commandFails i m (s.thread e) = some c → o.phase = .failed c ∧ ∀ d, s'.core d = s.core d) ∧
      (commandFails i m (s.thread e) = none → o.phase = .unitWait ∧
        (s'.core (s.coreOf e)).cmdCount = (s.core (s.coreOf e)).cmdCount + 1 ∧
        (k = 2 → ∃ c : MxCmd, (s'.core (s.coreOf e)).mxq = (s.core (s.coreOf e)).mxq ++ [c] ∧ c.id = (s.core (s.coreOf e)).cmdCount ∧
          c.thread = e ∧ c.train = (s.thread e).train ∧ c.seq = (s.thread e).seq ∧ c.block.toNat = m.addr (s.thread e) ∧ c.accepted = false ∧
          (s'.trainOf e).open' = (s.trainOf e).open' ++ [c.id]) ∧
        (k = 1 → ∃ c : CpCmd, (s'.core (s.coreOf e)).cpq = (s.core (s.coreOf e)).cpq ++ [c] ∧ c.id = (s.core (s.coreOf e)).cmdCount ∧
          c.thread = e ∧ c.train = (s.thread e).train ∧ c.seq = (s.thread e).seq ∧ c.record.toNat = m.addr (s.thread e) ∧
          c.counter.toNat = counterOf i (s.thread e) ∧ c.accepted = false))

/-- R240, R297: in a launch with roles a thread of another role traps at an engine command, a commit, a wait or a tile instruction; an
engine command in a full window holds its thread. (That a train which runs a task has no role to break is the model's reading, log entry
58.) -/
def EngineRoleTraps : Prop :=
  ∀ (i : Instr) (k : Nat) (s : State) (t : Nat), Alone s t i → takesTraps (s.thread t) →
    ((∃ m, commandOf i = some (k, m)) ∨ (k = 2 ∧ ((∃ x, tileOf i = some x) ∨ (∃ d sm, i = .mxCommit d sm) ∨ ∃ n sm, i = .mxWait n sm))) →
    (¬roleFits s t k → ∃ s', exec i s = .next s' ∧ Trapped i s s' t 1 0 (s.thread t).pc) ∧
    (roleFits s t k → (∃ m, commandOf i = some (k, m)) → 16 ≤ unresolved (s.thread t) →
      ∃ s', exec i s = .next s' ∧ OnlyThreads s s' ∧ EachThread s s' fun th th' =>
        th' = { passMarker i th with park := .window, since := th'.since })

/-- R307, R308: `mx.commit` closes the open batch: its number is sent to every executing thread, to arrive once every command of the batch
has been accepted or has failed, and the train's counter rises by 1 modulo 2^16; then the complete batches of the train, oldest first, are
retired, and none while the oldest is not complete. With eight batches incomplete the threads are held together. (A train that runs a task
passes the role check: log entry 58.) -/
def CommitResults : Prop :=
  (∀ (d : BitVec 6) (sm : BitVec 1) (s : State) (e : Nat), Elected s (.mxCommit d sm) e → roleFits s e 2 →
    (commitsOpen s e < 8 → ∃ p, exec (.mxCommit d sm) s = .next { settleBatches p (s.thread e).train 8 with bundle := [] } ∧
      p = { s with threads := p.threads, trains := p.trains } ∧
      (EachThread s p fun th th' => Sent (.mxCommit d sm) th th'
        { regs := [(d.toNat, (s.trainOf e).batch.setWidth 32)], preds := [], flags := 0, after := (s.trainOf e).open'
          batch := some (s.trainOf e).batch }) ∧
      ∀ k, p.train k = if k = (s.thread e).train then
        { s.train k with
          batch := (s.train k).batch + 1, open' := []
          committed := (s.train k).committed ++ [{ number := (s.train k).batch, cmds := (s.train k).open' }] } else s.train k) ∧
    (8 ≤ commitsOpen s e → ∃ s', exec (.mxCommit d sm) s = .next s' ∧ s'.trains = s.trains ∧ s'.mem = s.mem ∧
      EachThread s s' fun th th' => th' = { passMarker (.mxCommit d sm) th with park := .commit, stage := 1, since := th'.since })) ∧
  ∀ (s : State) (k n : Nat), (∀ b, (s.train k).committed.head? = some b → ¬batchDone s k b) → settleBatches s k n = s

/-- R308: `mx.wait` goes on where at most n committed batches are incomplete, and else holds its thread. (A train that runs a task passes
the role check: log entry 58.) -/
def BatchWaits : Prop :=
  ∀ (n : BitVec 6) (sm : BitVec 1) (s : State) (t : Nat), Alone s t (.mxWait n sm) → roleFits s t 2 →
    ∃ s', exec (.mxWait n sm) s = .next s' ∧ OnlyThreads s s' ∧ EachThread s s' fun th th' =>
      if commitsOpen s t ≤ n.toNat then Completed (.mxWait n sm) th th' (nextPc (.mxWait n sm) th) [] [] 0
      else th' = { passMarker (.mxWait n sm) th with park := .batches n.toNat, since := th'.since }

/-- R298, R309, R310: `mx.rd` and `mx.rd.64` send the words of their element to their registers; no tile changes. -/
def TileReads : Prop :=
  (∀ (t6 a d : BitVec 6) (sm : BitVec 1) (s : State) (t : Nat), Alone s t (.mxRd t6 a d sm) →
    TileReady s t [t6.toNat] (bits (s.thread t) a) false →
    ∃ s', exec (.mxRd t6 a d sm) s = .next s' ∧ OnlyThreads s s' ∧ EachThread s s' fun th th' => Sent (.mxRd t6 a d sm) th th'
      { regs := [(d.toNat, accWord s (s.coreOf t) ((s.trainOf t).tile + t6.toNat) (bits th a / 64) (bits th a % 64))]
        preds := [], flags := 0 }) ∧
  ∀ (t6 a d : BitVec 6) (sm : BitVec 1) (s : State) (t : Nat), Alone s t (.mxRd64 t6 a d sm) →
    TileReady s t [t6.toNat, t6.toNat + 1] (bits (s.thread t) a) false →
    let j := bits (s.thread t) a % 64
    let w := fun h => accWord s (s.coreOf t) ((s.trainOf t).tile + t6.toNat + j / 32) (bits (s.thread t) a / 64) (2 * (j % 32) + h)
    ∃ s', exec (.mxRd64 t6 a d sm) s = .next s' ∧ OnlyThreads s s' ∧ EachThread s s' fun th th' => Sent (.mxRd64 t6 a d sm) th th'
      { regs := [(d.toNat, w 0), (d.toNat + 1, w 1)], preds := [], flags := 0 }

/-- R298, R309, R310: `mx.wr` and `mx.wr.64` write the words of their element, `mx.zero` sets every word of its tile to zero, once for the
train; every other word of every tile stays. -/
def TileWrites : Prop :=
  (∀ (b a t6 : BitVec 6) (sm : BitVec 1) (s : State) (t : Nat), Alone s t (.mxWr b a t6 sm) →
    TileReady s t [t6.toNat] (bits (s.thread t) a) true →
    let x := bits (s.thread t) a
    let p := (s.trainOf t).tile + t6.toNat
    ∃ s', exec (.mxWr b a t6 sm) s = .next s' ∧ TilesOnly s s' (s.coreOf t) (fun tile r j => tile = p ∧ r = x / 64 ∧ j = x % 64) ∧
      (EachThread s s' fun th th' => Completed (.mxWr b a t6 sm) th th' (nextPc (.mxWr b a t6 sm) th) [] [] 0) ∧
      accWord s' (s.coreOf t) p (x / 64) (x % 64) = getG (s.thread t) b.toNat) ∧
  (∀ (b a t6 : BitVec 6) (sm : BitVec 1) (s : State) (t : Nat), Alone s t (.mxWr64 b a t6 sm) →
    TileReady s t [t6.toNat, t6.toNat + 1] (bits (s.thread t) a) true →
    let x := bits (s.thread t) a
    let p := (s.trainOf t).tile + t6.toNat + x % 64 / 32
    let j := 2 * (x % 64 % 32)
    ∃ s', exec (.mxWr64 b a t6 sm) s = .next s' ∧
      TilesOnly s s' (s.coreOf t) (fun tile r k => tile = p ∧ r = x / 64 ∧ (k = j ∨ k = j + 1)) ∧
      (EachThread s s' fun th th' => Completed (.mxWr64 b a t6 sm) th th' (nextPc (.mxWr64 b a t6 sm) th) [] [] 0) ∧
      accWord s' (s.coreOf t) p (x / 64) j = getG (s.thread t) b.toNat ∧
      accWord s' (s.coreOf t) p (x / 64) (j + 1) = getG (s.thread t) (b.toNat + 1)) ∧
  ∀ (t6 : BitVec 6) (sm : BitVec 1) (s : State) (e : Nat), Elected s (.mxZero t6 sm) e → TileReady s e [t6.toNat] 0 true →
    ∃ s', exec (.mxZero t6 sm) s = .next s' ∧ TilesOnly s s' (s.coreOf e) (fun tile _ _ => tile = (s.trainOf e).tile + t6.toNat) ∧
      (EachThread s s' fun th th' => Completed (.mxZero t6 sm) th th' (nextPc (.mxZero t6 sm) th) [] [] 0) ∧
      ∀ r j, r < 64 → j < 64 → accWord s' (s.coreOf e) ((s.trainOf e).tile + t6.toNat) r j = 0

/-- R298, R309, R310: a tile at or beyond the train's count traps as an illegal instruction; while an `mx.op` of the train is neither
accepted nor failed the thread is held; then a busy tile is the accumulator-busy trap, and an index above 4,095 an engine-parameter trap.
Nothing is read or written. (The order of the last two, which no rule gives, is the model's reading, log entry 32; the role check, log entry
58.) -/
def TileChecks : Prop :=
  ∀ (i : Instr) (tiles : List Nat) (x : Thread → Nat) (wr : Bool) (s : State) (t : Nat), tileOf i = some (tiles, x, wr) → Alone s t i →
    roleFits s t 2 → takesTraps (s.thread t) →
    ((∃ k ∈ tiles, (s.trainOf t).acc ≤ k) → ∃ s', exec i s = .next s' ∧ Trapped i s s' t 1 0 (s.thread t).pc) ∧
    ((∀ k ∈ tiles, k < (s.trainOf t).acc) →
      (opAwaited s t → ∃ s', exec i s = .next s' ∧ OnlyThreads s s' ∧ EachThread s s' fun th th' =>
        th' = { passMarker i th with park := .tiles, since := th'.since }) ∧
      (¬opAwaited s t → (∃ k ∈ tiles, tileNamed s t k wr) → ∃ s', exec i s = .next s' ∧ Trapped i s s' t 11 0 (s.thread t).pc) ∧
      (¬opAwaited s t → (∀ k ∈ tiles, ¬tileNamed s t k wr) → 4096 ≤ x (s.thread t) →
        ∃ s', exec i s = .next s' ∧ Trapped i s s' t 16 0 (s.thread t).pc))

/-- R322, R323, R325, Table 13-1: `recruit` of a legal count at a legal target that needs no landing check arms the dispenser unless the
issuer is a helper, sends the number granted and the code, and starts each helper granted at the target with its index, their
number and a copy of g0 to g47. Nothing but threads changes. -/
def RecruitGrants : Prop :=
  ∀ (c b a d : BitVec 6) (sm : BitVec 1) (s : State) (t : Nat), Alone s t (.recruit c b a d sm) → outstanding (s.thread t) = false →
    (s.thread t).bank = none → (s.thread t).returns = [] → u (s.thread t) a ≤ 0x7FFFFFFF → ux (s.thread t) b < 2 ^ 48 →
    ux (s.thread t) b % 2 = 0 → landChecked s t = false → t < s.nextThread →
    let th := s.thread t
    let p := s.modThread t fun th => { th with pendG := 0, pendQ := 0 }
    let n := (u th a).toNat
    let code := recruitCode p t n
    let k := if code = 0 then recruitCount p t (u th d).toNat n (c.toNat + 1) else 0
    ∃ s', exec (.recruit c b a d sm) s = .next s' ∧
      s' = { s with threads := s'.threads, nextThread := s.nextThread + k, bundle := [] } ∧
      (∀ v, v ≠ t → v < s.nextThread ∨ s.nextThread + k ≤ v → s'.thread v = s.thread v) ∧
      Sent (.recruit c b a d sm) { th with
          pendG := 0, pendQ := 0
          next := if code = 2 then th.next else 0
          endIter := if code = 2 then th.endIter else BitVec.ofNat 32 n
          chunk := if code = 2 then th.chunk else c.toNat + 1
          armed := if code = 2 then th.armed else true
          bank := if k = 0 then none else
            some { n := k, live := (List.range k).map (s.nextThread + ·), regs := [], flags := 0, forced := false, charged := []
                   copy := th.g.filter fun p => p.1 < 48 } }
        (s'.thread t) { regs := word d (k + code * 256), preds := [], flags := 0 } ∧
      ∀ j < k, let h := s'.thread (s.nextThread + j)
        h.helper = some (t, j) ∧ h.train = th.train ∧ h.tidx = j ∧ some h.lane = (helperLanes s t)[j]? ∧
          h.pc = BitVec.ofInt 48 (ux th b) ∧ (∀ r, getG h r = if r < 48 then getG th r else if r = 48 then BitVec.ofNat 32 j
            else if r = 49 then BitVec.ofNat 32 k else 0) ∧
          (∀ q, q ≠ 0 → getQ h q = false) ∧ h.fstat = 0 ∧ h.seq = 0 ∧ h.hz = 0 ∧ h.ops = [] ∧ h.exited = false ∧ h.trap = none

/-- R231, R322: `recruit` while a recruitment or returned ranges are held, or with a count above 0x7FFF_FFFF, traps as an illegal
instruction; a target that `jr` would refuse traps as in `jr`. Nothing is granted, and its marker has been passed. -/
def RecruitTraps : Prop :=
  ∀ (c b a d : BitVec 6) (sm : BitVec 1) (s : State) (t : Nat), Alone s t (.recruit c b a d sm) → outstanding (s.thread t) = false →
    takesTraps (s.thread t) →
    let i : Instr := .recruit c b a d sm
    let p := s.modThread t fun th => { th with pendG := 0, pendQ := 0 }
    let pc := (s.thread t).pc
    let x := ux (s.thread t) b
    let free := (s.thread t).bank = none ∧ (s.thread t).returns = [] ∧ u (s.thread t) a ≤ 0x7FFFFFFF
    (¬free → ∃ s', exec i s = .next s' ∧ Trapped i p s' t 1 0 pc) ∧
      (free → 2 ^ 48 ≤ x → ∃ s', exec i s = .next s' ∧ Trapped i p s' t 6 (BitVec.ofInt 64 x) pc) ∧
      (free → x < 2 ^ 48 → x % 2 = 1 → ∃ s', exec i s = .next s' ∧ Trapped i p s' t 4 (BitVec.ofInt 64 x) pc)

/-- R325: a thread that is no helper claims from its own dispenser, returned ranges first and oldest first, and never waits. -/
def ClaimResults : Prop :=
  ∀ (d : BitVec 6) (sm : BitVec 1) (s : State) (t : Nat), Alone s t (.rnext d sm) → (s.thread t).helper = none →
    let x := claimOf (s.thread t)
    ∃ s', exec (.rnext d sm) s = .next s' ∧ OnlyThreads s s' ∧ EachThread s s' fun th th' =>
      Sent (.rnext d sm) { th with next := x.2.2.1, returns := x.2.2.2 } th' (rangeResult d x.1 x.2.1)

/-- R325, R328, R330: a helper's `rnext` waits for its own clear horizon; after a forced release it receives -1; otherwise it claims from its
recruiter's dispenser and is known to hold that chunk. -/
def HelperClaims : Prop :=
  ∀ (d : BitVec 6) (sm : BitVec 1) (s : State) (t o j : Nat), Alone s t (.rnext d sm) → (s.thread t).helper = some (o, j) → o ≠ t →
    (unresolved (s.thread t) ≠ 0 → ∃ s', exec (.rnext d sm) s = .next s' ∧ OnlyThreads s s' ∧ EachThread s s' fun th th' =>
      th' = { passMarker (.rnext d sm) th with park := .ownHorizon, since := th'.since }) ∧
    (unresolved (s.thread t) = 0 → releasedOf s o = true → ∃ s', exec (.rnext d sm) s = .next s' ∧ OnlyThreads s s' ∧
      EachThread s s' fun th th' => Sent (.rnext d sm) th th' (rangeResult d 0xFFFFFFFF 0xFFFFFFFF)) ∧
    (unresolved (s.thread t) = 0 → releasedOf s o = false →
      let x := claimOf (s.thread o)
      ∃ s', exec (.rnext d sm) s = .next s' ∧ OnlyThreads s s' ∧ (∀ v, v ≠ t → v ≠ o → s'.thread v = s.thread v) ∧
        s'.thread o = { s.thread o with next := x.2.2.1, returns := x.2.2.2 } ∧
        Sent (.rnext d sm) { s.thread t with
            claimed := if x.1 = 0xFFFFFFFF then (s.thread t).claimed else some (BitVec.ofNat 32 x.1, BitVec.ofNat 32 x.2.1) }
          (s'.thread t) (rangeResult d x.1 x.2.1))

/-- R130, R326, R327: `rleave` of a helper with a clear horizon, everything performed, nothing to publish and nothing outstanding ends it: its
window is free, and its h registers and flags stay with its recruiter's bank. In a thread that is no helper it traps. -/
def HelperLeaves : Prop :=
  (∀ (sm : BitVec 1) (s : State) (t o j : Nat) (b : Bank), Alone s t (.rleave sm) → (s.thread t).helper = some (o, j) → o ≠ t →
    (s.thread o).bank = some b → noBoundary (s.thread t) → quiet s t → nothingToPublish (s.thread t) → (s.thread t).results = [] →
    ∃ s' b', exec (.rleave sm) s = .next s' ∧ s' = { s with threads := s'.threads, cores := s'.cores, bundle := [] } ∧
      (∀ c, s'.core c = s.core c) ∧ mapGet? s'.threads t = none ∧ (∀ v, v ≠ t → v ≠ o → s'.thread v = s.thread v) ∧
      s'.thread o = { s.thread o with bank := some b' } ∧ b'.live = b.live.filter (· ≠ t) ∧ b'.n = b.n ∧ b'.forced = b.forced ∧
      b'.charged = b.charged ∧ b'.flags = b.flags ||| (s.thread t).fstat ∧
      ∀ r, mapGetD b'.regs r 0 = if 16 * j ≤ r ∧ r < 16 * j + 16 then getG (s.thread t) (48 + (r - 16 * j)) else mapGetD b.regs r 0) ∧
  ∀ (sm : BitVec 1) (s : State) (t : Nat), Alone s t (.rleave sm) → (s.thread t).helper = none → takesTraps (s.thread t) →
    ∃ s', exec (.rleave sm) s = .next s' ∧ Trapped (.rleave sm) s s' t 1 0 (s.thread t).pc

/-- R130, R327, R332: `rjoin` of any form holds its thread until every helper has left; with no helper's trap to deliver it then sends the
fold, the flags and q7, and the plain form releases the bank. Without a recruitment it completes at once and its destination keeps
its value. -/
def JoinResults : Prop :=
  ∀ (i : Instr) (plain : Bool) (f : Thread → Bank → List (Nat × Word) × Word) (s : State) (t : Nat), joinOf i = some (plain, f) → Alone s t i →
    ((∃ b, (s.thread t).bank = some b ∧ b.live ≠ []) → ∃ s', exec i s = .next s' ∧ OnlyThreads s s' ∧ EachThread s s' fun th th' =>
      th' = { passMarker i th with park := .helpers, since := th'.since }) ∧
    ((∀ b, (s.thread t).bank = some b → b.live = [] ∧ b.charged = []) → ∃ s', exec i s = .next s' ∧ OnlyThreads s s' ∧
      EachThread s s' fun th th' => Sent i { th with bank := if plain then none else th.bank } th' (joinResult f th))

/-- R335, R336: `esc.open` and `esc.end` of a stream that the launch does not hold take the batcher trap; of one that it holds each takes a
number and waits for its arrival at the stream. -/
def StreamMarksBegin : Prop :=
  ∀ (i : Instr) (n : Nat) (s : State) (t : Nat), markOf i = some n → Alone s t i →
    (¬streamAllotted s t n → takesTraps (s.thread t) → ∃ s', exec i s = .next s' ∧ Trapped i s s' t 14 0 (s.thread t).pc) ∧
    (streamAllotted s t n → ∃ s' o, exec i s = .next s' ∧ OneThread s s' t ∧
      Began i (unitAccess 0x60 (fun _ => 0) fun _ => []) (s.thread t) (s'.thread t) o ∧ o.phase = .unitWait)

/-- R335: a push with a wrong count, a body id beyond 24 bits or a stream of another launch takes the batcher trap. After its boundary, which
raises the calibre clock, a push with room reserves it, takes a number and waits for its arrival; without room its thread is held
and takes none. -/
def PushesBegin : Prop :=
  ∀ (b a : BitVec 6) (k n : BitVec 3) (sm : BitVec 1) (s : State) (t : Nat), Alone s t (.escIn b a k n sm) →
    let i : Instr := .escIn b a k n sm
    let th := s.thread t
    let x := streamOf s (s.dieOf t) n.toNat
    (pushWrong th b k.toNat ∨ ¬streamAllotted s t n.toNat → takesTraps th →
      ∃ s', exec i s = .next s' ∧ Trapped i s s' t 14 0 th.pc) ∧
    (¬pushWrong th b k.toNat → streamAllotted s t n.toNat → boundaryFree s t →
      (roomFor x k.toNat → ∃ s' o, exec i s = .next s' ∧ s'.mem = s.mem ∧ (∀ v, v ≠ t → s'.thread v = s.thread v) ∧ ClocksAt s s' t 2 ∧
        Began i (unitAccess 0x60 (fun _ => 0) fun th => regsAsBytes th a.toNat 1 ++ regsAsBytes th b.toNat k.toNat) th (s'.thread t) o ∧
        o.phase = .unitWait ∧
        streamOf s' (s.dieOf t) n.toNat = { x with reserved := x.reserved + 1, reservedBodies := x.reservedBodies + k.toNat }) ∧
      (¬roomFor x k.toNat → ∃ s', exec i s = .next s' ∧ s'.mem = s.mem ∧ ClocksAt s s' t 2 ∧ EachThread s s' fun th th' =>
        th' = { passMarker i th with park := .streamRoom n.toNat k.toNat, since := th'.since }))

/-- R337 (outside replay): the earliest parked thread, or one that none precedes, receives the handle and slot of the first constraint of
the released batch not handed out, which is then handed out; on a Drained stream every thread receives -1, and so does one that was parked
when the stream drained; any other waits its turn, behind those that parked in earlier clocks and, of those of its own clock, those of a
lower home lane (R395; the order of one lane in several cores is the model's choice, log entry 77). A receipt reads the calibre clock. -/
def NextResults : Prop :=
  ∀ (a d : BitVec 6) (sm : BitVec 1) (s : State) (t : Nat), Alone s t (.escNext a d sm) → (∀ v, (s.thread v).lane < 64 ∧ s.coreOf v < 96 ∧ (s.trainOf v).quarter < 4) → s.replaying = false → s.gates = [] →
    let i : Instr := .escNext a d sm
    let x := streamOf s (s.dieOf t) a.toNat
    let turn := x.parked = [] ∨ x.parked.head? = some t
    let top := max (s.core (s.coreOf t)).lt (s.die (s.dieOf t)).cpc
    (¬streamAllotted s t a.toNat → takesTraps (s.thread t) → ∃ s', exec i s = .next s' ∧ Trapped i s s' t 14 0 (s.thread t).pc) ∧
    (streamAllotted s t a.toNat → (s.thread t).stage = 3 ∨ x.st = .drained → ∃ s', exec i s = .next s' ∧ s'.mem = s.mem ∧
      (s'.core (s.coreOf t)).lt = top ∧ (EachThread s s' fun th th' => Sent i th th' (twoWords d 0xFFFFFFFF 0xFFFFFFFF)) ∧
      streamOf s' (s.dieOf t) a.toNat = x) ∧
    (streamAllotted s t a.toNat → (s.thread t).stage ≠ 3 → x.st ≠ .drained → ∀ y, turn → x.released.find? (fun c => !c.given) = some y →
      ∃ s', exec i s = .next s' ∧ s'.mem = s.mem ∧ (s'.core (s.coreOf t)).lt = top ∧
        (EachThread s s' fun th th' => Sent i th th' (twoWords d y.handle (BitVec.ofNat 32 y.slot))) ∧
        streamOf s' (s.dieOf t) a.toNat = { x with
          parked := x.parked.filter (· ≠ t)
          released := x.released.map fun c => if c.slot = y.slot then { c with given := true } else c }) ∧
    (streamAllotted s t a.toNat → (s.thread t).stage ≠ 3 → x.st ≠ .drained → (turn → ∀ c ∈ x.released, c.given = true) →
      ∃ s', exec i s = .next s' ∧ s'.mem = s.mem ∧
        (EachThread s s' fun th th' => th' = { passMarker i th with park := .streamNext a.toNat, since := th'.since }) ∧
        ∃ p q, x.parked = p ++ q ∧ (∀ v ∈ p, servedBefore s t v = false) ∧ (t ∉ x.parked → ∀ v, q.head? = some v → servedBefore s t v = true) ∧
          streamOf s' (s.dieOf t) a.toNat = { x with parked := if t ∈ x.parked then x.parked else p ++ t :: q }) ∧
    ∀ v, servedBefore s t v = true ↔ (s.thread v).issuedAt = s.clk + 1 ∧ ((s.thread t).lane < (s.thread v).lane ∨
      ((s.thread t).lane = (s.thread v).lane ∧ (s.coreOf t < s.coreOf v ∨ (s.coreOf t = s.coreOf v ∧ (s.trainOf t).quarter < (s.trainOf v).quarter))))

/-- R334, R338, Table 13-4: `esc.done` of a slot not handed out takes the batcher trap; behind its calibre boundary it retires the constraint,
and the last of a batch releases the next. The threads parked at a stream that this drains are to receive -1 (R337). -/
def DoneRetires : Prop :=
  ∀ (b a : BitVec 6) (sm : BitVec 1) (s : State) (t : Nat), Alone s t (.escDone b a sm) →
    let i : Instr := .escDone b a sm
    let x := streamOf s (s.dieOf t) a.toNat
    let slot := bits (s.thread t) b
    let given := ∃ c ∈ x.released, c.slot = slot ∧ c.given = true
    (¬(streamAllotted s t a.toNat ∧ given) → takesTraps (s.thread t) →
      ∃ s', exec i s = .next s' ∧ Trapped i s s' t 14 0 (s.thread t).pc) ∧
    (streamAllotted s t a.toNat → given → boundaryFree s t → ∃ s', exec i s = .next s' ∧ s'.mem = s.mem ∧ ClocksAt s s' t 2 ∧
      Completed i (s.thread t) (s'.thread t) (nextPc i (s.thread t)) [] [] 0 ∧
      (∀ v, v ≠ t → s'.thread v = if (retired x slot).st = .drained ∧ v ∈ x.parked then { s.thread v with stage := 3 } else s.thread v) ∧
      streamOf s' (s.dieOf t) a.toNat = retired x slot)

/-- R340: `xq.cfg` takes a number; a record address with bits above 47 or not 32-byte aligned fails it at issue, and any other waits for
acceptance. -/
def QueueConfigBegins : Prop :=
  ∀ (a : BitVec 6) (sm : BitVec 1) (s : State) (t : Nat), Alone s t (.xqCfg a sm) →
    let x := (ux (s.thread t) a).toNat
    ∃ s' o, exec (.xqCfg a sm) s = .next s' ∧ OneThread s s' t ∧
      Began (.xqCfg a sm) (unitAccess 0x61 (fun th => (ux th a).toNat) fun _ => []) (s.thread t) (s'.thread t) o ∧
      o.phase = (if 2 ^ 48 ≤ x then .failed 6 else if x % 32 ≠ 0 then .failed 4 else .unitWait)

/-- R12, R341: behind its domain boundary `xq.in` takes a number; a bad selector or token fails it with the engine-parameter cause, a device
outside the job with protection; a push of this device waits for acceptance, and one of another device stands at its thread's port. (That a
pointer of the token with bits above 47 counts as a bad token is the model's reading of R341, log entry 43.) -/
def TokenPushesBegin : Prop :=
  ∀ (b a : BitVec 6) (sm : BitVec 1) (s : State) (t : Nat), Alone s t (.xqIn b a sm) → boundaryFree s t →
    let i : Instr := .xqIn b a sm
    let th := s.thread t
    let m := unitAccess 0x61 (fun _ => 0) fun th => regsAsBytes th a.toNat 1 ++ regsAsBytes th b.toNat 8
    let dev := pushDevice (bits th a)
    let ok := pushFields (bits th a) th b
    let job := dev < 384 ∧ dev ∈ s.members
    ∃ p o, ClocksAt s p t 4 ∧ p.mem = s.mem ∧ (∀ v, v ≠ t → p.thread v = s.thread v) ∧ Began i m th (p.thread t) o ∧
      (¬ok → exec i s = .next { p with bundle := [] } ∧ o.phase = .failed 16) ∧
      (ok → dev = Config.deviceId → exec i s = .next { p with bundle := [] } ∧ o.phase = .unitWait) ∧
      (ok → dev ≠ Config.deviceId → ¬job → exec i s = .next { p with bundle := [] } ∧ o.phase = .failed 6) ∧
      (ok → dev ≠ Config.deviceId → job → exec i s = .next { pump p with bundle := [] } ∧ o.phase = .ready)

/-- R11, R46, R346: `xq.done` outside the scratch range or misaligned traps; behind its domain boundary, with the entry's lines present, it
takes a number, capturing the entry's address and Reg[xB]; an entry whose combine record is misaligned fails it, and otherwise it goes
to the device that the entry names as a push does. -/
def TokenDoneBegins : Prop :=
  ∀ (b a : BitVec 6) (sm : BitVec 1) (s : State) (t : Nat), Alone s t (.xqDone b a sm) →
    let i : Instr := .xqDone b a sm
    let th := s.thread t
    let x := (ux th a).toNat
    let m := unitAccess 0x61 (fun th => (ux th a).toNat) fun th => regsAsBytes th b.toNat 2
    let entry := littleEndian ((List.range 32).map fun k => memRead (s.core (s.coreOf t)).scratch (x + k))
    let dev := entry / 2 ^ 55 % 512
    let job := dev < 384 ∧ dev ∈ s.members
    (¬inScratch s t x 32 → takesTraps th → ∃ s', exec i s = .next s' ∧ Trapped i s s' t 7 (BitVec.ofNat 64 x) th.pc) ∧
    (inScratch s t x 32 → x % 32 ≠ 0 → takesTraps th → ∃ s', exec i s = .next s' ∧ Trapped i s s' t 4 (BitVec.ofNat 64 x) th.pc) ∧
    (inScratch s t x 32 → x % 32 = 0 → boundaryFree s t → linesPresent s t x 32 →
      ∃ p o, ClocksAt s p t 4 ∧ p.mem = s.mem ∧ (∀ v, v ≠ t → p.thread v = s.thread v) ∧ Began i m th (p.thread t) o ∧
        (entry / 2 ^ 208 % 8 ≠ 0 → exec i s = .next { p with bundle := [] } ∧ o.phase = .failed 4) ∧
        (entry / 2 ^ 208 % 8 = 0 → dev = Config.deviceId → exec i s = .next { p with bundle := [] } ∧ o.phase = .unitWait) ∧
        (entry / 2 ^ 208 % 8 = 0 → dev ≠ Config.deviceId → ¬job → exec i s = .next { p with bundle := [] } ∧ o.phase = .failed 6) ∧
        (entry / 2 ^ 208 % 8 = 0 → dev ≠ Config.deviceId → job → exec i s = .next { pump p with bundle := [] } ∧ o.phase = .ready))

/-- R11, R48, R296, R345: `xq.take` in a train whose task no firing made traps as an illegal instruction. The first of a task writes the
batch's entries to scratch in their order, those that it has not written before it waited: where every line of them permits it, it frees
the fired-list entry and sends every executing thread the count; where the line of an entry is absent, or pinned, the entries before are
written and the threads wait for that line. A later one sends zero and writes nothing. While an older load of an executing thread has no value
yet, all of them wait first (R121; that they do is the model's reading, log entry 23). -/
def TakeResults : Prop :=
  ∀ (a d : BitVec 6) (sm : BitVec 1) (s : State) (e : Nat), Elected s (.xqTake a d sm) e →
    let i : Instr := .xqTake a d sm
    let x := (ux (s.thread e) a).toNat
    (firingOf s e = none → s.bundle = [e] → takesTraps (s.thread e) →
      ∃ s', exec i s = .next s' ∧ Trapped i s s' e 1 0 (s.thread e).pc) ∧
    (∀ q j, firingOf s e = some (q, j, true) → ∃ s', exec i s = .next s' ∧ OnlyThreads s s' ∧ EachThread s s' fun th th' =>
      Sent i th th' { regs := word d 0, preds := [], flags := 0 }) ∧
    ∀ q j, firingOf s e = some (q, j, false) →
      let f := mapGetD (mapGetD s.queues q {}).fired j ([], 0)
      let bs := f.1.flatMap fun k => tokenEntry k q (min (f.2 - k.at') (2 ^ 32 - 1))
      let w := entriesWritten s e
      let wrote := fun (s' : State) (n : Nat) => ∀ k, memRead (s'.core (s.coreOf e)).scratch k =
        if x + 32 * w ≤ k ∧ k < x + 32 * n then bs.getD (k - x) 0 else memRead (s.core (s.coreOf e)).scratch k
      let may := fun (n : Nat) => linesPresent s e (x + 32 * n) 32 ∧ linesUnpinned s e (x + 32 * n) 32
      inScratch s e x (32 * f.1.length) → x % 32 = 0 →
      ((∃ v ∈ s.bundle, readsOpen (s.thread v) = true) → ∃ s', exec i s = .next s' ∧ s'.mem = s.mem ∧ wrote s' w ∧
        (EachThread s s' fun th th' => th' = { passMarker i th with park := .reads, stage := 1, since := th'.since }) ∧
        firingOf s' e = some (q, j, false) ∧ entriesWritten s' e = w) ∧
      ((∀ v ∈ s.bundle, readsOpen (s.thread v) = false) → ((∀ n, w ≤ n → n < f.1.length → may n) →
        ∃ s', exec i s = .next s' ∧ s'.mem = s.mem ∧
          (EachThread s s' fun th th' => Sent i th th' { regs := word d f.1.length, preds := [], flags := 0 }) ∧ wrote s' f.1.length ∧
          mapGet? (mapGetD s'.queues q {}).fired j = none ∧ firingOf s' e = some (q, j, true)) ∧
      ∀ n, w ≤ n → n < f.1.length → (∀ k, w ≤ k → k < n → may k) → ¬may n →
        ∃ (s' : State) (p : Bool), (p = false ↔ ¬linesPresent s e (x + 32 * n) 32) ∧ exec i s = .next s' ∧ s'.mem = s.mem ∧
          (EachThread s s' fun th th' => th' = { passMarker i th with
            park := .scratch (x + 32 * n) (x + 32 * n + 32) p, stage := 1, since := th'.since }) ∧ wrote s' n ∧
          firingOf s' e = some (q, j, false) ∧ entriesWritten s' e = n)

/-- R357, R358, R363: `tk.spawn` behind its device boundary, with its record present in scratch and legal for its type, puts the record on the
queue of the core that it names where that has room, and goes on; the reading of the type's entry is `y`. -/
def SpawnPlaces : Prop :=
  ∀ (b a : BitVec 6) (sm : BitVec 1) (s : State) (t c : Nat) (l : Launch) (ent : BitVec 128), Alone s t (.tkSpawn b a sm) → boundaryFree s t →
    let i : Instr := .tkSpawn b a sm
    let x := (ux (s.thread t) a).toNat
    let lid := s.launchOf t
    let p := (boundaryStep (s.modThread t (passMarker i)) t 3).1
    let rc : BitVec 512 := BitVec.ofNat 512
      (littleEndian ((List.range 64).map fun k => memRead (s.core (s.coreOf t)).scratch (x + k)))
    let y := typeEntry p lid (s.coreOf t) (recType rc)
    inScratch s t x 64 → x % 64 = 0 → linesPresent s t x 64 → y.2 = (.ok, ent) → recordBad rc ent = false →
    y.1.launch? lid = some l → spawnTarget p t (getG (s.thread t) b.toNat) = some c →
    (mapGetD (y.1.core c).taskq (y.1.launchOf t) []).length < 1024 → y.1.launchOf t = lid →
    ∃ s', exec i s = .next s' ∧ s' = { y.1 with threads := s'.threads, cores := s'.cores, launches := s'.launches, bundle := [] } ∧
      Completed i (y.1.thread t) (s'.thread t) (nextPc i (y.1.thread t)) [] [] 0 ∧
      mapGetD (s'.core c).taskq lid [] = mapGetD (y.1.core c).taskq lid [] ++ [{ record := rc, number := l.tasks, addr := x }] ∧
      s'.launch? lid = some { l with tasks := l.tasks + 1 }

/-- R49, R358: `tk.hand` in a gang train traps as an illegal instruction. In a task's train it waits, before all else, until its range is
quiet; then, under the conditions of `tk.spawn`, it puts the record on its own core's queue with the train's scratch range, and the train has none from then on. -/
def HandPasses : Prop :=
  ∀ (a : BitVec 6) (sm : BitVec 1) (s : State) (t : Nat) (l : Launch) (ent : BitVec 128), Alone s t (.tkHand a sm) →
    let i : Instr := .tkHand a sm
    let x := (ux (s.thread t) a).toNat
    let lid := s.launchOf t
    let tr := s.trainOf t
    let p := (boundaryStep (s.modThread t (passMarker i)) t 3).1
    let rc : BitVec 512 := BitVec.ofNat 512
      (littleEndian ((List.range 64).map fun k => memRead (s.core (s.coreOf t)).scratch (x + k)))
    let y := typeEntry p lid (s.coreOf t) (recType rc)
    (tr.task = none → takesTraps (s.thread t) → ∃ s', exec i s = .next s' ∧ Trapped i s s' t 1 0 (s.thread t).pc) ∧
    (tr.task ≠ none → rangeQuiet (s.core (s.coreOf t)) tr.sbase tr.slen = false → ∃ s', exec i s = .next s' ∧ OnlyThreads s s' ∧
      EachThread s s' fun th th' => th' = { passMarker i th with park := .handOver, since := th'.since }) ∧
    (tr.task ≠ none → rangeQuiet (s.core (s.coreOf t)) tr.sbase tr.slen = true → boundaryFree s t → inScratch s t x 64 → x % 64 = 0 →
      linesPresent s t x 64 → y.2 = (.ok, ent) → recordBad rc ent = false → y.1.launch? lid = some l →
      (mapGetD (y.1.core (s.coreOf t)).taskq lid []).length < 1024 → y.1.trains = s.trains → (y.1.thread t).train = (s.thread t).train →
      ∃ s', exec i s = .next s' ∧ Completed i (y.1.thread t) (s'.thread t) (nextPc i (y.1.thread t)) [] [] 0 ∧
        mapGetD (s'.core (s.coreOf t)).taskq lid [] = mapGetD (y.1.core (s.coreOf t)).taskq lid [] ++
          [{ record := rc, number := l.tasks, addr := x, range := some (tr.sbase, tr.slen) }] ∧
        s'.launch? lid = some { l with tasks := l.tasks + 1 } ∧ s'.trainOf t = { tr with slen := 0 } ∧ s'.mem = y.1.mem)

/-- R360: `krd` sends a uniform register of the thread's own train; one at or beyond the train's count traps as an illegal instruction. -/
def UniformReads : Prop :=
  ∀ (a d : BitVec 6) (sm : BitVec 1) (s : State) (t : Nat), Alone s t (.krd a d sm) →
    (a.toNat < (s.trainOf t).kregs → ∃ s', exec (.krd a d sm) s = .next s' ∧ OnlyThreads s s' ∧ EachThread s s' fun th th' =>
      Sent (.krd a d sm) th th' { regs := [(d.toNat, mapGetD (s.trainOf t).k a.toNat 0)], preds := [], flags := 0 }) ∧
    ((s.trainOf t).kregs ≤ a.toNat → takesTraps (s.thread t) →
      ∃ s', exec (.krd a d sm) s = .next s' ∧ Trapped (.krd a d sm) s s' t 1 0 (s.thread t).pc)

/-- R361, R362: `rg.send` of a producer, every executing thread past its boundary, puts the elected thread's value in the next slot, with the
slot's index and the parity of its lap; a full ring holds the threads. Nothing else of the launch changes. -/
def RingSends : Prop :=
  ∀ (a d : BitVec 6) (sm : BitVec 1) (s : State) (e : Nat) (l : Launch) (x : Ring), Elected s (.rgSend a d sm) e → RingIs s e d.toNat l x →
    ¬outOfProtocol x (s.thread e).train → (∀ v ∈ s.bundle, boundaryFree s v) →
    (x.data.length < x.depth → ∃ s', exec (.rgSend a d sm) s = .next s' ∧
      s' = { s with threads := s'.threads, cores := s'.cores, launches := s'.launches, bundle := [] } ∧
      (EachThread s s' fun th th' => Completed (.rgSend a d sm) th th' (nextPc (.rgSend a d sm) th) [] [] 0) ∧
      RingChanged s s' e d.toNat l { producing x (s.thread e).train with
        sent := x.sent + 1
        data := x.data ++ [(getG (s.thread e) a.toNat, x.sent % x.depth, decide (x.sent / x.depth % 2 = 1))] }) ∧
    (x.depth ≤ x.data.length → ∃ s', exec (.rgSend a d sm) s = .next s' ∧ s'.launches = s.launches ∧ s'.mem = s.mem ∧
      EachThread s s' fun th th' => th' = { passMarker (.rgSend a d sm) th with park := .ringRoom d.toNat, stage := 1, since := th'.since })

/-- R361, R362: `rg.recv` takes the oldest slot and sends every executing thread its value, its index and its parity; on a ring that has ended
it sends the end mark; on an empty one that has not, the threads are held. -/
def RingReceives : Prop :=
  ∀ (a d : BitVec 6) (sm : BitVec 1) (s : State) (e : Nat) (l : Launch) (x : Ring), Elected s (.rgRecv a d sm) e → RingIs s e a.toNat l x →
    let i : Instr := .rgRecv a d sm
    (∀ v j ph r, x.data = (v, j, ph) :: r → ∃ s', exec i s = .next s' ∧
      s' = { s with threads := s'.threads, cores := s'.cores, launches := s'.launches, bundle := [] } ∧
      (EachThread s s' fun th th' => Sent i th th' (twoWords d v (BitVec.ofNat 32 (j % 256 + if ph then 256 else 0)))) ∧
      RingChanged s s' e a.toNat l { x with data := r, taken := x.taken + 1 }) ∧
    (x.data = [] →
      let p := s.bundle.foldl (fun s v => s.modThread v (passMarker i)) s
      (ringEnded p (s.trainOf e) a.toNat = true → ∃ s', exec i s = .next s' ∧ s'.launches = s.launches ∧ s'.mem = s.mem ∧
        EachThread s s' fun th th' => Sent i th th' (twoWords d 0 0x80000000)) ∧
      (ringEnded p (s.trainOf e) a.toNat = false → ∃ s', exec i s = .next s' ∧ s'.launches = s.launches ∧ s'.mem = s.mem ∧
        EachThread s s' fun th th' => th' = { passMarker i th with park := .ringData a.toNat, stage := 1, since := th'.since }))

/-- R361, R362: `rg.eos` records the end of the train's sends, once for the train. -/
def RingEnds : Prop :=
  ∀ (d : BitVec 6) (sm : BitVec 1) (s : State) (e : Nat) (l : Launch) (x : Ring), Elected s (.rgEos d sm) e → RingIs s e d.toNat l x →
    ¬outOfProtocol x (s.thread e).train →
    ∃ s', exec (.rgEos d sm) s = .next s' ∧ s' = { s with threads := s'.threads, launches := s'.launches, bundle := [] } ∧
      (EachThread s s' fun th th' => Completed (.rgEos d sm) th th' (nextPc (.rgEos d sm) th) [] [] 0) ∧
      RingChanged s s' e d.toNat l { producing x (s.thread e).train with ended := x.ended ++ [(s.thread e).train] }

/-- R362: a send or end after the train's own end, or of a train beyond the producers, and any ring instruction on a ring that the gang does
not have, its NPROD being 0, takes the ring-protocol trap, with nothing changed. In a bundle of several threads of a train the elected one
takes it, and the others go on (R296). (A train that runs a task has no ring: the model's reading, log entry 58.) -/
def RingProtocolTraps : Prop :=
  (∀ (i : Instr) (s : State) (t r : Nat), Alone s t i → takesTraps (s.thread t) → ringWrong i s t r →
    ∃ s', exec i s = .next s' ∧ Trapped i s s' t 15 0 (s.thread t).pc) ∧
  (∀ (i : Instr) (s : State) (e r : Nat), Elected s i e → takesTraps (s.thread e) → ringWrong i s e r →
    ∃ s', exec i s = .next s' ∧ s'.launches = s.launches ∧ SameBytes s s' ∧ (s'.thread e).pc = (s.thread e).pc ∧
      (s'.thread e).trap = some { cause := 15, pc := (s.thread e).pc, rpc := (s.thread e).pc, faddr := 0 } ∧
      ∀ v ∈ s.bundle, v ≠ e → Completed i (s.thread v) (s'.thread v) (nextPc i (s.thread v)) [] [] 0) ∧
  ∀ (h : BitVec 512) (g r : Nat), r < 4 → (h.extractLsb' (252 + 16 * r) 4 = 0 ↔ mapGet? (gangRings h g []) (g * 4 + r) = none)

/-- R366: `ph.end` behind its domain boundary holds its thread until the phase ends, and then sends the number of the phase that ended, which
is one less than the number of the next. -/
def PhaseEndResults : Prop :=
  ∀ (d : BitVec 6) (sm : BitVec 1) (s : State) (t : Nat), Alone s t (.phEnd d sm) →
    ((s.thread t).stage = 2 → ∃ s', exec (.phEnd d sm) s = .next s' ∧ OnlyThreads s s' ∧ EachThread s s' fun th th' =>
      Sent (.phEnd d sm) th th' { regs := [(d.toNat, BitVec.ofNat 32 (s.phase - 1))], preds := [], flags := 0 }) ∧
    ((s.thread t).stage ≠ 2 → boundaryFree s t → ∃ s', exec (.phEnd d sm) s = .next s' ∧ s'.mem = s.mem ∧ ClocksAt s s' t 4 ∧
      EachThread s s' fun th th' => th' = { passMarker (.phEnd d sm) th with park := .phaseEnd, since := th'.since })

/-- R374 with Tables 6-1 and 7-12: `srd` sends the special register that it selects; CLK goes to a pair. -/
def SpecialReads : Prop :=
  ∀ (a d : BitVec 6) (sm : BitVec 1) (s : State), Ready s (.srd a d sm) → a.toNat ≤ 8 →
    ∃ s', exec (.srd a d sm) s = .next s' ∧ OnlyThreads s s' ∧ EachThread s s' fun th th' =>
      ∃ l, selected s th d a.toNat = some l ∧ Sent (.srd a d sm) th th' { regs := l, preds := [], flags := 0 }

/-- R368, R374 with Table 15-2: `csrr` writes a control register to gD at once, and changes nothing else. -/
def ControlReads : Prop :=
  ∀ (a d : BitVec 6) (sm : BitVec 1) (s : State) (t : Nat) (v : Nat), Alone s t (.csrr a d sm) → controlReg s t a.toNat = some v →
    ∃ s', exec (.csrr a d sm) s = .next s' ∧ OnlyThreads s s' ∧ EachThread s s' fun th th' =>
      Completed (.csrr a d sm) th th' (nextPc (.csrr a d sm) th) (word d v) [] 0

/-- R217, R368, R374 with Table 15-2: `csrw`, `csrs` and `csrc` write Reg[gB] to a control register, set its bits there and clear them; reserved
bits stay zero, flags that the hardware gives FSTAT in the same clock are ORed with what is written, and nothing else of any thread
changes. -/
def ControlWrites : Prop :=
  ∀ (i : Instr) (a b : BitVec 6) (f : Nat → Nat → Nat) (s : State) (t : Nat) (v : Nat) (y : Thread), controlWrite i = some (a, b, f) →
    Alone s t i → controlReg s t a.toNat = some v → withControl (s.thread t) a.toNat (f v (amount (s.thread t) b)) = some y →
    ∃ s', exec i s = .next s' ∧ OnlyThreads s s' ∧ EachThread s s' fun th th' => th' = issued i y (nextPc i th)

/-- R369, R370, R374: `brk` raises the breakpoint trap, with n as the faulting address and the next instruction as the resume PC; in handler
mode it overflows, which stops the thread with bit 20 of TPEND set. -/
def BreakpointTraps : Prop :=
  ∀ (a : BitVec 6) (sm : BitVec 1) (s : State) (t : Nat), Alone s t (.brk a sm) →
    (takesTraps (s.thread t) → ∃ s', exec (.brk a sm) s = .next s' ∧
      Trapped (.brk a sm) s s' t 17 (BitVec.ofNat 64 a.toNat) (nextPc (.brk a sm) (s.thread t))) ∧
    ((s.thread t).helper = none → (s.thread t).hm = true → ∃ s', exec (.brk a sm) s = .next s' ∧ (s'.thread t).stopped = true ∧
      (s'.thread t).trap = none ∧ (s'.thread t).tpend = (s.thread t).tpend ||| 0x100000 ∧ (s'.thread t).pc = (s.thread t).pc)

/-- R371, R374: `eret` outside handler mode is an illegal instruction. In handler mode it waits until no result is outstanding; with no cause
held it ends handler mode and goes to the RPC of the trap area as it stands, with bit 0 dropped (the
model's choice, log entry 65: a PC is always even, R187), and nothing else of the thread changes but its write set;
with causes held it delivers the lowest, clears its bit and stays in handler mode, at TVEC. -/
def TrapReturns : Prop :=
  ∀ (sm : BitVec 1) (s : State) (t : Nat), Alone s t (.eret sm) →
    ((s.thread t).hm = false → ∃ s', exec (.eret sm) s = .next s' ∧ Trapped (.eret sm) s s' t 1 0 (s.thread t).pc) ∧
    ((s.thread t).hm = true → outstanding (s.thread t) = true → ∃ s', exec (.eret sm) s = .next s' ∧ Held s s' t .results) ∧
    ((s.thread t).hm = true → outstanding (s.thread t) = false →
      let p := s.modThread t fun th => { th with pendG := 0, pendQ := 0 }
      let r := readArea p t 16 1
      let a := checkArea p t
      ((s.thread t).tpend = 0 → r.2.1 = .ok → ∃ s' w, exec (.eret sm) s = .next s' ∧
        s' = { r.1 with threads := s'.threads, bundle := [] } ∧ (∀ v, v ≠ t → s'.thread v = r.1.thread v) ∧
        s'.thread t = { r.1.thread t with
          hm := false, pc := BitVec.ofNat 48 (littleEndian r.2.2 / 2 * 2), park := .none, bnd := none, stage := 0, passed := 0, ws := w } ∧
        ∀ e ∈ w, e.handler = false) ∧
      ∀ c, lowestHeld (s.thread t) c → a.2 = .ok → ∃ s', exec (.eret sm) s = .next s' ∧ (s'.thread t).hm = true ∧
        (s'.thread t).pc = (s.thread t).tvec ∧ (s'.thread t).tpend = (s.thread t).tpend &&& ~~~((1 : Word) <<< c) ∧
        (s'.thread t).trap = none ∧ getG (s'.thread t) = getG (s.thread t))

/-- R249: `hzreplay` outside handler mode is an illegal instruction; with causes held it does as `eret` does. Else it reads the record, ends
handler mode, starts the record's failable operations again under new sequence numbers, and goes to the record's RPC with bit 0 dropped (the model's choice, log entry 65); an operation
that cannot start yet may hold it first (no such entry here). -/
def ReplayReturns : Prop :=
  ∀ (sm : BitVec 1) (s : State) (t : Nat), Alone s t (.hzreplay sm) →
    ((s.thread t).hm = false → ∃ s', exec (.hzreplay sm) s = .next s' ∧ Trapped (.hzreplay sm) s s' t 1 0 (s.thread t).pc) ∧
    ((s.thread t).hm = true → (s.thread t).tpend ≠ 0 → exec (.hzreplay sm) s = exec (.eret sm) s) ∧
    ((s.thread t).hm = true → (s.thread t).tpend = 0 →
      let p := s.modThread t (passMarker (.hzreplay sm))
      let r := readArea p t 0 136
      let l := replayList (p.thread t) (p.trainOf t).regs r.2.2
      r.2.1 = .ok → unresolved (s.thread t) + l.length ≤ 16 → (∀ e ∈ l, replayWait r.1 t e = none) →
      ∃ s', exec (.hzreplay sm) s = .next s' ∧ s'.bundle = [] ∧ (s'.thread t).hm = false ∧
        (s'.thread t).pc = BitVec.ofNat 48 (littleEndian ((r.2.2.drop 16).take 8) / 2 * 2) ∧
        (s'.thread t).seq = (r.1.thread t).seq + BitVec.ofNat 16 l.length ∧
        (l = [] → (s'.thread t).ops = (r.1.thread t).ops ∧ s' = { r.1 with threads := s'.threads, bundle := [] }))

/-- R51, R182, R183, R279, R307: a result of a thread arrives. A scratch load, the k-th of its thread on its way, and any other result, the
k-th of its sort, whose engine commands are accepted or have failed: its registers, predicates and flags are written, and nothing else. The
results of the scratch loads of one bundle arrive together, in every thread of it (R51). (That a commit's number may arrive also where its
commands stand behind a failed older operation is the model's reading of R307, log entry 31.) -/
def ResultArrivals : Prop :=
  (∀ (s : State) (t k : Nat) (r : Result) (a b : List Result), liveThread s t = true → standsAt (s.thread t) k a r b → r.load = true →
    r.batch = none → r.group = 0 →
    ∃ s', exec (.loadResultArrival t (2 ^ 16 + k)) s = .next s' ∧ s' = { s with threads := s'.threads } ∧
      (∀ v, v ≠ t → s'.thread v = s.thread v) ∧ Arrived (s.thread t) (s'.thread t) r (a ++ b)) ∧
  (∀ (s : State) (t k : Nat) (r : Result) (a b : List Result), liveThread s t = true → standsAt (s.thread t) k a r b → r.load = true →
    r.group ≠ 0 → (s.threads.map (·.1)).Nodup →
    (∀ v, ∀ x ∈ (s.thread v).results, x.load = true → x.group = r.group →
      x.batch = none ∧ (x.regs.map (·.1)).Nodup ∧ (x.preds.map (·.1)).Nodup) →
    ∃ s', exec (.loadResultArrival t (2 ^ 16 + k)) s = .next s' ∧ s' = { s with threads := s'.threads } ∧
      ∀ v, (∀ a' r' b', firstOf r.group (s.thread v) a' r' b' → Arrived (s.thread v) (s'.thread v) r' (a' ++ b')) ∧
        ((∀ x ∈ (s.thread v).results, ¬(x.load = true ∧ x.group = r.group)) → s'.thread v = s.thread v)) ∧
  (∀ (s : State) (t k : Nat) (r : Result) (a b : List Result), liveThread s t = true → standsAt (s.thread t) k a r b → r.load = false →
    r.batch = none → (∀ m ∈ (s.core (s.coreOf t)).mxq, m.id ∈ r.after →
      m.accepted = true ∨ ∃ x ∈ olderOps m.seq.toNat (s.thread m.thread).ops, opFailed x = true) →
    ∃ s', exec (.variableLatencyResultArrival t k) s = .next s' ∧ s' = { s with threads := s'.threads } ∧
      (∀ v, v ≠ t → s'.thread v = s.thread v) ∧ Arrived (s.thread t) (s'.thread t) r (a ++ b))

/-- R57, R92, R117, R279, R285: the data of a device-space load that may be performed, and the old value of an atomic that its home has
performed, return: the registers hold them, and the operation is resolved; `pump` sends what of the threads' operations may now
leave. A load whose line must first be recalled stays as it is, its request under way. Loads of one bundle that hit, or that missed
one line, arrive together: those of their lanes that may be performed are, one after the other. -/
def OperationArrivals : Prop :=
  (∀ (s : State) (t seq : Nat) (o : Op) (m : MemAccess), liveThread s t = true → seq < 2 ^ 16 → opOf? (s.thread t) seq = some o →
    o.kind = 0x10 ∨ o.kind = 0x11 → accessOf o.insn = some m → m.space = 1 → m.kind = o.kind → o.phase = .ready →
    mayPerform (s.thread t) o = true → loadLanes s t o = [(t, o)] →
    let r := performLoad s t o (.op t o.seq.toNat)
    (∀ b, r.2 = some b → b.length = m.size → opOf? (r.1.thread t) seq = some o →
      ∃ p, exec (.loadResultArrival t seq) s = .next (pump p) ∧ OpDelivered r.1 p t seq o m b) ∧
    (r.2 = none → exec (.loadResultArrival t seq) s = .next r.1)) ∧
  (∀ (s : State) (t seq : Nat) (o : Op), liveThread s t = true → seq < 2 ^ 16 → opOf? (s.thread t) seq = some o →
    o.kind = 0x10 ∨ o.kind = 0x11 → memSpace o.insn = 1 → o.phase = .ready → mayPerform (s.thread t) o = true →
    (∀ x ∈ loadLanes s t o, mayPerform (s.thread x.1) x.2 = true) →
    let r := performLoads (loadLanes s t o) s (loadLanes s t o)
    (∀ l, r.2 = some l → ∃ p, exec (.loadResultArrival t seq) s = .next (pump p) ∧ p = { r.1 with threads := p.threads } ∧
      (∀ v, (∀ x ∈ l, x.1 ≠ v) → p.thread v = r.1.thread v) ∧
      ∀ x ∈ l, ∀ y, opOf? (p.thread x.1) x.2.1.seq.toNat = some y → y.phase = .resolved ∧ y.performed = true) ∧
    (r.2 = none → exec (.loadResultArrival t seq) s = .next r.1)) ∧
  (∀ (s : State) (t seq : Nat) (o : Op) (m : MemAccess), opOf? (s.thread t) seq = some o → o.kind = 0x30 → accessOf o.insn = some m →
    m.kind = 0x30 → o.phase = .sent → o.value.length = m.size →
    ∃ p, exec (.atomicReplyArrival t seq) s = .next (pump p) ∧ OpDelivered s p t seq o m o.value)

/-- R16, R19, R424: a walk that ends gives its outcome to each operation that waits on its page, in their order, and the miss entry is
free once nothing waits on it: an operation whose page is translated goes on, one whose access fails holds its cause, and an invalid
entry stalls the core for its fault. -/
def WalkOutcomes : Prop :=
  (∀ (s : State) (ctx c page : Nat), (∃ m ∈ (s.core c).misses, m.ctx = ctx ∧ m.page = page ∧ m.faulted = false) →
    ∃ s' p, exec (.translationWalkComplete ctx c page) s = .next s' ∧
      p = (joined? s c ctx page).foldl (fun s x => walkOne s c ctx x) s ∧
      (joined? p c ctx page = [] → OneCore p s' c { p.core c with
        misses := (p.core c).misses.filter fun m => !(m.ctx = ctx && m.page = page && !m.faulted) }) ∧
      (joined? p c ctx page ≠ [] → s' = p)) ∧
  ∀ (s : State) (c ctx t seq : Nat) (o : Op), opOf? (s.thread t) seq = some o →
    let r := translateNow s c (s.trainOf t).quarter ctx o.addr.toNat (accOf o.insn)
    (∀ pa leaf e b, r.2 = .ok pa leaf e b → walkOne s c ctx (t, seq) = lookedUp (translated r.1 t seq pa leaf) t seq) ∧
    (∀ cause f, r.2 = .fail cause f → ∃ p, walkOne s c ctx (t, seq) = p ∧ p = { r.1 with threads := p.threads } ∧
      ∀ x, opOf? (p.thread t) seq = some x → x.phase = .failed cause ∧ x.faddr = BitVec.ofNat 64 f) ∧
    (r.2 = .missing → ∃ p k, walkOne s c ctx (t, seq) = p ∧ OneCore r.1 p c k ∧ k.stall = some (ctx, s.launchOf t) ∧
      ∃ m ∈ k.misses, m.ctx = ctx ∧ m.page = o.addr.toNat / 2 ^ 16 ∧ m.faulted = true)

/-- R424 with R16: the system cores install the entries that they give, and the walks of the pages begin again from level 1, or they decline:
then the operations that met the fault fail with cause 5, and each other agent that met it (an engine, a trap area, a block's read) meets
the refusal when it comes again, once and no other agent does (that it does so then is the model's choice, log entry 25, and so is the core
number of a remote fault). Either way the core goes on, its faults served, unless its overflow area is full. A fault at this device of
another device's request, told by a core number from 96 on, stalls no core. -/
def FaultsServiced : Prop :=
  (∀ (s : State) (c : Nat) (l : List (Nat × DWord)), c < 96 → (∃ m ∈ (s.core c).misses, m.faulted = true) →
    let p := ((s.core c).misses.filter fun m => m.faulted).foldl (fun s m => walksDrop s m.ctx (m.page * 2 ^ 16) (2 ^ 16)) (installEntries s l)
    ∃ s', exec (.serviceableFaultServiced c (some l)) s = .next s' ∧ OneCore p s' c { p.core c with
      misses := (p.core c).misses.map fun m => { m with faulted := false }
      stall := if (p.core c).overflowFull then (p.core c).stall else none }) ∧
  (∀ (s : State) (c : Nat) (l : List (Nat × DWord)), 96 ≤ c → exec (.serviceableFaultServiced c (some l)) s = .next (installEntries s l)) ∧
  (∀ (s : State) (c : Nat) (m : Miss), c < 96 → ((s.core c).misses.filter fun x => x.faulted) = [m] →
    joined? s c m.ctx m.page = [] → (∀ x ∈ m.met, 2 ^ 16 < x.2) →
    ∃ s', exec (.serviceableFaultServiced c none) s = .next s' ∧ OneCore s s' c { s.core c with
      misses := ((s.core c).misses.map fun x => { x with faulted := false }).filter fun x => !(x.ctx = m.ctx && x.page = m.page)
      stall := if (s.core c).overflowFull then (s.core c).stall else none
      declined := (s.core c).declined ++ m.met.eraseDups.map fun x => ((m.ctx, m.page), x) }) ∧
  (∀ (s : State) (c ctx lid page : Nat) (w : Bool) (who : Nat × Nat),
    (((ctx, page), who) ∈ (s.core c).declined → (metMissing s c ctx lid page w who).2 = true ∧
      OneCore s (metMissing s c ctx lid page w who).1 c { s.core c with declined := (s.core c).declined.erase ((ctx, page), who) }) ∧
    (((ctx, page), who) ∉ (s.core c).declined → (metMissing s c ctx lid page w who).2 = false ∧
      ∃ k, OneCore s (metMissing s c ctx lid page w who).1 c k ∧ k.stall.isSome = true ∧
        ∃ m ∈ k.misses, m.ctx = ctx ∧ m.page = page ∧ m.faulted = true)) ∧
  ∀ (s : State) (c t seq : Nat) (m : Miss) (o : Op), c < 96 → ((s.core c).misses.filter fun x => x.faulted) = [m] →
    joined? s c m.ctx m.page = [(t, seq)] → m.met = [] → opOf? (s.thread t) seq = some o →
    ∃ s', exec (.serviceableFaultServiced c none) s = .next s' ∧ (∀ v, v ≠ t → s'.thread v = s.thread v) ∧
      (s'.core c).declined = (s.core c).declined ∧ (∀ x ∈ (s'.core c).misses, ¬(x.ctx = m.ctx ∧ x.page = m.page)) ∧
      ∀ x, opOf? (s'.thread t) seq = some x →
        x.phase = .failed 5 ∧ x.faddr = BitVec.ofNat 64 (max o.addr.toNat (m.page * 2 ^ 16))

/-- R21 to R23, R425 with Table 3-1: a shootdown that every core named can acknowledge (each request translated under its range has reached its
home) takes every translation that meets its range out of the caches of those cores and out of the dies' walk caches, with the lines of
their instruction caches and L1s that were reached through it; another core keeps its translations and its instruction cache. A run of
the classifier, for an access that conflicts with its page's classification, ends with a shootdown of its page on all cores. -/
def TranslationsRemoved : Prop :=
  (∀ (s : State) (ctx lo len : Nat) (cs : List Nat), shootAcks s ctx lo len cs = true →
    ∃ s', exec (.translationShootdown ctx lo len cs) s = .next s' ∧ s'.threads = s.threads ∧
    (∀ c, c ∉ cs → (s'.core c).tlb = (s.core c).tlb ∧ (s'.core c).qtlb = (s.core c).qtlb ∧ (s'.core c).icache = (s.core c).icache) ∧
    (∀ c ∈ cs, (s'.core c).tlb = ((s.core c).tlb.filter fun e => !pageMeets e ctx lo len) ∧
      (∀ q, mapGetD (s'.core c).qtlb q [] = (mapGetD (s.core c).qtlb q []).filter fun e => !pageMeets e ctx lo len) ∧
      (∀ x ∈ (s'.core c).icache, x ∈ (s.core c).icache ∧ ¬ reachedIn x.2.tags ctx lo len) ∧
      (∀ x ∈ (s.core c).icache, ¬ reachedIn x.2.tags ctx lo len → x ∈ (s'.core c).icache) ∧
      ∀ x ∈ (s'.core c).l1, ¬ reachedIn x.2.tags ctx lo len) ∧
    ∀ d, ∀ w ∈ (s'.die d).walks, ¬ walkMeets w ctx lo len) ∧
  ∀ (s : State) (ctx page entry : Nat) (e : DWord) (big : Bool), (walk s ctx (page * 2 ^ 16) .read).2 = .leaf e entry big →
    e.extractLsb' 62 2 ≠ 2 → e.getLsbD 11 = false → conflictWaits s ctx page e big = true →
    let n : Nat := if big then 2 ^ 21 else 2 ^ 16
    ∃ s', exec (.classifierRun ctx page) s = .next s' ∧
      ∀ c < 96, ∀ x ∈ (s'.core c).tlb, pageMeets x ctx (page * 2 ^ 16 / n * n) n = false

/-- R61 to R66: a range operation whose older operations have all resolved starts. One of remote or host space that no cached line falls
under, and with no request of its own outstanding, resolves at once; one of the device space publishes the thread's own entries in the
range, once its older strong stores are performed, and resolves, fails with the cause of its translation, or stalls its core for a missing
page. (That it waits for the older strong stores, and reads the write set as it then stands, is the model's reading, log entries 19 and 40.)
-/
def RangeWalks : Prop :=
  ∀ (s : State) (t seq : Nat) (o : Op) (m : MemAccess), opOf? (s.thread t) seq = some o → rangeOf o.insn = some m → m.kind = o.kind →
    o.phase = .ready → (∀ x ∈ olderOps seq (s.thread t).ops, x.phase = .resolved) →
    (m.space ≠ 1 → (∀ d, (s.die d).rdc = [] ∧ (s.die d).fills = []) → (∀ r ∈ s.out, (t, o.seq) ∉ r.2.who) →
      exec (.rangeWalkStart t seq) s = .next (pump (resolveOp s t o.seq.toNat))) ∧
    (m.space = 1 → (∀ x ∈ olderOps seq (s.thread t).ops, x.performed = true ∨ x.kind ≠ 0x21) →
      let r := transPieces s (some (s.coreOf t)) (s.ctxOf t) .read (pagePieces o.addr.toNat (o.addr.toNat + natOfBytes o.data) 65538) []
      (∀ l, r.2 = .ok l → (∀ e ∈ boundaryEntries (viewOf (s.thread t) o), entryIn e l ≠ [] → lineWaits r.1 e.line true = false) →
        exec (.rangeWalkStart t seq) s = .next (resolveOp (publishRange r.1 t o l) t seq)) ∧
      (∀ a cause f, r.2 = .error (a, .fail cause f) →
        exec (.rangeWalkStart t seq) s = .next (failOp r.1 t seq cause (BitVec.ofNat 64 (if cause = 5 then f else a)))) ∧
      (∀ a, r.2 = .error (a, .missing) → ∃ s' k, exec (.rangeWalkStart t seq) s = .next s' ∧ OneCore r.1 s' (s.coreOf t) k ∧
        k.stall = some (s.ctxOf t, s.launchOf t) ∧ ∃ x ∈ k.misses, x.faulted = true ∧ (t, seq) ∈ x.met))

/-- R71, R78, R425 with Table 3-1: a tick, one for each 1,024 clocks that have passed, raises the logical time of one core by one; a rebase,
when some clock of the device has reached 2^62, sets every clock and timestamp to zero and drops every line of the L1s and instruction
caches. Where no L1 line is dirty it changes no byte of memory and no directory state. (That a rebase drops every L1 line, where R78 names
the leased ones, and zeroes the time that a boundary keeps, is the model's choice, log entry 57.) -/
def LogicalTimeSteps : Prop :=
  (∀ (s : State) (c : Nat), c < 96 → (s.core c).ticks < s.clk / 1024 →
    ∃ s', exec (.ltTick c) s = .next s' ∧ OneCore s s' c { s.core c with lt := (s.core c).lt + 1, ticks := (s.core c).ticks + 1 }) ∧
  ∀ s : State, (2 ^ 62 ≤ s.dpc ∨ (∃ p ∈ s.cores, 2 ^ 62 ≤ p.2.lt) ∨ ∃ p ∈ s.dies, 2 ^ 62 ≤ p.2.cpc) →
    ∃ s', exec .rebase s = .next s' ∧ s'.dpc = 0 ∧
      (∀ c, (s'.core c).lt = 0 ∧ (s'.core c).l1 = [] ∧ (s'.core c).icache = []) ∧
      (∀ d, (s'.die d).mt = 0 ∧ (s'.die d).cpc = 0 ∧ (∀ x ∈ (s'.die d).l2, x.2.wts = 0 ∧ x.2.rts = 0) ∧
        ∀ x ∈ (s'.die d).rdc, x.2.wts = 0 ∧ x.2.rts = 0) ∧
      (∀ t b, (s'.thread t).bnd = some b → b.tmax = 0) ∧
      ((∀ p ∈ s.cores, ∀ x ∈ p.2.l1, x.2.dirty = false) → s'.mem = s.mem ∧
        (∀ d l, (mapGet? (s'.die d).dir l).map (·.st) = (mapGet? (s.die d).dir l).map (·.st)) ∧
        (∀ d l, mapGet? (s'.die d).l2 l = (mapGet? (s.die d).l2 l).map fun x => { x with wts := 0, rts := 0 }) ∧
        ∀ d l, mapGet? (s'.die d).rdc l = (mapGet? (s.die d).rdc l).map fun x => { x with wts := 0, rts := 0 })

/-- R74, R77, R81, R90: where bytes stand. Of a line that stands at its home alone, a strong load takes the bytes that stand there, as does a
weak one of a PRIVATE or READONLY page and, where the L1 has no copy, of the home's own die. A strong store of another page puts its bytes
there and changes no other byte of memory, takes the larger of the core's logical time and one more than the line's rts for its time, and
leaves the line at its home alone with that as wts, rts and logical time; so does the publication of an entry by a core of the home's die. -/
def BytesAtHome : Prop :=
  (∀ (s : State) (t : Nat) (o : Op) (w : Waiter), AtHome s (o.pa / 128) → let n := accessLen o.insn
    o.pa % 128 + n ≤ 128 → (∀ e ∈ (viewOf (s.thread t) o).ws, e.line ≠ o.pa / 128) →
    (o.kind = 0x11 ∨ o.cls ≤ 1 ∨ (mapGet? (s.core (s.coreOf t)).l1 (o.pa / 128) = none ∧ homeDie (o.pa / 128) = dieOfCore (s.coreOf t))) →
    (performLoad s t o w).2 = some ((upTo n).map fun i => homeByte s (o.pa + i))) ∧
  (∀ (s : State) (c pa cls ctx page : Nat) (data : List Byte) (w : Waiter), AtHome s (pa / 128) → cls ≠ 0 → pa % 128 + data.length ≤ 128 →
    let r := storeStrong s c (pa / 128) cls ctx page (data.zipIdx.map fun p => (pa % 128 + p.2, p.1)) w
    let n := max (s.core c).lt (homeRts s (pa / 128) + 1)
    r.2 = some n ∧ AtHome r.1 (pa / 128) ∧ (r.1.core c).lt = n ∧ (l2Get r.1 (pa / 128)).wts = n ∧ (l2Get r.1 (pa / 128)).rts = n ∧
      ∀ a, homeByte r.1 a = if pa ≤ a ∧ a < pa + data.length then data.getD (a - pa) 0 else homeByte s a) ∧
  ∀ (s : State) (c line cls ctx page : Nat) (b : SMap Byte) (w : Waiter), AtHome s line → cls ≠ 0 → homeDie line = dieOfCore c →
    (b.map (·.1)).Nodup → (∀ x ∈ b, x.1 < 128) →
    let r := publish s c line cls ctx page b w
    let n := max (s.core c).lt (homeRts s line + 1)
    r.2 = some n ∧ AtHome r.1 line ∧ (r.1.core c).lt = n ∧ (l2Get r.1 line).wts = n ∧ (l2Get r.1 line).rts = n ∧
      ∀ a, homeByte r.1 a = if a / 128 = line then mapGetD b (a % 128) (homeByte s a) else homeByte s a

/-- R56, R83, R90, R126: the home acknowledges a strong store that may be performed, with the others of its bundle to its line, and they are
performed; with none left, it acknowledges an entry of the write set that a boundary publishes, whose time the boundary keeps (of an
entry that later strong stores have emptied the core's time counts); and with none of those left the boundary writes the clocks of its
scope. A store or an entry whose line must first be recalled stays as it is, its request under way. -/
def AcknowledgedWrites : Prop :=
  ∀ (s : State) (t k : Nat),
    (∀ seq o, (strongStores (s.thread t))[k]? = some seq → opOf? (s.thread t) seq = some o →
      let l := storeLanes s t o
      let r := storeStrong s (s.coreOf t) (o.pa / 128) o.cls (s.ctxOf t) (o.addr.toNat / 2 ^ 16)
        (l.flatMap fun x => x.2.data.zipIdx.map fun p => (x.2.pa % 128 + p.2, p.1)) (lineWaiter l (t, o))
      (∀ x ∈ l, mayPerform (s.thread x.1) x.2 = true) →
      (∀ n, r.2 = some n → ∃ p, exec (.performedAcknowledgement t k) s = .next (pump p) ∧ p = { r.1 with threads := p.threads } ∧
        (∀ v, (∀ x ∈ l, x.1 ≠ v) → p.thread v = r.1.thread v) ∧
        ∀ x ∈ l, ∀ y, opOf? (p.thread x.1) x.2.seq.toNat = some y → y.performed = true) ∧
      (r.2 = none → exec (.performedAcknowledgement t k) s = .next r.1)) ∧
    (∀ b, strongStores (s.thread t) = [] → (s.thread t).bnd = some b → b.done = false →
      (boundaryEntries (s.thread t) = [] → ∃ s', exec (.performedAcknowledgement t k) s = .next s' ∧ s'.mem = s.mem ∧
        s'.thread t = { s.thread t with bnd := some { b with done := true } } ∧
        s'.dpc = (if 3 ≤ b.scope then max s.dpc b.tmax else s.dpc) ∧ (s'.core (s.coreOf t)).lt = max (s.core (s.coreOf t)).lt b.tmax) ∧
      (∀ e, (boundaryEntries (s.thread t))[k]? = some e → e.bytes = [] →
        ∃ s', exec (.performedAcknowledgement t k) s = .next s' ∧ s' = { s with threads := s'.threads } ∧
          (s'.thread t).bnd = some { b with tmax := max b.tmax (s.core (s.coreOf t)).lt } ∧
          (s'.thread t).ws = (s.thread t).ws.filter fun x => !(x.line = e.line && x.handler = e.handler)) ∧
      (∀ e, (boundaryEntries (s.thread t))[k]? = some e → e.bytes ≠ [] →
        let r := publish s (s.coreOf t) e.line e.cls (s.ctxOf t) e.page e.bytes (.boundary t)
        (∀ n, r.2 = some n → ∃ s', exec (.performedAcknowledgement t k) s = .next s' ∧ s' = { r.1 with threads := s'.threads } ∧
          (s'.thread t).bnd = some { b with tmax := max b.tmax n } ∧
          (s'.thread t).ws = (r.1.thread t).ws.filter fun x => !(x.line = e.line && x.handler = e.handler)) ∧
        (r.2 = none → exec (.performedAcknowledgement t k) s = .next r.1)))

/-- R80: the system cores give a core's full overflow area room, of 256 bytes for each entry, or decline; either way its issue goes on unless a
fault is under service, and the weak stores that waited are placed, or fail. (The 256 bytes are the model's choice, log entry 8.) -/
def OverflowServiced : Prop :=
  ∀ (s : State) (c : Nat) (room : Option Nat), (s.core c).overflowFull = true →
    ∃ p, exec (.overflowAreaServiced c room) s = .next (retryWeak p c room.isNone) ∧ OneCore s p c { s.core c with
      overflowFull := false
      overflowLen := (s.core c).overflowLen + 256 * room.getD 0
      stall := if (s.core c).misses.any (·.faulted) then (s.core c).stall else none }

/-- R92, R285, R286, R410: the home's service train performs the waiting requests of one bundle to one line together, in ascending lane; in
replay only the one that the order gate names. Those requests wait no longer where every copy of the line is back at its home. Of a
line that stands at its home alone each lane's word then holds the new value of that lane's operation, in ascending lane, each operation has
the value that it found there, and no other byte changes. (The grouping of `fadd.ra` is free, log entry 6.) -/
def AtomicsServed : Prop :=
  (∀ (s : State) (k : Nat) (g : Nat × Nat), (atomGroups s.atoms)[k]? = some g → AtHome s g.2 →
    let l := servedLanes s g
    l ≠ [] → (l.map fun r => (r.thread, r.seq)).Nodup → (∀ r ∈ l, r.op ≠ 11 ∧ r.pa % (if r.w64 then 8 else 4) = 0 ∧
      ∃ o, opOf? (s.thread r.thread) r.seq.toNat = some o ∧ mayPerform (s.thread r.thread) o = true) →
    ∃ s', exec (.serviceTrainAtomic k) s = .next s' ∧ (∀ a, homeByte s' a = l.foldl laneMade (homeByte s) a) ∧
      ∀ p r q, l = p ++ r :: q → ∀ y, opOf? (s'.thread r.thread) r.seq.toNat = some y → y.performed = true ∧
        y.value = (upTo (if r.w64 then 8 else 4)).map fun i => p.foldl laneMade (homeByte s) (r.pa + i)) ∧
  ∀ (s : State) (k : Nat) (g : Nat × Nat), (atomGroups s.atoms)[k]? = some g → servedLanes s g ≠ [] → atomsMay s (servedLanes s g) = true →
    ∃ s', exec (.serviceTrainAtomic k) s = .next s' ∧
      let q := ensureHomeWrite (settlePlain s g.2 true) g.2 (.atoms g.1)
      (q.2 = false → s' = q.1) ∧
      (q.2 = true → (∀ a, a ∈ s'.atoms → a ∉ servedLanes s g) ∧ ∀ a ∈ q.1.atoms, a ∉ servedLanes s g → a ∈ s'.atoms)

/-- The values of Table 11-7 in integers (R285): what an atomic operation puts in place of a 32-bit or 64-bit value, given its operand and,
for a compare-and-swap, its compare value; the floating-point ones add to nearest, or take R263's minimum and maximum. -/
def AtomicValues : Prop :=
  ∀ (w : Bool) (old b cmp : DWord), (w = false → old.toNat < 2 ^ 32 ∧ b.toNat < 2 ^ 32 ∧ cmp.toNat < 2 ^ 32) →
    let n : Nat := if w then 64 else 32
    let x : Int := old.toNat
    let y : Int := b.toNat
    (atomNew 0 w old b cmp).toNat = (x + y) % 2 ^ n ∧
    signedLow n (atomNew 1 w old b cmp).toNat = min (signedLow n x) (signedLow n y) ∧
    signedLow n (atomNew 2 w old b cmp).toNat = max (signedLow n x) (signedLow n y) ∧
    (atomNew 3 w old b cmp).toNat = min x y ∧ (atomNew 4 w old b cmp).toNat = max x y ∧
    atomNew 5 w old b cmp = old &&& b ∧ atomNew 6 w old b cmp = old ||| b ∧ atomNew 7 w old b cmp = old ^^^ b ∧
    atomNew 8 w old b cmp = b ∧ atomNew 9 w old b cmp = (if old = cmp then b else old) ∧
    (let f : Fmt := if w then fp64 else fp32
     (atomNew 10 w old b cmp).toNat = (fAdd f false old.toNat b.toNat).1 % 2 ^ 64 ∧
     (atomNew 12 w old b cmp).toNat = (fMin f old.toNat b.toNat).1 % 2 ^ 64 ∧
     (atomNew 13 w old b cmp).toNat = (fMax f old.toNat b.toNat).1 % 2 ^ 64)

/-- R369, R371: a trap with no horizon record is delivered once the thread's results have arrived and its window holds nothing unresolved;
where the trap area can be written, the thread then stands in handler mode at its TVEC with no pending bit and no trap waiting. -/
def TrapsDelivered : Prop :=
  ∀ (s : State) (t : Nat) (k : TrapReq), liveThread s t = true → (s.thread t).helper = none → (s.thread t).halted = false →
    (s.thread t).hm = false → (s.thread t).results = [] → (s.thread t).trap = some k → window (s.thread t).ops = [] →
    let a := checkArea s t
    let x := takeTrap (cancelUnits a.1 t) t (headerRecord (s.thread t) k 0xFFFF) id
    (a.2 = .ok → exec (.trapDelivery t) s = .next (settleBatches x.1 (s.thread t).train 9) ∧
      (x.2 = true → (x.1.thread t).hm = true ∧ (x.1.thread t).pc = (x.1.thread t).tvec ∧ (x.1.thread t).trap = none ∧
        (x.1.thread t).pendG = 0 ∧ (x.1.thread t).pendQ = 0 ∧ (x.1.thread t).park = .none ∧ (x.1.thread t).stage = 0)) ∧
    (a.2 = .wait → exec (.trapDelivery t) s = .next a.1) ∧
    (a.2 = .bad → exec (.trapDelivery t) s = .next (overflow a.1 t))

/-- R246, Table 9-12: the header of a trap record: CAUSE as a mask of one bit, FSEQ, COUNT, the PC, the resume PC, the faulting address and
HIDX, little-endian, and the rest zero; a trap without a horizon record has a header of COUNT 0 and FSEQ the thread's SEQ, alone. -/
def RecordHeaders : Prop :=
  ∀ (th : Thread) (k : TrapReq) (h : Nat), k.cause < 32 → h < 2 ^ 16 →
    let b := (headerRecord th k h).bytes
    let at' : Nat → Nat → Nat := fun o n => littleEndian ((b.drop o).take n)
    (headerRecord th k h).cause = k.cause ∧ b.length = 1088 ∧ at' 0 4 = 2 ^ k.cause ∧ at' 4 2 = th.seq.toNat ∧ at' 6 1 = 0 ∧ at' 7 1 = 0 ∧
      at' 8 8 = k.pc.toNat ∧ at' 16 8 = k.rpc.toNat ∧ at' 24 8 = k.faddr.toNat ∧ at' 32 2 = h ∧ ∀ x ∈ b.drop 34, x = 0

/-- R327, R330: a helper that raised a trap, its stores performed and its window empty, ends: its recruitment is released by force, the trap
with the helper's index is charged to the recruiter, and its h registers and flags stay with the bank. (That its h registers and flags stay
with the bank, and that it ends only once its stores are performed, is the model's reading, log entry 34.) -/
def HelpersFail : Prop :=
  ∀ (s : State) (t o j : Nat) (k : TrapReq) (b : Bank), (s.thread t).helper = some (o, j) → (s.thread t).halted = false →
    (s.thread t).trap = some k → window (s.thread t).ops = [] → (∀ x ∈ (s.thread t).ops, x.phase = .resolved → x.performed = true) →
    o ≠ t → (s.thread o).bank = some b → (s.thread o).hm = false →
    ∃ s' b', exec (.helperFailure t) s = .next s' ∧ mapGet? s'.threads t = none ∧ (s'.thread o).bank = some b' ∧
      b' = { b with forced := true, live := b.live.filter (· != t), charged := b.charged ++ [headerRecord (s.thread t) k j],
                    regs := b'.regs, flags := b'.flags } ∧
      ((s.thread t).results = [] → b'.flags = b.flags ||| (s.thread t).fstat ∧
        ∀ r, mapGetD b'.regs r 0 = if 16 * j ≤ r ∧ r < 16 * j + 16 then getG (s.thread t) (48 + (r - 16 * j)) else mapGetD b.regs r 0)

/-- R188, R328, R375: a watched wait that has lasted WDOG times 1,024 clocks raises the watchdog trap at its instruction, and at a helper also
begins a forced release of its recruitment; a bundle that issues an encoding that is no instruction raises the illegal-instruction
trap. -/
def RaisedByEvents : Prop :=
  (∀ (s : State) (t : Nat), liveThread s t = true → (s.trainOf t).evicted = none → watchCounts (s.thread t).park = true → waitDone s t = false → (s.thread t).wdog ≠ 0 →
    (s.thread t).since + (s.thread t).wdog.toNat * 1024 ≤ s.clk → (s.thread t).trap = none → takesTraps (s.thread t) →
    ((s.thread t).helper = none → ∃ s', exec (.watchdogExpiry t) s = .next s' ∧ RaisedAt s s' t 18) ∧
    ∀ o j, (s.thread t).helper = some (o, j) → ∃ p s', RaisedAt s p t 18 ∧ exec (.watchdogExpiry t) s = .next s' ∧
      s' = { p with threads := s'.threads } ∧ (∀ v, v ≠ o → s'.thread v = p.thread v) ∧
      s'.thread o = { p.thread o with bank := (p.thread o).bank.map fun b => { b with forced := true } }) ∧
  ∀ (s : State) (t : Nat), s.bundle = [t] → takesTraps (s.thread t) →
    ∃ s', exec .illegalInstruction s = .next s' ∧ RaisedAt s s' t 1 ∧ s'.bundle = []

/-- R172: a runnable thread that an issue clock passed over, and that has waited 512 issue clocks, joins the end of its quarter's starved
list; of several of one clock the lowest LANE joins first, and of those the lowest train slot. -/
def StarvedJoins : Prop :=
  ∀ (s : State) (t : Nat), liveThread s t = true → runnable s t = true → (s.thread t).late = true → 512 ≤ (s.thread t).w →
    let c := (s.trainOf t).core
    let q := (s.trainOf t).quarter
    t ∉ mapGetD (s.core c).starved q [] →
    (∀ p ∈ s.threads, p.1 ≠ t → starves s p.1 = true → (s.trainOf p.1).core = c → (s.trainOf p.1).quarter = q →
      (s.thread t).lane < p.2.lane ∨ ((s.thread t).lane = p.2.lane ∧ (s.thread t).slot < p.2.slot)) →
    ∃ s', exec (.starvedListJoin t) s = .next s' ∧ s' = { s with cores := s'.cores } ∧
      mapGetD (s'.core c).starved q [] = mapGetD (s.core c).starved q [] ++ [t]

/-- R88, R89, R99: the oldest message of a die link that carries traffic is handled by the die that it reaches, and leaves the link; each kind
is its own step. A message that comes once more is not handled again: it gets the answer that it had. -/
def MessagesHandled : Prop :=
  ∀ (i : Instr) (k : MsgKind) (src dst : Nat) (s p : State) (m : Msg), messageOf i = some (k, src, dst) →
    (Oldest s p src dst k m → ∃ s', exec i s = .next s' ∧ NoneSent (handleMsg p src dst m) s' ∧
      s' = { handleMsg p src dst m with links := s'.links } ∧ (dieLink s' src dst).replays = []) ∧
    (∀ x a r, m.kind = k → m.again = true → linkHeld (dieLink s src dst) = false → (dieLink s src dst).fifo = m :: r →
      (dieLink s src dst).last = some (x, a) → x.line = m.line → x.kind = k → src ≠ dst →
      ∃ s', exec i s = .next s' ∧ s' = { s with links := s'.links } ∧ (dieLink s' src dst).fifo = r ∧
        Sends s s' dst src { a with again := true })

/-- Table 3-5 with R86: a request that reaches the home while a transaction of its line is open, an engine owns it or an access of a
core waits there, waits behind them with the die that it came from. -/
def RequestsWait : Prop :=
  ∀ (i : Instr) (k : MsgKind) (src dst : Nat) (s p : State) (m : Msg), requestOf i = some (k, src, dst) → Oldest s p src dst k m →
    let e := dirGet s m.line
    e.trans ≠ none ∨ e.eo = true ∨ coreFirst s m.line →
    ∃ s', exec i s = .next s' ∧ dirGet s' m.line = { e with waiting := e.waiting ++ [.msg { m with die := src }] } ∧ s'.mem = s.mem ∧
      NoneSent p s'

/-- Table 3-5, R90: a request for a read copy of a line that the directory tracks. Of a line in E, M or O it is forwarded to the owner, in
one open transaction; of one in S it is granted a copy, and the requester is one of its holders. -/
def ReadRequests : Prop :=
  ∀ (src dst : Nat) (s p : State) (m : Msg), Oldest s p src dst .getS m →
    let e := dirGet s m.line
    let h := homeDie m.line
    e.trans = none → e.eo = false → e.waiting = [] →
    (e.st = .e ∨ e.st = .m ∨ e.st = .o → ∃ s', exec (.gets src dst) s = .next s' ∧
      dirGet s' m.line = { e with trans := some (.fwd src false), await := [e.own] } ∧
      Sends p s' h e.own { kind := .fwdS, line := m.line, die := src, lt := m.lt }) ∧
    (e.st = .s → ∃ s', exec (.gets src dst) s = .next s' ∧ dirGet s' m.line = { e with hold := withDie e.hold src } ∧
      ∃ x, Sends p s' h src x ∧ x.kind = .data ∧ x.line = m.line ∧ x.grant = some .s ∧ x.data = (l2Get s' m.line).data ∧
        x.rts = (l2Get s' m.line).rts)

/-- Table 3-5, R90: a request for an exclusive copy of a line that another die owns in M or E, too seldom handed over to be privatised, is
forwarded to that owner; of a line in S with no other holder, the requester becomes the owner at once, in M. -/
def WriteRequests : Prop :=
  ∀ (src dst : Nat) (s p : State) (m : Msg) (x : Bool), Oldest s p src dst (if x then .upg else .getX) m →
    let e := dirGet s m.line
    let h := homeDie m.line
    let i : Instr := if x then .upg src dst else .getx src dst
    src < 4 → e.trans = none → e.eo = false → e.waiting = [] →
    (e.st = .e ∨ e.st = .m → src ≠ e.own → e.xfer < 4 → ∃ s', exec i s = .next s' ∧
      dirGet s' m.line = { e with trans := some (.fwd src true), await := [e.own] } ∧
      Sends p s' h e.own { kind := .fwdX, line := m.line, die := src, lt := m.lt }) ∧
    (e.st = .s → (∀ d < 4, e.hold.getLsbD d = true → d = src) → ∃ s', exec i s = .next s' ∧
      dirGet s' m.line = { e with st := .m, hold := withDie 0 src, own := src, trans := none, await := [] } ∧
      ∃ y, Sends p s' h src y ∧ y.kind = .data ∧ y.line = m.line ∧ y.grant = some .m)

/-- Table 3-5, R90: the close of a forward. After an exclusive one the requester owns the line in M and one more transfer is counted, up
to 7; after a read the owner that kept O stays the owner, and else the line is in S without one; both hold it. The home's L2
takes over the lease of an owner that was clean (the model's reading, log entry 68). -/
def ForwardsClose : Prop :=
  ∀ (src dst d : Nat) (x : Bool) (s p : State) (m : Msg), Oldest s p src dst .fAck m →
    let e := dirGet s m.line
    e.trans = some (.fwd d x) → e.waiting = [] → (∀ y ∈ (s.die (homeDie m.line)).dir, y.2.waiting = []) →
    ∃ s', exec (.fack src dst) s = .next s' ∧ NoneSent p s' ∧
      (x = true ∨ m.grant = some .o → s'.mem = s.mem) ∧
      (x = false → m.grant ≠ some .o → m.wts ≤ (l2Get s' m.line).wts ∧ m.rts ≤ (l2Get s' m.line).rts) ∧
      dirGet s' m.line =
        (if x then { e with st := .m, own := d, hold := withDie 0 d, xfer := min 7 (e.xfer + 1), trans := none, await := [] }
         else if m.grant = some .o then { e with st := .o, hold := withDie (withDie e.hold e.own) d, trans := none, await := [] }
         else { e with st := .s, hold := withDie (withDie e.hold e.own) d, own := 0, trans := none, await := [] })

/-- R86, R100, Table 3-5: an answer that others are still awaited besides only shortens the list of those awaited; recalled or merged data
with it is in the home's L2. -/
def AnswersCounted : Prop :=
  ∀ (i : Instr) (k : MsgKind) (src dst : Nat) (s p : State) (m : Msg), answerOf i = some (k, src, dst) → Oldest s p src dst k m →
    let e := dirGet s m.line
    (e.await.filter (· != src)) ≠ [] → ∃ s', exec i s = .next s' ∧
      dirGet s' m.line = { e with await := e.await.filter (· != src) } ∧ NoneSent p s' ∧
      (k = .rData → m.data ≠ [] → (l2Get s' m.line).data = m.data ∧ (l2Get s' m.line).wts = m.wts ∧ (l2Get s' m.line).rts = m.rts)

/-- Table 3-5, R89: an eviction notice of the only owner of a line in E or M leaves the entry in state I, its holders gone and its transfer
count zero, and is acknowledged; a dirty one's data and timestamps are in the home's L2, and of a clean one the lease that it granted (the
model's reading, log entry 68). -/
def EvictionsRecorded : Prop :=
  ∀ (src dst : Nat) (dirty : Bool) (s p : State) (m : Msg), Oldest s p src dst (if dirty then .wb else .evict) m →
    let e := dirGet s m.line
    let h := homeDie m.line
    src < 4 → e.st = .e ∨ e.st = .m → e.own = src → e.hold.getLsbD src = true → e.trans = none → e.waiting = [] →
    ∃ s', exec (if dirty then .wb src dst else .evict src dst) s = .next s' ∧
      dirGet s' m.line = { e with st := .i, hold := 0, own := 0, xfer := 0 } ∧
      Sends p s' h src { kind := .wbAck, line := m.line, die := src } ∧
      (dirty = true → (l2Get s' m.line).data = m.data ∧ (l2Get s' m.line).wts = m.wts ∧ (l2Get s' m.line).rts = m.rts) ∧
      (dirty = false → m.rts ≤ (l2Get s' m.line).rts)

/-- Table 3-5, R95: a claim of bytes of a privatised line that meets no mask of another die is added to its die's masks and acknowledged. -/
def ClaimsGranted : Prop :=
  ∀ (src dst : Nat) (s p : State) (m : Msg), Oldest s p src dst .claim m →
    let e := dirGet s m.line
    let h := homeDie m.line
    src < 4 → e.st = .p → e.trans = none → e.eo = false → e.waiting = [] →
    e.hold.getLsbD src = true →
    (∀ d < 4, d ≠ src → ((if m.write then mapGetD (privGet s m.line).access d 0 else mapGetD (privGet s m.line).write d 0) &&& m.mask) = 0) →
    ∃ s', exec (.claim src dst) s = .next s' ∧ dirGet s' m.line = e ∧
      Sends p s' h src { kind := .claimOK, line := m.line, mask := m.mask, die := src } ∧
      mapGetD (privGet s' m.line).access src 0 = mapGetD (privGet s m.line).access src 0 ||| m.mask ∧
      mapGetD (privGet s' m.line).write src 0 =
        (if m.write then mapGetD (privGet s m.line).write src 0 ||| m.mask else mapGetD (privGet s m.line).write src 0)

/-- Table 3-5, R72, R73, R89: what the holder of a copy does. A forward for a read leaves it a copy, in O if it was dirty and in S if not,
with the lease granted, and one for ownership none; either sends the copy to the requester and closes at the home. An invalidation
drops a copy in S, and a recall or merge cleans or drops it, the data going home. -/
def CopyMessages : Prop :=
  ∀ (src dst : Nat) (s p : State) (m : Msg) (x : RdcLine),
    let h := homeDie m.line
    let lease := max x.rts (max m.lt x.wts + (s.die dst).lease)
    let dirty := x.st = .m ∨ x.st = .o
    rdcGet? s dst m.line = some x →
    (Oldest s p src dst .fwdS m → m.die ≠ h → ∃ s', exec (.fwds src dst) s = .next s' ∧ s'.mem = s.mem ∧
      rdcGet? s' dst m.line = some { x with st := if dirty then .o else .s, rts := lease } ∧
      Sends p s' dst m.die { kind := .fData, line := m.line, data := x.data, wts := x.wts, rts := lease, grant := some .s, die := dst } ∧
      Sends p s' dst h { kind := .fAck, line := m.line, wts := x.wts, rts := lease, grant := some (if dirty then .o else .s), die := m.die }) ∧
    (Oldest s p src dst .fwdX m → m.die ≠ h → ∃ s', exec (.fwdx src dst) s = .next s' ∧ s'.mem = s.mem ∧ rdcGet? s' dst m.line = none ∧
      Sends p s' dst m.die { kind := .fData, line := m.line, data := x.data, wts := x.wts, rts := x.rts, grant := some .m, die := dst } ∧
      Sends p s' dst h { kind := .fAck, line := m.line, grant := some .m, die := m.die }) ∧
    (Oldest s p src dst .inv m → ∃ s', exec (.inv src dst) s = .next s' ∧ s'.mem = s.mem ∧
      rdcGet? s' dst m.line = (if x.st = .s then none else some x) ∧
      Sends p s' dst h { kind := .iAck, line := m.line, die := dst }) ∧
    (Oldest s p src dst .recallS m → ∃ s', exec (.recalls src dst) s = .next s' ∧ s'.mem = s.mem ∧
      rdcGet? s' dst m.line = some { x with st := .s, dirty := 0 } ∧
      Sends p s' dst h { kind := .rData, line := m.line, data := x.data, wts := x.wts, rts := x.rts, die := dst }) ∧
    (Oldest s p src dst .recallI m → ∃ s', exec (.recalli src dst) s = .next s' ∧ s'.mem = s.mem ∧ rdcGet? s' dst m.line = none ∧
      Sends p s' dst h { kind := .rData, line := m.line, data := x.data, wts := x.wts, rts := x.rts, die := dst }) ∧
    (Oldest s p src dst .merge m → ∃ s', exec (.merge src dst) s = .next s' ∧ s'.mem = s.mem ∧ rdcGet? s' dst m.line = none ∧
      Sends p s' dst h { kind := .mData, line := m.line, data := x.data, wts := x.wts, rts := x.rts,
                         mask := mapGetD (privGet s m.line).write dst 0, die := dst })

/-- R89: a die that no longer holds a copy, in its cache or in its eviction buffer, and that none is on its way to, answers a recall or a
merge empty. -/
def MissingCopies : Prop :=
  ∀ (src dst : Nat) (s p : State) (m : Msg), rdcGet? s dst m.line = none → mapGetD (s.die dst).evicting m.line [] = [] →
    m.line ∉ (s.die dst).rdcPending →
    (Oldest s p src dst .recallS m → ∃ s', exec (.recalls src dst) s = .next s' ∧
      Sends p s' dst (homeDie m.line) { kind := .rData, line := m.line, die := dst }) ∧
    (Oldest s p src dst .recallI m → ∃ s', exec (.recalli src dst) s = .next s' ∧
      Sends p s' dst (homeDie m.line) { kind := .rData, line := m.line, die := dst }) ∧
    (Oldest s p src dst .merge m → ∃ s', exec (.merge src dst) s = .next s' ∧
      Sends p s' dst (homeDie m.line) { kind := .mData, line := m.line, die := dst })

/-- Tables 3-4 and 3-5, R89, R95: a grant is installed where the set of the line has room: its state, data and timestamps, dirty where it is
M, and the line is no longer asked for, but by a privatised copy, which answers no request; one without data changes the copy's state, its timestamps not falling. (No message about the
line has come before the grant.) An acknowledged eviction frees its buffer, the oldest of its line, and an
acknowledged claim is no longer asked for. -/
def GrantsInstalled : Prop :=
  ∀ (src dst : Nat) (s p : State) (m : Msg) (g : RdcSt),
    let room := ((s.die dst).rdcLru.filter fun k => k % 8192 = m.line % 8192).length < 16
    (∀ f : Bool, Oldest s p src dst (if f then .fData else .data) m → m.grant = some g → mapGetD (s.die dst).early m.line [] = [] →
      (m.data ≠ [] → room ∨ (rdcGet? s dst m.line).isSome = true →
        ∃ s', exec (if f then .fdata src dst else .data src dst) s = .next s' ∧ (g ≠ .p → m.line ∉ (s'.die dst).rdcPending) ∧ s'.mem = s.mem ∧
          rdcGet? s' dst m.line = some { st := g, data := m.data, wts := m.wts, rts := m.rts,
                                         dirty := if g = .m then BitVec.allOnes 128 else 0 }) ∧
      (∀ x, m.data = [] → rdcGet? s dst m.line = some x →
        ∃ s', exec (if f then .fdata src dst else .data src dst) s = .next s' ∧ (g ≠ .p → m.line ∉ (s'.die dst).rdcPending) ∧ s'.mem = s.mem ∧
          rdcGet? s' dst m.line = some { x with
            st := g, wts := max x.wts m.wts, rts := max x.rts m.rts, dirty := if g = .m then BitVec.allOnes 128 else x.dirty })) ∧
    (Oldest s p src dst .wbAck m → ∃ s', exec (.wback src dst) s = .next s' ∧ s'.mem = s.mem ∧
      ∀ d l, mapGetD (s'.die d).evicting l [] =
        if d = dst ∧ l = m.line then (mapGetD (s.die d).evicting l []).drop 1 else mapGetD (s.die d).evicting l []) ∧
    (Oldest s p src dst .claimOK m → ∃ s', exec (.claimok src dst) s = .next s' ∧ s'.mem = s.mem ∧
      ∀ d, (s'.die d).rdcPending = if d = dst then (s.die d).rdcPending.filter (· != m.line) else (s.die d).rdcPending)

/-- R68 to R70, R99, R101, Table 2-9: a flit that fails its CRC is counted and replayed, and a scrubbed line without an error changes nothing; a
corrected error is counted on its die, an uncorrectable one in a clean L1 line drops it, and in a dirty L2 line, a line of page table
entries, a scratchpad or the registers it is a device-level fault. A lane that failed 8 replays in a row is replaced by a spare, the link retraining until it is
done, and without a spare left the device is in a device-level fault. -/
def DieLinkSteps : Prop :=
  (∀ (s : State) (a : Nat) (b : LinkLane), a < 4 → b.far < 4 → a ≠ b.far → b.lane < 32 → (dieLink s a b.far).fifo ≠ [] →
    linkHeld (dieLink s a b.far) = false →
    ∃ s', exec (.dieLinkCrcFailure a b) s = .next s' ∧ s' = { s with links := s'.links } ∧
      dieLink s' a b.far = { dieLink s a b.far with
        replays := mapSet (dieLink s a b.far).replays b.lane (mapGetD (dieLink s a b.far).replays b.lane 0 + 1) }) ∧
  (∀ (s : State) (l : Nat), l < 96 * 2 ^ 25 → exec (.patrolScrub { line := l, err := none }) s = .next s) ∧
  (∀ (s : State) (l : Nat) (e : SoftError), l < 96 * 2 ^ 25 → tierExists s e.tier = true → e.corrected = true →
    (∀ c n, e.tier ≠ .icache c n) →
    let d := (tierRow e.tier).1
    let n := (tierRow e.tier).2
    ∃ s', exec (.patrolScrub { line := l, err := some e }) s = .next s' ∧ s' = { s with dies := s'.dies } ∧
      (∀ x, x ≠ d → s'.die x = s.die x) ∧
      s'.die d = { s.die d with corrected := mapSet (s.die d).corrected n (mapGetD (s.die d).corrected n 0 + 1) }) ∧
  (∀ (s : State) (l c n : Nat), l < 96 * 2 ^ 25 → tierExists s (.l1 c n) = true →
    (∀ x, mapGet? (s.core c).l1 n = some x → x.dirty = false) →
    ∃ s', exec (.patrolScrub { line := l, err := some { tier := .l1 c n, corrected := false } }) s = .next s' ∧
      OneCore s s' c { s.core c with l1 := (s'.core c).l1 } ∧ mapGet? (s'.core c).l1 n = none) ∧
  (∀ (s : State) (l : Nat) (k : Tier), l < 96 * 2 ^ 25 → tierExists s k = true →
    ((∃ n, k = .l2 n ∧ (l2Get s n).dirty = true) ∨ (∃ n, k = .pageTable n) ∨ (∃ c, k = .scratchpad c ∨ k = .registers c ∨ k = .accumulators c)) →
    ∃ s', exec (.patrolScrub { line := l, err := some { tier := k, corrected := false } }) s = .next s' ∧
      s'.deviceFault = true ∧ s'.threads = [] ∧ s'.launches = [] ∧ s'.mem = s.mem) ∧
  (∀ (s : State) (a : Nat) (b : LinkLane), a < 4 → b.far < 4 → a ≠ b.far → b.lane < 32 → 8 ≤ mapGetD (dieLink s a b.far).replays b.lane 0 →
    linkHeld (dieLink s a b.far) = true ∧ ((dieLink s a b.far).spares ≠ 0 →
    ∃ s', exec (.dieLinkLaneFailure a b) s = .next s' ∧ s' = { s with links := s'.links } ∧
      dieLink s' a b.far = { dieLink s a b.far with
        spares := (dieLink s a b.far).spares - 1, retraining := true, replays := mapDel (dieLink s a b.far).replays b.lane })) ∧
  (∀ (s : State) (a : Nat) (b : LinkLane), a < 4 → b.far < 4 → a ≠ b.far → b.lane < 32 → 8 ≤ mapGetD (dieLink s a b.far).replays b.lane 0 →
    (dieLink s a b.far).spares = 0 →
    ∃ s', exec (.dieLinkLaneFailure a b) s = .next s' ∧ s'.deviceFault = true ∧ s'.threads = [] ∧ s'.launches = [] ∧ s'.mem = s.mem) ∧
  ∀ (s : State) (a b : Nat), (dieLink s a b).retraining = true →
    ∃ s', exec (.dieLinkRetrainComplete a b) s = .next s' ∧ s' = { s with links := s'.links } ∧
      dieLink s' a b = { dieLink s a b with retraining := false }

/-- R12, R141, R145, R146: a request of another device. The reply-cache entries that it releases leave first. A tagged one is answered from
the reply cache where that holds it, with nothing performed, and refused where its issue time is at or below its source's floor or it is
older than 120,000 clocks. One that is not, and that no earlier request of its lane waits before, is performed and answered, and a tagged
one kept in the reply cache; one that must wait, or stands behind another, takes its place. One that is performed or refused is counted in
R, once (R366). Its flits are received, and those of an answer leave by the port by which it came (R412, R413), which holds no traffic. A
request of this device to itself is performed in its lane's order, and answers at once. (That R counts a request by source, tag and issue
time, a failed one too, and that a lane is served by issue time and then tag, is the model's reading, log entry 37.) -/
def RequestsServed : Prop :=
  (∀ (r : FabReq) (s0 : State), reqFits r.kind (reqAccs r) r.aux = true → r.src < 384 → r.src ≠ Config.deviceId →
    portHeld s0 (inPort s0 r.src (laneOf r.va)) = false →
    let s := receiveFlits { s0 with replies := s0.replies.filter fun e => !(e.src = r.src && r.frees.contains e.tag) }
      (if s0.arrivals.contains r then none else inPort s0 r.src (laneOf r.va)) (flitCount (reqBytes r))
    let counts := fun (x : State) => if (r.src, r.tag, r.issue) ∈ x.counted then x
      else { x with rCount := x.rCount + 1, counted := (r.src, r.tag, r.issue) :: x.counted }
    let q := performRemote s none (srcNames r) r.src r.kind (reqAccs r) r.aux
    let cached := s.replies.find? fun e => e.src = r.src && e.tag = r.tag
    let old := (∃ f, mapGet? s.floors r.src = some f ∧ r.issue ≤ f) ∨ 120000 < (s.dt - r.issue) * 5 / 2
    let first := firstOfLane s r = none ∨ firstOfLane s r = some r
    (∀ a, tagged r.kind = false → first → q.2 = some a → ∃ s', exec (.fabricRequest r) s0 = .next s' ∧
      Answers { q.1 with arrivals := q.1.arrivals.erase r } s' r (answerType r.kind) (ansBytes a) (.fabAnswer r.src r.tag a)) ∧
    (∀ e, tagged r.kind = true → cached = some e → ∃ s', exec (.fabricRequest r) s0 = .next s' ∧
      Answers s s' r (answerType r.kind) (ansBytes e.ans) (.fabAnswer r.src r.tag e.ans)) ∧
    (tagged r.kind = true → cached = none → old → ∃ s', exec (.fabricRequest r) s0 = .next s' ∧
      Answers (counts { s with arrivals := s.arrivals.erase r }) s' r .noreply [] (.noReply r.src r.tag)) ∧
    (∀ a, tagged r.kind = true → cached = none → ¬old → laneOld s r = false → first → q.2 = some a →
      ∃ p s', exec (.fabricRequest r) s0 = .next s' ∧
      Answers p s' r (answerType r.kind) (ansBytes a) (.fabAnswer r.src r.tag a) ∧
      p = { counts { q.1 with arrivals := q.1.arrivals.erase r } with replies := p.replies, floors := p.floors, laneTags := p.laneTags } ∧
      mapGet? p.laneTags (r.src * 8 + laneOf r.va) = some (r.issue * 2 ^ 24 + r.tag % 2 ^ 24) ∧
      ∃ l, p.replies = l ++ [{ src := r.src, tag := r.tag, issue := r.issue, ans := a }]) ∧
    ((tagged r.kind = true → cached = none ∧ ¬old) → laneOld s r = false →
      (firstOfLane s r = none ∧ q.2 = none) ∨ ((∃ x, firstOfLane s r = some x ∧ x ≠ r) ∧ r ∉ s.arrivals) →
      exec (.fabricRequest r) s0 = .next { s with arrivals := s.arrivals ++ [r] })) ∧
  ∀ (r : FabReq) (s : State) (rid : Nat) (o : OutReq), reqFits r.kind (reqAccs r) r.aux = true → r.src < 384 → r.src = Config.deviceId →
    (s.out.find? fun p => p.2.host = false && decide (p.2.dst = r.src) && decide (p.2.lane = laneOf r.va) && decide (0 < p.2.copies)) =
      some (rid, o) →
    sameReq r o = true → (tagged r.kind = true → reqRefused s r = false) →
    let q := performRemote s (o.who.head?.map fun x => s.coreOf x.1) (whoNames s o) r.src r.kind (reqAccs r) r.aux
    ∀ a, q.2 = some a → exec (.fabricRequest r) s = .next (answerOut (reqDone q.1 r a) rid o a)

/-- R105, R106, R117, R147: an answer with data, of the fabric or of the host, gives an operation of a thread its result; any other answer
resolves it; a failure is its cause, with its address as the faulting address. One of the fabric comes over a port that holds no traffic
(R416), and a host atomic passes the order gate (R410). -/
def AnswersDelivered : Prop :=
  ∀ (s : State) (rid t : Nat) (seq : BitVec 16) (r : OutReq) (o : Op) (i : Instr) (a : FabAns), Outstanding s rid r t seq o →
    ansFits r a = true →
    (r.host = true ∧ i = .cxlResponse rid a ∧ namesAdmit s 0 (whoNames s r) = true) ∨ (r.host = false ∧ r.dst ≠ Config.deviceId ∧
      0 < r.copies ∧ portHeld s (outPort s r.dst r.lane) = false ∧
      i = if wantsReply r.kind then .fabricReply rid a else .fabricAcknowledgement rid a) →
    ∃ q, Finished (if r.host then s else answerFlits s r a) q rid ∧
      (∀ c, a = .fail c → ∃ p, exec i s = .next (pump p) ∧ OpEnds q p t seq.toNat (.failed c)) ∧
      (wantsReply r.kind = false → a = .ok [] → ∃ p, exec i s = .next (pump p) ∧ OpEnds q p t seq.toNat .resolved) ∧
      (∀ m b, r.kind = .load ∨ ((∃ op w, r.kind = .atomic op w) ∧ r.host = false) → accessOf o.insn = some m → b.length = m.size → r.len = m.size →
        m.dests ≠ [] → a = .ok b → ∃ p, exec i s = .next (pump p) ∧ OpDelivered q p t seq.toNat o m b)

/-- R12, R145 to R147, Table 4-6: a refusal of the only copy of a tagged request sends it anew under the next tag and the present time; one
of a request that was sent again leaves its operation indeterminate. A request given up 50 microseconds after it last left, this
device's own loop-back too, fails as unreachable where no copy of it left or it carries no tag, and else leaves its operation
indeterminate. -/
def RequestsGivenUp : Prop :=
  ∀ (s : State) (rid t : Nat) (seq : BitVec 16) (r : OutReq) (o : Op), Outstanding s rid r t seq o → r.host = false →
    (r.dst ≠ Config.deviceId → portHeld s (outPort s r.dst r.lane) = false → tagged r.kind = true →
      (r.copies = 1 → ∃ s' x, exec (.noreply rid) s = .next s' ∧
        mapGet? s'.out s.outCount = some x ∧
        x = { r with tag := s.nextTag, issue := s.dt, left := s.clk, copies := x.copies, again := false } ∧ s'.nextTag = (s.nextTag + 1) % 2 ^ 24) ∧
      (2 ≤ r.copies → ∃ q p, Finished (answerFlits s r (.fail 8)) q rid ∧ exec (.noreply rid) s = .next (pump p) ∧
        OpEnds q p t seq.toNat .indeterminate)) ∧
    ∃ q, Finished s q rid ∧
      (r.left + 125000 ≤ s.clk → ∃ p, exec (.remoteGiveUp rid) s = .next (pump p) ∧
        OpEnds q p t seq.toNat (if r.copies = 0 ∨ tagged r.kind = false then .failed 9 else .indeterminate))

/-- R103: the writeback of an evicted remote or host line that fails leaves the line in the die's cache, dirty in the bytes written back and
marked as failed, and is counted. -/
def WritebacksFail : Prop :=
  ∀ (s : State) (rid cause d key : Nat) (r : OutReq) (m : BitVec 128), mapGet? s.out rid = some r → r.kind = .masked m → r.who = [] →
    r.line = some (d, key) → (rdcGet? s d key).isSome = true → r.host = true ∨ 0 < r.copies → cause = 5 ∨ cause = 6 →
    ∃ p x, exec (.writebackFailure rid cause) s = .next (pump p) ∧ rdcGet? p d key = some x ∧ x.failed = true ∧ x.leaving = false ∧
      (∀ k, m.getLsbD k = true → x.dirty.getLsbD k = true) ∧ (p.die d).wbFailed = (s.die d).wbFailed + 1

/-- R412, R416: an idle flit acknowledges flits of a link that carries traffic: those up to the number that it brings leave the replay buffer.
A flit that fails its CRC on a lane is counted there, and what the buffer holds is sent again. A lane that failed eight replays in a row is
retired, and its link retrains at a lane less, or goes down with fewer than two left. One that retrained within 25,000 clocks goes on,
and what waited at the port for it leaves. -/
def FabricLinkSteps : Prop :=
  ∀ (s : State) (p : Nat) (q : LinkLane), p < 38 → q.far = p →
    let l := fabLink s p
    let becomes := fun (s' : State) (x : FabLink) => ∀ k, fabLink s' k = if k = p then x else fabLink s k
    let acknowledged := fun (n : Nat) (f : Flit) => (n + 2 ^ 16 - f.lsn) % 2 ^ 16 < 2 ^ 15
    (∀ n, l.up = true → l.held = false → ∃ s' gone rest, exec (.idleFlit p n) s = .next s' ∧ s' = { s with fabLinks := s'.fabLinks } ∧
      l.buffer = gone ++ rest ∧ (∀ f ∈ gone, acknowledged n f) ∧ (∀ f r, rest = f :: r → ¬acknowledged n f) ∧
      becomes s' { l with acked := n % 2 ^ 16, buffer := rest, replays := if gone = [] then l.replays else [] }) ∧
    (l.up = true → l.held = false → q.lane < 4 → q.lane ∉ l.retired → l.buffer ≠ [] → ∃ s', exec (.flitCrcFailure q) s = .next s' ∧
      s' = { s with fabLinks := s'.fabLinks, outs := s.outs ++ [.flits p l.buffer] } ∧
      becomes s' { l with replays := mapSet l.replays q.lane (mapGetD l.replays q.lane 0 + 1) }) ∧
    (l.up = true → 8 ≤ mapGetD l.replays q.lane 0 → l.retired.length < 2 → ∃ s', exec (.serialLaneRetirement q) s = .next s' ∧
      s' = { s with fabLinks := s'.fabLinks } ∧
      becomes s' { l with retired := q.lane :: l.retired, replays := mapDel l.replays q.lane, retraining := true, since := s.clk }) ∧
    (l.up = true → 8 ≤ mapGetD l.replays q.lane 0 → 2 ≤ l.retired.length → ∃ s', exec (.serialLaneRetirement q) s = .next s' ∧
      linkKey Config.deviceId (portPeer p) ∈ s'.down) ∧
    (l.retraining = true → s.clk ≤ l.since + 25000 → ∃ s', exec (.linkRetrainComplete p) s = .next s' ∧
      s' = { s with fabLinks := s'.fabLinks, out := s'.out, outs := s'.outs, sCount := s'.sCount } ∧ (fabLink s' p).retraining = false ∧
      OnlyFlits s.outs s'.outs ∧ (NoneAtPort s → becomes s' { l with retraining := false } ∧ s'.out = s.out))

/-- R414, R415: a link that goes down, and one that comes back, is on and off the list of those that are down; no byte, thread or launch
changes. The end of a link that goes down at this device is down, and reports. -/
def LinksGoAndCome : Prop :=
  (∀ (s : State) (a b : Nat), a < 384 → b < 384 → a ≠ b → a / 24 = b / 24 ∨ a % 24 = b % 24 → linkKey a b ∉ s.down →
    ∃ s', exec (.linkDown a b) s = .next s' ∧ s'.down = linkKey a b :: s.down ∧
      s' = { s with
        down := s'.down, rebound := s'.rebound, out := s'.out, fabLinks := s'.fabLinks, outs := s'.outs, sCount := s'.sCount } ∧
      ∀ p, endPort a b = some p → (fabLink s' p).up = false ∧ (fabLink s' p).retraining = false ∧ .linkReport a b ∈ s'.outs) ∧
  ∀ (s : State) (a b : Nat), linkKey a b ∈ s.down →
    ∃ s', exec (.linkUp a b) s = .next s' ∧ s'.down = s.down.filter (· != linkKey a b) ∧
      s' = { s with
        down := s'.down, rebound := s'.rebound, out := s'.out, fabLinks := s'.fabLinks, outs := s'.outs, sCount := s'.sCount } ∧
      OnlyFlits s.outs s'.outs

/-- R417: a device other than device 0 takes its domain time from a time flit and the delay of its link, sends the flit on where it stands
in the first row, and may inject tagged requests again, which it stops doing 10 ms after the last flit; device 0 broadcasts its own every
100 microseconds. (That device 0 broadcasts at clocks that 250,000 divides, and that only a device of the first row sends the flit on, is
the model's reading, log entry 44.) -/
def DomainTime : Prop :=
  (∀ (s : State) (v d : Nat), (Config.deviceId ≠ 0 → ∃ s', exec (.timeFlit v d) s = .next s' ∧
      s' = { s with
        dt := (v + d) % 2 ^ 64, lastTime := s.clk, injectStopped := false, out := s'.out, sCount := s'.sCount, outs := s'.outs
        fabLinks := s'.fabLinks } ∧
      OnlyFlits (s.outs ++ if Config.deviceId / 24 = 0 then [.timeFlit ((v + d) % 2 ^ 64)] else []) s'.outs) ∧
    (Config.deviceId = 0 → exec (.timeFlit v d) s = .refused (.notEnabled "TIME_FLIT"))) ∧
  (∀ s : State, s.injectStopped = false → s.lastTime + 25000000 ≤ s.clk →
    (Config.deviceId ≠ 0 → exec .timeFlitTimeout s = .next { s with injectStopped := true }) ∧
    (Config.deviceId = 0 → exec .timeFlitTimeout s = .refused (.notEnabled "TIME_FLIT_TIMEOUT"))) ∧
  ∀ s : State, s.clk % 250000 = 0 →
    (Config.deviceId = 0 → ∃ s', exec .timeBroadcast s = .next s' ∧ Shows s s' (.timeFlit s.dt)) ∧
    (Config.deviceId ≠ 0 → exec .timeBroadcast s = .refused (.notEnabled "TIME_BROADCAST"))

/-- R36, R146: an entry of the reply cache is freed 60 microseconds after its issue time, and the old home of a migrated page stops
forwarding 25,000 clocks after the switch; nothing else changes. -/
def EntriesExpire : Prop :=
  (∀ (s : State) (src tag : Nat), (∃ e ∈ s.replies, e.src = src ∧ e.tag = tag ∧ e.issue + 60000 ≤ s.dt) →
    exec (.replyCacheExpiry src tag) s = .next { s with replies := s.replies.filter fun e => !(e.src = src && e.tag = tag) }) ∧
  ∀ (s : State) (page : Nat), (∃ f ∈ s.forwards, f.page = page ∧ f.since + 25000 ≤ s.clk) →
    ∃ s', exec (.migrationForwardEnd page) s = .next s' ∧ s' = { s with forwards := s'.forwards } ∧
      ∀ f, f ∈ s'.forwards ↔ f ∈ s.forwards ∧ ¬(f.page = page ∧ f.since + 25000 ≤ s.clk)

/-- R33, R105: a snoop of a host line is answered with the data of the copy that the device holds, which leaves where the snoop takes the
line or a copy is dirty, whichever dies hold one, and with a miss where no die holds one. -/
def HostSnoops : Prop :=
  ∀ (i : Instr) (l : Nat) (inv : Bool) (s : State), snoopOf i = some (l, inv) → l < 2 ^ 45 →
    ((∀ p ∈ s.dies, rdcGet? s p.1 (2 ^ 60 + l) = none) → ∃ s', exec i s = .next s' ∧ Shows s s' (.snoopMiss l)) ∧
    (∀ (d : Nat) (k : Die) (x : RdcLine), (s.dies.filter fun p => (rdcGet? s p.1 (2 ^ 60 + l)).isSome) = [(d, k)] →
      rdcGet? s d (2 ^ 60 + l) = some x →
      ∃ s', exec i s = .next s' ∧ s'.outs = s.outs ++ [.snoopData l x.data] ∧ s'.mem = s.mem ∧
        ∃ own, rdcGet? s' d (2 ^ 60 + l) = if x.dirty ≠ 0 ∨ inv = true then none else some { x with owned := own }) ∧
    ((∃ p ∈ s.dies, ∃ x, rdcGet? s p.1 (2 ^ 60 + l) = some x ∧ (inv = true ∨ x.dirty ≠ 0)) →
      ∃ s' b, exec i s = .next s' ∧ s'.outs = s.outs ++ [.snoopData l b] ∧ ∀ p ∈ s.dies, rdcGet? s' p.1 (2 ^ 60 + l) = none)

/-- R107, R419: a host access through BAR2 that no open window permits is aborted, with nothing read or written; one whose pages translate
reads, or writes, the bytes piece by piece and answers. Bytes written to a line that stands at its home are its bytes there, and every
other byte of memory is as before; a read answers the bytes of such a line. -/
def HostAccesses : Prop :=
  ∀ (s : State) (off : Nat) (bs : List Byte), 0 < bs.length → off + bs.length ≤ 2 ^ 38 → off % 2 ^ 34 + bs.length ≤ 2 ^ 34 →
    let w := mapGetD s.inbound (off / 2 ^ 34) 0
    let pieces := fun (acc : Acc) => inboundPieces s w acc off bs.length
    (w.getLsbD 0 = false ∨ w.getLsbD 1 = false → ∃ s', exec (.hostInboundRead off bs.length) s = .next s' ∧ Shows s s' .completerAbort) ∧
    (w.getLsbD 0 = false ∨ w.getLsbD 2 = false → ∃ s', exec (.hostInboundWrite off bs) s = .next s' ∧ Shows s s' .completerAbort) ∧
    (∀ pa, w.getLsbD 0 = true → w.getLsbD 1 = true → (pieces .read).2 = .ok [(pa, bs.length)] →
      piecesWait (pieces .read).1 [(pa, bs.length)] false = false →
      let r := physRead (pieces .read).1 pa bs.length
      ∃ s', exec (.hostInboundRead off bs.length) s = .next s' ∧ Shows r.1 s' (.hostData r.2) ∧
        (AtHome (pieces .read).1 (pa / 128) → pa % 128 + bs.length ≤ 128 →
          r.2 = (List.range bs.length).map fun k => homeByte (pieces .read).1 (pa + k))) ∧
    (∀ pa, w.getLsbD 0 = true → w.getLsbD 2 = true → (pieces .write).2 = .ok [(pa, bs.length)] →
      piecesWait (pieces .write).1 [(pa, bs.length)] true = false →
      ∃ s', exec (.hostInboundWrite off bs) s = .next s' ∧
        Shows (outerWrite (pieces .write).1 none pa bs) s' .hostWriteDone ∧
        (AtHome (pieces .write).1 (pa / 128) → pa % 128 + bs.length ≤ 128 →
          ∀ a, homeByte s' a = if pa ≤ a ∧ a < pa + bs.length then bs.getD (a - pa) 0 else homeByte (pieces .write).1 a))

/-- R46, R50: what reaches scratch. The data of a fill of the running copy command reaches a line with no early pin: the line is present and
its late pins are early ones. Or a source of the fill fails: the command stops with the cause and the address, every line that it
had still to fill is absent with no fill pending, and each matrix command that waits for one of them under a late pin has lost it. -/
def ScratchFills : Prop :=
  ∀ (s : State) (c line : Nat) (m : CpCmd), cpHead? (s.core c) = some m → m.stop = none → line ∈ m.fills →
    let r := cpBytes s c m [line]
    (∀ b, (scrGet (s.core c) line).early = 0 → r.2 = .ok b → ∃ s' k, exec (.scratchFillArrival c line) s = .next s' ∧ OneCore r.1 s' c k ∧
      k.scratch = b.foldl (fun m p => memWrite m p.1 p.2) (r.1.core c).scratch ∧
      scrGet k line = { present := true, early := (scrGet (r.1.core c) line).late } ∧
      ∀ l, l ≠ line → scrGet k l = scrGet (r.1.core c) l) ∧
    (∀ x f, r.2 = .error (.fail x f) → ∃ s' k, exec (.fillFailure c line x) s = .next s' ∧ OneCore r.1 s' c k ∧
      (∀ y ∈ k.cpq, y.id = m.id → y.stop = some (x, f) ∧ y.fills = []) ∧
      (∀ l ∈ m.fills, (scrGet k l).fill = none ∧ (scrGet k l).cause = x ∧ (scrGet k l).present = (scrGet (r.1.core c) l).present) ∧
      (∀ y ∈ (r.1.core c).mxq, (∃ l ∈ m.fills, 2 * l + 1 ∈ y.pins) → ∃ z ∈ k.mxq, z.id = y.id ∧ z.lost.isSome = true) ∧
      ∀ l, l ∉ m.fills → scrGet k l = scrGet (r.1.core c) l)

/-- R45, R46, R305: an engine has read a line that its command pinned: the early count of the line falls by one, and the command has its
bytes; the matrix engine comes first where both have pinned it. -/
def EngineReads : Prop :=
  ∀ (s : State) (c line : Nat),
    let x := scrGet (s.core c) line
    let read := fun (m : Memory) => memWriteN m (line * 128) (memReadN (s.core c).scratch (line * 128) 128)
    let fewer := fun (k : Core) => scrGet k line = { x with early := x.early - 1 } ∧ ∀ l, l ≠ line → scrGet k l = scrGet (s.core c) l
    (∀ m, mxHead? (s.core c) = some m → m.lost = none → 2 * line ∈ m.pins → ∃ s' k, exec (.engineReadDone c line) s = .next s' ∧ OneCore s s' c k ∧ fewer k ∧
      k.mxq = (s.core c).mxq.map fun y => if y.id = m.id then { y with pins := y.pins.erase (2 * line), read := read y.read } else y) ∧
    (∀ m, (∀ y, mxHead? (s.core c) = some y → y.lost ≠ none ∨ 2 * line ∉ y.pins) → cpHead? (s.core c) = some m → m.stop = none → 2 * line ∈ m.pins →
      ∃ s' k, exec (.engineReadDone c line) s = .next s' ∧ OneCore s s' c k ∧ fewer k ∧
        k.cpq = (s.core c).cpq.map fun y => if y.id = m.id then { y with pins := y.pins.erase (2 * line), read := read y.read } else y)

/-- R88, R91, R137: the running copy command has written a device line that it owned, and owns it no more. Where no other command of its core
owns the line either, the engine gives it up: at a home on its own die what waited for the line goes on, and a home on another die is
sent an EDone that names the command, and with its arrival what waited there goes on. The bytes of the command stand in the line then, and
no other byte has changed. -/
def OwnedLinesWritten : Prop :=
  (∀ (s : State) (c line : Nat) (m : CpCmd) (b : SMap Byte), cpHead? (s.core c) = some m → m.stop = none → (∃ v, (line, v) ∈ m.owned) →
    let vs := (m.owned.filter fun l => l.1 = line).map (·.2)
    let r := cpBytes s c m vs
    readsLeft m vs = false → r.2 = .ok b → (∀ y ∈ (r.1.core c).cpq, y.accepted = true → y.id = m.id ∨ ∀ v, (line, v) ∉ y.owned) →
    let d := dieOfCore c
    let byte := fun (k : Nat) (old : Byte) => mapGetD (b.foldl (fun a x => mapSet a (x.1 % 128) x.2) ([] : SMap Byte)) k old
    ∃ p, (∀ y ∈ (p.core c).cpq, y.id = m.id → ∀ v, (line, v) ∉ y.owned) ∧
      (homeDie line = d → exec (.edone c line) s = .next (disown p line) ∧
        (∀ k < (l2Get r.1 line).data.length, (l2Get p line).data.getD k 0 = byte k ((l2Get r.1 line).data.getD k 0)) ∧
        ((mapGet? (r.1.die d).l2 line).isSome = true → p.mem = r.1.mem ∧ ∀ l, l ≠ line → l2Get p l = l2Get r.1 l)) ∧
      (homeDie line ≠ d → (∃ s', exec (.edone c line) s = .next s' ∧ s' = { p with links := s'.links } ∧
          Sends p s' d (homeDie line) { kind := .eDone, line := line, die := d, cmd := m.id }) ∧
        ∀ x, mapGet? (r.1.die d).rdc line = some x → mapGet? (r.1.die d).fills line = none → p.mem = r.1.mem ∧
          (∀ k < x.data.length, (rdcGet? p d line).map (fun y => y.data.getD k 0) = some (byte k (x.data.getD k 0))) ∧
          ∀ l, l ≠ line → rdcGet? p d l = rdcGet? r.1 d l)) ∧
  ∀ (s p : State) (c line : Nat) (m : Msg), (∀ y, cpHead? (s.core c) = some y → ∀ v, (line, v) ∉ y.owned) →
    Oldest s p (dieOfCore c) (homeDie line) .eDone m → m.line = line → dieOfCore c ≠ homeDie line →
    ∃ s', exec (.edone c line) s = .next s' ∧ s' = { disown p line with links := s'.links } ∧ NoneSent (disown p line) s'

/-- R241, R303, R304, R313: the oldest matrix command that waits and is not cancelled is taken up once every quarter of its core has had its turn
in the clock (R388), behind at most 31 that run and every older strong access of its thread. One whose block cannot be read, or breaks a rule of R302, fails with its cause. A good one whose scales
are there keeps its block and its scales; it is accepted, and its operation resolves, at once where its lines can be pinned, and else
once they can. -/
def MatrixAcceptance : Prop :=
  ∀ (s : State) (c : Nat) (m : MxCmd),
    ((s.core c).mxq.find? fun x => !x.accepted && !(olderOps x.seq.toNat (s.thread x.thread).ops).any opFailed) = some m →
    ((s.core c).mxq.filter fun x => x.accepted && !x.done).length < 32 → commandMay (s.thread m.thread) m.seq.toNat = true →
    clockIssued s c = true →
    let tr := s.train m.train
    let r := engRead s c tr.ctx tr.launch false (metCommand m.id) m.block.toNat 64
    let accepted := fun (pb : BitVec 512) => ∃ s', exec (.mxAccept c) s = .next s' ∧
      (∃ y ∈ (s'.core c).mxq, y.id = m.id ∧ y.accepted = true ∧ y.pb = pb) ∧
      ∀ x, opOf? (s'.thread m.thread) m.seq.toNat = some x → x.phase = .resolved
    (∀ x f, m.sampled = false → r.2 = .fail x f → ∃ s', exec (.mxAccept c) s = .next s' ∧
      CommandFailed s' (∀ y ∈ (s'.core c).mxq, y.id ≠ m.id) m.thread m.seq.toNat x) ∧
    (∀ b, m.sampled = false → r.2 = .ok b → b.length = 64 → mxBad tr (blockOf b) = true → ∃ s', exec (.mxAccept c) s = .next s' ∧
      CommandFailed s' (∀ y ∈ (s'.core c).mxq, y.id ≠ m.id) m.thread m.seq.toNat 16) ∧
    (∀ b, m.sampled = false → r.2 = .ok b → b.length = 64 → mxBad tr (blockOf b) = false → scalesComing r.1 m.train (blockOf b) = false →
      m ∈ (r.1.core c).mxq →
      (pinsFull (r.1.core c) (mxLines (blockOf b)) = false → accepted (blockOf b)) ∧
      (pinsFull (r.1.core c) (mxLines (blockOf b)) = true → ∃ s', exec (.mxAccept c) s = .next s' ∧
        ∃ y ∈ (s'.core c).mxq, y.id = m.id ∧ y.sampled = true ∧ y.accepted = false ∧ y.pb = blockOf b)) ∧
    (m.sampled = true → pinsFull (s.core c) (mxLines m.pb) = false → accepted m.pb)

/-- R50, R305, R308, R313: the running matrix command, all of its pinned lines read, writes its destination from its operands and is done, and
its batch may be complete; or a device operand of it fails, or an accepted command has lost a line that it waited for, and its train's
task is killed with code 1. -/
def MatrixCompletion : Prop :=
  (∀ (s : State) (c : Nat) (m : MxCmd), mxHead? (s.core c) = some m → m.lost = none → m.pins = [] →
    let r := mxOperands s c m
    (∀ a b, r.2 = .ok (a, b) →
      let w := mxWrite m.pb (r.1.train m.train).tile m.sa m.sb a b (r.1.core c)
      ∃ p k, exec (.mxCommandDone c) s = .next (settleBatches p m.train 9) ∧ OneCore r.1 p c k ∧ k.acc = w.1.acc ∧
        (∀ y ∈ k.mxq, y.id = m.id → y.done = true ∧ y.flags = w.2)) ∧
    (∀ x f, (∀ y ∈ (s.core c).mxq, y.accepted = true → y.done = false → y.lost = none) → r.2 = .error (.fail x f) →
      exec (.mxOperandFault c) s = .next (taskKill r.1 m.train 1))) ∧
  ∀ (s : State) (c : Nat) (m : MxCmd), ((s.core c).mxq.find? fun y => y.accepted && !y.done && y.lost.isSome) = some m →
    exec (.mxOperandFault c) s = .next (taskKill s m.train 1)

/-- R223, R299 (FMT 1): an integer matrix command leaves in each 32-bit element of its destination the sum of the products of its row of A
and its column of B, and of the old element where ACC is set, modulo 2^32. -/
def IntegerMatrixProduct : Prop :=
  ∀ (pb : BitVec 512) (base i j : Nat) (sa sb : List Byte) (a b : List (List Byte)) (k : Core),
    let fld' : Nat → Nat → Nat := fun lo n => (pb.extractLsb' lo n).toNat
    let tile := base + fld' 16 4
    fld' 0 4 = 1 → fld' 32 7 ≤ 64 → fld' 40 8 ≤ 128 → i < fld' 32 7 → j < fld' 40 8 →
    (accRead (mxWrite pb base sa sb a b k).1 tile 1 i j : Int) =
      (((List.range (fld' 48 9)).map fun q => int8At a i q * int8At b q j).sum
        + (if pb.getLsbD 4 = true then (accRead k tile 1 i j : Int) else 0)) % 2 ^ 32

/-- R317, R318: a copy command that waits is taken up, once every quarter of its core has had its turn in the clock, behind at most 31
that run and every older read and strong store of its thread. One whose
shape record cannot be read, breaks a rule of R317, or has a destination that fails, fails with the cause; a good one whose
destination lines are free, or its own engine's already, is accepted, and its operation resolves. -/
def CopyAcceptance : Prop :=
  ∀ (s : State) (c n : Nat) (m : CpCmd), ((s.core c).cpq.filter fun x => !x.accepted)[n]? = some m →
    ((s.core c).cpq.filter fun x => x.accepted).length < 32 → commandMay (s.thread m.thread) m.seq.toNat = true →
    clockIssued s c = true →
    let tr := s.train m.train
    let r := engRead s c tr.ctx tr.launch true (metCommand m.id) m.record.toNat 64
    let fails := fun (cause : Nat) => ∃ s', exec (.cpAccept c n) s = .next s' ∧
      CommandFailed s' (∀ y ∈ (s'.core c).cpq, y.id ≠ m.id) m.thread m.seq.toNat cause
    (∀ x f, r.2 = .fail x f → fails x) ∧
    ∀ b, r.2 = .ok b → b.length = 64 →
      let m' : CpCmd := { m with shape := blockOf b }
      let q := destTranslate r.1 c tr.ctx tr.launch m.record.toNat m.id (destLines m') []
      (cpBad tr m' = true → fails 16) ∧
      (∀ x f, cpBad tr m' = false → q.2 = .error (.fail x f) → fails x) ∧
      ∀ owned, cpBad tr m' = false → q.2 = .ok owned →
        (if m.store then pinsFull (q.1.core c) (boxLines m') else (boxLines m').any fun l => (scrGet (q.1.core c) l).fill.isSome) = false →
        (takeLines q.1 c (distinct (owned.map (·.1)))).isSome = true →
        ∃ s', exec (.cpAccept c n) s = .next s' ∧
          (∃ y ∈ (s'.core c).cpq, y.id = m.id ∧ y.accepted = true ∧ y.shape = blockOf b ∧ y.owned = owned) ∧
          ∀ x, opOf? (s'.thread m.thread) m.seq.toNat = some x → x.phase = .resolved

/-- R139, R313, R320: the running copy command, nothing left to fill, write or read, raises its counter, where it names one, and is gone; one
that has stopped is gone with its lines given back, and without a counter its train's task is killed with code 2, as it is where the
counter's own page fails (the model's reading, log entry 30). -/
def CopyCompletion : Prop :=
  ∀ (s : State) (c : Nat) (m : CpCmd), cpHead? (s.core c) = some m →
    (∀ b, m.stop = none → m.fills = [] → m.owned = [] → m.pins = [] → (cpCounter s c m (· + 1)).2 = .ok b →
      ∃ s', exec (.cpCommandDone c) s = .next s' ∧ OneCore (cpCounter s c m (· + 1)).1 s' c
        { (cpCounter s c m (· + 1)).1.core c with cpq := ((cpCounter s c m (· + 1)).1.core c).cpq.filter fun y => y.id != m.id }) ∧
    (∀ x f, m.stop = none → m.fills = [] → m.owned = [] → m.pins = [] → (cpCounter s c m (· + 1)).2 = .fail x f →
      ∃ p, exec (.cpCommandDone c) s = .next (taskKill p m.train 2) ∧ ∀ y ∈ (p.core c).cpq, y.id ≠ m.id) ∧
    (∀ x, m.stop = some x → m.counter = 0 → ∃ p, exec (.cpFault c) s = .next (taskKill p m.train 2) ∧
      ∀ y ∈ (p.core c).cpq, y.id ≠ m.id) ∧
    (∀ x b, m.stop = some x → m.counter ≠ 0 → (cpCounter s c m fun v => (v ||| 0x8000000000000000) + 1).2 = .ok b →
      ∃ s', exec (.cpFault c) s = .next s' ∧ ∀ y ∈ (s'.core c).cpq, y.id ≠ m.id)

/-- R334 to R336: a push, open or end that is first of its bundle and of its thread at its stream, with the older strong accesses performed,
arrives: the stream takes it and its operation resolves, and where the stream is drained with it every parked `esc.next` is given its -1;
or it breaks a rule of Table 13-4 and its operation holds the batcher cause.
A replayed push that waited for room for its thread's watchdog period fails with the watchdog cause (R335). -/
def EscapementSteps : Prop :=
  (∀ (s : State) (t seq n : Nat) (o : Op), opOf? (s.thread t) seq = some o → escStream o.insn = some n →
    liveThread s t = true → o.phase = .unitWait → (∀ x ∈ olderOps seq (s.thread t).ops, x.kind ≠ 0x60) →
    commandMay (s.thread t) seq = true → escFirst s t o = true → s.replaying = false →
    let x := match escBodies o.insn with
      | some k => (streamOf s (s.dieOf t) n).unreserve k
      | none => streamOf s (s.dieOf t) n
    (∀ y, x.arrive o.insn o.data (s.launchOf t) = some y → ∃ s', exec (.escapementArrival t seq) s = .next s' ∧
      streamOf s' (s.dieOf t) n = (if y.st = .drained then { y with parked := [] } else y) ∧
      (y.st = .drained → ∀ v ∈ y.parked, (s'.thread v).stage = 3) ∧ ∀ z, opOf? (s'.thread t) seq = some z → z.phase = .resolved) ∧
    (x.arrive o.insn o.data (s.launchOf t) = none → ∃ s', exec (.escapementArrival t seq) s = .next s' ∧
      streamOf s' (s.dieOf t) n = x ∧ ∀ z, opOf? (s'.thread t) seq = some z → z.phase = .failed 14)) ∧
  ∀ (s : State) (t seq : Nat) (o : Op), opOf? (s.thread t) seq = some o → o.phase = .roomWait → (s.thread t).wdog ≠ 0 →
    o.since + (s.thread t).wdog.toNat * 1024 ≤ s.clk →
    ∃ s', exec (.pushWatchdogExpiry t seq) s = .next s' ∧ OpEnds s s' t seq (.failed 18)

/-- R341, R342: a push of this device, behind the older strong accesses of its thread, is accepted: by a queue that is enabled and has room
on chip, as its youngest token, with an entry of its die's pool; at a queue that is not enabled it fails with the engine-parameter
cause. -/
def TokensAccepted : Prop :=
  ∀ (s : State) (t seq : Nat) (o : Op) (b a : BitVec 6) (sm : BitVec 1), opOf? (s.thread t) seq = some o → o.insn = .xqIn b a sm →
    o.kind = 0x61 → o.phase = .unitWait → liveThread s t = true → commandMay (s.thread t) seq = true →
    let n := (wordOfBytes o.data).toNat % 4096
    let x := mapGetD s.queues n {}
    let d := (x.cfg.extractLsb' 64 7).toNat / 24
    (x.cfg.getLsbD 13 = true → (x.tokens.filter fun k => !k.spilled).length < 4096 → (s.die d).pool < 65536 →
      ∃ s', exec (.tokenAcceptance t seq) s = .next s' ∧ s'.mem = s.mem ∧ (s'.die d).pool = (s.die d).pool + 1 ∧
        mapGetD s'.queues n {} = { x with tokens := x.tokens ++
          [{ words := wordsOfBytes 8 (o.data.drop 4), src := Config.deviceId, at' := s.clk, spilled := false }] } ∧
        ∀ z, opOf? (s'.thread t) seq = some z → z.phase = .resolved) ∧
    (x.cfg.getLsbD 13 = false → ∃ s', exec (.tokenAcceptance t seq) s = .next s' ∧ OpEnds s s' t seq (.failed 16))

/-- R343: a die that has not fired a queue in this clock fires the first of its eligible ones, no token of the batch spilled: the oldest
tokens leave the queue for the lowest free entry of its fired list, their entries of the pool are free, and a record that names the queue,
the entry and the count is behind the others on the home core's queue of the launch. A die that has fired in this clock fires no other.
(That the lowest free entry of the fired list is taken is the model's choice, log entry 35.) -/
def QueuesFire : Prop :=
  (∀ (s : State) (d : Nat), (s.die d).firedAt = s.clk + 1 → exec (.queueFiring d) s = .refused (.notEnabled "QUEUE_FIRING")) ∧
  ∀ (s : State) (d q : Nat) (x : XQueue) (l : Launch) (ent : BitVec 128), (s.die d).firedAt ≠ s.clk + 1 → fireQueue s d = some (q, x) → s.launch? x.launch = some l →
    (∀ k ∈ x.tokens, k.spilled = false) →
    let home := (x.cfg.extractLsb' 64 7).toNat
    let n := min x.tokens.length (x.cfg.extractLsb' 144 16).toNat
    let idx := ((List.range 8).find? fun i => (mapGet? x.fired i).isNone).getD 0
    let rc := fireRecord l x q idx n
    let e := typeEntry s x.launch home (recType rc)
    e.2 = (.ok, ent) → recordBad rc ent = false →
    ∃ s', exec (.queueFiring d) s = .next s' ∧
      mapGetD s'.queues q {} = { x with tokens := x.tokens.drop n, fired := mapSet x.fired idx (x.tokens.take n, e.1.clk) } ∧
      (s'.die d).pool = (e.1.die d).pool - n ∧ (s'.die d).firedAt = s.clk + 1 ∧
      ∀ y, e.1.launch? x.launch = some y → mapGetD (s'.core home).taskq x.launch [] = mapGetD (e.1.core home).taskq x.launch [] ++
        [{ record := rc, number := y.tasks, fired := some (q, idx) }]

/-- R348, R349, R420, Table 14-7: a launch block of a context of another partition is refused with status 1; one that is read is rejected with
its code, or queued under the next launch id with its header and roles, and the id is answered; the clocks since it was submitted are charged
to ENTRY (R406). One that cannot be read yet is kept with the clock. (A type table that cannot be read counts as scratch 0, and how an
unreadable block waits, are the model's reading, log entry 45, and so is the numbering of launch ids, log entry 39.) -/
def LaunchesSubmitted : Prop :=
  ∀ (s : State) (part ctx addr : Nat),
    ((s.ctx ctx).part ≠ part → ∃ s', exec (.submitLaunch part ctx addr) s = .next s' ∧ Shows s s' (.refusedRequest 1)) ∧
    let waits := fun (x : Nat × Nat × Nat × Nat) => x.1 = part ∧ x.2.1 = ctx ∧ x.2.2.1 = addr
    let s0 := { s with submits := s.submits.filter fun x => !(x.1 = part && x.2.1 = ctx && x.2.2.1 = addr) }
    let a := virtRead s0 none ctx addr 8
    (∀ x, (s.ctx ctx).part = part → addr % 64 = 0 → a.2 = .error x → (∀ y ∈ s.submits, ¬waits y) →
      exec (.submitLaunch part ctx addr) s = .next { s with submits := s.submits ++ [(part, ctx, addr, s.clk)] }) ∧
    ∀ hb rb, (s.ctx ctx).part = part → addr % 64 = 0 →
      let h := blockOf hb
      let n := (h.extractLsb' 4 2).toNat
      let b := virtRead a.1 none ctx (addr + 64) (4 * n)
      let tab := (h.extractLsb' 368 48).toNat
      let c := if tab = 0 then (b.1, Except.ok []) else virtRead b.1 none ctx tab 2
      let roles := (List.range n).map fun i => BitVec.ofNat 256 (littleEndian ((rb.drop (32 * i)).take 32))
      let code := blockCode h roles (mapGetD s.parts part 0) (match c.2 with
        | .ok t => littleEndian t / 2 ^ 112
        | .error _ => 0)
      a.2 = .ok hb → b.2 = .ok rb →
      (code ≠ 0 → ∃ s', exec (.submitLaunch part ctx addr) s = .next s' ∧ Shows c.1 s' (.rejected code)) ∧
      (code = 0 → ∃ s' l, exec (.submitLaunch part ctx addr) s = .next s' ∧
        s' = { c.1 with launches := s'.launches, nextLaunch := c.1.nextLaunch + 1, outs := c.1.outs ++ [.launchId (c.1.nextLaunch % 2 ^ 16)] } ∧
        s'.launch? c.1.nextLaunch = some l ∧ l.ctx = ctx ∧ l.part = part ∧ l.header = h ∧ l.roles = roles ∧ l.state = .queued ∧
        l.nextGang = 0 ∧ l.tasks = 0 ∧ l.submitted = submittedAt s part ctx addr ∧ l.entry = c.1.clk - submittedAt s part ctx addr ∧
        ∀ k, k ≠ c.1.nextLaunch → s'.launch? k = c.1.launch? k)

/-- R350, R351: the next gang of a launch that may place one goes to the lowest core on which it fits whole: each of its trains starts there,
each thread at its role's entry, and the launch runs with one more gang placed and its rings. -/
def GangsPlaced : Prop :=
  ∀ (s : State) (lid c base : Nat) (l y : Launch) (tb : List Byte) (ts : List Train), s.launch? lid = some l → launchLive l = true →
    l.nextGang < l.ngang → launchHeld s lid l = false → s.cutDue = none →
    let e := gangTable s l
    let kib := littleEndian tb / 2 ^ 112
    e.2 = .ok tb → ((launchCores l).find? fun c => (fitGang e.1 l lid c kib).isSome) = some c → fitGang e.1 l lid c kib = some (ts, base) →
    e.1.launch? lid = some y →
    ∃ s', exec (.gangPlacement lid) s = .next s' ∧ s'.nextTrain = e.1.nextTrain + ts.length ∧
      (∀ k t, ts[k]? = some t → mapGet? s'.trains (e.1.nextTrain + k) = some { t with sbase := base, slen := kib * 1024, placed := e.1.nextTrain + k }) ∧
      (∀ t, ts[0]? = some t → ∀ i < t.width,
        Started s' e.1.nextTrain e.1.nextThread i ((l.roles.getD t.role 0).extractLsb' 208 48).toNat t) ∧
      s'.launch? lid = some { y with state := .running, nextGang := y.nextGang + 1, rings := gangRings y.header y.nextGang y.rings }

/-- R42, R43, R166, R298, R350: the places that a gang is given lie within the bank, the lanes, the tiles and the scratchpad of a core, and
stand apart from one another, and from those of every train that is resident there. -/
def PlacesStandApart : Prop :=
  ∀ (s : State) (l : Launch) (lid c kib base : Nat) (ts : List Train), fitGang s l lid c kib = some (ts, base) →
    ts.Pairwise Apart ∧ (∀ x ∈ residents s c, ∀ y ∈ ts, Apart x y) ∧
    (∀ y ∈ ts, y.core = c ∧ y.quarter < 4 ∧ y.row % 8 = 0 ∧ y.row + y.regs ≤ 2048 ∧ y.lane + y.width ≤ 64 ∧ y.tile + y.acc ≤ 16) ∧
    (0 < kib → base % 1024 = 0 ∧ base + kib * 1024 ≤ 0x300000 ∧
      ∀ x ∈ residents s c, x.slen = 0 ∨ ¬(x.sbase < base + kib * 1024 ∧ base < x.sbase + x.slen))

/-- R355, R358, R365: the record at the head of a launch's queue on a core starts its train once it fits, each thread at the record's entry,
or its type's, and takes the range handed to it where it has one; one that could never fit, or of no good type, fails the launch with
code 3. -/
def TasksDispatched : Prop :=
  ∀ (s : State) (c lid : Nat) (l : Launch) (k : Task) (rest : List Task) (t : BitVec 128), s.launch? lid = some l → s.cutDue = none →
    mapGetD (s.core c).taskq lid [] = k :: rest →
    let e := typeEntry s lid c (recType k.record)
    let f := fun (lo n : Nat) => (t.extractLsb' lo n).toNat
    let x : Shape := { width := f 104 8, regs := f 96 8, kregs := f 88 8, acc := f 80 8 }
    let draft : Train := { launch := lid, ctx := l.ctx, core := c, task := some k, number := BitVec.ofNat 32 (0x80000000 + k.number) }
    let good := t.getLsbD 48 = true ∧ f 49 31 = 0 ∧ x.ok = true ∧ (k.range = none → f 112 16 ≤ 3072) ∧ (fitTrain [] false x draft).isSome = true
    (e.2 = (.bad, t) ∨ (e.2 = (.ok, t) ∧ ¬good) → exec (.taskDispatch c lid) s = .next (launchFail e.1 lid 3 { core := c })) ∧
    (e.2 = (.ok, t) → good →
      ∀ y b, fitTrain (residents e.1 c) (someEvicted e.1 c) x draft = some y →
        (match k.range with
          | some p => some p.1
          | none => fitScratch (scratchHeld e.1 c) (f 112 16)) = some b →
        let entry := (k.record.extractLsb' 0 48).toNat
        ∃ s' z, exec (.taskDispatch c lid) s = .next s' ∧ mapGet? s'.trains e.1.nextTrain = some z ∧ z = { y with
            sbase := b
            slen := match k.range with
              | some p => p.2
              | none => f 112 16 * 1024
            k := z.k
            placed := e.1.nextTrain } ∧
          mapGetD (s'.core c).taskq lid [] = rest ∧
          ∀ i < y.width, Started s' e.1.nextTrain e.1.nextThread i (if entry = 0 then f 0 48 else entry) y)

/-- R49, R314, R359, R363: a train that is over, every line of its scratch range in state P, leaves its core with its threads, once its successor counter, where its record names one, is
decremented; the counts of its launch are then settled. A counter that cannot be reached fails the launch with the code that it comes to. -/
def TrainsRetire : Prop :=
  ∀ (s : State) (k : Nat), MayRetire s k →
    let x := s.train k
    let succ : Nat := match x.task with
      | some t => (t.record.extractLsb' 256 48).toNat
      | none => 0
    let gone := fun (p : State) => mapGet? p.trains k = none ∧ ∀ q ∈ p.threads, q.2.train ≠ k
    (succ = 0 ∨ (successor s k succ).2 = .done → ∃ p, exec (.trainRetire k) s = .next (settleCounts s p x.launch) ∧ gone p) ∧
    (∀ c, succ ≠ 0 → (successor s k succ).2 = .failed c →
      exec (.trainRetire k) s = .next (launchFail (successor s k succ).1 x.launch c (trainActor s k)))

/-- R352: a still unit whose context waits for a place on the die moves to another core of it: the train named stands where it was sent, its
threads in the lanes there, and the counts of its launch are settled; the logical time of no core rises (R71). (That what is free on the die
must hold the waiting gang in sum, and the first places that fit, are the model's reading, log entry 47.) -/
def UnitsMigrate : Prop :=
  ∀ (s : State) (k c q lane row tile base : Nat), (mapGet? s.trains k).isSome = true →
    let x := s.train k
    c / 24 = x.core / 24 → c ≠ x.core → q < 4 → lane % x.width = 0 → lane + x.width ≤ 64 → row % 8 = 0 → row + x.regs ≤ 2048 →
    rectFree (residents s c) q row x.regs lane x.width = true → quarterTakes (residents s c) (someEvicted s c) q x.width x.ctx = true →
    unitOf s k = [k] → unitMoves s [k] = true → areaFits s c (s.membersOf k) = true → gangWaits s (c / 24) x.ctx = true →
    fitTiles (residents s c) x.acc = some tile → fitScratch (scratchHeld s c) (x.slen / 1024) = some base →
    ∃ p, exec (.unitMigration k c q lane row) s = .next (settleCounts s p x.launch) ∧
      (p.train k).core = c ∧ (p.train k).quarter = q ∧ (p.train k).lane = lane ∧ (p.train k).row = row ∧ (p.train k).tile = tile ∧
      (p.train k).sbase = base ∧ (∀ u ∈ s.threads, u.2.train = k → (p.thread u.1).lane = lane + (s.thread u.1).tidx) ∧
      ∀ c, (p.core c).lt = (s.core c).lt

/-- R366: a sweep that finds some device not quiescent forgets the last; one whose totals of S and R are not those of the last is kept; and
the second in a row with the same totals ends the phase: its number rises, and the job's threads in `ph.end` go on. While a cut is under way
the sweeps are the cut's (R407). -/
def SweepsEndPhases : Prop :=
  ∀ (s : State) (others : List (Bool × Nat × Nat)), s.cutDue = none → others.length = (s.members.filter (· != Config.deviceId)).length →
    let tot := (s.sCount + (others.map fun x => x.2.1).sum, s.rCount + (others.map fun x => x.2.2).sum)
    let quiet := quiescent s = true ∧ ∀ x ∈ others, x.1 = true
    (¬quiet → exec (.domainSweep others) s = .next { s with lastSweep := none }) ∧
    (quiet → s.lastSweep ≠ some tot → exec (.domainSweep others) s = .next { s with lastSweep := some tot }) ∧
    (quiet → s.lastSweep = some tot → ∃ s', exec (.domainSweep others) s = .next s' ∧
      s' = { s with lastSweep := none, phase := s.phase + 1, threads := s'.threads } ∧
      ∀ t, s'.thread t = if (mapGet? s.threads t).isSome ∧ ofJob s (s.launchOf t) = true ∧ (s.thread t).park = .phaseEnd
        then { s.thread t with stage := 2 } else s.thread t)

/-- R377 to R379: a context whose time slice is over while another waits is to be pre-empted on the core; while
the work that waits needs more than has been stopped, the train of it in the highest slot, of those the one placed last, is stopped and
its helpers released; it is saved and evicted once it is still, and is restored where it stood when its place is free, to the first
tiles and scratch that fit (the model's reading, log entry 46). -/
def TimeSlices : Prop :=
  (∀ (s : State) (c ctx : Nat), (∃ t ∈ residents s c, t.ctx = ctx) → (s.ctx ctx).slice ≤ mapGetD (s.core c).slices ctx 0 →
    (s.core c).preempt = none → otherWaits s c ctx = true →
    ∃ s', exec (.timeSliceExpiry c ctx) s = .next s' ∧ OneCore s s' c { s.core c with preempt := some ctx }) ∧
  (∀ (s : State) (k a : Nat), let x := s.train k
    (mapGet? s.trains k).isSome = true → x.evicted = none → a % 128 = 0 →
    (x.stopped = false → (s.core x.core).preempt = some x.ctx →
      (∀ p ∈ s.trains, p.1 ≠ k → p.2.core = x.core → p.2.ctx = x.ctx → p.2.evicted = none → p.2.stopped = false →
        p.2.slot < x.slot ∨ (p.2.slot = x.slot ∧ p.2.placed ≤ x.placed)) →
      moreNeeded s x.core x.ctx = true → ∃ s', exec (.partialEviction k a) s = .next s' ∧ (s'.train k) = { x with stopped := true } ∧
      ∀ u ∈ s.membersOf k, (s'.thread u).bank = (s.thread u).bank.map fun b => { b with forced := true }) ∧
    (x.stopped = true → enginesIdle s k = true →
      (∀ t ∈ s.membersOf k, helpersOf s t = [] ∧ threadStill s t = true ∧ (s.thread t).trap = none ∧ (s.thread t).ws = []) →
      wsInArea s x.core ≤ areaRoom (s.core x.core) → exec (.partialEviction k a) s = .next (evictTrain s k a))) ∧
  ∀ (s : State) (k a tile base : Nat), let x := s.train k
    x.evicted = some a → fitTiles (residents s x.core) x.acc = some tile → restoreBase s k = some base →
    rectFree (residents s x.core) x.quarter x.row x.regs x.lane x.width = true →
    quarterTakes (residents s x.core) true x.quarter x.width x.ctx = true → (s.core x.core).preempt ≠ some x.ctx →
    exec (.trainRestoration k) s = .next (restoreTrain s k tile base (placedMate s k).isSome a)

/-- R403, R404: a live thread at the PC of a breakpoint of its partition that it has not passed there passes it while SKIP is not 0, which
falls by one; else it takes the breakpoint's cause with the number as the faulting address, is halted, or its whole train is, by ACT. (What
counts as passed is the model's reading, log entry 49.) -/
def BreakpointsMatch : Prop :=
  ∀ (s : State) (t part n : Nat), let th := s.thread t
    let v := mapGetD s.breakpoints (part * 8 + n) 0
    liveThread s t = true → th.halted = false → th.trap = none → n < 8 → OwnsCtx s part (s.ctxOf t) → th.passed.getLsbD n = false →
    v.getLsbD 64 = true → v.extractLsb' 0 48 = th.pc → (v.extractLsb' 48 16 = 0xFFFF ∨ (v.extractLsb' 48 16).toNat = s.launchOf t % 2 ^ 16) →
    let skip := (v.extractLsb' 96 32).toNat
    let act := (v.extractLsb' 80 2).toNat
    (skip ≠ 0 → ∃ s', exec (.breakpointMatch t part n) s = .next s' ∧ s' = { s with threads := s'.threads, breakpoints := s'.breakpoints } ∧
      s'.thread t = { th with passed := th.passed ||| ((1 : BitVec 8) <<< n) } ∧
      (let w := mapGetD s'.breakpoints (part * 8 + n) 0
       (w.extractLsb' 96 32).toNat = skip - 1 ∧ w.extractLsb' 0 96 = v.extractLsb' 0 96)) ∧
    (skip = 0 → act = 0 → takesTraps th → ∃ s', exec (.breakpointMatch t part n) s = .next s' ∧
      (s'.thread t).trap = some { cause := 17, pc := th.pc, rpc := th.pc, faddr := BitVec.ofNat 64 n }) ∧
    (skip = 0 → act = 1 → ∃ s', exec (.breakpointMatch t part n) s = .next s' ∧ (s'.thread t).halted = true ∧ (s'.thread t).pc = th.pc) ∧
    (skip = 0 → 2 ≤ act → ∃ s', exec (.breakpointMatch t part n) s = .next s' ∧ ∀ u, haltedAll s t u → (s'.thread u).halted = true)

/-- R400 to R402, Tables 21-2 and 21-3. A quarter that issues a bundle in a clock that its die's sampling period divides keeps a record of 32
bytes, which TRACE_SAMPLE puts among the records of the clock. Those stand by core, then by home lane; they go to the ring in that order
where it has room, after one of type 0x0D with the count of those dropped before; where it has no room one more is dropped. (Which thread
a sample names is the model's reading, log entry 49; the ring at a physical address, log entry 38.) -/
def SamplesWritten : Prop :=
  (∀ (s : State) (c q t : Nat) (b : List Nat), (issueQuarter s c q).1.bundle = t :: b → s.bundle = [] →
    (s.die (c / 24)).sper ≠ 0 → s.clk % (s.die (c / 24)).sper = 0 →
    ∃ r, mapGet? ((issueQuarter s c q).1.core c).samples q = some ((s.thread t).lane, r) ∧ r.length = 32 ∧
      (let at' : Nat → Nat → Nat := fun o n => littleEndian ((r.drop o).take n)
       at' 0 8 = s.clk % 2 ^ 64 ∧ at' 8 8 = (nameOf s t).toNat ∧ at' 17 1 = 1 ∧ at' 18 6 = (s.thread t).pc.toNat ∧
        at' 24 8 = ((b.length + 1) + (s.thread t).w % 2 ^ 16 * 2 ^ 16) % 2 ^ 64)) ∧
  (∀ (s : State) (c q lane : Nat) (r : List Byte), mapGet? (s.core c).samples q = some (lane, r) →
    ∃ s', exec (.traceSample c q) s = .next s' ∧ s' = { s with cores := s'.cores, dies := s'.dies } ∧ mapGet? (s'.core c).samples q = none ∧
      ∀ d, s'.die d = if d = c / 24 ∧ (s.die d).traceLen ≠ 0
        then { s.die d with tracePend := insertRecord (c * 64 + lane) r (s.die d).tracePend } else s.die d) ∧
  (∀ (key : Nat) (r : List Byte) (l : List (Nat × List Byte)), l.Pairwise (fun x y => x.1 ≤ y.1) →
    (insertRecord key r l).Pairwise (fun x y => x.1 ≤ y.1) ∧ ∀ x, x ∈ insertRecord key r l ↔ x = (key, r) ∨ x ∈ l) ∧
  (∀ (s : State) (d : Nat), let x := s.die d
    let bs := x.tracePend.flatMap (·.2)
    x.tracePend ≠ [] → (∀ p ∈ x.tracePend, p.2.length = 32) → x.traceDrop = 0 → x.traceHead + bs.length ≤ x.traceLen →
    (traceFlush s d).mem = memWriteN s.mem (x.traceBase + x.traceHead) bs ∧
      traceFlush s d = { s with mem := (traceFlush s d).mem, dies := (traceFlush s d).dies } ∧
      ∀ y, (traceFlush s d).die y = if y = d then { x with traceHead := x.traceHead + bs.length, tracePend := [] } else s.die y) ∧
  ∀ (d : Die) (k : Nat) (m : Memory) (r : List Byte), r.length = 32 →
    (d.traceDrop ≠ 0 → d.traceHead + 64 ≤ d.traceLen → ∃ z, z.length = 32 ∧ littleEndian ((z.drop 24).take 8) = d.traceDrop % 2 ^ 64 ∧
      littleEndian ((z.drop 17).take 1) = 0x0D ∧
      tracePut d k m r = ({ d with traceHead := d.traceHead + 64, traceDrop := 0 }, memWriteN m (d.traceBase + d.traceHead) (z ++ r))) ∧
    (d.traceLen < d.traceHead + 32 → tracePut d k m r = ({ d with traceDrop := d.traceDrop + 1 }, m))

/-- R407 to R409: a cut begins when its time has come, or when a log area is seven eighths full; the device drained, two sweeps of the domain
in a row with the same totals complete it: a checkpoint of that number holds the memory, the threads and the trains of the device, the
logs begin anew, and issue goes on. (That the record is taken whole is the model's choice, log entry 50.) -/
def CutsTaken : Prop :=
  (∀ (s : State) (n : Nat), s.cutDue = none → s.ckptOn = true → (∀ k ∈ s.ckpts, k.number < n) → 0 < n → n * s.ckptPeriod * 1000000 ≤ s.dt →
    ∃ s', exec (.checkpointCut n) s = .next s' ∧ s' = { s with cutDue := some n, cutSweep := none, cutSwept := false, lastSweep := none, threads := s'.threads }) ∧
  (∀ (s : State) (d : Nat), s.cutDue = none → (s.die d).logging = true → 7 * Config.logChunks ≤ 8 * logLength (s.die d) →
    ∃ s' n, exec (.logAreaThreshold d) s = .next s' ∧ s' = { s with cutDue := some n, cutSweep := none, cutSwept := false, lastSweep := none, threads := s'.threads } ∧
        ∀ k ∈ s.ckpts, k.number < n) ∧
  (∀ (s : State) (others : List (Bool × Nat × Nat)), s.cutDue.isSome = true → others.length = (s.members.filter (· ≠ Config.deviceId)).length →
    let tot := (s.sCount + (others.map fun o => o.2.1).sum, s.rCount + (others.map fun o => o.2.2).sum)
    let still := cutDrained s = true ∧ ∀ o ∈ others, o.1 = true
    (¬still → exec (.domainSweep others) s = .next { s with cutSweep := none, cutSwept := false }) ∧
    (still → s.cutSweep ≠ some tot → exec (.domainSweep others) s = .next { s with cutSweep := some tot, cutSwept := false }) ∧
    (still → s.cutSweep = some tot → exec (.domainSweep others) s = .next { s with cutSwept := true })) ∧
  ∀ (s : State) (n : Nat), s.cutDue = some n → cutDrained s = true → s.cutSwept = true →
    ∃ s' k, exec (.checkpointCut n) s = .next s' ∧ s'.cutDue = none ∧ s'.ckpts = s.ckpts ++ [k] ∧ k.number = n ∧
      k.mem = memoryOf s (fun _ => true) ∧ k.threads = s.threads ∧ k.trains = s.trains ∧ s'.cutSwept = false ∧ s'.threads = s.threads ∧ s'.trains = s.trains ∧
      ∀ d, (s'.die d).log = [] ∧ (s'.die d).logStopped = false

/-- R410: a replayable checkpoint whose places are free is restored, with those after it dropped, and the device replays; an order gate whose
head has waited 2^20 clocks while it holds other requests opens every gate. (That later checkpoints are dropped and all gates opened is
the model's reading, log entry 51.) -/
def ReplaySteps : Prop :=
  (∀ (s : State) (part n : Nat) (k : Checkpoint), OwnsCtx s part s.jobCtx → (s.ckpts.find? fun k => k.number = n) = some k →
    k.replayable = true → placesFree s (jobPart s k) = true →
    ∃ s', exec (.replay part n) s = .next s' ∧ s'.replaying = true ∧ s'.cutDue = none ∧ (∀ c, c ∈ s'.ckpts ↔ c ∈ s.ckpts ∧ c.number ≤ n) ∧
      s'.gates = logsAfter s (s.ckpts.filter fun c => decide (n < c.number))) ∧
  (∀ (s : State) (part n : Nat), ¬OwnsCtx s part s.jobCtx → Refused (.replay part n) s) ∧
  ∀ (s : State) (g : Nat), s.replaying = true → mapGetD s.gates g [] ≠ [] → (heldAt s g ≠ [] ∨ othersHeld s g = true) → mapGetD s.gateSince g 0 + 2 ^ 20 ≤ s.clk →
    ∃ s', exec (.replayGateTimeout g) s = .next s' ∧ s'.gates = []

/-- R75, R85, R400 to R402, R404, R406, R420: what system software sets of a die of its own partition: LEASE, the sampling period, the trace
ring, whose old place takes what this clock recorded; and what it reads: the counters, the directory entry of a line, the state of a halted
thread, the time record of a launch. What is another partition's is refused with status 1. (The counters' order, and the ring within one
channel, are the model's reading, log entry 38; the directory word, log entry 60; the layout of a thread read, log entry 49.) -/
def DieSettings : Prop :=
  ∀ (s : State) (part d : Nat),
    (Owns s part d →
      (∀ v, 1 ≤ v → v ≤ 255 → ∃ s', exec (.setLease part d v) s = .next s' ∧ OneDie s s' d { s.die d with lease := v }) ∧
      (∀ v, v = 0 ∨ (1024 ≤ v ∧ v ≤ 2 ^ 24) → ∃ s', exec (.setSampling part d v) s = .next s' ∧ OneDie s s' d { s.die d with sper := v }) ∧
      (∀ a n, framesOf s part a n = true → a % 2 ^ 16 = 0 → 2 ^ 16 ≤ n → n ≤ 2 ^ 30 → a / 2 ^ 32 < 96 → a % 2 ^ 32 + n ≤ 0xA0000000 →
        ∃ s', exec (.setTraceRing part d a n) s = .next s' ∧
          OneDie (traceFlush s d) s' d { (traceFlush s d).die d with traceBase := a, traceLen := n, traceHead := 0 } ∧
            s'.mem = (traceFlush s d).mem) ∧
      (∃ s', exec (.readCounters part { die := d, line := none }) s = .next s' ∧ Shows s s' (.counters (counterList s d))) ∧
      ∀ l, homeDie l = d → ∃ s', exec (.readCounters part { die := d, line := some l }) s = .next s' ∧
        Shows s s' (.counters [(dirWord l (dirGet s l)).toNat])) ∧
    (¬Owns s part d → (∀ v, Refused (.setLease part d v) s) ∧ (∀ v, Refused (.setSampling part d v) s) ∧
      (∀ a n, Refused (.setTraceRing part d a n) s) ∧ ∀ l, Refused (.readCounters part { die := d, line := l }) s) ∧
    (∀ t, liveThread s t = true → (s.thread t).halted = true →
      let i : Instr := .readCounters part { die := d, line := none, thread := some t }
      (¬OwnsCtx s part (s.ctxOf t) → Refused i s) ∧
      (OwnsCtx s part (s.ctxOf t) → ∃ s' b, exec i s = .next s' ∧ Shows s s' (.readout b) ∧ b.length = 64 + 4 * regsOf s t ∧
        ∀ k < regsOf s t, littleEndian ((b.drop (64 + 4 * k)).take 4) = (getG (s.thread t) k).toNat)) ∧
    ∀ lid l, s.launch? lid = some l →
      let i : Instr := .readCounters part { die := d, line := none, launch := some lid }
      (l.part ≠ part → Refused i s) ∧ (l.part = part → ∃ s', exec i s = .next s' ∧ Shows s s' (.readout (timeRecord l)))

/-- R403, R404, R407: what system software asks of threads and of the job: a breakpoint register of its partition, whose new setting no thread
has passed; a halt and a resumption of a thread; checkpointing of the job, with which logging begins. -/
def DebugRequests : Prop :=
  (∀ (s : State) (part n : Nat) (v : BitVec 128), n < 8 → v.extractLsb' 82 14 = 0 → v.extractLsb' 65 15 = 0 → v.extractLsb' 80 2 ≠ 3 →
    ∃ s', exec (.setBreakpoint part n v) s = .next s' ∧ s' = { s with breakpoints := s'.breakpoints, threads := s'.threads } ∧
      (∀ k, mapGetD s'.breakpoints k 0 = if k = part * 8 + n then v else mapGetD s.breakpoints k 0) ∧
      ∀ t, s'.thread t = if (mapGet? s.threads t).isSome ∧ (s.ctx (s.ctxOf t)).part = part
        then { s.thread t with passed := (s.thread t).passed &&& ~~~((1 : BitVec 8) <<< n) } else s.thread t) ∧
  (∀ (s : State) (part t : Nat), liveThread s t = true →
    ((s.thread t).halted = false → OwnsCtx s part (s.ctxOf t) → ∃ s', exec (.haltRequest part t) s = .next s' ∧ s'.mem = s.mem ∧
      (s'.thread t).halted = true ∧ (s'.thread t).pc = (s.thread t).pc ∧ (s'.thread t).g = (s.thread t).g) ∧
    ((s.thread t).halted = true → OwnsCtx s part (s.ctxOf t) → ∃ s', exec (.debugResume part t) s = .next s' ∧ s'.mem = s.mem ∧
      (s'.thread t).halted = false ∧ (s'.thread t).pc = (s.thread t).pc ∧ (s'.thread t).g = (s.thread t).g) ∧
    (¬OwnsCtx s part (s.ctxOf t) → ((s.thread t).halted = false → Refused (.haltRequest part t) s) ∧
      ((s.thread t).halted = true → Refused (.debugResume part t) s))) ∧
  ∀ (s : State) (part ms : Nat), 1 ≤ ms → ms ≤ 1000 → (OwnsCtx s part s.jobCtx → ∃ s', exec (.setCheckpointPeriod part ms) s = .next s' ∧
      s' = { s with ckptOn := true, ckptPeriod := ms, dies := s'.dies } ∧
      ∀ d < 4, s'.die d = if s.replaying then s.die d else { s.die d with logging := true }) ∧
    (¬OwnsCtx s part s.jobCtx → Refused (.setCheckpointPeriod part ms) s)

/-- R381, R421, R423: temperature. At 105 degrees or the power limit a die is throttled until it recovers; at 115 the device is in a
device-level fault, with no thread and no launch left and every byte of memory as it was. -/
def TemperatureSteps : Prop :=
  ∀ (s : State) (d : Nat),
    (d < 4 → (s.die d).throttled = false → ∃ s', exec (.junction105c d) s = .next s' ∧ OneDie s s' d { s.die d with throttled := true }) ∧
    ((s.die d).throttled = true → ∃ s', exec (.thermalRecovery d) s = .next s' ∧ OneDie s s' d { s.die d with throttled := false }) ∧
    (d < 4 → ∃ s', exec (.junction115c d) s = .next s' ∧ s'.deviceFault = true ∧ s'.threads = [] ∧ s'.trains = [] ∧ s'.launches = [] ∧
      s'.mem = s.mem)

/-- R381, R421: a reset leaves no thread, train or launch, every clock at zero, DRAM, its owner tags and the checkpoints; firmware whose
signature verifies and whose version is not below the fused counter starts, with the SHA-256 digest of it and of the hypervisor it starts
measured, and the device is in recovery otherwise, where a new image is checked the same way. (That the outcome of ECDSA comes with the
image, and what bytes a stage measures, are the model's choice, log entry 15.) -/
def ResetAndBoot : Prop :=
  ∀ (s : State) (img : Firmware),
    let good := img.signatureOk = true ∧ Config.fusedVersion ≤ img.version
    (∃ s', exec (.deviceReset img) s = .next s' ∧ s'.threads = [] ∧ s'.trains = [] ∧ s'.launches = [] ∧ s'.clk = 0 ∧ s'.dpc = 0 ∧
      s'.deviceFault = false ∧ s'.mem = s.mem ∧ s'.frames = s.frames ∧ s'.ckpts = s.ckpts ∧ (∀ c, (s'.core c).lt = 0) ∧
      (∀ d, (s'.die d).mt = 0 ∧ (s'.die d).lease = 16 ∧ (s'.die d).dir = []) ∧
      (good → s'.firmware = sha256 img.image ∧ s'.hypervisor = sha256 img.hypervisor ∧ s'.recovery = false) ∧ (¬good → s'.recovery = true)) ∧
    (s.recovery = true → good → ∃ s', exec (.newFirmwareImage img) s = .next s' ∧ s'.outs = s.outs ++ [.imageAccepted] ∧
      s' = { s with
        recovery := false, firmware := sha256 img.image, hypervisor := sha256 img.hypervisor, systems := s'.systems, outs := s'.outs } ∧
      ∀ part, (∀ x ∈ img.systems, x.1 ≠ part) → mapGet? s'.systems part = none) ∧
    (s.recovery = true → ¬good → exec (.newFirmwareImage img) s = .next s)

/-- R30, R419, R420, R422: a host window of a context, an inbound window, a root pointer, a member of the domain job, a word of an aperture
descriptor, two registers of a halted thread of the partition (its layout: log entry 49) and any other system register (which of them a write
reaches is the model's choice, log entry 17) are set, and the attestation report of a
partition is its 192 bytes and their signature; what is another partition's is refused with status 1. -/
def SystemRequests : Prop :=
  (∀ (s : State) (part ctx n : Nat) (v : BitVec 128), (¬OwnsCtx s part ctx → Refused (.setHostWindow part ctx n v) s) ∧
    (OwnsCtx s part ctx → n < 16 → v.extractLsb' 4 20 = 0 → v.extractLsb' 104 24 = 0 →
      ∃ s', exec (.setHostWindow part ctx n v) s = .next s' ∧ s' = { s with ctxs := s'.ctxs } ∧
        (∀ k, k ≠ ctx → s'.ctx k = s.ctx k) ∧ s'.ctx ctx = { s.ctx ctx with windows := (s'.ctx ctx).windows } ∧
        ∀ k, mapGet? (s'.ctx ctx).windows k = if k = n then some v else mapGet? (s.ctx ctx).windows k)) ∧
  (∀ (s : State) (part n : Nat) (v : BitVec 128),
    let mine := OwnsCtx s part (v.extractLsb' 16 8).toNat ∧ windowTaken s part n = false
    (¬mine → Refused (.setInboundWindow part n v) s) ∧
    (mine → n < 16 → v.extractLsb' 24 56 = 0 → v.extractLsb' 3 13 = 0 → v.extractLsb' 80 34 = 0 →
      ∃ s', exec (.setInboundWindow part n v) s = .next s' ∧ s' = { s with inbound := s'.inbound } ∧
        ∀ k, mapGet? s'.inbound k = if k = n then some v else mapGet? s.inbound k)) ∧
  (∀ (s : State) (n : Nat) (v : DWord), ∃ s', exec (.registerWrite (.other n) v) s = .next s' ∧ s' = { s with sysRegs := s'.sysRegs } ∧
    ∀ k, mapGet? s'.sysRegs k = if k = n then some v else mapGet? s.sysRegs k) ∧
  (∀ (s : State) (c : Nat) (v : DWord), ∃ s', exec (.registerWrite (.root c) v) s = .next s' ∧ s' = { s with ctxs := s'.ctxs } ∧
    ∀ k, s'.ctx k = if k = c then { s.ctx c with root := v } else s.ctx k) ∧
  (∀ (s : State) (part t w : Nat) (v : DWord), liveThread s t = true → (s.thread t).halted = true → 8 ≤ w → 2 * (w - 8) + 1 < regsOf s t →
    (¬OwnsCtx s part (s.ctxOf t) → Refused (.registerWrite (.thread part t w) v) s) ∧
    (OwnsCtx s part (s.ctxOf t) → ∃ s', exec (.registerWrite (.thread part t w) v) s = .next s' ∧ s' = { s with threads := s'.threads } ∧
      (∀ u, u ≠ t → s'.thread u = s.thread u) ∧ (s'.thread t).tpend = (s.thread t).tpend ∧
      ∀ k < regsOf s t, getG (s'.thread t) k = if k = 2 * (w - 8) then v.extractLsb' 0 32
        else if k = 2 * (w - 8) + 1 then v.extractLsb' 32 32 else getG (s.thread t) k)) ∧
  (∀ (s : State) (d : Nat) (v : DWord), d < 384 → (∀ m ∈ s.members, m < 384) → ∃ s', exec (.registerWrite (.member d) v) s = .next s' ∧
    s' = { s with members := s'.members } ∧ ∀ m, m ∈ s'.members ↔ if m = d then v.getLsbD 0 = true else m ∈ s.members) ∧
  (∀ (s : State) (a w : Nat) (v : DWord), a < 256 → w < 8 → ∃ s', exec (.registerWrite (.aperture a w) v) s = .next s' ∧
    s' = { s with apertures := s'.apertures } ∧ ∀ k u, u < 8 → (mapGetD s'.apertures k 0).extractLsb' (64 * u) 64 =
      if k = a ∧ u = w then v else (mapGetD s.apertures k 0).extractLsb' (64 * u) 64) ∧
  ∀ (s : State) (part : Nat) (nonce : BitVec 256), ((mapGet? s.parts part).isNone = true → Refused (.attestationReport part nonce) s) ∧
    ((mapGet? s.parts part).isSome = true → ∃ s' b, exec (.attestationReport part nonce) s = .next s' ∧ b.length = 192 ∧
      Shows s s' (.report (b ++ bytesOfNat 64 (Config.sign (sha256 b)).toNat)) ∧ littleEndian (b.take 32) = nonce.toNat ∧
      littleEndian ((b.drop 48).take 32) = s.firmware.toNat ∧ littleEndian ((b.drop 80).take 32) = s.hypervisor.toNat ∧
      littleEndian ((b.drop 112).take 32) = (mapGetD s.systems part 0).toNat)

/-- R38, R39: a frame of no other partition, with nothing under way in it, takes a new owner: its bytes read as zero, no cached copy of its
lines, and none that the loop-back of this device filled from it, is left in any L1, L2 or remote-data cache, and no other byte and no
other tag changes. -/
def OwnersChange : Prop :=
  ∀ (s : State) (part home frame ctx : Nat), home < 96 → frame < 0xA000 →
    let f := home * 2 ^ 16 + frame
    let mine := OwnsCtx s part ctx ∧ framesOf s part (f * 2 ^ 16) (2 ^ 16) = true
    (¬mine → Refused (.ownerTagChange part home frame ctx) s) ∧
    (mine → rangeBusy s (f * 2 ^ 16) (2 ^ 16) = false → ∃ s', exec (.ownerTagChange part home frame ctx) s = .next s' ∧
      (∀ a, memRead s'.mem a = if a / 2 ^ 16 = f then 0 else memRead s.mem a) ∧
      (∀ k, mapGet? s'.frames k = if k = f then some { part := part, ctx := ctx } else mapGet? s.frames k) ∧
      (∀ d key x l, rdcGet? s' d key = some x → x.home = some l → l / 512 ≠ f) ∧
      ∀ l, l / 512 = f → (∀ c, mapGet? (s'.core c).l1 l = none) ∧ ∀ d, mapGet? (s'.die d).l2 l = none ∧ mapGet? (s'.die d).rdc l = none)

/-- R21, R34 to R37: a page that is not frozen, and has nothing under way, moves to a new frame of its partition: no core holds a translation
of it, the frame is its context's, and its old home forwards from this clock on. A page whose region changes its mode is in no core's
translations either; where the region's home is another device, this one keeps no line of it but those that are being written back, and
reports done in the step that finds none. -/
def PagesChange : Prop :=
  (∀ (s : State) (part ctx page home frame : Nat), ¬OwnsCtx s part ctx → Refused (.pageMigration part ctx page home frame) s) ∧
  (∀ (s : State) (part ctx page home frame entry : Nat) (e : DWord) (big : Bool),
    let va := page * 2 ^ 16
    let n : Nat := if big then 2 ^ 21 else 2 ^ 16
    let src := leafPa e big 0
    let dst := home * 2 ^ 32 + frame * 2 ^ 16
    let r := walk s ctx va .read
    r.2 = .leaf e entry big →
    (OwnsCtx s part ctx → framesOwned s part dst n = false → Refused (.pageMigration part ctx page home frame) s) ∧
    (OwnsCtx s part ctx → framesOwned s part dst n = true → e.getLsbD 11 = false → home < 96 → frame < 0xA000 →
      (big = true → frame % 32 = 0) → (dst + n ≤ src ∨ src + n ≤ dst) → rangeBusy r.1 src n = false →
      ∃ s' k, exec (.pageMigration part ctx page home frame) s = .next s' ∧
        s'.forwards.getLast? = some { ctx := ctx, page := page, since := k, src := src, dst := dst, len := n } ∧
        (∀ i < n / 2 ^ 16, mapGet? s'.frames (dst / 2 ^ 16 + i) = some { part := part, ctx := ctx }) ∧
        ∀ c < 96, ∀ x ∈ (s'.core c).tlb, pageMeets x ctx (va / n * n) n = false)) ∧
  (∀ (s : State) (part ctx page rm : Nat) (p : State) (x : DWord × Nat × Nat × Nat × Nat), rm ≤ 1 →
    regionLeaves s ctx [page] = some (p, [x]) → rangeBusy p x.2.2.1 x.2.2.2.1 = false → Config.deviceId < 384 →
    let i : Instr := .regionModeChange part ctx page 1 { rm := rm, home := Config.deviceId }
    (¬OwnsCtx s part ctx → Refused i s) ∧
    (OwnsCtx s part ctx → ∃ s', exec i s = .next s' ∧
      ∀ c < 96, ∀ y ∈ (s'.core c).tlb, pageMeets y ctx x.2.2.2.2 x.2.2.2.1 = false)) ∧
  ∀ (s : State) (part page count rm home : Nat), rm ≤ 1 → 0 < count → home < 384 → home ≠ Config.deviceId → OwnsCtx s part s.jobCtx →
    importBusy s home (page * 2 ^ 16) (count * 2 ^ 16) = false →
    ∃ s', exec (.regionModeChange part s.jobCtx page count { rm := rm, home := home }) s = .next s' ∧ s'.mem = s.mem ∧
      s'.threads = s.threads ∧
      (∀ d < 4, ∀ k < count * 512, ∀ x, rdcGet? s' d (remoteKey home (page * 2 ^ 16) + k) = some x → x.leaving = true) ∧
      (importDone s' home (page * 2 ^ 16) (count * 2 ^ 16) = true → s'.outs.getLast? = some (.regionFlushed home page count)) ∧
      (importDone s' home (page * 2 ^ 16) (count * 2 ^ 16) = true → ∀ d < 4, ∀ k < count * 512,
        rdcGet? s' d (remoteKey home (page * 2 ^ 16) + k) = none)

end Sys2Proof.Claims

open Sys2Proof Sys2Proof.Machine Sys2Proof.Claims

/-- The machine right after reset, which meets the invariant, and a thread that nothing has written yet (R71, R74, R75, R82, R93, R177,
R374). -/
def Obligations.ResetAndFresh : Prop :=
  Claims.ResetState ∧ Claims.FreshThread ∧ Claims.ResetInv

/-- Every step keeps the invariant: from any state whose memory is in canonical form, a next state's memory is. -/
def Obligations.StepKeepsInv : Prop := ∀ s t : State, Inv s → step s = .next t → Inv t

/-- R169, R170, R187, R188: where it is the turn of a quarter, its bundle is not empty, the bytes fetched at the PC of the bundle decode,
and no thread of the bundle is held at the instruction, a step is the execution of the decoded instruction by the bundle, at the state
that the clocks of the step, the fetch, the issue clock used, the sample due (R402) and the order of the bundle's threads leave. -/
def Obligations.StepRunsDecoded : Prop :=
  ∀ (s : State) (c q t n : Nat) (ts : List Nat) (bytes rest : List Byte) (i : Instr),
    s.deviceFault = false → s.recovery = false → (nextAct s).2 = some (.issue c q) → MayTakeTurn (beginStep s) c q →
    formBundle (beginStep s) c q = t :: ts →
    let b := beginStep s
    let r := fetchAt b c q (b.ctxOf t) (b.launchOf t) (b.thread t).pc.toNat (t :: ts)
    r.2 = .ok bytes → decodeBytes bytes = .ok (i, n, rest) → (∀ u ∈ t :: ts, holdAtIssue r.1 i u = none) →
    step s = exec i { afterForm (takeSample (closeSlot r.1 c q) c q (t :: ts)) c q (t :: ts) with bundle := t :: ts }

/-- What a step does where it issues no decoded instruction: an encoding that is none, an event of the agenda, a device that has
stopped (R71, R78, R169, R170, R172, R173, R174, R188, R343, R344, R381, R402, R416, R421). -/
def Obligations.StepOtherwise : Prop :=
  Claims.StepTrapsUndecoded ∧ Claims.StepRunsEvents ∧ Claims.FaultedDeviceStops

/-- A word placed where the device fetches runs as the very next step from reset, in one thread whose registers are zero (log entry 20). -/
def Obligations.PlacedWordRuns : Prop :=
  ∀ (nbits w : Nat) (i : Instr), nbits = 16 ∨ nbits = 32 → decodeTableWord nbits w = some i →
    ∃ s : State, s.bundle = [0] ∧ (s.thread 0).pc = 0x10000 ∧ (∀ r, getG (s.thread 0) r = 0) ∧
      step (State.reset.withFetchWord nbits w) = exec i s

/-- R187, R191 to R199: for every instruction with an encoding that passes the checks of the encoding tables, with any operands, decoding
its encoding gives it, its length and what follows it. -/
def Obligations.DecodeEncode : Prop :=
  ∀ (i : Instr) (rest : List Byte), i.length ≠ 0 → i.check = none →
    decodeBytes (((encode i).flatMap fun h => [h.extractLsb' 0 8, h.extractLsb' 8 8]) ++ rest) = .ok (i, i.length, rest)

/-- What the decoder accepts is the encoding of what it answers: no other word has the same reading, and what it answers passes the
checks. -/
def Obligations.DecodeIsEncoding : Prop :=
  ∀ (i : Instr) (bytes rest : List Byte) (n : Nat), decodeBytes bytes = .ok (i, n, rest) →
    i.check = none ∧ i.length = n ∧ n ≠ 0 ∧ bytes = ((encode i).flatMap fun h => [h.extractLsb' 0 8, h.extractLsb' 8 8]) ++ rest

/-- Words written out from the encoding tables decode to the instructions that they stand for, and reserved encodings are refused
(R189, R190, R198). -/
def Obligations.DecodeTable : Prop :=
  Claims.DecodeWords ∧ Claims.ReservedEncodingsRejected

/-- What an instruction waits for before it executes, and what a false guard leaves (R183, R184, R188, R192, R240). -/
def Obligations.IssueWaits : Prop :=
  Claims.MarkedWaits ∧ Claims.FullWindowWaits ∧ Claims.FalseGuardSkips

/-- The checks of an instruction's operands: a register that its train does not have, and one whose result has not arrived (R42, R184,
R188, R324). -/
def Obligations.OperandTraps : Prop :=
  Claims.RegisterBoundTraps ∧ Claims.PrematureAccessTraps

/-- The integer instructions with a 32-bit and with a 64-bit result (R255, R256, R257, R258, R259). -/
def Obligations.IntegerResults : Prop :=
  Claims.IntegerWordResults ∧ Claims.IntegerPairResults

/-- The counting, extending, rotating, extracting and saturating instructions (R260). -/
def Obligations.BitAndSaturatingResults : Prop :=
  Claims.IntegerBitResults ∧ Claims.SaturatingResults

/-- The comparisons and the predicate instructions (R226, R227, R228). -/
def Obligations.PredicateSetting : Prop :=
  Claims.PredicateResults ∧ Claims.PredicateWords

/-- Floating-point arithmetic: fixed-latency and variable-latency results and their flags (R261, R262, R263, R264, R265, R266, R267,
R268, R269, R270, R271). -/
def Obligations.FloatResults : Prop :=
  Claims.FloatWordResults ∧ Claims.FloatResultsSent ∧ Claims.ConversionsSent

/-- Rounding to nearest, and the NaN that arithmetic gives (R211, R212, R213). -/
def Obligations.RoundingAndNans : Prop :=
  Claims.RoundsToNearest ∧ Claims.NanIsCanonical

/-- Branches, calls, indirect jumps, the traps of their targets and the landing check (R229, R231, R232, R233). -/
def Obligations.ControlFlow : Prop :=
  Claims.BranchResults ∧ Claims.JumpResults ∧ Claims.JumpTraps ∧ Claims.LandingChecked

/-- The masks of a train, and what `exit` ends (R130, R177, R234, R236, R237). -/
def Obligations.MasksAndExit : Prop :=
  Claims.MaskResults ∧ Claims.ExitEnds

/-- The instructions that read the horizon, branch on it and wait for it (R243, R244, R245, R329). -/
def Obligations.HorizonInstructions : Prop :=
  Claims.HorizonRead ∧ Claims.HorizonResults

/-- Gathering on a mask, and what a gathered group exchanges (R178, R179, R180, R181, R237, R272, R273). -/
def Obligations.Gathering : Prop :=
  Claims.GatherWaits ∧ Claims.GatherCompletes ∧ Claims.CrossLaneResults

/-- Loads, stores and atomics in scratch, and their checks (R11, R46, R47, R51, R112, R121, R276, R278, R282, R409). -/
def Obligations.ScratchAccesses : Prop :=
  Claims.ScratchLoads ∧ Claims.ScratchStores ∧ Claims.ScratchChecks

/-- The addresses and flag operands at which a memory operation fails as it begins (R276, R288). -/
def Obligations.AccessFailures : Prop :=
  Claims.AddressFailures ∧ Claims.StoreFlagFailures

/-- Accesses to device memory: what a missing translation begins, what a settled line answers at once, and the write set that a weak
store enters (R18, R19, R40, R79, R80, R82, R100, R117, R119, R238, R239, R286). -/
def Obligations.DeviceMemory : Prop :=
  Claims.TranslationMisses ∧ Claims.DeviceAccesses ∧ Claims.WeakStores

/-- Accesses to host memory, to other devices and to the aperture, and the requests that leave for them (R12, R27, R28, R30, R140,
R141, R142, R145, R279, R282, R414, R416). -/
def Obligations.OutsideMemory : Prop :=
  Claims.OutsideAccesses ∧ Claims.RemoteRequestsLeave

/-- `phase` and the fences: what completes them and what they wait for (R83, R126, R127, R128, R291). -/
def Obligations.PhaseBoundaries : Prop :=
  Claims.PhaseCompletes ∧ Claims.PhaseWaits ∧ Claims.FenceResults

/-- The barrier of a train and the named barriers (R129, R178, R181, R292, R293). -/
def Obligations.Barriers : Prop :=
  Claims.TrainBarrierDeparts ∧ Claims.TrainBarrierArrives ∧ Claims.BarrierArrivals ∧ Claims.BarrierDepartsAndChecks

/-- Range flushes and invalidates, and the presence of scratch lines (R11, R46, R61, R238, R294, R295). -/
def Obligations.RangesAndPresence : Prop :=
  Claims.RangeOperationsBegin ∧ Claims.PresenceResults

/-- Matrix and copy commands as they are issued, and the role they need (R238, R239, R240, R296, R297, R303, R316, R317). -/
def Obligations.EngineCommands : Prop :=
  Claims.CommandsIssued ∧ Claims.EngineRoleTraps

/-- The commit of a batch and the wait for one (R307, R308). -/
def Obligations.Batches : Prop :=
  Claims.CommitResults ∧ Claims.BatchWaits

/-- The transfers between tiles and registers and their checks (R298, R309, R310). -/
def Obligations.TileTransfers : Prop :=
  Claims.TileReads ∧ Claims.TileWrites ∧ Claims.TileChecks

/-- `recruit`: what it grants and where it traps (R231, R322, R323, R325). -/
def Obligations.Recruiting : Prop :=
  Claims.RecruitGrants ∧ Claims.RecruitTraps

/-- `rnext` in a recruiter and in a helper (R325, R328, R330). -/
def Obligations.Claiming : Prop :=
  Claims.ClaimResults ∧ Claims.HelperClaims

/-- How a helper leaves, and the join of a recruitment (R130, R326, R327, R332). -/
def Obligations.LeavingAndJoining : Prop :=
  Claims.HelperLeaves ∧ Claims.JoinResults

/-- The Escapement instructions (R334, R335, R336, R337, R338, R395). -/
def Obligations.Streams : Prop :=
  Claims.StreamMarksBegin ∧ Claims.PushesBegin ∧ Claims.NextResults ∧ Claims.DoneRetires

/-- The Regulator instructions: a queue's configuration, tokens and completions (R11, R12, R46, R340, R341, R346). -/
def Obligations.QueueTokens : Prop :=
  Claims.QueueConfigBegins ∧ Claims.TokenPushesBegin ∧ Claims.TokenDoneBegins

/-- Taking, spawning and handing on tasks (R11, R48, R49, R121, R296, R345, R357, R358, R363). -/
def Obligations.Tasks : Prop :=
  Claims.TakeResults ∧ Claims.SpawnPlaces ∧ Claims.HandPasses

/-- The rings between the roles of a gang (R296, R361, R362). -/
def Obligations.Rings : Prop :=
  Claims.RingSends ∧ Claims.RingReceives ∧ Claims.RingEnds ∧ Claims.RingProtocolTraps

/-- Uniform operands, and the end of a phase (R360, R366). -/
def Obligations.UniformsAndPhases : Prop :=
  Claims.UniformReads ∧ Claims.PhaseEndResults

/-- The special registers that `srd` sends, and the control registers that the CSR instructions read and write (R217, R368, R374). -/
def Obligations.ControlRegisters : Prop :=
  Claims.SpecialReads ∧ Claims.ControlReads ∧ Claims.ControlWrites

/-- `brk`, the return from a trap, and the replay of a record (R187, R249, R369, R370, R371, R374). -/
def Obligations.TrapInstructions : Prop :=
  Claims.BreakpointTraps ∧ Claims.TrapReturns ∧ Claims.ReplayReturns

/-- What arrives for a thread: results, the outcome of its operations and acknowledgements; and the starved list (R51, R56, R57, R74,
R77, R81, R83, R90, R92, R117, R126, R172, R182, R183, R279, R285, R307). -/
def Obligations.ThreadArrivals : Prop :=
  Claims.ResultArrivals ∧ Claims.OperationArrivals ∧ Claims.BytesAtHome ∧ Claims.AcknowledgedWrites ∧ Claims.StarvedJoins

/-- Page walks, faults serviced, translations removed and the walks of range operations (R16, R19, R21, R22, R23, R61, R62, R63, R64,
R65, R66, R424, R425). -/
def Obligations.TranslationEvents : Prop :=
  Claims.WalkOutcomes ∧ Claims.FaultsServiced ∧ Claims.TranslationsRemoved ∧ Claims.RangeWalks

/-- Logical time that advances, and the overflow area of the write set (R71, R78, R80, R425). -/
def Obligations.TimeAndOverflow : Prop :=
  Claims.LogicalTimeSteps ∧ Claims.OverflowServiced

/-- Atomics as they are served, and the values they leave (R92, R263, R285, R286, R410). -/
def Obligations.Atomics : Prop :=
  Claims.AtomicsServed ∧ Claims.AtomicValues

/-- Traps as they are delivered, their records, and those of helpers (R188, R246, R327, R328, R330, R369, R371, R375). -/
def Obligations.TrapDelivery : Prop :=
  Claims.TrapsDelivered ∧ Claims.RecordHeaders ∧ Claims.HelpersFail ∧ Claims.RaisedByEvents

/-- The messages of the coherence protocol at a home: what waits, what is read, what is written and what is counted (R86, R88, R89,
R90, R99, R100). -/
def Obligations.CoherenceRequests : Prop :=
  Claims.MessagesHandled ∧ Claims.RequestsWait ∧ Claims.ReadRequests ∧ Claims.WriteRequests ∧ Claims.ForwardsClose ∧ Claims.AnswersCounted

/-- The copies of a line: evictions, claims, grants and the links between the dies (R68, R69, R70, R72, R73, R89, R95, R99, R101). -/
def Obligations.CoherenceCopies : Prop :=
  Claims.EvictionsRecorded ∧ Claims.ClaimsGranted ∧ Claims.CopyMessages ∧ Claims.MissingCopies ∧ Claims.GrantsInstalled ∧ Claims.DieLinkSteps

/-- Requests to other devices: how one is served, answered, given up and carried (R12, R103, R105, R106, R117, R141, R145, R146, R147,
R366, R410, R412, R413, R416). -/
def Obligations.FabricRequests : Prop :=
  Claims.RequestsServed ∧ Claims.AnswersDelivered ∧ Claims.RequestsGivenUp ∧ Claims.WritebacksFail ∧ Claims.FabricLinkSteps

/-- Links that go and come, time in a coherence domain, entries that expire, and the host's accesses (R33, R36, R105, R107, R146, R414,
R415, R417, R419). -/
def Obligations.LinksTimeAndHost : Prop :=
  Claims.LinksGoAndCome ∧ Claims.DomainTime ∧ Claims.EntriesExpire ∧ Claims.HostSnoops ∧ Claims.HostAccesses

/-- The matrix and copy engines as they work: fills, reads, acceptance and completion (R45, R46, R50, R88, R91, R137, R139, R223, R241,
R299, R302, R303, R304, R305, R308, R313, R317, R318, R320, R388). -/
def Obligations.EngineEvents : Prop :=
  Claims.ScratchFills ∧ Claims.EngineReads ∧ Claims.OwnedLinesWritten ∧ Claims.MatrixAcceptance ∧ Claims.MatrixCompletion ∧
    Claims.IntegerMatrixProduct ∧ Claims.CopyAcceptance ∧ Claims.CopyCompletion

/-- The Escapement and the Regulator as they work (R334, R335, R336, R341, R342, R343). -/
def Obligations.UnitEvents : Prop :=
  Claims.EscapementSteps ∧ Claims.TokensAccepted ∧ Claims.QueuesFire

/-- Launches, gangs, tasks and trains: how they are placed, retire and move, and the time slices (R42, R43, R49, R71, R166, R298, R314,
R348, R349, R350, R351, R352, R355, R358, R359, R363, R365, R366, R377, R378, R379, R406, R407, R420). -/
def Obligations.Scheduling : Prop :=
  Claims.LaunchesSubmitted ∧ Claims.GangsPlaced ∧ Claims.PlacesStandApart ∧ Claims.TasksDispatched ∧ Claims.TrainsRetire ∧
    Claims.UnitsMigrate ∧ Claims.SweepsEndPhases ∧ Claims.TimeSlices

/-- Breakpoints, samples, checkpoints, replay, and what system software sets for them (R75, R85, R400, R401, R402, R403, R404, R406,
R407, R408, R409, R410, R420). -/
def Obligations.DebugEvents : Prop :=
  Claims.BreakpointsMatch ∧ Claims.SamplesWritten ∧ Claims.CutsTaken ∧ Claims.ReplaySteps ∧ Claims.DieSettings ∧ Claims.DebugRequests

/-- Temperature, reset and boot, and the requests of system software (R21, R30, R34, R35, R36, R37, R38, R39, R381, R419, R420, R421,
R422, R423). -/
def Obligations.SystemEvents : Prop :=
  Claims.TemperatureSteps ∧ Claims.ResetAndBoot ∧ Claims.SystemRequests ∧ Claims.OwnersChange ∧ Claims.PagesChange

/-- R188, R249, R369 to R371, R374: where `brk`, `eret` and `hzreplay` complete. `brk` has its trap waiting for delivery, outside handler mode
or in a helper; in handler mode, with no result outstanding, no cause held and the trap area readable, `eret` ends handler mode, and so
does `hzreplay` where the record's operations fit the window and none of them has to wait. -/
def Obligations.TrapInstructionsComplete : Prop :=
  (∀ (a : BitVec 6) (sm : BitVec 1) (s : State) (t : Nat), Alone s t (.brk a sm) → takesTraps (s.thread t) →
    ∃ s', exec (.brk a sm) s = .next s' ∧ ((s'.thread t).trap.map fun k => (k.cause, k.faddr)) = some (17, BitVec.ofNat 64 a.toNat)) ∧
  (∀ (sm : BitVec 1) (s : State) (t : Nat), Alone s t (.eret sm) → (s.thread t).hm = true → outstanding (s.thread t) = false →
    (s.thread t).tpend = 0 → (readArea (s.modThread t fun th => { th with pendG := 0, pendQ := 0 }) t 16 1).2.1 = .ok →
    ∃ s', exec (.eret sm) s = .next s' ∧ (s'.thread t).hm = false) ∧
  ∀ (sm : BitVec 1) (s : State) (t : Nat), Alone s t (.hzreplay sm) → (s.thread t).hm = true → (s.thread t).tpend = 0 →
    let p := s.modThread t (passMarker (.hzreplay sm))
    let r := readArea p t 0 136
    let l := replayList (p.thread t) (p.trainOf t).regs r.2.2
    r.2.1 = .ok → unresolved (s.thread t) + l.length ≤ 16 → (∀ e ∈ l, replayWait r.1 t e = none) →
    ∃ s', exec (.hzreplay sm) s = .next s' ∧ (s'.thread t).hm = false

/-- R16, R19, R21 to R23, R61, R71, R78, R80, R83, R172, R182, R286, R330, R369, R375: each step of threads, translation, clocks, boundaries
and atomics completes where its conditions hold. -/
def Obligations.ThreadStepsComplete : Prop :=
  ∀ (i : Instr) (s : State), threadHappens i s → ∃ s', exec i s = .next s'

/-- R70, R88, R91, R99: each message of the coherence protocol is handled, and each step of the links between the dies completes, where its
conditions hold. -/
def Obligations.CoherenceStepsComplete : Prop :=
  ∀ (i : Instr) (s : State), coherenceHappens i s → ∃ s', exec i s = .next s'

/-- R33, R36, R103, R105, R107, R141, R145 to R147, R412 to R417, R419: each step of the fabric, the host link and domain time completes where
its conditions hold. -/
def Obligations.FabricStepsComplete : Prop :=
  ∀ (i : Instr) (s : State), fabricHappens i s → ∃ s', exec i s = .next s'

/-- R46, R50, R303, R305, R313, R318 to R320, R334, R335, R341, R343: each step of the engines, the Escapement and the Regulator completes
where its conditions hold. -/
def Obligations.EngineStepsComplete : Prop :=
  ∀ (i : Instr) (s : State), engineHappens i s → ∃ s', exec i s = .next s'

/-- R314, R348, R350, R352, R355, R366, R377 to R379: each step of launches, tasks, trains and time slices completes where its conditions
hold. -/
def Obligations.LaunchStepsComplete : Prop :=
  ∀ (i : Instr) (s : State), launchHappens i s → ∃ s', exec i s = .next s'

/-- R34, R36, R39, R75, R381, R400 to R410, R419 to R423: each step of debug, temperature, reset and the system services completes where
its conditions hold. -/
def Obligations.SystemStepsComplete : Prop :=
  ∀ (i : Instr) (s : State), systemHappens i s → ∃ s', exec i s = .next s'
end

