-- ==== Sys2Proof/Laws/Maps.lean ====
section
/-! SUPPORT. The laws of sparse maps and of memory in canonical form. -/

namespace Sys2Proof.Machine
open Sys2Proof

/-! Sparse maps. -/

theorem mapGet?_del_self {α : Type} (m : SMap α) (i : Nat) : mapGet? (mapDel m i) i = none := by
  induction m with
  | nil => rfl
  | cons p m ih => by_cases h : p.1 = i <;> simp [mapDel, mapGet?, h, ih]

theorem mapGet?_del_ne {α : Type} (m : SMap α) {i j : Nat} (h : j ≠ i) : mapGet? (mapDel m i) j = mapGet? m j := by
  induction m with
  | nil => rfl
  | cons p m ih =>
    by_cases hi : p.1 = i
    · have hj : ¬ i = j := fun e => h e.symm
      simp [mapDel, mapGet?, hi, ih, hj]
    · rw [mapDel, if_neg hi, mapGet?, mapGet?, ih]

theorem mapGet?_ins_self {α : Type} (m : SMap α) (i : Nat) (x : α) (h : mapGet? m i = none) : mapGet? (mapIns m i x) i = some x := by
  induction m with
  | nil => simp [mapIns, mapGet?]
  | cons p m ih =>
    by_cases hp : p.1 = i
    · simp [mapGet?, hp] at h
    · simp only [mapGet?, hp, if_false] at h
      by_cases hl : i < p.1 <;> simp [mapIns, mapGet?, hl, hp, ih h]

theorem mapGet?_ins_ne {α : Type} (m : SMap α) {i j : Nat} (x : α) (h : j ≠ i) : mapGet? (mapIns m i x) j = mapGet? m j := by
  have hij : ¬ i = j := fun e => h e.symm
  induction m with
  | nil => simp [mapIns, mapGet?, hij]
  | cons p m ih =>
    by_cases hl : i < p.1
    · simp [mapIns, mapGet?, hl, hij]
    · rw [mapIns, if_neg hl, mapGet?, mapGet?, ih]

/-- What a key holds after an entry is set: the new value there, the old one elsewhere. -/
theorem mapGet?_set {α : Type} (m : SMap α) (i j : Nat) (x : α) : mapGet? (mapSet m i x) j = if j = i then some x else mapGet? m j := by
  by_cases h : j = i
  · subst h; simp [mapSet, mapGet?_ins_self _ _ _ (mapGet?_del_self m j)]
  · simp [mapSet, h, mapGet?_ins_ne _ x h, mapGet?_del_ne m h]

/-- The same for a lookup with a default. -/
theorem mapGetD_set {α : Type} (m : SMap α) (i j : Nat) (x d : α) : mapGetD (mapSet m i x) j d = if j = i then x else mapGetD m j d := by
  by_cases h : j = i <;> simp [mapGetD, mapGet?_set, h]

/-- What a key holds after an entry is removed. -/
theorem mapGetD_del {α : Type} (m : SMap α) (i j : Nat) (d : α) : mapGetD (mapDel m i) j d = if j = i then d else mapGetD m j d := by
  by_cases h : j = i
  · subst h; simp [mapGetD, mapGet?_del_self]
  · simp [mapGetD, h, mapGet?_del_ne m h]

/-- What a key holds after every value is changed. -/
theorem mapGet?_each {α : Type} (f : Nat → α → α) (m : SMap α) (i : Nat) : mapGet? (mapEach f m) i = (mapGet? m i).map (f i) := by
  induction m with
  | nil => rfl
  | cons p m ih => by_cases h : p.1 = i <;> simp [mapEach, mapGet?, h, ih]

/-! Memory. -/

/-- Reading a byte after writing one. -/
theorem memRead_write (m : Memory) (a b : Nat) (v : Byte) : memRead (memWrite m a v) b = if b = a then v else memRead m b := by
  by_cases hv : v = memDefault
  · by_cases h : b = a <;> simp [memRead, memWrite, hv, mapGetD_del, h]
  · simp [memRead, memWrite, hv, mapGetD_set]

/-- Reading a byte below or above the bytes written leaves what it was. -/
theorem memRead_writeN_outside (l : List Byte) (m : Memory) (a b : Nat) (h : b < a ∨ a + l.length ≤ b) :
    memRead (memWriteN m a l) b = memRead m b := by
  induction l generalizing m a with
  | nil => rfl
  | cons v l ih =>
    have h' : b < a + 1 ∨ a + 1 + l.length ≤ b := by simp only [List.length_cons] at h; omega
    have hb : ¬ b = a := by simp only [List.length_cons] at h; omega
    rw [memWriteN, ih _ _ h', memRead_write, if_neg hb]

/-- Reading a byte of those written. -/
theorem memRead_writeN_inside (l : List Byte) (m : Memory) (a i : Nat) (h : i < l.length) :
    memRead (memWriteN m a l) (a + i) = l[i] := by
  induction l generalizing m a i with
  | nil => simp at h
  | cons v l ih =>
    cases i with
    | zero => rw [memWriteN, memRead_writeN_outside _ _ _ _ (Or.inl (by omega)), memRead_write]; simp
    | succ i =>
      have := ih (memWrite m a v) (a + 1) i (by simpa using h)
      simpa [memWriteN, Nat.add_assoc, Nat.add_comm 1 i] using this

/-- Reading back the bytes written. -/
theorem memReadN_writeN (l : List Byte) (m : Memory) (a : Nat) : memReadN (memWriteN m a l) a l.length = l := by
  have key : ∀ (n : Nat) (m : Memory) (a : Nat), memReadN m a n = (List.range n).map fun i => memRead m (a + i) := by
    intro n
    induction n with
    | zero => intro m a; rfl
    | succ n ih =>
      intro m a
      rw [memReadN, ih, List.range_succ_eq_map, List.map_cons, List.map_map]
      simp [Function.comp_def, Nat.add_assoc, Nat.add_comm 1]
  rw [key]
  apply List.ext_getElem
  · simp
  · intro i h1 h2
    simp only [List.getElem_map, List.getElem_range]
    exact memRead_writeN_inside l m a i h2

/-! The canonical form. -/

/-- The canonical form as a property of the list: addresses rise, and no byte listed reads as an unlisted one. -/
theorem memWf_iff (m : Memory) : memWf m = true ↔ m.Pairwise (fun p q => p.1 < q.1) ∧ ∀ p ∈ m, p.2 ≠ memDefault := by
  induction m with
  | nil => simp [memWf]
  | cons p m ih =>
    cases m with
    | nil => simp [memWf]
    | cons q m =>
      simp only [memWf, Bool.and_eq_true, bne_iff_ne, decide_eq_true_eq, ih, List.pairwise_cons, List.mem_cons]
      constructor
      · rintro ⟨⟨h1, h2⟩, ⟨h3, h4⟩, h5⟩
        refine ⟨⟨?_, h3, h4⟩, ?_⟩
        · rintro r (rfl | hr)
          · exact h2
          · exact Nat.lt_trans h2 (h3 r hr)
        · rintro r (rfl | hr)
          · exact h1
          · exact h5 r hr
      · rintro ⟨⟨h1, h2, h3⟩, h4⟩
        exact ⟨⟨h4 _ (Or.inl rfl), h1 _ (Or.inl rfl)⟩, ⟨h2, h3⟩, fun r hr => h4 r (Or.inr hr)⟩

theorem mem_mapDel {α : Type} {m : SMap α} {i : Nat} {p : Nat × α} : p ∈ mapDel m i ↔ p ∈ m ∧ p.1 ≠ i := by
  induction m with
  | nil => simp [mapDel]
  | cons q m ih =>
    by_cases h : q.1 = i
    · simp only [mapDel, h, if_true, ih, List.mem_cons]
      constructor
      · rintro ⟨a, b⟩; exact ⟨Or.inr a, b⟩
      · rintro ⟨rfl | a, b⟩
        · exact absurd h b
        · exact ⟨a, b⟩
    · simp only [mapDel, h, if_false, List.mem_cons, ih]
      constructor
      · rintro (rfl | ⟨a, b⟩)
        · exact ⟨Or.inl rfl, h⟩
        · exact ⟨Or.inr a, b⟩
      · rintro ⟨rfl | a, b⟩
        · exact Or.inl rfl
        · exact Or.inr ⟨a, b⟩

theorem mem_mapIns {α : Type} {m : SMap α} {i : Nat} {x : α} {p : Nat × α} : p ∈ mapIns m i x ↔ p = (i, x) ∨ p ∈ m := by
  induction m with
  | nil => simp [mapIns]
  | cons q m ih =>
    by_cases h : i < q.1
    · simp [mapIns, h]
    · simp only [mapIns, h, if_false, List.mem_cons, ih]; tauto

theorem pairwise_mapDel {α : Type} {m : SMap α} (i : Nat) (h : m.Pairwise fun p q => p.1 < q.1) : (mapDel m i).Pairwise fun p q => p.1 < q.1 := by
  induction m with
  | nil => simp [mapDel]
  | cons q m ih =>
    rw [List.pairwise_cons] at h
    by_cases hq : q.1 = i
    · simp [mapDel, hq, ih h.2]
    · simp only [mapDel, hq, if_false, List.pairwise_cons]
      exact ⟨fun p hp => h.1 p (mem_mapDel.1 hp).1, ih h.2⟩

theorem pairwise_mapIns {α : Type} {m : SMap α} (i : Nat) (x : α) (h : m.Pairwise fun p q => p.1 < q.1) (hi : ∀ p ∈ m, p.1 ≠ i) :
    (mapIns m i x).Pairwise fun p q => p.1 < q.1 := by
  induction m with
  | nil => simp [mapIns]
  | cons q m ih =>
    rw [List.pairwise_cons] at h
    by_cases hq : i < q.1
    · simp only [mapIns, hq, if_true, List.pairwise_cons]
      refine ⟨?_, h.1, h.2⟩
      intro p hp
      rcases List.mem_cons.1 hp with rfl | hp
      · exact hq
      · exact Nat.lt_trans hq (h.1 p hp)
    · simp only [mapIns, hq, if_false, List.pairwise_cons]
      refine ⟨?_, ih h.2 fun p hp => hi p (List.mem_cons_of_mem _ hp)⟩
      intro p hp
      rcases mem_mapIns.1 hp with rfl | hp
      · have := hi q (List.mem_cons_self ..)
        omega
      · exact h.1 p hp

/-- A removal keeps the canonical form. -/
theorem memWf_del {m : Memory} (a : Nat) (h : memWf m = true) : memWf (mapDel m a) = true := by
  rw [memWf_iff] at h ⊢
  exact ⟨pairwise_mapDel a h.1, fun p hp => h.2 p (mem_mapDel.1 hp).1⟩

/-- A write keeps the canonical form. -/
theorem memWf_write {m : Memory} (a : Nat) (v : Byte) (h : memWf m = true) : memWf (memWrite m a v) = true := by
  by_cases hv : v = memDefault
  · simp [memWrite, hv, memWf_del a h]
  · have hd := memWf_del a h
    rw [memWf_iff] at hd ⊢
    simp only [memWrite, hv, if_false, mapSet]
    refine ⟨pairwise_mapIns a v hd.1 fun p hp => (mem_mapDel.1 hp).2, ?_⟩
    intro p hp
    rcases mem_mapIns.1 hp with rfl | hp
    · exact hv
    · exact hd.2 p hp

/-- Writing several bytes keeps the canonical form. -/
theorem memWf_writeN (l : List Byte) {m : Memory} (a : Nat) (h : memWf m = true) : memWf (memWriteN m a l) = true := by
  induction l generalizing m a with
  | nil => exact h
  | cons v l ih => exact ih (a + 1) (memWf_write a v h)

/-- Part of a memory in canonical form is in canonical form. -/
theorem memWf_filter {m : Memory} (p : Nat × Byte → Bool) (h : memWf m = true) : memWf (m.filter p) = true := by
  rw [memWf_iff] at h ⊢
  exact ⟨h.1.filter p, fun q hq => h.2 q (List.mem_filter.1 hq).1⟩

/-- Writes of listed bytes one after another keep the canonical form. -/
theorem memWf_foldl {α : Type} (g : Memory → α → Memory) (hg : ∀ m x, memWf m = true → memWf (g m x) = true) (l : List α) {m : Memory}
    (h : memWf m = true) : memWf (l.foldl g m) = true := by
  induction l generalizing m with
  | nil => exact h
  | cons x l ih => exact ih (hg m x h)

/-- Canonical memories that read alike at every address are equal: equal memories are equal data. -/
theorem memWf_ext {m n : Memory} (hm : memWf m = true) (hn : memWf n = true) (h : ∀ a, memRead m a = memRead n a) : m = n := by
  rw [memWf_iff] at hm hn
  have get : ∀ {m : Memory}, m.Pairwise (fun p q => p.1 < q.1) → ∀ p : Nat × Byte, p ∈ m → mapGet? m p.1 = some p.2 := by
    intro m hm
    induction m with
    | nil => intro p hp; simp at hp
    | cons q m ih =>
      intro p hp
      rw [List.pairwise_cons] at hm
      rcases List.mem_cons.1 hp with rfl | hp
      · simp [mapGet?]
      · have := hm.1 p hp
        have hne : ¬ q.1 = p.1 := by omega
        simp [mapGet?, hne, ih hm.2 p hp]
  have back : ∀ {m : Memory} (a : Nat) (v : Byte), mapGet? m a = some v → (a, v) ∈ m := by
    intro m a v
    induction m with
    | nil => simp [mapGet?]
    | cons q m ih =>
      intro hq
      by_cases hk : q.1 = a
      · simp only [mapGet?, hk, if_true, Option.some.injEq] at hq
        exact List.mem_cons.2 (Or.inl (by rw [← hk, ← hq]))
      · simp only [mapGet?, hk, if_false] at hq
        exact List.mem_cons_of_mem _ (ih hq)
  have sub : ∀ {m n : Memory}, (m.Pairwise (fun p q => p.1 < q.1) ∧ ∀ p ∈ m, p.2 ≠ memDefault) →
      (∀ a, memRead m a = memRead n a) → ∀ p : Nat × Byte, p ∈ m → p ∈ n := by
    intro m n hm h p hp
    have h1 : memRead m p.1 = p.2 := by simp [memRead, mapGetD, get hm.1 p hp]
    have h2 : memRead n p.1 = p.2 := by rw [← h, h1]
    cases hg : mapGet? n p.1 with
    | none => exact absurd (by simpa [memRead, mapGetD, hg] using h2.symm) (hm.2 p hp)
    | some v =>
      have : v = p.2 := by simpa [memRead, mapGetD, hg] using h2
      subst this
      exact back p.1 p.2 hg
  have nd : ∀ {m : Memory}, m.Pairwise (fun p q => p.1 < q.1) → m.Nodup := by
    intro m hm
    exact hm.imp fun {a b} hab e => by rw [e] at hab; exact Nat.lt_irrefl _ hab
  have perm : m.Perm n := (List.perm_ext_iff_of_nodup (nd hm.1) (nd hn.1)).2 fun p =>
    ⟨sub hm h p, sub hn (fun a => (h a).symm) p⟩
  exact perm.eq_of_pairwise (fun a b _ _ hab hba => absurd hab (Nat.lt_asymm hba)) hm.1 hn.1

end Sys2Proof.Machine
end

