-- ==== Sys2Proof/Laws/State.lean ====
section
/-! SUPPORT. What each update of the state leaves unchanged, one lemma per field, and what it changes. -/

namespace Sys2Proof.Machine
open Sys2Proof

/-! `State.setThread`. -/

@[simp] theorem State.setThread_agenda (s : State) (t : Nat) (th : Thread) : (s.setThread t th).agenda = s.agenda := rfl
@[simp] theorem State.setThread_bundle (s : State) (t : Nat) (th : Thread) : (s.setThread t th).bundle = s.bundle := rfl
@[simp] theorem State.setThread_free (s : State) (t : Nat) (th : Thread) : (s.setThread t th).free = s.free := rfl
@[simp] theorem State.setThread_clk (s : State) (t : Nat) (th : Thread) : (s.setThread t th).clk = s.clk := rfl
@[simp] theorem State.setThread_trains (s : State) (t : Nat) (th : Thread) : (s.setThread t th).trains = s.trains := rfl
@[simp] theorem State.setThread_launches (s : State) (t : Nat) (th : Thread) : (s.setThread t th).launches = s.launches := rfl
@[simp] theorem State.setThread_cores (s : State) (t : Nat) (th : Thread) : (s.setThread t th).cores = s.cores := rfl
@[simp] theorem State.setThread_dies (s : State) (t : Nat) (th : Thread) : (s.setThread t th).dies = s.dies := rfl
@[simp] theorem State.setThread_mem (s : State) (t : Nat) (th : Thread) : (s.setThread t th).mem = s.mem := rfl
@[simp] theorem State.setThread_frames (s : State) (t : Nat) (th : Thread) : (s.setThread t th).frames = s.frames := rfl
@[simp] theorem State.setThread_ctxs (s : State) (t : Nat) (th : Thread) : (s.setThread t th).ctxs = s.ctxs := rfl
@[simp] theorem State.setThread_links (s : State) (t : Nat) (th : Thread) : (s.setThread t th).links = s.links := rfl
@[simp] theorem State.setThread_dpc (s : State) (t : Nat) (th : Thread) : (s.setThread t th).dpc = s.dpc := rfl
@[simp] theorem State.setThread_atoms (s : State) (t : Nat) (th : Thread) : (s.setThread t th).atoms = s.atoms := rfl
@[simp] theorem State.setThread_out (s : State) (t : Nat) (th : Thread) : (s.setThread t th).out = s.out := rfl
@[simp] theorem State.setThread_outCount (s : State) (t : Nat) (th : Thread) : (s.setThread t th).outCount = s.outCount := rfl
@[simp] theorem State.setThread_nextTag (s : State) (t : Nat) (th : Thread) : (s.setThread t th).nextTag = s.nextTag := rfl
@[simp] theorem State.setThread_replies (s : State) (t : Nat) (th : Thread) : (s.setThread t th).replies = s.replies := rfl
@[simp] theorem State.setThread_floors (s : State) (t : Nat) (th : Thread) : (s.setThread t th).floors = s.floors := rfl
@[simp] theorem State.setThread_arrivals (s : State) (t : Nat) (th : Thread) : (s.setThread t th).arrivals = s.arrivals := rfl
@[simp] theorem State.setThread_laneTags (s : State) (t : Nat) (th : Thread) : (s.setThread t th).laneTags = s.laneTags := rfl
@[simp] theorem State.setThread_handOvers (s : State) (t : Nat) (th : Thread) : (s.setThread t th).handOvers = s.handOvers := rfl
@[simp] theorem State.setThread_events (s : State) (t : Nat) (th : Thread) : (s.setThread t th).events = s.events := rfl
@[simp] theorem State.setThread_members (s : State) (t : Nat) (th : Thread) : (s.setThread t th).members = s.members := rfl
@[simp] theorem State.setThread_jobCtx (s : State) (t : Nat) (th : Thread) : (s.setThread t th).jobCtx = s.jobCtx := rfl
@[simp] theorem State.setThread_apertures (s : State) (t : Nat) (th : Thread) : (s.setThread t th).apertures = s.apertures := rfl
@[simp] theorem State.setThread_queues (s : State) (t : Nat) (th : Thread) : (s.setThread t th).queues = s.queues := rfl
@[simp] theorem State.setThread_barriers (s : State) (t : Nat) (th : Thread) : (s.setThread t th).barriers = s.barriers := rfl
@[simp] theorem State.setThread_forwards (s : State) (t : Nat) (th : Thread) : (s.setThread t th).forwards = s.forwards := rfl
@[simp] theorem State.setThread_fabLinks (s : State) (t : Nat) (th : Thread) : (s.setThread t th).fabLinks = s.fabLinks := rfl
@[simp] theorem State.setThread_down (s : State) (t : Nat) (th : Thread) : (s.setThread t th).down = s.down := rfl
@[simp] theorem State.setThread_rebound (s : State) (t : Nat) (th : Thread) : (s.setThread t th).rebound = s.rebound := rfl
@[simp] theorem State.setThread_dt (s : State) (t : Nat) (th : Thread) : (s.setThread t th).dt = s.dt := rfl
@[simp] theorem State.setThread_lastTime (s : State) (t : Nat) (th : Thread) : (s.setThread t th).lastTime = s.lastTime := rfl
@[simp] theorem State.setThread_injectStopped (s : State) (t : Nat) (th : Thread) : (s.setThread t th).injectStopped = s.injectStopped := rfl
@[simp] theorem State.setThread_sCount (s : State) (t : Nat) (th : Thread) : (s.setThread t th).sCount = s.sCount := rfl
@[simp] theorem State.setThread_rCount (s : State) (t : Nat) (th : Thread) : (s.setThread t th).rCount = s.rCount := rfl
@[simp] theorem State.setThread_counted (s : State) (t : Nat) (th : Thread) : (s.setThread t th).counted = s.counted := rfl
@[simp] theorem State.setThread_lastSweep (s : State) (t : Nat) (th : Thread) : (s.setThread t th).lastSweep = s.lastSweep := rfl
@[simp] theorem State.setThread_phase (s : State) (t : Nat) (th : Thread) : (s.setThread t th).phase = s.phase := rfl
@[simp] theorem State.setThread_breakpoints (s : State) (t : Nat) (th : Thread) : (s.setThread t th).breakpoints = s.breakpoints := rfl
@[simp] theorem State.setThread_inbound (s : State) (t : Nat) (th : Thread) : (s.setThread t th).inbound = s.inbound := rfl
@[simp] theorem State.setThread_parts (s : State) (t : Nat) (th : Thread) : (s.setThread t th).parts = s.parts := rfl
@[simp] theorem State.setThread_nextThread (s : State) (t : Nat) (th : Thread) : (s.setThread t th).nextThread = s.nextThread := rfl
@[simp] theorem State.setThread_nextTrain (s : State) (t : Nat) (th : Thread) : (s.setThread t th).nextTrain = s.nextTrain := rfl
@[simp] theorem State.setThread_nextLaunch (s : State) (t : Nat) (th : Thread) : (s.setThread t th).nextLaunch = s.nextLaunch := rfl
@[simp] theorem State.setThread_submits (s : State) (t : Nat) (th : Thread) : (s.setThread t th).submits = s.submits := rfl
@[simp] theorem State.setThread_ckptPeriod (s : State) (t : Nat) (th : Thread) : (s.setThread t th).ckptPeriod = s.ckptPeriod := rfl
@[simp] theorem State.setThread_ckptOn (s : State) (t : Nat) (th : Thread) : (s.setThread t th).ckptOn = s.ckptOn := rfl
@[simp] theorem State.setThread_ckpts (s : State) (t : Nat) (th : Thread) : (s.setThread t th).ckpts = s.ckpts := rfl
@[simp] theorem State.setThread_cutDue (s : State) (t : Nat) (th : Thread) : (s.setThread t th).cutDue = s.cutDue := rfl
@[simp] theorem State.setThread_cutSweep (s : State) (t : Nat) (th : Thread) : (s.setThread t th).cutSweep = s.cutSweep := rfl
@[simp] theorem State.setThread_cutSwept (s : State) (t : Nat) (th : Thread) : (s.setThread t th).cutSwept = s.cutSwept := rfl
@[simp] theorem State.setThread_replaying (s : State) (t : Nat) (th : Thread) : (s.setThread t th).replaying = s.replaying := rfl
@[simp] theorem State.setThread_gates (s : State) (t : Nat) (th : Thread) : (s.setThread t th).gates = s.gates := rfl
@[simp] theorem State.setThread_gateSince (s : State) (t : Nat) (th : Thread) : (s.setThread t th).gateSince = s.gateSince := rfl
@[simp] theorem State.setThread_sysRegs (s : State) (t : Nat) (th : Thread) : (s.setThread t th).sysRegs = s.sysRegs := rfl
@[simp] theorem State.setThread_firmware (s : State) (t : Nat) (th : Thread) : (s.setThread t th).firmware = s.firmware := rfl
@[simp] theorem State.setThread_hypervisor (s : State) (t : Nat) (th : Thread) : (s.setThread t th).hypervisor = s.hypervisor := rfl
@[simp] theorem State.setThread_systems (s : State) (t : Nat) (th : Thread) : (s.setThread t th).systems = s.systems := rfl
@[simp] theorem State.setThread_recovery (s : State) (t : Nat) (th : Thread) : (s.setThread t th).recovery = s.recovery := rfl
@[simp] theorem State.setThread_deviceFault (s : State) (t : Nat) (th : Thread) : (s.setThread t th).deviceFault = s.deviceFault := rfl
@[simp] theorem State.setThread_outs (s : State) (t : Nat) (th : Thread) : (s.setThread t th).outs = s.outs := rfl

/-! `State.modThread`. -/

@[simp] theorem State.modThread_agenda (s : State) (t : Nat) (f : Thread → Thread) : (s.modThread t f).agenda = s.agenda := rfl
@[simp] theorem State.modThread_bundle (s : State) (t : Nat) (f : Thread → Thread) : (s.modThread t f).bundle = s.bundle := rfl
@[simp] theorem State.modThread_free (s : State) (t : Nat) (f : Thread → Thread) : (s.modThread t f).free = s.free := rfl
@[simp] theorem State.modThread_clk (s : State) (t : Nat) (f : Thread → Thread) : (s.modThread t f).clk = s.clk := rfl
@[simp] theorem State.modThread_trains (s : State) (t : Nat) (f : Thread → Thread) : (s.modThread t f).trains = s.trains := rfl
@[simp] theorem State.modThread_launches (s : State) (t : Nat) (f : Thread → Thread) : (s.modThread t f).launches = s.launches := rfl
@[simp] theorem State.modThread_cores (s : State) (t : Nat) (f : Thread → Thread) : (s.modThread t f).cores = s.cores := rfl
@[simp] theorem State.modThread_dies (s : State) (t : Nat) (f : Thread → Thread) : (s.modThread t f).dies = s.dies := rfl
@[simp] theorem State.modThread_mem (s : State) (t : Nat) (f : Thread → Thread) : (s.modThread t f).mem = s.mem := rfl
@[simp] theorem State.modThread_frames (s : State) (t : Nat) (f : Thread → Thread) : (s.modThread t f).frames = s.frames := rfl
@[simp] theorem State.modThread_ctxs (s : State) (t : Nat) (f : Thread → Thread) : (s.modThread t f).ctxs = s.ctxs := rfl
@[simp] theorem State.modThread_links (s : State) (t : Nat) (f : Thread → Thread) : (s.modThread t f).links = s.links := rfl
@[simp] theorem State.modThread_dpc (s : State) (t : Nat) (f : Thread → Thread) : (s.modThread t f).dpc = s.dpc := rfl
@[simp] theorem State.modThread_atoms (s : State) (t : Nat) (f : Thread → Thread) : (s.modThread t f).atoms = s.atoms := rfl
@[simp] theorem State.modThread_out (s : State) (t : Nat) (f : Thread → Thread) : (s.modThread t f).out = s.out := rfl
@[simp] theorem State.modThread_outCount (s : State) (t : Nat) (f : Thread → Thread) : (s.modThread t f).outCount = s.outCount := rfl
@[simp] theorem State.modThread_nextTag (s : State) (t : Nat) (f : Thread → Thread) : (s.modThread t f).nextTag = s.nextTag := rfl
@[simp] theorem State.modThread_replies (s : State) (t : Nat) (f : Thread → Thread) : (s.modThread t f).replies = s.replies := rfl
@[simp] theorem State.modThread_floors (s : State) (t : Nat) (f : Thread → Thread) : (s.modThread t f).floors = s.floors := rfl
@[simp] theorem State.modThread_arrivals (s : State) (t : Nat) (f : Thread → Thread) : (s.modThread t f).arrivals = s.arrivals := rfl
@[simp] theorem State.modThread_laneTags (s : State) (t : Nat) (f : Thread → Thread) : (s.modThread t f).laneTags = s.laneTags := rfl
@[simp] theorem State.modThread_handOvers (s : State) (t : Nat) (f : Thread → Thread) : (s.modThread t f).handOvers = s.handOvers := rfl
@[simp] theorem State.modThread_events (s : State) (t : Nat) (f : Thread → Thread) : (s.modThread t f).events = s.events := rfl
@[simp] theorem State.modThread_members (s : State) (t : Nat) (f : Thread → Thread) : (s.modThread t f).members = s.members := rfl
@[simp] theorem State.modThread_jobCtx (s : State) (t : Nat) (f : Thread → Thread) : (s.modThread t f).jobCtx = s.jobCtx := rfl
@[simp] theorem State.modThread_apertures (s : State) (t : Nat) (f : Thread → Thread) : (s.modThread t f).apertures = s.apertures := rfl
@[simp] theorem State.modThread_queues (s : State) (t : Nat) (f : Thread → Thread) : (s.modThread t f).queues = s.queues := rfl
@[simp] theorem State.modThread_barriers (s : State) (t : Nat) (f : Thread → Thread) : (s.modThread t f).barriers = s.barriers := rfl
@[simp] theorem State.modThread_forwards (s : State) (t : Nat) (f : Thread → Thread) : (s.modThread t f).forwards = s.forwards := rfl
@[simp] theorem State.modThread_fabLinks (s : State) (t : Nat) (f : Thread → Thread) : (s.modThread t f).fabLinks = s.fabLinks := rfl
@[simp] theorem State.modThread_down (s : State) (t : Nat) (f : Thread → Thread) : (s.modThread t f).down = s.down := rfl
@[simp] theorem State.modThread_rebound (s : State) (t : Nat) (f : Thread → Thread) : (s.modThread t f).rebound = s.rebound := rfl
@[simp] theorem State.modThread_dt (s : State) (t : Nat) (f : Thread → Thread) : (s.modThread t f).dt = s.dt := rfl
@[simp] theorem State.modThread_lastTime (s : State) (t : Nat) (f : Thread → Thread) : (s.modThread t f).lastTime = s.lastTime := rfl
@[simp] theorem State.modThread_injectStopped (s : State) (t : Nat) (f : Thread → Thread) : (s.modThread t f).injectStopped = s.injectStopped := rfl
@[simp] theorem State.modThread_sCount (s : State) (t : Nat) (f : Thread → Thread) : (s.modThread t f).sCount = s.sCount := rfl
@[simp] theorem State.modThread_rCount (s : State) (t : Nat) (f : Thread → Thread) : (s.modThread t f).rCount = s.rCount := rfl
@[simp] theorem State.modThread_counted (s : State) (t : Nat) (f : Thread → Thread) : (s.modThread t f).counted = s.counted := rfl
@[simp] theorem State.modThread_lastSweep (s : State) (t : Nat) (f : Thread → Thread) : (s.modThread t f).lastSweep = s.lastSweep := rfl
@[simp] theorem State.modThread_phase (s : State) (t : Nat) (f : Thread → Thread) : (s.modThread t f).phase = s.phase := rfl
@[simp] theorem State.modThread_breakpoints (s : State) (t : Nat) (f : Thread → Thread) : (s.modThread t f).breakpoints = s.breakpoints := rfl
@[simp] theorem State.modThread_inbound (s : State) (t : Nat) (f : Thread → Thread) : (s.modThread t f).inbound = s.inbound := rfl
@[simp] theorem State.modThread_parts (s : State) (t : Nat) (f : Thread → Thread) : (s.modThread t f).parts = s.parts := rfl
@[simp] theorem State.modThread_nextThread (s : State) (t : Nat) (f : Thread → Thread) : (s.modThread t f).nextThread = s.nextThread := rfl
@[simp] theorem State.modThread_nextTrain (s : State) (t : Nat) (f : Thread → Thread) : (s.modThread t f).nextTrain = s.nextTrain := rfl
@[simp] theorem State.modThread_nextLaunch (s : State) (t : Nat) (f : Thread → Thread) : (s.modThread t f).nextLaunch = s.nextLaunch := rfl
@[simp] theorem State.modThread_submits (s : State) (t : Nat) (f : Thread → Thread) : (s.modThread t f).submits = s.submits := rfl
@[simp] theorem State.modThread_ckptPeriod (s : State) (t : Nat) (f : Thread → Thread) : (s.modThread t f).ckptPeriod = s.ckptPeriod := rfl
@[simp] theorem State.modThread_ckptOn (s : State) (t : Nat) (f : Thread → Thread) : (s.modThread t f).ckptOn = s.ckptOn := rfl
@[simp] theorem State.modThread_ckpts (s : State) (t : Nat) (f : Thread → Thread) : (s.modThread t f).ckpts = s.ckpts := rfl
@[simp] theorem State.modThread_cutDue (s : State) (t : Nat) (f : Thread → Thread) : (s.modThread t f).cutDue = s.cutDue := rfl
@[simp] theorem State.modThread_cutSweep (s : State) (t : Nat) (f : Thread → Thread) : (s.modThread t f).cutSweep = s.cutSweep := rfl
@[simp] theorem State.modThread_cutSwept (s : State) (t : Nat) (f : Thread → Thread) : (s.modThread t f).cutSwept = s.cutSwept := rfl
@[simp] theorem State.modThread_replaying (s : State) (t : Nat) (f : Thread → Thread) : (s.modThread t f).replaying = s.replaying := rfl
@[simp] theorem State.modThread_gates (s : State) (t : Nat) (f : Thread → Thread) : (s.modThread t f).gates = s.gates := rfl
@[simp] theorem State.modThread_gateSince (s : State) (t : Nat) (f : Thread → Thread) : (s.modThread t f).gateSince = s.gateSince := rfl
@[simp] theorem State.modThread_sysRegs (s : State) (t : Nat) (f : Thread → Thread) : (s.modThread t f).sysRegs = s.sysRegs := rfl
@[simp] theorem State.modThread_firmware (s : State) (t : Nat) (f : Thread → Thread) : (s.modThread t f).firmware = s.firmware := rfl
@[simp] theorem State.modThread_hypervisor (s : State) (t : Nat) (f : Thread → Thread) : (s.modThread t f).hypervisor = s.hypervisor := rfl
@[simp] theorem State.modThread_systems (s : State) (t : Nat) (f : Thread → Thread) : (s.modThread t f).systems = s.systems := rfl
@[simp] theorem State.modThread_recovery (s : State) (t : Nat) (f : Thread → Thread) : (s.modThread t f).recovery = s.recovery := rfl
@[simp] theorem State.modThread_deviceFault (s : State) (t : Nat) (f : Thread → Thread) : (s.modThread t f).deviceFault = s.deviceFault := rfl
@[simp] theorem State.modThread_outs (s : State) (t : Nat) (f : Thread → Thread) : (s.modThread t f).outs = s.outs := rfl

/-! `State.modTrain`. -/

@[simp] theorem State.modTrain_agenda (s : State) (t : Nat) (f : Train → Train) : (s.modTrain t f).agenda = s.agenda := rfl
@[simp] theorem State.modTrain_bundle (s : State) (t : Nat) (f : Train → Train) : (s.modTrain t f).bundle = s.bundle := rfl
@[simp] theorem State.modTrain_free (s : State) (t : Nat) (f : Train → Train) : (s.modTrain t f).free = s.free := rfl
@[simp] theorem State.modTrain_clk (s : State) (t : Nat) (f : Train → Train) : (s.modTrain t f).clk = s.clk := rfl
@[simp] theorem State.modTrain_threads (s : State) (t : Nat) (f : Train → Train) : (s.modTrain t f).threads = s.threads := rfl
@[simp] theorem State.modTrain_launches (s : State) (t : Nat) (f : Train → Train) : (s.modTrain t f).launches = s.launches := rfl
@[simp] theorem State.modTrain_cores (s : State) (t : Nat) (f : Train → Train) : (s.modTrain t f).cores = s.cores := rfl
@[simp] theorem State.modTrain_dies (s : State) (t : Nat) (f : Train → Train) : (s.modTrain t f).dies = s.dies := rfl
@[simp] theorem State.modTrain_mem (s : State) (t : Nat) (f : Train → Train) : (s.modTrain t f).mem = s.mem := rfl
@[simp] theorem State.modTrain_frames (s : State) (t : Nat) (f : Train → Train) : (s.modTrain t f).frames = s.frames := rfl
@[simp] theorem State.modTrain_ctxs (s : State) (t : Nat) (f : Train → Train) : (s.modTrain t f).ctxs = s.ctxs := rfl
@[simp] theorem State.modTrain_links (s : State) (t : Nat) (f : Train → Train) : (s.modTrain t f).links = s.links := rfl
@[simp] theorem State.modTrain_dpc (s : State) (t : Nat) (f : Train → Train) : (s.modTrain t f).dpc = s.dpc := rfl
@[simp] theorem State.modTrain_atoms (s : State) (t : Nat) (f : Train → Train) : (s.modTrain t f).atoms = s.atoms := rfl
@[simp] theorem State.modTrain_out (s : State) (t : Nat) (f : Train → Train) : (s.modTrain t f).out = s.out := rfl
@[simp] theorem State.modTrain_outCount (s : State) (t : Nat) (f : Train → Train) : (s.modTrain t f).outCount = s.outCount := rfl
@[simp] theorem State.modTrain_nextTag (s : State) (t : Nat) (f : Train → Train) : (s.modTrain t f).nextTag = s.nextTag := rfl
@[simp] theorem State.modTrain_replies (s : State) (t : Nat) (f : Train → Train) : (s.modTrain t f).replies = s.replies := rfl
@[simp] theorem State.modTrain_floors (s : State) (t : Nat) (f : Train → Train) : (s.modTrain t f).floors = s.floors := rfl
@[simp] theorem State.modTrain_arrivals (s : State) (t : Nat) (f : Train → Train) : (s.modTrain t f).arrivals = s.arrivals := rfl
@[simp] theorem State.modTrain_laneTags (s : State) (t : Nat) (f : Train → Train) : (s.modTrain t f).laneTags = s.laneTags := rfl
@[simp] theorem State.modTrain_handOvers (s : State) (t : Nat) (f : Train → Train) : (s.modTrain t f).handOvers = s.handOvers := rfl
@[simp] theorem State.modTrain_events (s : State) (t : Nat) (f : Train → Train) : (s.modTrain t f).events = s.events := rfl
@[simp] theorem State.modTrain_members (s : State) (t : Nat) (f : Train → Train) : (s.modTrain t f).members = s.members := rfl
@[simp] theorem State.modTrain_jobCtx (s : State) (t : Nat) (f : Train → Train) : (s.modTrain t f).jobCtx = s.jobCtx := rfl
@[simp] theorem State.modTrain_apertures (s : State) (t : Nat) (f : Train → Train) : (s.modTrain t f).apertures = s.apertures := rfl
@[simp] theorem State.modTrain_queues (s : State) (t : Nat) (f : Train → Train) : (s.modTrain t f).queues = s.queues := rfl
@[simp] theorem State.modTrain_barriers (s : State) (t : Nat) (f : Train → Train) : (s.modTrain t f).barriers = s.barriers := rfl
@[simp] theorem State.modTrain_forwards (s : State) (t : Nat) (f : Train → Train) : (s.modTrain t f).forwards = s.forwards := rfl
@[simp] theorem State.modTrain_fabLinks (s : State) (t : Nat) (f : Train → Train) : (s.modTrain t f).fabLinks = s.fabLinks := rfl
@[simp] theorem State.modTrain_down (s : State) (t : Nat) (f : Train → Train) : (s.modTrain t f).down = s.down := rfl
@[simp] theorem State.modTrain_rebound (s : State) (t : Nat) (f : Train → Train) : (s.modTrain t f).rebound = s.rebound := rfl
@[simp] theorem State.modTrain_dt (s : State) (t : Nat) (f : Train → Train) : (s.modTrain t f).dt = s.dt := rfl
@[simp] theorem State.modTrain_lastTime (s : State) (t : Nat) (f : Train → Train) : (s.modTrain t f).lastTime = s.lastTime := rfl
@[simp] theorem State.modTrain_injectStopped (s : State) (t : Nat) (f : Train → Train) : (s.modTrain t f).injectStopped = s.injectStopped := rfl
@[simp] theorem State.modTrain_sCount (s : State) (t : Nat) (f : Train → Train) : (s.modTrain t f).sCount = s.sCount := rfl
@[simp] theorem State.modTrain_rCount (s : State) (t : Nat) (f : Train → Train) : (s.modTrain t f).rCount = s.rCount := rfl
@[simp] theorem State.modTrain_counted (s : State) (t : Nat) (f : Train → Train) : (s.modTrain t f).counted = s.counted := rfl
@[simp] theorem State.modTrain_lastSweep (s : State) (t : Nat) (f : Train → Train) : (s.modTrain t f).lastSweep = s.lastSweep := rfl
@[simp] theorem State.modTrain_phase (s : State) (t : Nat) (f : Train → Train) : (s.modTrain t f).phase = s.phase := rfl
@[simp] theorem State.modTrain_breakpoints (s : State) (t : Nat) (f : Train → Train) : (s.modTrain t f).breakpoints = s.breakpoints := rfl
@[simp] theorem State.modTrain_inbound (s : State) (t : Nat) (f : Train → Train) : (s.modTrain t f).inbound = s.inbound := rfl
@[simp] theorem State.modTrain_parts (s : State) (t : Nat) (f : Train → Train) : (s.modTrain t f).parts = s.parts := rfl
@[simp] theorem State.modTrain_nextThread (s : State) (t : Nat) (f : Train → Train) : (s.modTrain t f).nextThread = s.nextThread := rfl
@[simp] theorem State.modTrain_nextTrain (s : State) (t : Nat) (f : Train → Train) : (s.modTrain t f).nextTrain = s.nextTrain := rfl
@[simp] theorem State.modTrain_nextLaunch (s : State) (t : Nat) (f : Train → Train) : (s.modTrain t f).nextLaunch = s.nextLaunch := rfl
@[simp] theorem State.modTrain_submits (s : State) (t : Nat) (f : Train → Train) : (s.modTrain t f).submits = s.submits := rfl
@[simp] theorem State.modTrain_ckptPeriod (s : State) (t : Nat) (f : Train → Train) : (s.modTrain t f).ckptPeriod = s.ckptPeriod := rfl
@[simp] theorem State.modTrain_ckptOn (s : State) (t : Nat) (f : Train → Train) : (s.modTrain t f).ckptOn = s.ckptOn := rfl
@[simp] theorem State.modTrain_ckpts (s : State) (t : Nat) (f : Train → Train) : (s.modTrain t f).ckpts = s.ckpts := rfl
@[simp] theorem State.modTrain_cutDue (s : State) (t : Nat) (f : Train → Train) : (s.modTrain t f).cutDue = s.cutDue := rfl
@[simp] theorem State.modTrain_cutSweep (s : State) (t : Nat) (f : Train → Train) : (s.modTrain t f).cutSweep = s.cutSweep := rfl
@[simp] theorem State.modTrain_cutSwept (s : State) (t : Nat) (f : Train → Train) : (s.modTrain t f).cutSwept = s.cutSwept := rfl
@[simp] theorem State.modTrain_replaying (s : State) (t : Nat) (f : Train → Train) : (s.modTrain t f).replaying = s.replaying := rfl
@[simp] theorem State.modTrain_gates (s : State) (t : Nat) (f : Train → Train) : (s.modTrain t f).gates = s.gates := rfl
@[simp] theorem State.modTrain_gateSince (s : State) (t : Nat) (f : Train → Train) : (s.modTrain t f).gateSince = s.gateSince := rfl
@[simp] theorem State.modTrain_sysRegs (s : State) (t : Nat) (f : Train → Train) : (s.modTrain t f).sysRegs = s.sysRegs := rfl
@[simp] theorem State.modTrain_firmware (s : State) (t : Nat) (f : Train → Train) : (s.modTrain t f).firmware = s.firmware := rfl
@[simp] theorem State.modTrain_hypervisor (s : State) (t : Nat) (f : Train → Train) : (s.modTrain t f).hypervisor = s.hypervisor := rfl
@[simp] theorem State.modTrain_systems (s : State) (t : Nat) (f : Train → Train) : (s.modTrain t f).systems = s.systems := rfl
@[simp] theorem State.modTrain_recovery (s : State) (t : Nat) (f : Train → Train) : (s.modTrain t f).recovery = s.recovery := rfl
@[simp] theorem State.modTrain_deviceFault (s : State) (t : Nat) (f : Train → Train) : (s.modTrain t f).deviceFault = s.deviceFault := rfl
@[simp] theorem State.modTrain_outs (s : State) (t : Nat) (f : Train → Train) : (s.modTrain t f).outs = s.outs := rfl

/-! `State.modCore`. -/

@[simp] theorem State.modCore_agenda (s : State) (c : Nat) (f : Core → Core) : (s.modCore c f).agenda = s.agenda := rfl
@[simp] theorem State.modCore_bundle (s : State) (c : Nat) (f : Core → Core) : (s.modCore c f).bundle = s.bundle := rfl
@[simp] theorem State.modCore_free (s : State) (c : Nat) (f : Core → Core) : (s.modCore c f).free = s.free := rfl
@[simp] theorem State.modCore_clk (s : State) (c : Nat) (f : Core → Core) : (s.modCore c f).clk = s.clk := rfl
@[simp] theorem State.modCore_threads (s : State) (c : Nat) (f : Core → Core) : (s.modCore c f).threads = s.threads := rfl
@[simp] theorem State.modCore_trains (s : State) (c : Nat) (f : Core → Core) : (s.modCore c f).trains = s.trains := rfl
@[simp] theorem State.modCore_launches (s : State) (c : Nat) (f : Core → Core) : (s.modCore c f).launches = s.launches := rfl
@[simp] theorem State.modCore_dies (s : State) (c : Nat) (f : Core → Core) : (s.modCore c f).dies = s.dies := rfl
@[simp] theorem State.modCore_mem (s : State) (c : Nat) (f : Core → Core) : (s.modCore c f).mem = s.mem := rfl
@[simp] theorem State.modCore_frames (s : State) (c : Nat) (f : Core → Core) : (s.modCore c f).frames = s.frames := rfl
@[simp] theorem State.modCore_ctxs (s : State) (c : Nat) (f : Core → Core) : (s.modCore c f).ctxs = s.ctxs := rfl
@[simp] theorem State.modCore_links (s : State) (c : Nat) (f : Core → Core) : (s.modCore c f).links = s.links := rfl
@[simp] theorem State.modCore_dpc (s : State) (c : Nat) (f : Core → Core) : (s.modCore c f).dpc = s.dpc := rfl
@[simp] theorem State.modCore_atoms (s : State) (c : Nat) (f : Core → Core) : (s.modCore c f).atoms = s.atoms := rfl
@[simp] theorem State.modCore_out (s : State) (c : Nat) (f : Core → Core) : (s.modCore c f).out = s.out := rfl
@[simp] theorem State.modCore_outCount (s : State) (c : Nat) (f : Core → Core) : (s.modCore c f).outCount = s.outCount := rfl
@[simp] theorem State.modCore_nextTag (s : State) (c : Nat) (f : Core → Core) : (s.modCore c f).nextTag = s.nextTag := rfl
@[simp] theorem State.modCore_replies (s : State) (c : Nat) (f : Core → Core) : (s.modCore c f).replies = s.replies := rfl
@[simp] theorem State.modCore_floors (s : State) (c : Nat) (f : Core → Core) : (s.modCore c f).floors = s.floors := rfl
@[simp] theorem State.modCore_arrivals (s : State) (c : Nat) (f : Core → Core) : (s.modCore c f).arrivals = s.arrivals := rfl
@[simp] theorem State.modCore_laneTags (s : State) (c : Nat) (f : Core → Core) : (s.modCore c f).laneTags = s.laneTags := rfl
@[simp] theorem State.modCore_handOvers (s : State) (c : Nat) (f : Core → Core) : (s.modCore c f).handOvers = s.handOvers := rfl
@[simp] theorem State.modCore_events (s : State) (c : Nat) (f : Core → Core) : (s.modCore c f).events = s.events := rfl
@[simp] theorem State.modCore_members (s : State) (c : Nat) (f : Core → Core) : (s.modCore c f).members = s.members := rfl
@[simp] theorem State.modCore_jobCtx (s : State) (c : Nat) (f : Core → Core) : (s.modCore c f).jobCtx = s.jobCtx := rfl
@[simp] theorem State.modCore_apertures (s : State) (c : Nat) (f : Core → Core) : (s.modCore c f).apertures = s.apertures := rfl
@[simp] theorem State.modCore_queues (s : State) (c : Nat) (f : Core → Core) : (s.modCore c f).queues = s.queues := rfl
@[simp] theorem State.modCore_barriers (s : State) (c : Nat) (f : Core → Core) : (s.modCore c f).barriers = s.barriers := rfl
@[simp] theorem State.modCore_forwards (s : State) (c : Nat) (f : Core → Core) : (s.modCore c f).forwards = s.forwards := rfl
@[simp] theorem State.modCore_fabLinks (s : State) (c : Nat) (f : Core → Core) : (s.modCore c f).fabLinks = s.fabLinks := rfl
@[simp] theorem State.modCore_down (s : State) (c : Nat) (f : Core → Core) : (s.modCore c f).down = s.down := rfl
@[simp] theorem State.modCore_rebound (s : State) (c : Nat) (f : Core → Core) : (s.modCore c f).rebound = s.rebound := rfl
@[simp] theorem State.modCore_dt (s : State) (c : Nat) (f : Core → Core) : (s.modCore c f).dt = s.dt := rfl
@[simp] theorem State.modCore_lastTime (s : State) (c : Nat) (f : Core → Core) : (s.modCore c f).lastTime = s.lastTime := rfl
@[simp] theorem State.modCore_injectStopped (s : State) (c : Nat) (f : Core → Core) : (s.modCore c f).injectStopped = s.injectStopped := rfl
@[simp] theorem State.modCore_sCount (s : State) (c : Nat) (f : Core → Core) : (s.modCore c f).sCount = s.sCount := rfl
@[simp] theorem State.modCore_rCount (s : State) (c : Nat) (f : Core → Core) : (s.modCore c f).rCount = s.rCount := rfl
@[simp] theorem State.modCore_counted (s : State) (c : Nat) (f : Core → Core) : (s.modCore c f).counted = s.counted := rfl
@[simp] theorem State.modCore_lastSweep (s : State) (c : Nat) (f : Core → Core) : (s.modCore c f).lastSweep = s.lastSweep := rfl
@[simp] theorem State.modCore_phase (s : State) (c : Nat) (f : Core → Core) : (s.modCore c f).phase = s.phase := rfl
@[simp] theorem State.modCore_breakpoints (s : State) (c : Nat) (f : Core → Core) : (s.modCore c f).breakpoints = s.breakpoints := rfl
@[simp] theorem State.modCore_inbound (s : State) (c : Nat) (f : Core → Core) : (s.modCore c f).inbound = s.inbound := rfl
@[simp] theorem State.modCore_parts (s : State) (c : Nat) (f : Core → Core) : (s.modCore c f).parts = s.parts := rfl
@[simp] theorem State.modCore_nextThread (s : State) (c : Nat) (f : Core → Core) : (s.modCore c f).nextThread = s.nextThread := rfl
@[simp] theorem State.modCore_nextTrain (s : State) (c : Nat) (f : Core → Core) : (s.modCore c f).nextTrain = s.nextTrain := rfl
@[simp] theorem State.modCore_nextLaunch (s : State) (c : Nat) (f : Core → Core) : (s.modCore c f).nextLaunch = s.nextLaunch := rfl
@[simp] theorem State.modCore_submits (s : State) (c : Nat) (f : Core → Core) : (s.modCore c f).submits = s.submits := rfl
@[simp] theorem State.modCore_ckptPeriod (s : State) (c : Nat) (f : Core → Core) : (s.modCore c f).ckptPeriod = s.ckptPeriod := rfl
@[simp] theorem State.modCore_ckptOn (s : State) (c : Nat) (f : Core → Core) : (s.modCore c f).ckptOn = s.ckptOn := rfl
@[simp] theorem State.modCore_ckpts (s : State) (c : Nat) (f : Core → Core) : (s.modCore c f).ckpts = s.ckpts := rfl
@[simp] theorem State.modCore_cutDue (s : State) (c : Nat) (f : Core → Core) : (s.modCore c f).cutDue = s.cutDue := rfl
@[simp] theorem State.modCore_cutSweep (s : State) (c : Nat) (f : Core → Core) : (s.modCore c f).cutSweep = s.cutSweep := rfl
@[simp] theorem State.modCore_cutSwept (s : State) (c : Nat) (f : Core → Core) : (s.modCore c f).cutSwept = s.cutSwept := rfl
@[simp] theorem State.modCore_replaying (s : State) (c : Nat) (f : Core → Core) : (s.modCore c f).replaying = s.replaying := rfl
@[simp] theorem State.modCore_gates (s : State) (c : Nat) (f : Core → Core) : (s.modCore c f).gates = s.gates := rfl
@[simp] theorem State.modCore_gateSince (s : State) (c : Nat) (f : Core → Core) : (s.modCore c f).gateSince = s.gateSince := rfl
@[simp] theorem State.modCore_sysRegs (s : State) (c : Nat) (f : Core → Core) : (s.modCore c f).sysRegs = s.sysRegs := rfl
@[simp] theorem State.modCore_firmware (s : State) (c : Nat) (f : Core → Core) : (s.modCore c f).firmware = s.firmware := rfl
@[simp] theorem State.modCore_hypervisor (s : State) (c : Nat) (f : Core → Core) : (s.modCore c f).hypervisor = s.hypervisor := rfl
@[simp] theorem State.modCore_systems (s : State) (c : Nat) (f : Core → Core) : (s.modCore c f).systems = s.systems := rfl
@[simp] theorem State.modCore_recovery (s : State) (c : Nat) (f : Core → Core) : (s.modCore c f).recovery = s.recovery := rfl
@[simp] theorem State.modCore_deviceFault (s : State) (c : Nat) (f : Core → Core) : (s.modCore c f).deviceFault = s.deviceFault := rfl
@[simp] theorem State.modCore_outs (s : State) (c : Nat) (f : Core → Core) : (s.modCore c f).outs = s.outs := rfl

/-! `State.modDie`. -/

@[simp] theorem State.modDie_agenda (s : State) (d : Nat) (f : Die → Die) : (s.modDie d f).agenda = s.agenda := rfl
@[simp] theorem State.modDie_bundle (s : State) (d : Nat) (f : Die → Die) : (s.modDie d f).bundle = s.bundle := rfl
@[simp] theorem State.modDie_free (s : State) (d : Nat) (f : Die → Die) : (s.modDie d f).free = s.free := rfl
@[simp] theorem State.modDie_clk (s : State) (d : Nat) (f : Die → Die) : (s.modDie d f).clk = s.clk := rfl
@[simp] theorem State.modDie_threads (s : State) (d : Nat) (f : Die → Die) : (s.modDie d f).threads = s.threads := rfl
@[simp] theorem State.modDie_trains (s : State) (d : Nat) (f : Die → Die) : (s.modDie d f).trains = s.trains := rfl
@[simp] theorem State.modDie_launches (s : State) (d : Nat) (f : Die → Die) : (s.modDie d f).launches = s.launches := rfl
@[simp] theorem State.modDie_cores (s : State) (d : Nat) (f : Die → Die) : (s.modDie d f).cores = s.cores := rfl
@[simp] theorem State.modDie_mem (s : State) (d : Nat) (f : Die → Die) : (s.modDie d f).mem = s.mem := rfl
@[simp] theorem State.modDie_frames (s : State) (d : Nat) (f : Die → Die) : (s.modDie d f).frames = s.frames := rfl
@[simp] theorem State.modDie_ctxs (s : State) (d : Nat) (f : Die → Die) : (s.modDie d f).ctxs = s.ctxs := rfl
@[simp] theorem State.modDie_links (s : State) (d : Nat) (f : Die → Die) : (s.modDie d f).links = s.links := rfl
@[simp] theorem State.modDie_dpc (s : State) (d : Nat) (f : Die → Die) : (s.modDie d f).dpc = s.dpc := rfl
@[simp] theorem State.modDie_atoms (s : State) (d : Nat) (f : Die → Die) : (s.modDie d f).atoms = s.atoms := rfl
@[simp] theorem State.modDie_out (s : State) (d : Nat) (f : Die → Die) : (s.modDie d f).out = s.out := rfl
@[simp] theorem State.modDie_outCount (s : State) (d : Nat) (f : Die → Die) : (s.modDie d f).outCount = s.outCount := rfl
@[simp] theorem State.modDie_nextTag (s : State) (d : Nat) (f : Die → Die) : (s.modDie d f).nextTag = s.nextTag := rfl
@[simp] theorem State.modDie_replies (s : State) (d : Nat) (f : Die → Die) : (s.modDie d f).replies = s.replies := rfl
@[simp] theorem State.modDie_floors (s : State) (d : Nat) (f : Die → Die) : (s.modDie d f).floors = s.floors := rfl
@[simp] theorem State.modDie_arrivals (s : State) (d : Nat) (f : Die → Die) : (s.modDie d f).arrivals = s.arrivals := rfl
@[simp] theorem State.modDie_laneTags (s : State) (d : Nat) (f : Die → Die) : (s.modDie d f).laneTags = s.laneTags := rfl
@[simp] theorem State.modDie_handOvers (s : State) (d : Nat) (f : Die → Die) : (s.modDie d f).handOvers = s.handOvers := rfl
@[simp] theorem State.modDie_events (s : State) (d : Nat) (f : Die → Die) : (s.modDie d f).events = s.events := rfl
@[simp] theorem State.modDie_members (s : State) (d : Nat) (f : Die → Die) : (s.modDie d f).members = s.members := rfl
@[simp] theorem State.modDie_jobCtx (s : State) (d : Nat) (f : Die → Die) : (s.modDie d f).jobCtx = s.jobCtx := rfl
@[simp] theorem State.modDie_apertures (s : State) (d : Nat) (f : Die → Die) : (s.modDie d f).apertures = s.apertures := rfl
@[simp] theorem State.modDie_queues (s : State) (d : Nat) (f : Die → Die) : (s.modDie d f).queues = s.queues := rfl
@[simp] theorem State.modDie_barriers (s : State) (d : Nat) (f : Die → Die) : (s.modDie d f).barriers = s.barriers := rfl
@[simp] theorem State.modDie_forwards (s : State) (d : Nat) (f : Die → Die) : (s.modDie d f).forwards = s.forwards := rfl
@[simp] theorem State.modDie_fabLinks (s : State) (d : Nat) (f : Die → Die) : (s.modDie d f).fabLinks = s.fabLinks := rfl
@[simp] theorem State.modDie_down (s : State) (d : Nat) (f : Die → Die) : (s.modDie d f).down = s.down := rfl
@[simp] theorem State.modDie_rebound (s : State) (d : Nat) (f : Die → Die) : (s.modDie d f).rebound = s.rebound := rfl
@[simp] theorem State.modDie_dt (s : State) (d : Nat) (f : Die → Die) : (s.modDie d f).dt = s.dt := rfl
@[simp] theorem State.modDie_lastTime (s : State) (d : Nat) (f : Die → Die) : (s.modDie d f).lastTime = s.lastTime := rfl
@[simp] theorem State.modDie_injectStopped (s : State) (d : Nat) (f : Die → Die) : (s.modDie d f).injectStopped = s.injectStopped := rfl
@[simp] theorem State.modDie_sCount (s : State) (d : Nat) (f : Die → Die) : (s.modDie d f).sCount = s.sCount := rfl
@[simp] theorem State.modDie_rCount (s : State) (d : Nat) (f : Die → Die) : (s.modDie d f).rCount = s.rCount := rfl
@[simp] theorem State.modDie_counted (s : State) (d : Nat) (f : Die → Die) : (s.modDie d f).counted = s.counted := rfl
@[simp] theorem State.modDie_lastSweep (s : State) (d : Nat) (f : Die → Die) : (s.modDie d f).lastSweep = s.lastSweep := rfl
@[simp] theorem State.modDie_phase (s : State) (d : Nat) (f : Die → Die) : (s.modDie d f).phase = s.phase := rfl
@[simp] theorem State.modDie_breakpoints (s : State) (d : Nat) (f : Die → Die) : (s.modDie d f).breakpoints = s.breakpoints := rfl
@[simp] theorem State.modDie_inbound (s : State) (d : Nat) (f : Die → Die) : (s.modDie d f).inbound = s.inbound := rfl
@[simp] theorem State.modDie_parts (s : State) (d : Nat) (f : Die → Die) : (s.modDie d f).parts = s.parts := rfl
@[simp] theorem State.modDie_nextThread (s : State) (d : Nat) (f : Die → Die) : (s.modDie d f).nextThread = s.nextThread := rfl
@[simp] theorem State.modDie_nextTrain (s : State) (d : Nat) (f : Die → Die) : (s.modDie d f).nextTrain = s.nextTrain := rfl
@[simp] theorem State.modDie_nextLaunch (s : State) (d : Nat) (f : Die → Die) : (s.modDie d f).nextLaunch = s.nextLaunch := rfl
@[simp] theorem State.modDie_submits (s : State) (d : Nat) (f : Die → Die) : (s.modDie d f).submits = s.submits := rfl
@[simp] theorem State.modDie_ckptPeriod (s : State) (d : Nat) (f : Die → Die) : (s.modDie d f).ckptPeriod = s.ckptPeriod := rfl
@[simp] theorem State.modDie_ckptOn (s : State) (d : Nat) (f : Die → Die) : (s.modDie d f).ckptOn = s.ckptOn := rfl
@[simp] theorem State.modDie_ckpts (s : State) (d : Nat) (f : Die → Die) : (s.modDie d f).ckpts = s.ckpts := rfl
@[simp] theorem State.modDie_cutDue (s : State) (d : Nat) (f : Die → Die) : (s.modDie d f).cutDue = s.cutDue := rfl
@[simp] theorem State.modDie_cutSweep (s : State) (d : Nat) (f : Die → Die) : (s.modDie d f).cutSweep = s.cutSweep := rfl
@[simp] theorem State.modDie_cutSwept (s : State) (d : Nat) (f : Die → Die) : (s.modDie d f).cutSwept = s.cutSwept := rfl
@[simp] theorem State.modDie_replaying (s : State) (d : Nat) (f : Die → Die) : (s.modDie d f).replaying = s.replaying := rfl
@[simp] theorem State.modDie_gates (s : State) (d : Nat) (f : Die → Die) : (s.modDie d f).gates = s.gates := rfl
@[simp] theorem State.modDie_gateSince (s : State) (d : Nat) (f : Die → Die) : (s.modDie d f).gateSince = s.gateSince := rfl
@[simp] theorem State.modDie_sysRegs (s : State) (d : Nat) (f : Die → Die) : (s.modDie d f).sysRegs = s.sysRegs := rfl
@[simp] theorem State.modDie_firmware (s : State) (d : Nat) (f : Die → Die) : (s.modDie d f).firmware = s.firmware := rfl
@[simp] theorem State.modDie_hypervisor (s : State) (d : Nat) (f : Die → Die) : (s.modDie d f).hypervisor = s.hypervisor := rfl
@[simp] theorem State.modDie_systems (s : State) (d : Nat) (f : Die → Die) : (s.modDie d f).systems = s.systems := rfl
@[simp] theorem State.modDie_recovery (s : State) (d : Nat) (f : Die → Die) : (s.modDie d f).recovery = s.recovery := rfl
@[simp] theorem State.modDie_deviceFault (s : State) (d : Nat) (f : Die → Die) : (s.modDie d f).deviceFault = s.deviceFault := rfl
@[simp] theorem State.modDie_outs (s : State) (d : Nat) (f : Die → Die) : (s.modDie d f).outs = s.outs := rfl

/-! `State.modLaunch`. -/

@[simp] theorem State.modLaunch_agenda (s : State) (l : Nat) (f : Launch → Launch) : (s.modLaunch l f).agenda = s.agenda := by
  unfold State.modLaunch; split <;> rfl
@[simp] theorem State.modLaunch_bundle (s : State) (l : Nat) (f : Launch → Launch) : (s.modLaunch l f).bundle = s.bundle := by
  unfold State.modLaunch; split <;> rfl
@[simp] theorem State.modLaunch_free (s : State) (l : Nat) (f : Launch → Launch) : (s.modLaunch l f).free = s.free := by
  unfold State.modLaunch; split <;> rfl
@[simp] theorem State.modLaunch_clk (s : State) (l : Nat) (f : Launch → Launch) : (s.modLaunch l f).clk = s.clk := by
  unfold State.modLaunch; split <;> rfl
@[simp] theorem State.modLaunch_threads (s : State) (l : Nat) (f : Launch → Launch) : (s.modLaunch l f).threads = s.threads := by
  unfold State.modLaunch; split <;> rfl
@[simp] theorem State.modLaunch_trains (s : State) (l : Nat) (f : Launch → Launch) : (s.modLaunch l f).trains = s.trains := by
  unfold State.modLaunch; split <;> rfl
@[simp] theorem State.modLaunch_cores (s : State) (l : Nat) (f : Launch → Launch) : (s.modLaunch l f).cores = s.cores := by
  unfold State.modLaunch; split <;> rfl
@[simp] theorem State.modLaunch_dies (s : State) (l : Nat) (f : Launch → Launch) : (s.modLaunch l f).dies = s.dies := by
  unfold State.modLaunch; split <;> rfl
@[simp] theorem State.modLaunch_mem (s : State) (l : Nat) (f : Launch → Launch) : (s.modLaunch l f).mem = s.mem := by
  unfold State.modLaunch; split <;> rfl
@[simp] theorem State.modLaunch_frames (s : State) (l : Nat) (f : Launch → Launch) : (s.modLaunch l f).frames = s.frames := by
  unfold State.modLaunch; split <;> rfl
@[simp] theorem State.modLaunch_ctxs (s : State) (l : Nat) (f : Launch → Launch) : (s.modLaunch l f).ctxs = s.ctxs := by
  unfold State.modLaunch; split <;> rfl
@[simp] theorem State.modLaunch_links (s : State) (l : Nat) (f : Launch → Launch) : (s.modLaunch l f).links = s.links := by
  unfold State.modLaunch; split <;> rfl
@[simp] theorem State.modLaunch_dpc (s : State) (l : Nat) (f : Launch → Launch) : (s.modLaunch l f).dpc = s.dpc := by
  unfold State.modLaunch; split <;> rfl
@[simp] theorem State.modLaunch_atoms (s : State) (l : Nat) (f : Launch → Launch) : (s.modLaunch l f).atoms = s.atoms := by
  unfold State.modLaunch; split <;> rfl
@[simp] theorem State.modLaunch_out (s : State) (l : Nat) (f : Launch → Launch) : (s.modLaunch l f).out = s.out := by
  unfold State.modLaunch; split <;> rfl
@[simp] theorem State.modLaunch_outCount (s : State) (l : Nat) (f : Launch → Launch) : (s.modLaunch l f).outCount = s.outCount := by
  unfold State.modLaunch; split <;> rfl
@[simp] theorem State.modLaunch_nextTag (s : State) (l : Nat) (f : Launch → Launch) : (s.modLaunch l f).nextTag = s.nextTag := by
  unfold State.modLaunch; split <;> rfl
@[simp] theorem State.modLaunch_replies (s : State) (l : Nat) (f : Launch → Launch) : (s.modLaunch l f).replies = s.replies := by
  unfold State.modLaunch; split <;> rfl
@[simp] theorem State.modLaunch_floors (s : State) (l : Nat) (f : Launch → Launch) : (s.modLaunch l f).floors = s.floors := by
  unfold State.modLaunch; split <;> rfl
@[simp] theorem State.modLaunch_arrivals (s : State) (l : Nat) (f : Launch → Launch) : (s.modLaunch l f).arrivals = s.arrivals := by
  unfold State.modLaunch; split <;> rfl
@[simp] theorem State.modLaunch_laneTags (s : State) (l : Nat) (f : Launch → Launch) : (s.modLaunch l f).laneTags = s.laneTags := by
  unfold State.modLaunch; split <;> rfl
@[simp] theorem State.modLaunch_handOvers (s : State) (l : Nat) (f : Launch → Launch) : (s.modLaunch l f).handOvers = s.handOvers := by
  unfold State.modLaunch; split <;> rfl
@[simp] theorem State.modLaunch_events (s : State) (l : Nat) (f : Launch → Launch) : (s.modLaunch l f).events = s.events := by
  unfold State.modLaunch; split <;> rfl
@[simp] theorem State.modLaunch_members (s : State) (l : Nat) (f : Launch → Launch) : (s.modLaunch l f).members = s.members := by
  unfold State.modLaunch; split <;> rfl
@[simp] theorem State.modLaunch_jobCtx (s : State) (l : Nat) (f : Launch → Launch) : (s.modLaunch l f).jobCtx = s.jobCtx := by
  unfold State.modLaunch; split <;> rfl
@[simp] theorem State.modLaunch_apertures (s : State) (l : Nat) (f : Launch → Launch) : (s.modLaunch l f).apertures = s.apertures := by
  unfold State.modLaunch; split <;> rfl
@[simp] theorem State.modLaunch_queues (s : State) (l : Nat) (f : Launch → Launch) : (s.modLaunch l f).queues = s.queues := by
  unfold State.modLaunch; split <;> rfl
@[simp] theorem State.modLaunch_barriers (s : State) (l : Nat) (f : Launch → Launch) : (s.modLaunch l f).barriers = s.barriers := by
  unfold State.modLaunch; split <;> rfl
@[simp] theorem State.modLaunch_forwards (s : State) (l : Nat) (f : Launch → Launch) : (s.modLaunch l f).forwards = s.forwards := by
  unfold State.modLaunch; split <;> rfl
@[simp] theorem State.modLaunch_fabLinks (s : State) (l : Nat) (f : Launch → Launch) : (s.modLaunch l f).fabLinks = s.fabLinks := by
  unfold State.modLaunch; split <;> rfl
@[simp] theorem State.modLaunch_down (s : State) (l : Nat) (f : Launch → Launch) : (s.modLaunch l f).down = s.down := by
  unfold State.modLaunch; split <;> rfl
@[simp] theorem State.modLaunch_rebound (s : State) (l : Nat) (f : Launch → Launch) : (s.modLaunch l f).rebound = s.rebound := by
  unfold State.modLaunch; split <;> rfl
@[simp] theorem State.modLaunch_dt (s : State) (l : Nat) (f : Launch → Launch) : (s.modLaunch l f).dt = s.dt := by
  unfold State.modLaunch; split <;> rfl
@[simp] theorem State.modLaunch_lastTime (s : State) (l : Nat) (f : Launch → Launch) : (s.modLaunch l f).lastTime = s.lastTime := by
  unfold State.modLaunch; split <;> rfl
@[simp] theorem State.modLaunch_injectStopped (s : State) (l : Nat) (f : Launch → Launch) : (s.modLaunch l f).injectStopped = s.injectStopped := by
  unfold State.modLaunch; split <;> rfl
@[simp] theorem State.modLaunch_sCount (s : State) (l : Nat) (f : Launch → Launch) : (s.modLaunch l f).sCount = s.sCount := by
  unfold State.modLaunch; split <;> rfl
@[simp] theorem State.modLaunch_rCount (s : State) (l : Nat) (f : Launch → Launch) : (s.modLaunch l f).rCount = s.rCount := by
  unfold State.modLaunch; split <;> rfl
@[simp] theorem State.modLaunch_counted (s : State) (l : Nat) (f : Launch → Launch) : (s.modLaunch l f).counted = s.counted := by
  unfold State.modLaunch; split <;> rfl
@[simp] theorem State.modLaunch_lastSweep (s : State) (l : Nat) (f : Launch → Launch) : (s.modLaunch l f).lastSweep = s.lastSweep := by
  unfold State.modLaunch; split <;> rfl
@[simp] theorem State.modLaunch_phase (s : State) (l : Nat) (f : Launch → Launch) : (s.modLaunch l f).phase = s.phase := by
  unfold State.modLaunch; split <;> rfl
@[simp] theorem State.modLaunch_breakpoints (s : State) (l : Nat) (f : Launch → Launch) : (s.modLaunch l f).breakpoints = s.breakpoints := by
  unfold State.modLaunch; split <;> rfl
@[simp] theorem State.modLaunch_inbound (s : State) (l : Nat) (f : Launch → Launch) : (s.modLaunch l f).inbound = s.inbound := by
  unfold State.modLaunch; split <;> rfl
@[simp] theorem State.modLaunch_parts (s : State) (l : Nat) (f : Launch → Launch) : (s.modLaunch l f).parts = s.parts := by
  unfold State.modLaunch; split <;> rfl
@[simp] theorem State.modLaunch_nextThread (s : State) (l : Nat) (f : Launch → Launch) : (s.modLaunch l f).nextThread = s.nextThread := by
  unfold State.modLaunch; split <;> rfl
@[simp] theorem State.modLaunch_nextTrain (s : State) (l : Nat) (f : Launch → Launch) : (s.modLaunch l f).nextTrain = s.nextTrain := by
  unfold State.modLaunch; split <;> rfl
@[simp] theorem State.modLaunch_nextLaunch (s : State) (l : Nat) (f : Launch → Launch) : (s.modLaunch l f).nextLaunch = s.nextLaunch := by
  unfold State.modLaunch; split <;> rfl
@[simp] theorem State.modLaunch_submits (s : State) (l : Nat) (f : Launch → Launch) : (s.modLaunch l f).submits = s.submits := by
  unfold State.modLaunch; split <;> rfl
@[simp] theorem State.modLaunch_ckptPeriod (s : State) (l : Nat) (f : Launch → Launch) : (s.modLaunch l f).ckptPeriod = s.ckptPeriod := by
  unfold State.modLaunch; split <;> rfl
@[simp] theorem State.modLaunch_ckptOn (s : State) (l : Nat) (f : Launch → Launch) : (s.modLaunch l f).ckptOn = s.ckptOn := by
  unfold State.modLaunch; split <;> rfl
@[simp] theorem State.modLaunch_ckpts (s : State) (l : Nat) (f : Launch → Launch) : (s.modLaunch l f).ckpts = s.ckpts := by
  unfold State.modLaunch; split <;> rfl
@[simp] theorem State.modLaunch_cutDue (s : State) (l : Nat) (f : Launch → Launch) : (s.modLaunch l f).cutDue = s.cutDue := by
  unfold State.modLaunch; split <;> rfl
@[simp] theorem State.modLaunch_cutSweep (s : State) (l : Nat) (f : Launch → Launch) : (s.modLaunch l f).cutSweep = s.cutSweep := by
  unfold State.modLaunch; split <;> rfl
@[simp] theorem State.modLaunch_cutSwept (s : State) (l : Nat) (f : Launch → Launch) : (s.modLaunch l f).cutSwept = s.cutSwept := by
  unfold State.modLaunch; split <;> rfl
@[simp] theorem State.modLaunch_replaying (s : State) (l : Nat) (f : Launch → Launch) : (s.modLaunch l f).replaying = s.replaying := by
  unfold State.modLaunch; split <;> rfl
@[simp] theorem State.modLaunch_gates (s : State) (l : Nat) (f : Launch → Launch) : (s.modLaunch l f).gates = s.gates := by
  unfold State.modLaunch; split <;> rfl
@[simp] theorem State.modLaunch_gateSince (s : State) (l : Nat) (f : Launch → Launch) : (s.modLaunch l f).gateSince = s.gateSince := by
  unfold State.modLaunch; split <;> rfl
@[simp] theorem State.modLaunch_sysRegs (s : State) (l : Nat) (f : Launch → Launch) : (s.modLaunch l f).sysRegs = s.sysRegs := by
  unfold State.modLaunch; split <;> rfl
@[simp] theorem State.modLaunch_firmware (s : State) (l : Nat) (f : Launch → Launch) : (s.modLaunch l f).firmware = s.firmware := by
  unfold State.modLaunch; split <;> rfl
@[simp] theorem State.modLaunch_hypervisor (s : State) (l : Nat) (f : Launch → Launch) : (s.modLaunch l f).hypervisor = s.hypervisor := by
  unfold State.modLaunch; split <;> rfl
@[simp] theorem State.modLaunch_systems (s : State) (l : Nat) (f : Launch → Launch) : (s.modLaunch l f).systems = s.systems := by
  unfold State.modLaunch; split <;> rfl
@[simp] theorem State.modLaunch_recovery (s : State) (l : Nat) (f : Launch → Launch) : (s.modLaunch l f).recovery = s.recovery := by
  unfold State.modLaunch; split <;> rfl
@[simp] theorem State.modLaunch_deviceFault (s : State) (l : Nat) (f : Launch → Launch) : (s.modLaunch l f).deviceFault = s.deviceFault := by
  unfold State.modLaunch; split <;> rfl
@[simp] theorem State.modLaunch_outs (s : State) (l : Nat) (f : Launch → Launch) : (s.modLaunch l f).outs = s.outs := by
  unfold State.modLaunch; split <;> rfl

/-! `goTo`. -/

@[simp] theorem goTo_train (th : Thread) (pc : Addr) : (goTo th pc).train = th.train := rfl
@[simp] theorem goTo_tidx (th : Thread) (pc : Addr) : (goTo th pc).tidx = th.tidx := rfl
@[simp] theorem goTo_lane (th : Thread) (pc : Addr) : (goTo th pc).lane = th.lane := rfl
@[simp] theorem goTo_helper (th : Thread) (pc : Addr) : (goTo th pc).helper = th.helper := rfl
@[simp] theorem goTo_g (th : Thread) (pc : Addr) : (goTo th pc).g = th.g := rfl
@[simp] theorem goTo_q (th : Thread) (pc : Addr) : (goTo th pc).q = th.q := rfl
@[simp] theorem goTo_pendG (th : Thread) (pc : Addr) : (goTo th pc).pendG = th.pendG := rfl
@[simp] theorem goTo_pendQ (th : Thread) (pc : Addr) : (goTo th pc).pendQ = th.pendQ := rfl
@[simp] theorem goTo_results (th : Thread) (pc : Addr) : (goTo th pc).results = th.results := rfl
@[simp] theorem goTo_seq (th : Thread) (pc : Addr) : (goTo th pc).seq = th.seq := rfl
@[simp] theorem goTo_hz (th : Thread) (pc : Addr) : (goTo th pc).hz = th.hz := rfl
@[simp] theorem goTo_ops (th : Thread) (pc : Addr) : (goTo th pc).ops = th.ops := rfl
@[simp] theorem goTo_fstat (th : Thread) (pc : Addr) : (goTo th pc).fstat = th.fstat := rfl
@[simp] theorem goTo_flagsNow (th : Thread) (pc : Addr) : (goTo th pc).flagsNow = th.flagsNow := rfl
@[simp] theorem goTo_tvec (th : Thread) (pc : Addr) : (goTo th pc).tvec = th.tvec := rfl
@[simp] theorem goTo_tarea (th : Thread) (pc : Addr) : (goTo th pc).tarea = th.tarea := rfl
@[simp] theorem goTo_tpend (th : Thread) (pc : Addr) : (goTo th pc).tpend = th.tpend := rfl
@[simp] theorem goTo_hm (th : Thread) (pc : Addr) : (goTo th pc).hm = th.hm := rfl
@[simp] theorem goTo_recHeld (th : Thread) (pc : Addr) : (goTo th pc).recHeld = th.recHeld := rfl
@[simp] theorem goTo_wdog (th : Thread) (pc : Addr) : (goTo th pc).wdog = th.wdog := rfl
@[simp] theorem goTo_since (th : Thread) (pc : Addr) : (goTo th pc).since = th.since := rfl
@[simp] theorem goTo_trap (th : Thread) (pc : Addr) : (goTo th pc).trap = th.trap := rfl
@[simp] theorem goTo_heldRec (th : Thread) (pc : Addr) : (goTo th pc).heldRec = th.heldRec := rfl
@[simp] theorem goTo_heldBp (th : Thread) (pc : Addr) : (goTo th pc).heldBp = th.heldBp := rfl
@[simp] theorem goTo_ws (th : Thread) (pc : Addr) : (goTo th pc).ws = th.ws := rfl
@[simp] theorem goTo_w (th : Thread) (pc : Addr) : (goTo th pc).w = th.w := rfl
@[simp] theorem goTo_late (th : Thread) (pc : Addr) : (goTo th pc).late = th.late := rfl
@[simp] theorem goTo_issuedAt (th : Thread) (pc : Addr) : (goTo th pc).issuedAt = th.issuedAt := rfl
@[simp] theorem goTo_slot (th : Thread) (pc : Addr) : (goTo th pc).slot = th.slot := rfl
@[simp] theorem goTo_halted (th : Thread) (pc : Addr) : (goTo th pc).halted = th.halted := rfl
@[simp] theorem goTo_exited (th : Thread) (pc : Addr) : (goTo th pc).exited = th.exited := rfl
@[simp] theorem goTo_stopped (th : Thread) (pc : Addr) : (goTo th pc).stopped = th.stopped := rfl
@[simp] theorem goTo_next (th : Thread) (pc : Addr) : (goTo th pc).next = th.next := rfl
@[simp] theorem goTo_endIter (th : Thread) (pc : Addr) : (goTo th pc).endIter = th.endIter := rfl
@[simp] theorem goTo_chunk (th : Thread) (pc : Addr) : (goTo th pc).chunk = th.chunk := rfl
@[simp] theorem goTo_armed (th : Thread) (pc : Addr) : (goTo th pc).armed = th.armed := rfl
@[simp] theorem goTo_returns (th : Thread) (pc : Addr) : (goTo th pc).returns = th.returns := rfl
@[simp] theorem goTo_claimed (th : Thread) (pc : Addr) : (goTo th pc).claimed = th.claimed := rfl
@[simp] theorem goTo_bank (th : Thread) (pc : Addr) : (goTo th pc).bank = th.bank := rfl
@[simp] theorem goTo_crc (th : Thread) (pc : Addr) : (goTo th pc).crc = th.crc := rfl
@[simp] theorem goTo_stores (th : Thread) (pc : Addr) : (goTo th pc).stores = th.stores := rfl
@[simp] theorem goTo_logged (th : Thread) (pc : Addr) : (goTo th pc).logged = th.logged := rfl
@[simp] theorem goTo_diverged (th : Thread) (pc : Addr) : (goTo th pc).diverged = th.diverged := rfl

/-! `setG`. -/

@[simp] theorem setG_train (th : Thread) (i : Nat) (v : Word) : (setG th i v).train = th.train := rfl
@[simp] theorem setG_tidx (th : Thread) (i : Nat) (v : Word) : (setG th i v).tidx = th.tidx := rfl
@[simp] theorem setG_lane (th : Thread) (i : Nat) (v : Word) : (setG th i v).lane = th.lane := rfl
@[simp] theorem setG_helper (th : Thread) (i : Nat) (v : Word) : (setG th i v).helper = th.helper := rfl
@[simp] theorem setG_pc (th : Thread) (i : Nat) (v : Word) : (setG th i v).pc = th.pc := rfl
@[simp] theorem setG_q (th : Thread) (i : Nat) (v : Word) : (setG th i v).q = th.q := rfl
@[simp] theorem setG_pendG (th : Thread) (i : Nat) (v : Word) : (setG th i v).pendG = th.pendG := rfl
@[simp] theorem setG_pendQ (th : Thread) (i : Nat) (v : Word) : (setG th i v).pendQ = th.pendQ := rfl
@[simp] theorem setG_results (th : Thread) (i : Nat) (v : Word) : (setG th i v).results = th.results := rfl
@[simp] theorem setG_seq (th : Thread) (i : Nat) (v : Word) : (setG th i v).seq = th.seq := rfl
@[simp] theorem setG_hz (th : Thread) (i : Nat) (v : Word) : (setG th i v).hz = th.hz := rfl
@[simp] theorem setG_ops (th : Thread) (i : Nat) (v : Word) : (setG th i v).ops = th.ops := rfl
@[simp] theorem setG_fstat (th : Thread) (i : Nat) (v : Word) : (setG th i v).fstat = th.fstat := rfl
@[simp] theorem setG_flagsNow (th : Thread) (i : Nat) (v : Word) : (setG th i v).flagsNow = th.flagsNow := rfl
@[simp] theorem setG_tvec (th : Thread) (i : Nat) (v : Word) : (setG th i v).tvec = th.tvec := rfl
@[simp] theorem setG_tarea (th : Thread) (i : Nat) (v : Word) : (setG th i v).tarea = th.tarea := rfl
@[simp] theorem setG_tpend (th : Thread) (i : Nat) (v : Word) : (setG th i v).tpend = th.tpend := rfl
@[simp] theorem setG_hm (th : Thread) (i : Nat) (v : Word) : (setG th i v).hm = th.hm := rfl
@[simp] theorem setG_recHeld (th : Thread) (i : Nat) (v : Word) : (setG th i v).recHeld = th.recHeld := rfl
@[simp] theorem setG_wdog (th : Thread) (i : Nat) (v : Word) : (setG th i v).wdog = th.wdog := rfl
@[simp] theorem setG_since (th : Thread) (i : Nat) (v : Word) : (setG th i v).since = th.since := rfl
@[simp] theorem setG_park (th : Thread) (i : Nat) (v : Word) : (setG th i v).park = th.park := rfl
@[simp] theorem setG_bnd (th : Thread) (i : Nat) (v : Word) : (setG th i v).bnd = th.bnd := rfl
@[simp] theorem setG_stage (th : Thread) (i : Nat) (v : Word) : (setG th i v).stage = th.stage := rfl
@[simp] theorem setG_trap (th : Thread) (i : Nat) (v : Word) : (setG th i v).trap = th.trap := rfl
@[simp] theorem setG_heldRec (th : Thread) (i : Nat) (v : Word) : (setG th i v).heldRec = th.heldRec := rfl
@[simp] theorem setG_heldBp (th : Thread) (i : Nat) (v : Word) : (setG th i v).heldBp = th.heldBp := rfl
@[simp] theorem setG_ws (th : Thread) (i : Nat) (v : Word) : (setG th i v).ws = th.ws := rfl
@[simp] theorem setG_w (th : Thread) (i : Nat) (v : Word) : (setG th i v).w = th.w := rfl
@[simp] theorem setG_late (th : Thread) (i : Nat) (v : Word) : (setG th i v).late = th.late := rfl
@[simp] theorem setG_issuedAt (th : Thread) (i : Nat) (v : Word) : (setG th i v).issuedAt = th.issuedAt := rfl
@[simp] theorem setG_slot (th : Thread) (i : Nat) (v : Word) : (setG th i v).slot = th.slot := rfl
@[simp] theorem setG_halted (th : Thread) (i : Nat) (v : Word) : (setG th i v).halted = th.halted := rfl
@[simp] theorem setG_exited (th : Thread) (i : Nat) (v : Word) : (setG th i v).exited = th.exited := rfl
@[simp] theorem setG_stopped (th : Thread) (i : Nat) (v : Word) : (setG th i v).stopped = th.stopped := rfl
@[simp] theorem setG_next (th : Thread) (i : Nat) (v : Word) : (setG th i v).next = th.next := rfl
@[simp] theorem setG_endIter (th : Thread) (i : Nat) (v : Word) : (setG th i v).endIter = th.endIter := rfl
@[simp] theorem setG_chunk (th : Thread) (i : Nat) (v : Word) : (setG th i v).chunk = th.chunk := rfl
@[simp] theorem setG_armed (th : Thread) (i : Nat) (v : Word) : (setG th i v).armed = th.armed := rfl
@[simp] theorem setG_returns (th : Thread) (i : Nat) (v : Word) : (setG th i v).returns = th.returns := rfl
@[simp] theorem setG_claimed (th : Thread) (i : Nat) (v : Word) : (setG th i v).claimed = th.claimed := rfl
@[simp] theorem setG_bank (th : Thread) (i : Nat) (v : Word) : (setG th i v).bank = th.bank := rfl
@[simp] theorem setG_crc (th : Thread) (i : Nat) (v : Word) : (setG th i v).crc = th.crc := rfl
@[simp] theorem setG_stores (th : Thread) (i : Nat) (v : Word) : (setG th i v).stores = th.stores := rfl
@[simp] theorem setG_passed (th : Thread) (i : Nat) (v : Word) : (setG th i v).passed = th.passed := rfl
@[simp] theorem setG_logged (th : Thread) (i : Nat) (v : Word) : (setG th i v).logged = th.logged := rfl
@[simp] theorem setG_diverged (th : Thread) (i : Nat) (v : Word) : (setG th i v).diverged = th.diverged := rfl

/-! `setX`. -/

@[simp] theorem setX_train (th : Thread) (i : Nat) (v : DWord) : (setX th i v).train = th.train := rfl
@[simp] theorem setX_tidx (th : Thread) (i : Nat) (v : DWord) : (setX th i v).tidx = th.tidx := rfl
@[simp] theorem setX_lane (th : Thread) (i : Nat) (v : DWord) : (setX th i v).lane = th.lane := rfl
@[simp] theorem setX_helper (th : Thread) (i : Nat) (v : DWord) : (setX th i v).helper = th.helper := rfl
@[simp] theorem setX_pc (th : Thread) (i : Nat) (v : DWord) : (setX th i v).pc = th.pc := rfl
@[simp] theorem setX_q (th : Thread) (i : Nat) (v : DWord) : (setX th i v).q = th.q := rfl
@[simp] theorem setX_pendG (th : Thread) (i : Nat) (v : DWord) : (setX th i v).pendG = th.pendG := rfl
@[simp] theorem setX_pendQ (th : Thread) (i : Nat) (v : DWord) : (setX th i v).pendQ = th.pendQ := rfl
@[simp] theorem setX_results (th : Thread) (i : Nat) (v : DWord) : (setX th i v).results = th.results := rfl
@[simp] theorem setX_seq (th : Thread) (i : Nat) (v : DWord) : (setX th i v).seq = th.seq := rfl
@[simp] theorem setX_hz (th : Thread) (i : Nat) (v : DWord) : (setX th i v).hz = th.hz := rfl
@[simp] theorem setX_ops (th : Thread) (i : Nat) (v : DWord) : (setX th i v).ops = th.ops := rfl
@[simp] theorem setX_fstat (th : Thread) (i : Nat) (v : DWord) : (setX th i v).fstat = th.fstat := rfl
@[simp] theorem setX_flagsNow (th : Thread) (i : Nat) (v : DWord) : (setX th i v).flagsNow = th.flagsNow := rfl
@[simp] theorem setX_tvec (th : Thread) (i : Nat) (v : DWord) : (setX th i v).tvec = th.tvec := rfl
@[simp] theorem setX_tarea (th : Thread) (i : Nat) (v : DWord) : (setX th i v).tarea = th.tarea := rfl
@[simp] theorem setX_tpend (th : Thread) (i : Nat) (v : DWord) : (setX th i v).tpend = th.tpend := rfl
@[simp] theorem setX_hm (th : Thread) (i : Nat) (v : DWord) : (setX th i v).hm = th.hm := rfl
@[simp] theorem setX_recHeld (th : Thread) (i : Nat) (v : DWord) : (setX th i v).recHeld = th.recHeld := rfl
@[simp] theorem setX_wdog (th : Thread) (i : Nat) (v : DWord) : (setX th i v).wdog = th.wdog := rfl
@[simp] theorem setX_since (th : Thread) (i : Nat) (v : DWord) : (setX th i v).since = th.since := rfl
@[simp] theorem setX_park (th : Thread) (i : Nat) (v : DWord) : (setX th i v).park = th.park := rfl
@[simp] theorem setX_bnd (th : Thread) (i : Nat) (v : DWord) : (setX th i v).bnd = th.bnd := rfl
@[simp] theorem setX_stage (th : Thread) (i : Nat) (v : DWord) : (setX th i v).stage = th.stage := rfl
@[simp] theorem setX_trap (th : Thread) (i : Nat) (v : DWord) : (setX th i v).trap = th.trap := rfl
@[simp] theorem setX_heldRec (th : Thread) (i : Nat) (v : DWord) : (setX th i v).heldRec = th.heldRec := rfl
@[simp] theorem setX_heldBp (th : Thread) (i : Nat) (v : DWord) : (setX th i v).heldBp = th.heldBp := rfl
@[simp] theorem setX_ws (th : Thread) (i : Nat) (v : DWord) : (setX th i v).ws = th.ws := rfl
@[simp] theorem setX_w (th : Thread) (i : Nat) (v : DWord) : (setX th i v).w = th.w := rfl
@[simp] theorem setX_late (th : Thread) (i : Nat) (v : DWord) : (setX th i v).late = th.late := rfl
@[simp] theorem setX_issuedAt (th : Thread) (i : Nat) (v : DWord) : (setX th i v).issuedAt = th.issuedAt := rfl
@[simp] theorem setX_slot (th : Thread) (i : Nat) (v : DWord) : (setX th i v).slot = th.slot := rfl
@[simp] theorem setX_halted (th : Thread) (i : Nat) (v : DWord) : (setX th i v).halted = th.halted := rfl
@[simp] theorem setX_exited (th : Thread) (i : Nat) (v : DWord) : (setX th i v).exited = th.exited := rfl
@[simp] theorem setX_stopped (th : Thread) (i : Nat) (v : DWord) : (setX th i v).stopped = th.stopped := rfl
@[simp] theorem setX_next (th : Thread) (i : Nat) (v : DWord) : (setX th i v).next = th.next := rfl
@[simp] theorem setX_endIter (th : Thread) (i : Nat) (v : DWord) : (setX th i v).endIter = th.endIter := rfl
@[simp] theorem setX_chunk (th : Thread) (i : Nat) (v : DWord) : (setX th i v).chunk = th.chunk := rfl
@[simp] theorem setX_armed (th : Thread) (i : Nat) (v : DWord) : (setX th i v).armed = th.armed := rfl
@[simp] theorem setX_returns (th : Thread) (i : Nat) (v : DWord) : (setX th i v).returns = th.returns := rfl
@[simp] theorem setX_claimed (th : Thread) (i : Nat) (v : DWord) : (setX th i v).claimed = th.claimed := rfl
@[simp] theorem setX_bank (th : Thread) (i : Nat) (v : DWord) : (setX th i v).bank = th.bank := rfl
@[simp] theorem setX_crc (th : Thread) (i : Nat) (v : DWord) : (setX th i v).crc = th.crc := rfl
@[simp] theorem setX_stores (th : Thread) (i : Nat) (v : DWord) : (setX th i v).stores = th.stores := rfl
@[simp] theorem setX_passed (th : Thread) (i : Nat) (v : DWord) : (setX th i v).passed = th.passed := rfl
@[simp] theorem setX_logged (th : Thread) (i : Nat) (v : DWord) : (setX th i v).logged = th.logged := rfl
@[simp] theorem setX_diverged (th : Thread) (i : Nat) (v : DWord) : (setX th i v).diverged = th.diverged := rfl

/-! `orFlags`. -/

@[simp] theorem orFlags_train (th : Thread) (f : Word) : (orFlags th f).train = th.train := rfl
@[simp] theorem orFlags_tidx (th : Thread) (f : Word) : (orFlags th f).tidx = th.tidx := rfl
@[simp] theorem orFlags_lane (th : Thread) (f : Word) : (orFlags th f).lane = th.lane := rfl
@[simp] theorem orFlags_helper (th : Thread) (f : Word) : (orFlags th f).helper = th.helper := rfl
@[simp] theorem orFlags_pc (th : Thread) (f : Word) : (orFlags th f).pc = th.pc := rfl
@[simp] theorem orFlags_g (th : Thread) (f : Word) : (orFlags th f).g = th.g := rfl
@[simp] theorem orFlags_q (th : Thread) (f : Word) : (orFlags th f).q = th.q := rfl
@[simp] theorem orFlags_pendG (th : Thread) (f : Word) : (orFlags th f).pendG = th.pendG := rfl
@[simp] theorem orFlags_pendQ (th : Thread) (f : Word) : (orFlags th f).pendQ = th.pendQ := rfl
@[simp] theorem orFlags_results (th : Thread) (f : Word) : (orFlags th f).results = th.results := rfl
@[simp] theorem orFlags_seq (th : Thread) (f : Word) : (orFlags th f).seq = th.seq := rfl
@[simp] theorem orFlags_hz (th : Thread) (f : Word) : (orFlags th f).hz = th.hz := rfl
@[simp] theorem orFlags_ops (th : Thread) (f : Word) : (orFlags th f).ops = th.ops := rfl
@[simp] theorem orFlags_tvec (th : Thread) (f : Word) : (orFlags th f).tvec = th.tvec := rfl
@[simp] theorem orFlags_tarea (th : Thread) (f : Word) : (orFlags th f).tarea = th.tarea := rfl
@[simp] theorem orFlags_tpend (th : Thread) (f : Word) : (orFlags th f).tpend = th.tpend := rfl
@[simp] theorem orFlags_hm (th : Thread) (f : Word) : (orFlags th f).hm = th.hm := rfl
@[simp] theorem orFlags_recHeld (th : Thread) (f : Word) : (orFlags th f).recHeld = th.recHeld := rfl
@[simp] theorem orFlags_wdog (th : Thread) (f : Word) : (orFlags th f).wdog = th.wdog := rfl
@[simp] theorem orFlags_since (th : Thread) (f : Word) : (orFlags th f).since = th.since := rfl
@[simp] theorem orFlags_park (th : Thread) (f : Word) : (orFlags th f).park = th.park := rfl
@[simp] theorem orFlags_bnd (th : Thread) (f : Word) : (orFlags th f).bnd = th.bnd := rfl
@[simp] theorem orFlags_stage (th : Thread) (f : Word) : (orFlags th f).stage = th.stage := rfl
@[simp] theorem orFlags_trap (th : Thread) (f : Word) : (orFlags th f).trap = th.trap := rfl
@[simp] theorem orFlags_heldRec (th : Thread) (f : Word) : (orFlags th f).heldRec = th.heldRec := rfl
@[simp] theorem orFlags_heldBp (th : Thread) (f : Word) : (orFlags th f).heldBp = th.heldBp := rfl
@[simp] theorem orFlags_ws (th : Thread) (f : Word) : (orFlags th f).ws = th.ws := rfl
@[simp] theorem orFlags_w (th : Thread) (f : Word) : (orFlags th f).w = th.w := rfl
@[simp] theorem orFlags_late (th : Thread) (f : Word) : (orFlags th f).late = th.late := rfl
@[simp] theorem orFlags_issuedAt (th : Thread) (f : Word) : (orFlags th f).issuedAt = th.issuedAt := rfl
@[simp] theorem orFlags_slot (th : Thread) (f : Word) : (orFlags th f).slot = th.slot := rfl
@[simp] theorem orFlags_halted (th : Thread) (f : Word) : (orFlags th f).halted = th.halted := rfl
@[simp] theorem orFlags_exited (th : Thread) (f : Word) : (orFlags th f).exited = th.exited := rfl
@[simp] theorem orFlags_stopped (th : Thread) (f : Word) : (orFlags th f).stopped = th.stopped := rfl
@[simp] theorem orFlags_next (th : Thread) (f : Word) : (orFlags th f).next = th.next := rfl
@[simp] theorem orFlags_endIter (th : Thread) (f : Word) : (orFlags th f).endIter = th.endIter := rfl
@[simp] theorem orFlags_chunk (th : Thread) (f : Word) : (orFlags th f).chunk = th.chunk := rfl
@[simp] theorem orFlags_armed (th : Thread) (f : Word) : (orFlags th f).armed = th.armed := rfl
@[simp] theorem orFlags_returns (th : Thread) (f : Word) : (orFlags th f).returns = th.returns := rfl
@[simp] theorem orFlags_claimed (th : Thread) (f : Word) : (orFlags th f).claimed = th.claimed := rfl
@[simp] theorem orFlags_bank (th : Thread) (f : Word) : (orFlags th f).bank = th.bank := rfl
@[simp] theorem orFlags_crc (th : Thread) (f : Word) : (orFlags th f).crc = th.crc := rfl
@[simp] theorem orFlags_stores (th : Thread) (f : Word) : (orFlags th f).stores = th.stores := rfl
@[simp] theorem orFlags_passed (th : Thread) (f : Word) : (orFlags th f).passed = th.passed := rfl
@[simp] theorem orFlags_logged (th : Thread) (f : Word) : (orFlags th f).logged = th.logged := rfl
@[simp] theorem orFlags_diverged (th : Thread) (f : Word) : (orFlags th f).diverged = th.diverged := rfl

/-! `clearPending`. -/

@[simp] theorem clearPending_train (th : Thread) : (clearPending th).train = th.train := rfl
@[simp] theorem clearPending_tidx (th : Thread) : (clearPending th).tidx = th.tidx := rfl
@[simp] theorem clearPending_lane (th : Thread) : (clearPending th).lane = th.lane := rfl
@[simp] theorem clearPending_helper (th : Thread) : (clearPending th).helper = th.helper := rfl
@[simp] theorem clearPending_pc (th : Thread) : (clearPending th).pc = th.pc := rfl
@[simp] theorem clearPending_g (th : Thread) : (clearPending th).g = th.g := rfl
@[simp] theorem clearPending_q (th : Thread) : (clearPending th).q = th.q := rfl
@[simp] theorem clearPending_results (th : Thread) : (clearPending th).results = th.results := rfl
@[simp] theorem clearPending_seq (th : Thread) : (clearPending th).seq = th.seq := rfl
@[simp] theorem clearPending_hz (th : Thread) : (clearPending th).hz = th.hz := rfl
@[simp] theorem clearPending_ops (th : Thread) : (clearPending th).ops = th.ops := rfl
@[simp] theorem clearPending_fstat (th : Thread) : (clearPending th).fstat = th.fstat := rfl
@[simp] theorem clearPending_flagsNow (th : Thread) : (clearPending th).flagsNow = th.flagsNow := rfl
@[simp] theorem clearPending_tvec (th : Thread) : (clearPending th).tvec = th.tvec := rfl
@[simp] theorem clearPending_tarea (th : Thread) : (clearPending th).tarea = th.tarea := rfl
@[simp] theorem clearPending_tpend (th : Thread) : (clearPending th).tpend = th.tpend := rfl
@[simp] theorem clearPending_hm (th : Thread) : (clearPending th).hm = th.hm := rfl
@[simp] theorem clearPending_recHeld (th : Thread) : (clearPending th).recHeld = th.recHeld := rfl
@[simp] theorem clearPending_wdog (th : Thread) : (clearPending th).wdog = th.wdog := rfl
@[simp] theorem clearPending_since (th : Thread) : (clearPending th).since = th.since := rfl
@[simp] theorem clearPending_park (th : Thread) : (clearPending th).park = th.park := rfl
@[simp] theorem clearPending_bnd (th : Thread) : (clearPending th).bnd = th.bnd := rfl
@[simp] theorem clearPending_stage (th : Thread) : (clearPending th).stage = th.stage := rfl
@[simp] theorem clearPending_trap (th : Thread) : (clearPending th).trap = th.trap := rfl
@[simp] theorem clearPending_heldRec (th : Thread) : (clearPending th).heldRec = th.heldRec := rfl
@[simp] theorem clearPending_heldBp (th : Thread) : (clearPending th).heldBp = th.heldBp := rfl
@[simp] theorem clearPending_ws (th : Thread) : (clearPending th).ws = th.ws := rfl
@[simp] theorem clearPending_w (th : Thread) : (clearPending th).w = th.w := rfl
@[simp] theorem clearPending_late (th : Thread) : (clearPending th).late = th.late := rfl
@[simp] theorem clearPending_issuedAt (th : Thread) : (clearPending th).issuedAt = th.issuedAt := rfl
@[simp] theorem clearPending_slot (th : Thread) : (clearPending th).slot = th.slot := rfl
@[simp] theorem clearPending_halted (th : Thread) : (clearPending th).halted = th.halted := rfl
@[simp] theorem clearPending_exited (th : Thread) : (clearPending th).exited = th.exited := rfl
@[simp] theorem clearPending_stopped (th : Thread) : (clearPending th).stopped = th.stopped := rfl
@[simp] theorem clearPending_next (th : Thread) : (clearPending th).next = th.next := rfl
@[simp] theorem clearPending_endIter (th : Thread) : (clearPending th).endIter = th.endIter := rfl
@[simp] theorem clearPending_chunk (th : Thread) : (clearPending th).chunk = th.chunk := rfl
@[simp] theorem clearPending_armed (th : Thread) : (clearPending th).armed = th.armed := rfl
@[simp] theorem clearPending_returns (th : Thread) : (clearPending th).returns = th.returns := rfl
@[simp] theorem clearPending_claimed (th : Thread) : (clearPending th).claimed = th.claimed := rfl
@[simp] theorem clearPending_bank (th : Thread) : (clearPending th).bank = th.bank := rfl
@[simp] theorem clearPending_crc (th : Thread) : (clearPending th).crc = th.crc := rfl
@[simp] theorem clearPending_stores (th : Thread) : (clearPending th).stores = th.stores := rfl
@[simp] theorem clearPending_passed (th : Thread) : (clearPending th).passed = th.passed := rfl
@[simp] theorem clearPending_logged (th : Thread) : (clearPending th).logged = th.logged := rfl
@[simp] theorem clearPending_diverged (th : Thread) : (clearPending th).diverged = th.diverged := rfl

/-! `pendGs`. -/

@[simp] theorem pendGs_train (th : Thread) (l : List Nat) : (pendGs th l).train = th.train := rfl
@[simp] theorem pendGs_tidx (th : Thread) (l : List Nat) : (pendGs th l).tidx = th.tidx := rfl
@[simp] theorem pendGs_lane (th : Thread) (l : List Nat) : (pendGs th l).lane = th.lane := rfl
@[simp] theorem pendGs_helper (th : Thread) (l : List Nat) : (pendGs th l).helper = th.helper := rfl
@[simp] theorem pendGs_pc (th : Thread) (l : List Nat) : (pendGs th l).pc = th.pc := rfl
@[simp] theorem pendGs_g (th : Thread) (l : List Nat) : (pendGs th l).g = th.g := rfl
@[simp] theorem pendGs_q (th : Thread) (l : List Nat) : (pendGs th l).q = th.q := rfl
@[simp] theorem pendGs_pendQ (th : Thread) (l : List Nat) : (pendGs th l).pendQ = th.pendQ := rfl
@[simp] theorem pendGs_results (th : Thread) (l : List Nat) : (pendGs th l).results = th.results := rfl
@[simp] theorem pendGs_seq (th : Thread) (l : List Nat) : (pendGs th l).seq = th.seq := rfl
@[simp] theorem pendGs_hz (th : Thread) (l : List Nat) : (pendGs th l).hz = th.hz := rfl
@[simp] theorem pendGs_ops (th : Thread) (l : List Nat) : (pendGs th l).ops = th.ops := rfl
@[simp] theorem pendGs_fstat (th : Thread) (l : List Nat) : (pendGs th l).fstat = th.fstat := rfl
@[simp] theorem pendGs_flagsNow (th : Thread) (l : List Nat) : (pendGs th l).flagsNow = th.flagsNow := rfl
@[simp] theorem pendGs_tvec (th : Thread) (l : List Nat) : (pendGs th l).tvec = th.tvec := rfl
@[simp] theorem pendGs_tarea (th : Thread) (l : List Nat) : (pendGs th l).tarea = th.tarea := rfl
@[simp] theorem pendGs_tpend (th : Thread) (l : List Nat) : (pendGs th l).tpend = th.tpend := rfl
@[simp] theorem pendGs_hm (th : Thread) (l : List Nat) : (pendGs th l).hm = th.hm := rfl
@[simp] theorem pendGs_recHeld (th : Thread) (l : List Nat) : (pendGs th l).recHeld = th.recHeld := rfl
@[simp] theorem pendGs_wdog (th : Thread) (l : List Nat) : (pendGs th l).wdog = th.wdog := rfl
@[simp] theorem pendGs_since (th : Thread) (l : List Nat) : (pendGs th l).since = th.since := rfl
@[simp] theorem pendGs_park (th : Thread) (l : List Nat) : (pendGs th l).park = th.park := rfl
@[simp] theorem pendGs_bnd (th : Thread) (l : List Nat) : (pendGs th l).bnd = th.bnd := rfl
@[simp] theorem pendGs_stage (th : Thread) (l : List Nat) : (pendGs th l).stage = th.stage := rfl
@[simp] theorem pendGs_trap (th : Thread) (l : List Nat) : (pendGs th l).trap = th.trap := rfl
@[simp] theorem pendGs_heldRec (th : Thread) (l : List Nat) : (pendGs th l).heldRec = th.heldRec := rfl
@[simp] theorem pendGs_heldBp (th : Thread) (l : List Nat) : (pendGs th l).heldBp = th.heldBp := rfl
@[simp] theorem pendGs_ws (th : Thread) (l : List Nat) : (pendGs th l).ws = th.ws := rfl
@[simp] theorem pendGs_w (th : Thread) (l : List Nat) : (pendGs th l).w = th.w := rfl
@[simp] theorem pendGs_late (th : Thread) (l : List Nat) : (pendGs th l).late = th.late := rfl
@[simp] theorem pendGs_issuedAt (th : Thread) (l : List Nat) : (pendGs th l).issuedAt = th.issuedAt := rfl
@[simp] theorem pendGs_slot (th : Thread) (l : List Nat) : (pendGs th l).slot = th.slot := rfl
@[simp] theorem pendGs_halted (th : Thread) (l : List Nat) : (pendGs th l).halted = th.halted := rfl
@[simp] theorem pendGs_exited (th : Thread) (l : List Nat) : (pendGs th l).exited = th.exited := rfl
@[simp] theorem pendGs_stopped (th : Thread) (l : List Nat) : (pendGs th l).stopped = th.stopped := rfl
@[simp] theorem pendGs_next (th : Thread) (l : List Nat) : (pendGs th l).next = th.next := rfl
@[simp] theorem pendGs_endIter (th : Thread) (l : List Nat) : (pendGs th l).endIter = th.endIter := rfl
@[simp] theorem pendGs_chunk (th : Thread) (l : List Nat) : (pendGs th l).chunk = th.chunk := rfl
@[simp] theorem pendGs_armed (th : Thread) (l : List Nat) : (pendGs th l).armed = th.armed := rfl
@[simp] theorem pendGs_returns (th : Thread) (l : List Nat) : (pendGs th l).returns = th.returns := rfl
@[simp] theorem pendGs_claimed (th : Thread) (l : List Nat) : (pendGs th l).claimed = th.claimed := rfl
@[simp] theorem pendGs_bank (th : Thread) (l : List Nat) : (pendGs th l).bank = th.bank := rfl
@[simp] theorem pendGs_crc (th : Thread) (l : List Nat) : (pendGs th l).crc = th.crc := rfl
@[simp] theorem pendGs_stores (th : Thread) (l : List Nat) : (pendGs th l).stores = th.stores := rfl
@[simp] theorem pendGs_passed (th : Thread) (l : List Nat) : (pendGs th l).passed = th.passed := rfl
@[simp] theorem pendGs_logged (th : Thread) (l : List Nat) : (pendGs th l).logged = th.logged := rfl
@[simp] theorem pendGs_diverged (th : Thread) (l : List Nat) : (pendGs th l).diverged = th.diverged := rfl

/-! `pendQs`. -/

@[simp] theorem pendQs_train (th : Thread) (l : List Nat) : (pendQs th l).train = th.train := rfl
@[simp] theorem pendQs_tidx (th : Thread) (l : List Nat) : (pendQs th l).tidx = th.tidx := rfl
@[simp] theorem pendQs_lane (th : Thread) (l : List Nat) : (pendQs th l).lane = th.lane := rfl
@[simp] theorem pendQs_helper (th : Thread) (l : List Nat) : (pendQs th l).helper = th.helper := rfl
@[simp] theorem pendQs_pc (th : Thread) (l : List Nat) : (pendQs th l).pc = th.pc := rfl
@[simp] theorem pendQs_g (th : Thread) (l : List Nat) : (pendQs th l).g = th.g := rfl
@[simp] theorem pendQs_q (th : Thread) (l : List Nat) : (pendQs th l).q = th.q := rfl
@[simp] theorem pendQs_pendG (th : Thread) (l : List Nat) : (pendQs th l).pendG = th.pendG := rfl
@[simp] theorem pendQs_results (th : Thread) (l : List Nat) : (pendQs th l).results = th.results := rfl
@[simp] theorem pendQs_seq (th : Thread) (l : List Nat) : (pendQs th l).seq = th.seq := rfl
@[simp] theorem pendQs_hz (th : Thread) (l : List Nat) : (pendQs th l).hz = th.hz := rfl
@[simp] theorem pendQs_ops (th : Thread) (l : List Nat) : (pendQs th l).ops = th.ops := rfl
@[simp] theorem pendQs_fstat (th : Thread) (l : List Nat) : (pendQs th l).fstat = th.fstat := rfl
@[simp] theorem pendQs_flagsNow (th : Thread) (l : List Nat) : (pendQs th l).flagsNow = th.flagsNow := rfl
@[simp] theorem pendQs_tvec (th : Thread) (l : List Nat) : (pendQs th l).tvec = th.tvec := rfl
@[simp] theorem pendQs_tarea (th : Thread) (l : List Nat) : (pendQs th l).tarea = th.tarea := rfl
@[simp] theorem pendQs_tpend (th : Thread) (l : List Nat) : (pendQs th l).tpend = th.tpend := rfl
@[simp] theorem pendQs_hm (th : Thread) (l : List Nat) : (pendQs th l).hm = th.hm := rfl
@[simp] theorem pendQs_recHeld (th : Thread) (l : List Nat) : (pendQs th l).recHeld = th.recHeld := rfl
@[simp] theorem pendQs_wdog (th : Thread) (l : List Nat) : (pendQs th l).wdog = th.wdog := rfl
@[simp] theorem pendQs_since (th : Thread) (l : List Nat) : (pendQs th l).since = th.since := rfl
@[simp] theorem pendQs_park (th : Thread) (l : List Nat) : (pendQs th l).park = th.park := rfl
@[simp] theorem pendQs_bnd (th : Thread) (l : List Nat) : (pendQs th l).bnd = th.bnd := rfl
@[simp] theorem pendQs_stage (th : Thread) (l : List Nat) : (pendQs th l).stage = th.stage := rfl
@[simp] theorem pendQs_trap (th : Thread) (l : List Nat) : (pendQs th l).trap = th.trap := rfl
@[simp] theorem pendQs_heldRec (th : Thread) (l : List Nat) : (pendQs th l).heldRec = th.heldRec := rfl
@[simp] theorem pendQs_heldBp (th : Thread) (l : List Nat) : (pendQs th l).heldBp = th.heldBp := rfl
@[simp] theorem pendQs_ws (th : Thread) (l : List Nat) : (pendQs th l).ws = th.ws := rfl
@[simp] theorem pendQs_w (th : Thread) (l : List Nat) : (pendQs th l).w = th.w := rfl
@[simp] theorem pendQs_late (th : Thread) (l : List Nat) : (pendQs th l).late = th.late := rfl
@[simp] theorem pendQs_issuedAt (th : Thread) (l : List Nat) : (pendQs th l).issuedAt = th.issuedAt := rfl
@[simp] theorem pendQs_slot (th : Thread) (l : List Nat) : (pendQs th l).slot = th.slot := rfl
@[simp] theorem pendQs_halted (th : Thread) (l : List Nat) : (pendQs th l).halted = th.halted := rfl
@[simp] theorem pendQs_exited (th : Thread) (l : List Nat) : (pendQs th l).exited = th.exited := rfl
@[simp] theorem pendQs_stopped (th : Thread) (l : List Nat) : (pendQs th l).stopped = th.stopped := rfl
@[simp] theorem pendQs_next (th : Thread) (l : List Nat) : (pendQs th l).next = th.next := rfl
@[simp] theorem pendQs_endIter (th : Thread) (l : List Nat) : (pendQs th l).endIter = th.endIter := rfl
@[simp] theorem pendQs_chunk (th : Thread) (l : List Nat) : (pendQs th l).chunk = th.chunk := rfl
@[simp] theorem pendQs_armed (th : Thread) (l : List Nat) : (pendQs th l).armed = th.armed := rfl
@[simp] theorem pendQs_returns (th : Thread) (l : List Nat) : (pendQs th l).returns = th.returns := rfl
@[simp] theorem pendQs_claimed (th : Thread) (l : List Nat) : (pendQs th l).claimed = th.claimed := rfl
@[simp] theorem pendQs_bank (th : Thread) (l : List Nat) : (pendQs th l).bank = th.bank := rfl
@[simp] theorem pendQs_crc (th : Thread) (l : List Nat) : (pendQs th l).crc = th.crc := rfl
@[simp] theorem pendQs_stores (th : Thread) (l : List Nat) : (pendQs th l).stores = th.stores := rfl
@[simp] theorem pendQs_passed (th : Thread) (l : List Nat) : (pendQs th l).passed = th.passed := rfl
@[simp] theorem pendQs_logged (th : Thread) (l : List Nat) : (pendQs th l).logged = th.logged := rfl
@[simp] theorem pendQs_diverged (th : Thread) (l : List Nat) : (pendQs th l).diverged = th.diverged := rfl

/-! `putResult`. -/

@[simp] theorem putResult_train (th : Thread) (r : Result) : (putResult th r).train = th.train := rfl
@[simp] theorem putResult_tidx (th : Thread) (r : Result) : (putResult th r).tidx = th.tidx := rfl
@[simp] theorem putResult_lane (th : Thread) (r : Result) : (putResult th r).lane = th.lane := rfl
@[simp] theorem putResult_helper (th : Thread) (r : Result) : (putResult th r).helper = th.helper := rfl
@[simp] theorem putResult_pc (th : Thread) (r : Result) : (putResult th r).pc = th.pc := rfl
@[simp] theorem putResult_g (th : Thread) (r : Result) : (putResult th r).g = th.g := rfl
@[simp] theorem putResult_q (th : Thread) (r : Result) : (putResult th r).q = th.q := rfl
@[simp] theorem putResult_seq (th : Thread) (r : Result) : (putResult th r).seq = th.seq := rfl
@[simp] theorem putResult_hz (th : Thread) (r : Result) : (putResult th r).hz = th.hz := rfl
@[simp] theorem putResult_ops (th : Thread) (r : Result) : (putResult th r).ops = th.ops := rfl
@[simp] theorem putResult_fstat (th : Thread) (r : Result) : (putResult th r).fstat = th.fstat := rfl
@[simp] theorem putResult_flagsNow (th : Thread) (r : Result) : (putResult th r).flagsNow = th.flagsNow := rfl
@[simp] theorem putResult_tvec (th : Thread) (r : Result) : (putResult th r).tvec = th.tvec := rfl
@[simp] theorem putResult_tarea (th : Thread) (r : Result) : (putResult th r).tarea = th.tarea := rfl
@[simp] theorem putResult_tpend (th : Thread) (r : Result) : (putResult th r).tpend = th.tpend := rfl
@[simp] theorem putResult_hm (th : Thread) (r : Result) : (putResult th r).hm = th.hm := rfl
@[simp] theorem putResult_recHeld (th : Thread) (r : Result) : (putResult th r).recHeld = th.recHeld := rfl
@[simp] theorem putResult_wdog (th : Thread) (r : Result) : (putResult th r).wdog = th.wdog := rfl
@[simp] theorem putResult_since (th : Thread) (r : Result) : (putResult th r).since = th.since := rfl
@[simp] theorem putResult_park (th : Thread) (r : Result) : (putResult th r).park = th.park := rfl
@[simp] theorem putResult_bnd (th : Thread) (r : Result) : (putResult th r).bnd = th.bnd := rfl
@[simp] theorem putResult_stage (th : Thread) (r : Result) : (putResult th r).stage = th.stage := rfl
@[simp] theorem putResult_trap (th : Thread) (r : Result) : (putResult th r).trap = th.trap := rfl
@[simp] theorem putResult_heldRec (th : Thread) (r : Result) : (putResult th r).heldRec = th.heldRec := rfl
@[simp] theorem putResult_heldBp (th : Thread) (r : Result) : (putResult th r).heldBp = th.heldBp := rfl
@[simp] theorem putResult_ws (th : Thread) (r : Result) : (putResult th r).ws = th.ws := rfl
@[simp] theorem putResult_w (th : Thread) (r : Result) : (putResult th r).w = th.w := rfl
@[simp] theorem putResult_late (th : Thread) (r : Result) : (putResult th r).late = th.late := rfl
@[simp] theorem putResult_issuedAt (th : Thread) (r : Result) : (putResult th r).issuedAt = th.issuedAt := rfl
@[simp] theorem putResult_slot (th : Thread) (r : Result) : (putResult th r).slot = th.slot := rfl
@[simp] theorem putResult_halted (th : Thread) (r : Result) : (putResult th r).halted = th.halted := rfl
@[simp] theorem putResult_exited (th : Thread) (r : Result) : (putResult th r).exited = th.exited := rfl
@[simp] theorem putResult_stopped (th : Thread) (r : Result) : (putResult th r).stopped = th.stopped := rfl
@[simp] theorem putResult_next (th : Thread) (r : Result) : (putResult th r).next = th.next := rfl
@[simp] theorem putResult_endIter (th : Thread) (r : Result) : (putResult th r).endIter = th.endIter := rfl
@[simp] theorem putResult_chunk (th : Thread) (r : Result) : (putResult th r).chunk = th.chunk := rfl
@[simp] theorem putResult_armed (th : Thread) (r : Result) : (putResult th r).armed = th.armed := rfl
@[simp] theorem putResult_returns (th : Thread) (r : Result) : (putResult th r).returns = th.returns := rfl
@[simp] theorem putResult_claimed (th : Thread) (r : Result) : (putResult th r).claimed = th.claimed := rfl
@[simp] theorem putResult_bank (th : Thread) (r : Result) : (putResult th r).bank = th.bank := rfl
@[simp] theorem putResult_crc (th : Thread) (r : Result) : (putResult th r).crc = th.crc := rfl
@[simp] theorem putResult_stores (th : Thread) (r : Result) : (putResult th r).stores = th.stores := rfl
@[simp] theorem putResult_passed (th : Thread) (r : Result) : (putResult th r).passed = th.passed := rfl
@[simp] theorem putResult_logged (th : Thread) (r : Result) : (putResult th r).logged = th.logged := rfl
@[simp] theorem putResult_diverged (th : Thread) (r : Result) : (putResult th r).diverged = th.diverged := rfl

/-! What the updates change. -/

@[simp] theorem goTo_pc (th : Thread) (pc : Addr) : (goTo th pc).pc = pc := rfl
@[simp] theorem goTo_park (th : Thread) (pc : Addr) : (goTo th pc).park = .none := rfl
@[simp] theorem goTo_bnd (th : Thread) (pc : Addr) : (goTo th pc).bnd = none := rfl
@[simp] theorem goTo_stage (th : Thread) (pc : Addr) : (goTo th pc).stage = 0 := rfl
@[simp] theorem orFlags_fstat (th : Thread) (f : Word) : (orFlags th f).fstat = th.fstat ||| f := rfl
@[simp] theorem orFlags_flagsNow (th : Thread) (f : Word) : (orFlags th f).flagsNow = th.flagsNow ||| f := rfl
@[simp] theorem putResult_results (th : Thread) (r : Result) : (putResult th r).results = th.results ++ [r] := rfl

/-- A thread after one thread is replaced. -/
theorem State.thread_setThread (s : State) (t u : Nat) (th : Thread) : (s.setThread t th).thread u = if u = t then th else s.thread u :=
  mapGetD_set _ _ _ _ _
/-- A thread after one thread is changed. -/
theorem State.thread_modThread (s : State) (t u : Nat) (f : Thread → Thread) :
    (s.modThread t f).thread u = if u = t then f (s.thread t) else s.thread u := mapGetD_set _ _ _ _ _
/-- A train after one train is changed. -/
theorem State.train_modTrain (s : State) (t u : Nat) (f : Train → Train) :
    (s.modTrain t f).train u = if u = t then f (s.train t) else s.train u := mapGetD_set _ _ _ _ _
/-- A core after one core is changed. -/
theorem State.core_modCore (s : State) (c d : Nat) (f : Core → Core) :
    (s.modCore c f).core d = if d = c then f (s.core c) else s.core d := mapGetD_set _ _ _ _ _
/-- A die after one die is changed. -/
theorem State.die_modDie (s : State) (c d : Nat) (f : Die → Die) :
    (s.modDie c f).die d = if d = c then f (s.die c) else s.die d := mapGetD_set _ _ _ _ _

@[simp] theorem State.train_modThread (s : State) (t : Nat) (f : Thread → Thread) : (s.modThread t f).train = s.train := rfl
@[simp] theorem State.core_modThread (s : State) (t : Nat) (f : Thread → Thread) : (s.modThread t f).core = s.core := rfl
@[simp] theorem State.die_modThread (s : State) (t : Nat) (f : Thread → Thread) : (s.modThread t f).die = s.die := rfl
@[simp] theorem State.thread_modCore (s : State) (c : Nat) (f : Core → Core) : (s.modCore c f).thread = s.thread := rfl
@[simp] theorem State.train_modCore (s : State) (c : Nat) (f : Core → Core) : (s.modCore c f).train = s.train := rfl
@[simp] theorem State.die_modCore (s : State) (c : Nat) (f : Core → Core) : (s.modCore c f).die = s.die := rfl
@[simp] theorem State.thread_modDie (s : State) (d : Nat) (f : Die → Die) : (s.modDie d f).thread = s.thread := rfl
@[simp] theorem State.core_modDie (s : State) (d : Nat) (f : Die → Die) : (s.modDie d f).core = s.core := rfl
@[simp] theorem State.thread_modTrain (s : State) (t : Nat) (f : Train → Train) : (s.modTrain t f).thread = s.thread := rfl

/-- A general register after one is written. -/
theorem getG_setG (th : Thread) (i j : Nat) (v : Word) : getG (setG th i v) j = if j = i then v else getG th j := mapGetD_set _ _ _ _ _
/-- A pair read back. -/
theorem getX_setX (th : Thread) (i : Nat) (v : DWord) : getX (setX th i v) i = v := by
  have h1 : ¬ i = i + 1 := by omega
  simp only [getX, setX, getG_setG, if_true, if_neg h1]
  refine BitVec.eq_of_getLsbD_eq fun k hk => ?_
  rw [BitVec.getLsbD_append, BitVec.getLsbD_setWidth, BitVec.getLsbD_extractLsb']
  by_cases h : k < 32
  · simp [h]
  · have e : 32 + (k - 32) = k := by omega
    have l : k - 32 < 32 := by omega
    simp [h, e, l]

end Sys2Proof.Machine
end

