-- ==== Sys2Proof/Laws/CanonMaps.lean ====
section
/-! SUPPORT. Memory stays canonical through every operation of `Maps`. -/

set_option linter.all false

namespace Sys2Proof.Machine
open Sys2Proof

/-! Choices and loops. -/

theorem ite_canon {c : Prop} [Decidable c] {a b : State} (ha : memWf a.mem = true) (hb : memWf b.mem = true) :
    memWf (if c then a else b).mem = true := by split <;> assumption
theorem foldl_canon {α : Type} {g : State → α → State} (l : List α) {s : State}
    (hg : ∀ s x, memWf s.mem = true → memWf (g s x).mem = true) (h : memWf s.mem = true) : memWf (l.foldl g s).mem = true := by
  induction l generalizing s with
  | nil => exact h
  | cons x l ih => exact ih (hg s x h)
theorem foldlFst_canon {α β : Type} {g : State × β → α → State × β} (l : List α) {s : State × β}
    (hg : ∀ s x, memWf s.1.mem = true → memWf (g s x).1.mem = true) (h : memWf s.1.mem = true) : memWf (l.foldl g s).1.mem = true := by
  induction l generalizing s with
  | nil => exact h
  | cons x l ih => exact ih (hg s x h)

theorem State.setThread_canon (s : State) (t : Nat) (th : Thread)  (h_s : memWf s.mem = true) :
    memWf (State.setThread s t th).mem = true := by
  unfold State.setThread
  simp (maxDischargeDepth := 60) +contextual [ite_canon, foldl_canon, foldlFst_canon, memWf_writeN, memWf_write, memWf_filter, memWf_del, notEnabled, h_s]

theorem State.modThread_canon (s : State) (t : Nat) (f : Thread → Thread)  (h_s : memWf s.mem = true) :
    memWf (State.modThread s t f).mem = true := by
  unfold State.modThread
  simp (maxDischargeDepth := 60) +contextual [ite_canon, foldl_canon, foldlFst_canon, memWf_writeN, memWf_write, memWf_filter, memWf_del, notEnabled, State.setThread_canon, h_s]

theorem State.modTrain_canon (s : State) (i : Nat) (f : Train → Train)  (h_s : memWf s.mem = true) :
    memWf (State.modTrain s i f).mem = true := by
  unfold State.modTrain
  simp (maxDischargeDepth := 60) +contextual [ite_canon, foldl_canon, foldlFst_canon, memWf_writeN, memWf_write, memWf_filter, memWf_del, notEnabled, h_s]

theorem State.modCore_canon (s : State) (c : Nat) (f : Core → Core)  (h_s : memWf s.mem = true) :
    memWf (State.modCore s c f).mem = true := by
  unfold State.modCore
  simp (maxDischargeDepth := 60) +contextual [ite_canon, foldl_canon, foldlFst_canon, memWf_writeN, memWf_write, memWf_filter, memWf_del, notEnabled, h_s]

theorem State.modDie_canon (s : State) (d : Nat) (f : Die → Die)  (h_s : memWf s.mem = true) :
    memWf (State.modDie s d f).mem = true := by
  unfold State.modDie
  simp (maxDischargeDepth := 60) +contextual [ite_canon, foldl_canon, foldlFst_canon, memWf_writeN, memWf_write, memWf_filter, memWf_del, notEnabled, h_s]

theorem State.modLaunch_canon (s : State) (l : Nat) (f : Launch → Launch) (h_s : memWf s.mem = true) :
    memWf (s.modLaunch l f).mem = true := by simpa using h_s

end Sys2Proof.Machine
end

