-- ==== Sys2Proof/Laws/CanonLink.lean ====
section
/-! SUPPORT. Memory stays canonical through every operation of `Link`. -/

set_option linter.all false

namespace Sys2Proof.Machine
open Sys2Proof

theorem fabLinkPut_canon (s : State) (p : Nat) (l : FabLink)  (h_s : memWf s.mem = true) :
    memWf (fabLinkPut s p l).mem = true := by
  unfold fabLinkPut
  simp (maxDischargeDepth := 60) +contextual [ite_canon, foldl_canon, foldlFst_canon, memWf_writeN, memWf_write, memWf_filter, memWf_del, notEnabled, h_s]

theorem sendFlits_canon (s : State) (port : Option Nat) (type : FlitType) (dest : Nat) (lane : Nat) (bytes : List Byte)  (h_s : memWf s.mem = true) :
    memWf (sendFlits s port type dest lane bytes).mem = true := by
  unfold sendFlits
  simp (maxDischargeDepth := 60) +contextual [ite_canon, foldl_canon, foldlFst_canon, memWf_writeN, memWf_write, memWf_filter, memWf_del, notEnabled, h_s]

theorem receiveFlits_canon (s : State) (port : Option Nat) (n : Nat)  (h_s : memWf s.mem = true) :
    memWf (receiveFlits s port n).mem = true := by
  unfold receiveFlits
  simp (maxDischargeDepth := 60) +contextual [ite_canon, foldl_canon, foldlFst_canon, memWf_writeN, memWf_write, memWf_filter, memWf_del, notEnabled, h_s]

end Sys2Proof.Machine
end

