-- ==== Sys2Proof/Laws/CanonCoherence.lean ====
section
/-! SUPPORT. Memory stays canonical through every operation of `Coherence`. -/

set_option linter.all false

namespace Sys2Proof.Machine
open Sys2Proof

theorem raiseLt_canon (s : State) (c : Nat) (t : Nat)  (h_s : memWf s.mem = true) :
    memWf (raiseLt s c t).mem = true := by
  unfold raiseLt
  simp (maxDischargeDepth := 60) +contextual [ite_canon, foldl_canon, foldlFst_canon, memWf_writeN, memWf_write, memWf_filter, memWf_del, notEnabled, State.modCore_canon, h_s]

theorem State.fresh_canon (s : State)  (h_s : memWf s.mem = true) :
    memWf (State.fresh s).mem = true := by
  unfold State.fresh
  simp (maxDischargeDepth := 60) +contextual [ite_canon, foldl_canon, foldlFst_canon, memWf_writeN, memWf_write, memWf_filter, memWf_del, notEnabled, h_s]

theorem l2Evict_canon (s : State) (h : Nat) (line : Nat)  (h_s : memWf s.mem = true) :
    memWf (l2Evict s h line).mem = true := by
  unfold l2Evict
  try dsimp only
  split <;> simp (maxDischargeDepth := 60) +contextual [ite_canon, foldl_canon, foldlFst_canon, memWf_writeN, memWf_write, memWf_filter, memWf_del, notEnabled, State.modDie_canon, h_s]

theorem l2Room_canon (s : State) (h : Nat) (line : Nat)  (h_s : memWf s.mem = true) :
    memWf (l2Room s h line).mem = true := by
  unfold l2Room
  simp (maxDischargeDepth := 60) +contextual [ite_canon, foldl_canon, foldlFst_canon, memWf_writeN, memWf_write, memWf_filter, memWf_del, notEnabled, State.fresh_canon, l2Evict_canon, h_s]

theorem l2Fill_canon (s : State) (line : Nat)  (h_s : memWf s.mem = true) :
    memWf (l2Fill s line).mem = true := by
  unfold l2Fill
  simp (maxDischargeDepth := 60) +contextual [ite_canon, foldl_canon, foldlFst_canon, memWf_writeN, memWf_write, memWf_filter, memWf_del, notEnabled, State.modDie_canon, l2Room_canon, h_s]

theorem l2Put_canon (s : State) (line : Nat) (x : L2Line)  (h_s : memWf s.mem = true) :
    memWf (l2Put s line x).mem = true := by
  unfold l2Put
  simp (maxDischargeDepth := 60) +contextual [ite_canon, foldl_canon, foldlFst_canon, memWf_writeN, memWf_write, memWf_filter, memWf_del, notEnabled, l2Fill_canon, h_s]

theorem sendMsg_canon (s : State) (src : Nat) (dst : Nat) (m : Msg)  (h_s : memWf s.mem = true) :
    memWf (sendMsg s src dst m).mem = true := by
  unfold sendMsg
  simp (maxDischargeDepth := 60) +contextual [ite_canon, foldl_canon, foldlFst_canon, memWf_writeN, memWf_write, memWf_filter, memWf_del, notEnabled, h_s]

theorem sendAll_canon (s : State) (src : Nat) (m : Msg) (x0 : List Nat) (h_s : memWf s.mem = true) :
    memWf (sendAll s src m x0).mem = true := by
  induction x0 generalizing s src m
  all_goals
    unfold sendAll
    simp (maxDischargeDepth := 60) +contextual [*, ite_canon, foldl_canon, foldlFst_canon, memWf_writeN, memWf_write, memWf_filter, memWf_del, notEnabled, sendMsg_canon, h_s]

theorem dirSet_canon (s : State) (line : Nat) (e : DirEntry)  (h_s : memWf s.mem = true) :
    memWf (dirSet s line e).mem = true := by
  unfold dirSet
  simp (maxDischargeDepth := 60) +contextual [ite_canon, foldl_canon, foldlFst_canon, memWf_writeN, memWf_write, memWf_filter, memWf_del, notEnabled, State.modDie_canon, h_s]

theorem dirPut_canon (s : State) (line : Nat) (e : DirEntry)  (h_s : memWf s.mem = true) :
    memWf (dirPut s line e).mem = true := by
  unfold dirPut
  simp (maxDischargeDepth := 60) +contextual [ite_canon, foldl_canon, foldlFst_canon, memWf_writeN, memWf_write, memWf_filter, memWf_del, notEnabled, dirSet_canon, h_s]

theorem rdcPut_canon (s : State) (d : Nat) (key : Nat) (x : RdcLine)  (h_s : memWf s.mem = true) :
    memWf (rdcPut s d key x).mem = true := by
  unfold rdcPut
  simp (maxDischargeDepth := 60) +contextual [ite_canon, foldl_canon, foldlFst_canon, memWf_writeN, memWf_write, memWf_filter, memWf_del, notEnabled, State.modDie_canon, h_s]

theorem rdcTouch_canon (s : State) (d : Nat) (key : Nat)  (h_s : memWf s.mem = true) :
    memWf (rdcTouch s d key).mem = true := by
  unfold rdcTouch
  try dsimp only
  split <;> simp (maxDischargeDepth := 60) +contextual [ite_canon, foldl_canon, foldlFst_canon, memWf_writeN, memWf_write, memWf_filter, memWf_del, notEnabled, rdcPut_canon, h_s]

theorem rdcDrop_canon (s : State) (d : Nat) (key : Nat)  (h_s : memWf s.mem = true) :
    memWf (rdcDrop s d key).mem = true := by
  unfold rdcDrop
  simp (maxDischargeDepth := 60) +contextual [ite_canon, foldl_canon, foldlFst_canon, memWf_writeN, memWf_write, memWf_filter, memWf_del, notEnabled, State.modDie_canon, h_s]

theorem dropElsewhere_canon (s : State) (d : Nat) (key : Nat)  (h_s : memWf s.mem = true) :
    memWf (dropElsewhere s d key).mem = true := by
  unfold dropElsewhere
  simp (maxDischargeDepth := 60) +contextual [ite_canon, foldl_canon, foldlFst_canon, memWf_writeN, memWf_write, memWf_filter, memWf_del, notEnabled, rdcDrop_canon, h_s]

theorem pushOut_canon (s : State) (r : OutReq)  (h_s : memWf s.mem = true) :
    memWf (pushOut s r).mem = true := by
  unfold pushOut
  simp (maxDischargeDepth := 60) +contextual [ite_canon, foldl_canon, foldlFst_canon, memWf_writeN, memWf_write, memWf_filter, memWf_del, notEnabled, h_s]

theorem sendRequest_canon (s : State) (go : Bool) (r : OutReq)  (h_s : memWf s.mem = true) :
    memWf (sendRequest s go r).mem = true := by
  unfold sendRequest
  simp (maxDischargeDepth := 60) +contextual [ite_canon, foldl_canon, foldlFst_canon, memWf_writeN, memWf_write, memWf_filter, memWf_del, notEnabled, sendFlits_canon, h_s]

theorem sendOut_canon (s : State) (r : OutReq)  (h_s : memWf s.mem = true) :
    memWf (sendOut s r).mem = true := by
  unfold sendOut
  simp (maxDischargeDepth := 60) +contextual [ite_canon, foldl_canon, foldlFst_canon, memWf_writeN, memWf_write, memWf_filter, memWf_del, notEnabled, pushOut_canon, sendRequest_canon, h_s]

theorem sendHeld_canon (s : State)  (h_s : memWf s.mem = true) :
    memWf (sendHeld s).mem = true := by
  unfold sendHeld
  simp (maxDischargeDepth := 60) +contextual [ite_canon, foldl_canon, foldlFst_canon, memWf_writeN, memWf_write, memWf_filter, memWf_del, notEnabled, sendRequest_canon, h_s]

theorem plainHome_canon (s : State) (line : Nat) (data : List Byte)  (h_s : memWf s.mem = true) :
    memWf (plainHome s line data).mem = true := by
  unfold plainHome
  simp (maxDischargeDepth := 60) +contextual [ite_canon, foldl_canon, foldlFst_canon, memWf_writeN, memWf_write, memWf_filter, memWf_del, notEnabled, l2Fill_canon, l2Put_canon, h_s]

theorem evictNotice_canon (s : State) (d : Nat) (key : Nat) (x : RdcLine) (k : MsgKind)  (h_s : memWf s.mem = true) :
    memWf (evictNotice s d key x k).mem = true := by
  unfold evictNotice
  simp (maxDischargeDepth := 60) +contextual [ite_canon, foldl_canon, foldlFst_canon, memWf_writeN, memWf_write, memWf_filter, memWf_del, notEnabled, rdcDrop_canon, sendMsg_canon, h_s]

theorem rdcEvict_canon (s : State) (d : Nat) (key : Nat) (x : RdcLine)  (h_s : memWf s.mem = true) :
    memWf (rdcEvict s d key x).mem = true := by
  unfold rdcEvict
  try dsimp only
  split <;> simp (maxDischargeDepth := 60) +contextual [ite_canon, foldl_canon, foldlFst_canon, memWf_writeN, memWf_write, memWf_filter, memWf_del, notEnabled, dropElsewhere_canon, evictNotice_canon, plainHome_canon, rdcDrop_canon, rdcPut_canon, sendOut_canon, h_s]

theorem rdcWaits_canon (s : State) (d : Nat) (key : Nat) (x : RdcLine)  (h_s : memWf s.mem = true) :
    memWf (rdcWaits s d key x).mem = true := by
  unfold rdcWaits
  simp (maxDischargeDepth := 60) +contextual [ite_canon, foldl_canon, foldlFst_canon, memWf_writeN, memWf_write, memWf_filter, memWf_del, notEnabled, State.modDie_canon, h_s]

theorem rdcEnter_canon (s : State) (d : Nat) (key : Nat) (x : RdcLine)  (h_s : memWf s.mem = true) :
    memWf (rdcEnter s d key x).mem = true := by
  unfold rdcEnter
  simp (maxDischargeDepth := 60) +contextual [ite_canon, foldl_canon, foldlFst_canon, memWf_writeN, memWf_write, memWf_filter, memWf_del, notEnabled, State.modDie_canon, rdcWaits_canon, h_s]

theorem rdcInstall_canon (s : State) (d key : Nat) (x : RdcLine) (h_s : memWf s.mem = true) :
    memWf (rdcInstall s d key x).mem = true := by
  unfold rdcInstall
  split
  · exact rdcPut_canon _ _ _ _ h_s
  · split
    · simpa using h_s
    · split
      · exact rdcEnter_canon _ _ _ _ (rdcEvict_canon _ _ _ _ h_s)
      · repeat' split
        · exact h_s
        · exact plainHome_canon _ _ _ h_s
        · exact sendOut_canon _ _ h_s
        · exact rdcWaits_canon _ _ _ _ h_s

theorem rdcUsed_canon (s : State) (d : Nat) (key : Nat)  (h_s : memWf s.mem = true) :
    memWf (rdcUsed s d key).mem = true := by
  unfold rdcUsed
  try dsimp only
  repeat' split
  all_goals simp (maxDischargeDepth := 60) +contextual [ite_canon, foldl_canon, foldlFst_canon, memWf_writeN, memWf_write, memWf_filter, memWf_del, notEnabled, rdcEvict_canon, h_s]

theorem lineUp_canon (s : State) (line : Nat) (w : Waiter)  (h_s : memWf s.mem = true) :
    memWf (lineUp s line w).mem = true := by
  unfold lineUp
  simp (maxDischargeDepth := 60) +contextual [ite_canon, foldl_canon, foldlFst_canon, memWf_writeN, memWf_write, memWf_filter, memWf_del, notEnabled, dirSet_canon, h_s]

theorem lineFirst_canon (s : State) (line : Nat) (w : Waiter)  (h_s : memWf s.mem = true) :
    memWf (lineFirst s line w).mem = true := by
  unfold lineFirst
  simp (maxDischargeDepth := 60) +contextual [ite_canon, foldl_canon, foldlFst_canon, memWf_writeN, memWf_write, memWf_filter, memWf_del, notEnabled, dirSet_canon, h_s]

theorem privFree_canon (s : State) (line : Nat)  (h_s : memWf s.mem = true) :
    memWf (privFree s line).mem = true := by
  unfold privFree
  simp (maxDischargeDepth := 60) +contextual [ite_canon, foldl_canon, foldlFst_canon, memWf_writeN, memWf_write, memWf_filter, memWf_del, notEnabled, State.modDie_canon, h_s]

theorem mergeHome_canon (s : State) (line : Nat)  (h_s : memWf s.mem = true) :
    memWf (mergeHome s line).mem = true := by
  unfold mergeHome
  try dsimp only
  split <;> simp (maxDischargeDepth := 60) +contextual [ite_canon, foldl_canon, foldlFst_canon, memWf_writeN, memWf_write, memWf_filter, memWf_del, notEnabled, l2Fill_canon, l2Put_canon, rdcDrop_canon, h_s]

theorem grantData_canon (s : State) (line : Nat) (d : Nat) (g : RdcSt) (withData : Bool) (rts : Nat)  (h_s : memWf s.mem = true) :
    memWf (grantData s line d g withData rts).mem = true := by
  unfold grantData
  simp (maxDischargeDepth := 60) +contextual [ite_canon, foldl_canon, foldlFst_canon, memWf_writeN, memWf_write, memWf_filter, memWf_del, notEnabled, l2Fill_canon, sendMsg_canon, h_s]

theorem closeTrans_canon (s : State) (line : Nat)  (h_s : memWf s.mem = true) :
    memWf (closeTrans s line).mem = true := by
  unfold closeTrans
  try dsimp only
  split <;> simp (maxDischargeDepth := 60) +contextual [ite_canon, foldl_canon, foldlFst_canon, memWf_writeN, memWf_write, memWf_filter, memWf_del, notEnabled, dirSet_canon, grantData_canon, l2Fill_canon, privFree_canon, sendMsg_canon, h_s]

theorem openTrans_canon (s : State) (line : Nat) (t : Trans) (await : List Nat)  (h_s : memWf s.mem = true) :
    memWf (openTrans s line t await).mem = true := by
  unfold openTrans
  simp (maxDischargeDepth := 60) +contextual [ite_canon, foldl_canon, foldlFst_canon, memWf_writeN, memWf_write, memWf_filter, memWf_del, notEnabled, closeTrans_canon, dirPut_canon, h_s]

theorem collapse_canon (s : State) (line : Nat)  (h_s : memWf s.mem = true) :
    memWf (collapse s line).mem = true := by
  unfold collapse
  try dsimp only
  split <;> simp (maxDischargeDepth := 60) +contextual [ite_canon, foldl_canon, foldlFst_canon, memWf_writeN, memWf_write, memWf_filter, memWf_del, notEnabled, mergeHome_canon, openTrans_canon, sendAll_canon, sendMsg_canon, h_s]

theorem recallShared_canon (s : State) (line : Nat)  (h_s : memWf s.mem = true) :
    memWf (recallShared s line).mem = true := by
  unfold recallShared
  simp (maxDischargeDepth := 60) +contextual [ite_canon, foldl_canon, foldlFst_canon, memWf_writeN, memWf_write, memWf_filter, memWf_del, notEnabled, openTrans_canon, sendMsg_canon, h_s]

theorem filterRoom_canon (s : State) (line : Nat)  (h_s : memWf s.mem = true) :
    memWf (filterRoom s line).1.mem = true := by
  unfold filterRoom
  try dsimp only
  repeat' split
  all_goals simp (maxDischargeDepth := 60) +contextual [ite_canon, foldl_canon, foldlFst_canon, memWf_writeN, memWf_write, memWf_filter, memWf_del, notEnabled, collapse_canon, h_s]

theorem privPut_canon (s : State) (line : Nat) (p : PrivEntry)  (h_s : memWf s.mem = true) :
    memWf (privPut s line p).mem = true := by
  unfold privPut
  simp (maxDischargeDepth := 60) +contextual [ite_canon, foldl_canon, foldlFst_canon, memWf_writeN, memWf_write, memWf_filter, memWf_del, notEnabled, State.modDie_canon, h_s]

theorem requeue_canon (s : State) (line : Nat) (m : Msg)  (h_s : memWf s.mem = true) :
    memWf (requeue s line m).mem = true := by
  unfold requeue
  simp (maxDischargeDepth := 60) +contextual [ite_canon, foldl_canon, foldlFst_canon, memWf_writeN, memWf_write, memWf_filter, memWf_del, notEnabled, dirSet_canon, h_s]

theorem homeGetS_canon (s : State) (line : Nat) (d : Nat) (lt : Nat)  (h_s : memWf s.mem = true) :
    memWf (homeGetS s line d lt).mem = true := by
  unfold homeGetS
  try dsimp only
  split <;> simp (maxDischargeDepth := 60) +contextual [ite_canon, foldl_canon, foldlFst_canon, memWf_writeN, memWf_write, memWf_filter, memWf_del, notEnabled, collapse_canon, dirPut_canon, grantData_canon, l2Fill_canon, l2Put_canon, requeue_canon, sendMsg_canon, h_s]

theorem enterPriv_canon (s : State) (line : Nat) (d : Nat) (m : BitVec 128)  (h_s : memWf s.mem = true) :
    memWf (enterPriv s line d m).mem = true := by
  unfold enterPriv
  simp (maxDischargeDepth := 60) +contextual [ite_canon, foldl_canon, foldlFst_canon, memWf_writeN, memWf_write, memWf_filter, memWf_del, notEnabled, openTrans_canon, privPut_canon, sendAll_canon, sendMsg_canon, h_s]

theorem homeGetX_canon (s : State) (line : Nat) (d : Nat) (lt : Nat) (m : BitVec 128) (upg : Bool)  (h_s : memWf s.mem = true) :
    memWf (homeGetX s line d lt m upg).mem = true := by
  unfold homeGetX
  try dsimp only
  split <;> simp (maxDischargeDepth := 60) +contextual [ite_canon, foldl_canon, foldlFst_canon, memWf_writeN, memWf_write, memWf_filter, memWf_del, notEnabled, collapse_canon, dirPut_canon, enterPriv_canon, openTrans_canon, requeue_canon, sendAll_canon, sendMsg_canon, h_s]

theorem homeClaim_canon (s : State) (line : Nat) (d : Nat) (lt : Nat) (m : BitVec 128) (write : Bool)  (h_s : memWf s.mem = true) :
    memWf (homeClaim s line d lt m write).mem = true := by
  unfold homeClaim
  simp (maxDischargeDepth := 60) +contextual [ite_canon, foldl_canon, foldlFst_canon, memWf_writeN, memWf_write, memWf_filter, memWf_del, notEnabled, collapse_canon, dirPut_canon, grantData_canon, homeGetS_canon, homeGetX_canon, l2Fill_canon, privPut_canon, requeue_canon, sendMsg_canon, h_s]

theorem l2Times_canon (s : State) (line : Nat) (wts : Nat) (rts : Nat)  (h_s : memWf s.mem = true) :
    memWf (l2Times s line wts rts).mem = true := by
  unfold l2Times
  simp (maxDischargeDepth := 60) +contextual [ite_canon, foldl_canon, foldlFst_canon, memWf_writeN, memWf_write, memWf_filter, memWf_del, notEnabled, l2Fill_canon, l2Put_canon, h_s]

theorem homeEvict_canon (s : State) (m : Msg)  (h_s : memWf s.mem = true) :
    memWf (homeEvict s m).mem = true := by
  unfold homeEvict
  try dsimp only
  repeat' split
  all_goals simp (maxDischargeDepth := 60) +contextual [ite_canon, foldl_canon, foldlFst_canon, memWf_writeN, memWf_write, memWf_filter, memWf_del, notEnabled, collapse_canon, dirSet_canon, l2Put_canon, l2Times_canon, sendMsg_canon, h_s]

theorem homeRequest_canon (s : State) (m : Msg)  (h_s : memWf s.mem = true) :
    memWf (homeRequest s m).mem = true := by
  unfold homeRequest
  try dsimp only
  split <;> simp (maxDischargeDepth := 60) +contextual [ite_canon, foldl_canon, foldlFst_canon, memWf_writeN, memWf_write, memWf_filter, memWf_del, notEnabled, homeClaim_canon, homeEvict_canon, homeGetS_canon, homeGetX_canon, h_s]

theorem drain_canon (s : State) (line : Nat) (x0 : Nat) (h_s : memWf s.mem = true) :
    memWf (drain s line x0).mem = true := by
  induction x0 generalizing s line
  all_goals
    unfold drain
    try dsimp only
    repeat' split
    all_goals simp (maxDischargeDepth := 60) +contextual [*, ite_canon, foldl_canon, foldlFst_canon, memWf_writeN, memWf_write, memWf_filter, memWf_del, notEnabled, dirSet_canon, filterRoom_canon, homeRequest_canon, h_s]

theorem drainAll_canon (s : State) (line : Nat)  (h_s : memWf s.mem = true) :
    memWf (drainAll s line).mem = true := by
  unfold drainAll
  simp (maxDischargeDepth := 60) +contextual [ite_canon, foldl_canon, foldlFst_canon, memWf_writeN, memWf_write, memWf_filter, memWf_del, notEnabled, drain_canon, h_s]

theorem arriveRequest_canon (s : State) (m : Msg)  (h_s : memWf s.mem = true) :
    memWf (arriveRequest s m).mem = true := by
  unfold arriveRequest
  simp (maxDischargeDepth := 60) +contextual [ite_canon, foldl_canon, foldlFst_canon, memWf_writeN, memWf_write, memWf_filter, memWf_del, notEnabled, dirSet_canon, drainAll_canon, homeRequest_canon, h_s]

theorem goOn_canon (s : State) (line : Nat)  (h_s : memWf s.mem = true) :
    memWf (goOn s line).mem = true := by
  unfold goOn
  simp (maxDischargeDepth := 60) +contextual [ite_canon, foldl_canon, foldlFst_canon, memWf_writeN, memWf_write, memWf_filter, memWf_del, notEnabled, drainAll_canon, h_s]

theorem answer_canon (s : State) (line : Nat) (d : Nat)  (h_s : memWf s.mem = true) :
    memWf (answer s line d).mem = true := by
  unfold answer
  try dsimp only
  split <;> simp (maxDischargeDepth := 60) +contextual [ite_canon, foldl_canon, foldlFst_canon, memWf_writeN, memWf_write, memWf_filter, memWf_del, notEnabled, closeTrans_canon, dirSet_canon, goOn_canon, h_s]

theorem recvFwdS_canon (s : State) (d : Nat) (m : Msg)  (h_s : memWf s.mem = true) :
    memWf (recvFwdS s d m).mem = true := by
  unfold recvFwdS
  try dsimp only
  split <;> simp (maxDischargeDepth := 60) +contextual [ite_canon, foldl_canon, foldlFst_canon, memWf_writeN, memWf_write, memWf_filter, memWf_del, notEnabled, rdcPut_canon, sendMsg_canon, h_s]

theorem recvFwdX_canon (s : State) (d : Nat) (m : Msg)  (h_s : memWf s.mem = true) :
    memWf (recvFwdX s d m).mem = true := by
  unfold recvFwdX
  try dsimp only
  split <;> simp (maxDischargeDepth := 60) +contextual [ite_canon, foldl_canon, foldlFst_canon, memWf_writeN, memWf_write, memWf_filter, memWf_del, notEnabled, rdcDrop_canon, sendMsg_canon, h_s]

theorem recvFAck_canon (s : State) (m : Msg)  (h_s : memWf s.mem = true) :
    memWf (recvFAck s m).mem = true := by
  unfold recvFAck
  try dsimp only
  split <;> simp (maxDischargeDepth := 60) +contextual [ite_canon, foldl_canon, foldlFst_canon, memWf_writeN, memWf_write, memWf_filter, memWf_del, notEnabled, dirSet_canon, goOn_canon, l2Times_canon, h_s]

theorem recvInv_canon (s : State) (d : Nat) (m : Msg)  (h_s : memWf s.mem = true) :
    memWf (recvInv s d m).mem = true := by
  unfold recvInv
  try dsimp only
  split <;> simp (maxDischargeDepth := 60) +contextual [ite_canon, foldl_canon, foldlFst_canon, memWf_writeN, memWf_write, memWf_filter, memWf_del, notEnabled, rdcDrop_canon, sendMsg_canon, h_s]

theorem recvRecall_canon (s : State) (d : Nat) (m : Msg) (drop : Bool)  (h_s : memWf s.mem = true) :
    memWf (recvRecall s d m drop).mem = true := by
  unfold recvRecall
  try dsimp only
  repeat' split
  all_goals simp (maxDischargeDepth := 60) +contextual [ite_canon, foldl_canon, foldlFst_canon, memWf_writeN, memWf_write, memWf_filter, memWf_del, notEnabled, rdcDrop_canon, rdcPut_canon, sendMsg_canon, h_s]

theorem recvRData_canon (s : State) (d : Nat) (m : Msg)  (h_s : memWf s.mem = true) :
    memWf (recvRData s d m).mem = true := by
  unfold recvRData
  simp (maxDischargeDepth := 60) +contextual [ite_canon, foldl_canon, foldlFst_canon, memWf_writeN, memWf_write, memWf_filter, memWf_del, notEnabled, answer_canon, l2Put_canon, h_s]

theorem recvMerge_canon (s : State) (d : Nat) (m : Msg)  (h_s : memWf s.mem = true) :
    memWf (recvMerge s d m).mem = true := by
  unfold recvMerge
  try dsimp only
  split <;> simp (maxDischargeDepth := 60) +contextual [ite_canon, foldl_canon, foldlFst_canon, memWf_writeN, memWf_write, memWf_filter, memWf_del, notEnabled, rdcDrop_canon, sendMsg_canon, h_s]

theorem recvMData_canon (s : State) (d : Nat) (m : Msg)  (h_s : memWf s.mem = true) :
    memWf (recvMData s d m).mem = true := by
  unfold recvMData
  simp (maxDischargeDepth := 60) +contextual [ite_canon, foldl_canon, foldlFst_canon, memWf_writeN, memWf_write, memWf_filter, memWf_del, notEnabled, answer_canon, l2Fill_canon, l2Put_canon, h_s]

theorem copyMsg_canon (s : State) (d : Nat) (m : Msg)  (h_s : memWf s.mem = true) :
    memWf (copyMsg s d m).mem = true := by
  unfold copyMsg
  try dsimp only
  split <;> simp (maxDischargeDepth := 60) +contextual [ite_canon, foldl_canon, foldlFst_canon, memWf_writeN, memWf_write, memWf_filter, memWf_del, notEnabled, recvFwdS_canon, recvFwdX_canon, recvInv_canon, recvMerge_canon, recvRecall_canon, h_s]

theorem arriveCopy_canon (s : State) (src : Nat) (d : Nat) (m : Msg)  (h_s : memWf s.mem = true) :
    memWf (arriveCopy s src d m).mem = true := by
  unfold arriveCopy
  simp (maxDischargeDepth := 60) +contextual [ite_canon, foldl_canon, foldlFst_canon, memWf_writeN, memWf_write, memWf_filter, memWf_del, notEnabled, State.modDie_canon, copyMsg_canon, h_s]

theorem recvData_canon (s : State) (d : Nat) (m : Msg)  (h_s : memWf s.mem = true) :
    memWf (recvData s d m).mem = true := by
  unfold recvData
  try dsimp only
  repeat' split
  all_goals simp (maxDischargeDepth := 60) +contextual [ite_canon, foldl_canon, foldlFst_canon, memWf_writeN, memWf_write, memWf_filter, memWf_del, notEnabled, State.modDie_canon, copyMsg_canon, rdcInstall_canon, h_s]

theorem disown_canon (s : State) (line : Nat)  (h_s : memWf s.mem = true) :
    memWf (disown s line).mem = true := by
  unfold disown
  simp (maxDischargeDepth := 60) +contextual [ite_canon, foldl_canon, foldlFst_canon, memWf_writeN, memWf_write, memWf_filter, memWf_del, notEnabled, dirSet_canon, goOn_canon, h_s]

theorem handleMsg_canon (s : State) (src : Nat) (dst : Nat) (m : Msg)  (h_s : memWf s.mem = true) :
    memWf (handleMsg s src dst m).mem = true := by
  unfold handleMsg
  try dsimp only
  split <;> simp (maxDischargeDepth := 60) +contextual [ite_canon, foldl_canon, foldlFst_canon, memWf_writeN, memWf_write, memWf_filter, memWf_del, notEnabled, State.modDie_canon, answer_canon, arriveCopy_canon, arriveRequest_canon, disown_canon, recvData_canon, recvFAck_canon, recvMData_canon, recvRData_canon, h_s]

theorem dieLinkPut_canon (s : State) (src : Nat) (dst : Nat) (l : DieLink)  (h_s : memWf s.mem = true) :
    memWf (dieLinkPut s src dst l).mem = true := by
  unfold dieLinkPut
  simp (maxDischargeDepth := 60) +contextual [ite_canon, foldl_canon, foldlFst_canon, memWf_writeN, memWf_write, memWf_filter, memWf_del, notEnabled, h_s]

theorem takeMsg_canon (s : State) (src : Nat) (dst : Nat) (m : Msg)  (h_s : memWf s.mem = true) :
    memWf (takeMsg s src dst m).mem = true := by
  unfold takeMsg
  try dsimp only
  repeat' split
  all_goals simp (maxDischargeDepth := 60) +contextual [ite_canon, foldl_canon, foldlFst_canon, memWf_writeN, memWf_write, memWf_filter, memWf_del, notEnabled, dieLinkPut_canon, handleMsg_canon, sendMsg_canon, h_s]

theorem deliverAll_canon (s : State) (line : Nat) (x0 : Nat) (h_s : memWf s.mem = true) :
    memWf (deliverAll s line x0).mem = true := by
  induction x0 generalizing s line
  all_goals
    unfold deliverAll
    try dsimp only
    repeat' split
    all_goals simp (maxDischargeDepth := 60) +contextual [*, ite_canon, foldl_canon, foldlFst_canon, memWf_writeN, memWf_write, memWf_filter, memWf_del, notEnabled, takeMsg_canon, h_s]

theorem settleGo_canon (s : State) (line : Nat) (write : Bool) (x0 : Nat) (h_s : memWf s.mem = true) :
    memWf (settleGo s line write x0).mem = true := by
  induction x0 generalizing s line write
  all_goals
    unfold settleGo
    simp (maxDischargeDepth := 60) +contextual [*, ite_canon, foldl_canon, foldlFst_canon, memWf_writeN, memWf_write, memWf_filter, memWf_del, notEnabled, collapse_canon, deliverAll_canon, recallShared_canon, h_s]

theorem settle_canon (s : State) (line : Nat) (write : Bool)  (h_s : memWf s.mem = true) :
    memWf (settle s line write).mem = true := by
  unfold settle
  simp (maxDischargeDepth := 60) +contextual [ite_canon, foldl_canon, foldlFst_canon, memWf_writeN, memWf_write, memWf_filter, memWf_del, notEnabled, l2Fill_canon, settleGo_canon, h_s]

theorem rdcRequest_canon (s : State) (d : Nat) (line : Nat) (m : Msg)  (h_s : memWf s.mem = true) :
    memWf (rdcRequest s d line m).mem = true := by
  unfold rdcRequest
  simp (maxDischargeDepth := 60) +contextual [ite_canon, foldl_canon, foldlFst_canon, memWf_writeN, memWf_write, memWf_filter, memWf_del, notEnabled, State.modDie_canon, sendMsg_canon, h_s]

theorem ensureHomeRead_canon (s : State) (line : Nat) (w : Waiter)  (h_s : memWf s.mem = true) :
    memWf (ensureHomeRead s line w).1.mem = true := by
  unfold ensureHomeRead
  try dsimp only
  repeat' split
  all_goals simp (maxDischargeDepth := 60) +contextual [ite_canon, foldl_canon, foldlFst_canon, memWf_writeN, memWf_write, memWf_filter, memWf_del, notEnabled, collapse_canon, l2Fill_canon, lineFirst_canon, lineUp_canon, recallShared_canon, h_s]

theorem ensureHomeWrite_canon (s : State) (line : Nat) (w : Waiter)  (h_s : memWf s.mem = true) :
    memWf (ensureHomeWrite s line w).1.mem = true := by
  unfold ensureHomeWrite
  try dsimp only
  repeat' split
  all_goals simp (maxDischargeDepth := 60) +contextual [ite_canon, foldl_canon, foldlFst_canon, memWf_writeN, memWf_write, memWf_filter, memWf_del, notEnabled, collapse_canon, l2Fill_canon, lineFirst_canon, lineUp_canon, h_s]

theorem ensureHomePriv_canon (s : State) (line : Nat) (m : BitVec 128) (write : Bool) (w : Waiter)  (h_s : memWf s.mem = true) :
    memWf (ensureHomePriv s line m write w).1.mem = true := by
  unfold ensureHomePriv
  try dsimp only
  repeat' split
  all_goals simp (maxDischargeDepth := 60) +contextual [ite_canon, foldl_canon, foldlFst_canon, memWf_writeN, memWf_write, memWf_filter, memWf_del, notEnabled, collapse_canon, dirPut_canon, l2Fill_canon, lineFirst_canon, lineUp_canon, privPut_canon, rdcInstall_canon, h_s]

theorem ensureRdcRead_canon (s : State) (c : Nat) (line : Nat) (lt : Nat) (m : BitVec 128)  (h_s : memWf s.mem = true) :
    memWf (ensureRdcRead s c line lt m).1.mem = true := by
  unfold ensureRdcRead
  try dsimp only
  repeat' split
  all_goals simp (maxDischargeDepth := 60) +contextual [ite_canon, foldl_canon, foldlFst_canon, memWf_writeN, memWf_write, memWf_filter, memWf_del, notEnabled, rdcEvict_canon, rdcRequest_canon, h_s]

theorem ensureRdcWrite_canon (s : State) (c : Nat) (line : Nat) (m : BitVec 128)  (h_s : memWf s.mem = true) :
    memWf (ensureRdcWrite s c line m).1.mem = true := by
  unfold ensureRdcWrite
  try dsimp only
  repeat' split
  all_goals simp (maxDischargeDepth := 60) +contextual [ite_canon, foldl_canon, foldlFst_canon, memWf_writeN, memWf_write, memWf_filter, memWf_del, notEnabled, rdcEvict_canon, rdcPut_canon, rdcRequest_canon, h_s]

theorem l1Update_canon (s : State) (c : Nat) (line : Nat) (data : List Byte) (t : Nat)  (h_s : memWf s.mem = true) :
    memWf (l1Update s c line data t).mem = true := by
  unfold l1Update
  try dsimp only
  split <;> simp (maxDischargeDepth := 60) +contextual [ite_canon, foldl_canon, foldlFst_canon, memWf_writeN, memWf_write, memWf_filter, memWf_del, notEnabled, State.modCore_canon, h_s]

theorem storeHome_canon (s : State) (c : Nat) (line : Nat) (b : SMap Byte)  (h_s : memWf s.mem = true) :
    memWf (storeHome s c line b).1.mem = true := by
  unfold storeHome
  simp (maxDischargeDepth := 60) +contextual [ite_canon, foldl_canon, foldlFst_canon, memWf_writeN, memWf_write, memWf_filter, memWf_del, notEnabled, State.modCore_canon, l1Update_canon, l2Fill_canon, l2Put_canon, h_s]

theorem storeRdc_canon (s : State) (c : Nat) (line : Nat) (b : SMap Byte)  (h_s : memWf s.mem = true) :
    memWf (storeRdc s c line b).1.mem = true := by
  unfold storeRdc
  try dsimp only
  split <;> simp (maxDischargeDepth := 60) +contextual [ite_canon, foldl_canon, foldlFst_canon, memWf_writeN, memWf_write, memWf_filter, memWf_del, notEnabled, State.modCore_canon, l1Update_canon, rdcPut_canon, rdcUsed_canon, storeHome_canon, h_s]

theorem l1Drop_canon (s : State) (c : Nat) (line : Nat)  (h_s : memWf s.mem = true) :
    memWf (l1Drop s c line).mem = true := by
  unfold l1Drop
  try dsimp only
  split <;> simp (maxDischargeDepth := 60) +contextual [ite_canon, foldl_canon, foldlFst_canon, memWf_writeN, memWf_write, memWf_filter, memWf_del, notEnabled, State.modCore_canon, plainHome_canon, rdcInstall_canon, h_s]

theorem l1Room_canon (s : State) (c : Nat) (line : Nat)  (h_s : memWf s.mem = true) :
    memWf (l1Room s c line).mem = true := by
  unfold l1Room
  simp (maxDischargeDepth := 60) +contextual [ite_canon, foldl_canon, foldlFst_canon, memWf_writeN, memWf_write, memWf_filter, memWf_del, notEnabled, State.fresh_canon, l1Drop_canon, h_s]

theorem l1Put_canon (s : State) (c : Nat) (line : Nat) (x : L1Line)  (h_s : memWf s.mem = true) :
    memWf (l1Put s c line x).mem = true := by
  unfold l1Put
  simp (maxDischargeDepth := 60) +contextual [ite_canon, foldl_canon, foldlFst_canon, memWf_writeN, memWf_write, memWf_filter, memWf_del, notEnabled, State.modCore_canon, l1Drop_canon, l1Room_canon, h_s]

theorem l1Tag_canon (s : State) (c : Nat) (line : Nat) (ctx : Nat) (page : Nat)  (h_s : memWf s.mem = true) :
    memWf (l1Tag s c line ctx page).mem = true := by
  unfold l1Tag
  try dsimp only
  split <;> simp (maxDischargeDepth := 60) +contextual [ite_canon, foldl_canon, foldlFst_canon, memWf_writeN, memWf_write, memWf_filter, memWf_del, notEnabled, State.modCore_canon, h_s]

theorem plainData_canon (s : State) (c : Nat) (line : Nat)  (h_s : memWf s.mem = true) :
    memWf (plainData s c line).1.mem = true := by
  unfold plainData
  try dsimp only
  repeat' split
  all_goals simp (maxDischargeDepth := 60) +contextual [ite_canon, foldl_canon, foldlFst_canon, memWf_writeN, memWf_write, memWf_filter, memWf_del, notEnabled, l2Fill_canon, rdcInstall_canon, rdcPut_canon, h_s]

theorem leaseFill_canon (s : State) (c : Nat) (line : Nat)  (h_s : memWf s.mem = true) :
    memWf (leaseFill s c line).1.mem = true := by
  unfold leaseFill
  try dsimp only
  split <;> simp (maxDischargeDepth := 60) +contextual [ite_canon, foldl_canon, foldlFst_canon, memWf_writeN, memWf_write, memWf_filter, memWf_del, notEnabled, l1Put_canon, l2Fill_canon, l2Put_canon, raiseLt_canon, rdcPut_canon, rdcUsed_canon, h_s]

theorem settlePlain_canon (s : State) (line : Nat) (write : Bool)  (h_s : memWf s.mem = true) :
    memWf (settlePlain s line write).mem = true := by
  unfold settlePlain
  try dsimp only
  repeat' first | assumption | (with_reducible refine foldl_canon _ (fun s x hs => ?_) ?_) | (with_reducible apply ite_canon) | (with_reducible apply memWf_writeN) | (with_reducible apply memWf_write) | (with_reducible apply memWf_filter) | (with_reducible apply memWf_del) | (with_reducible apply l1Drop_canon) | (with_reducible apply rdcEvict_canon) | (with_reducible apply h_s) | split | (dsimp only)
  all_goals (try simp (maxDischargeDepth := 60) +contextual [*, ite_canon, foldl_canon, foldlFst_canon, memWf_writeN, memWf_write, memWf_filter, memWf_del, notEnabled, l1Drop_canon, rdcEvict_canon, h_s])

theorem settleAll_canon (s : State) (line : Nat) (write : Bool)  (h_s : memWf s.mem = true) :
    memWf (settleAll s line write).mem = true := by
  unfold settleAll
  simp (maxDischargeDepth := 60) +contextual [ite_canon, foldl_canon, foldlFst_canon, memWf_writeN, memWf_write, memWf_filter, memWf_del, notEnabled, settle_canon, settlePlain_canon, h_s]

theorem loopFlush_canon (s : State) (pa : Nat) (len : Nat)  (h_s : memWf s.mem = true) :
    memWf (loopFlush s pa len).mem = true := by
  unfold loopFlush
  simp (maxDischargeDepth := 60) +contextual [ite_canon, foldl_canon, foldlFst_canon, memWf_writeN, memWf_write, memWf_filter, memWf_del, notEnabled, rdcDrop_canon, settleAll_canon, storeHome_canon, h_s]

theorem obtainGo_canon (s : State) (c : Nat) (line : Nat) (x0 : Nat) (h_s : memWf s.mem = true) :
    memWf (obtainGo s c line x0).mem = true := by
  induction x0 generalizing s c line
  all_goals
    unfold obtainGo
    try dsimp only
    repeat' split
    all_goals simp (maxDischargeDepth := 60) +contextual [*, ite_canon, foldl_canon, foldlFst_canon, memWf_writeN, memWf_write, memWf_filter, memWf_del, notEnabled, collapse_canon, deliverAll_canon, ensureRdcWrite_canon, h_s]

theorem filterSettle_canon (s : State) (line : Nat)  (h_s : memWf s.mem = true) :
    memWf (filterSettle s line).mem = true := by
  unfold filterSettle
  try dsimp only
  repeat' split
  all_goals simp (maxDischargeDepth := 60) +contextual [ite_canon, foldl_canon, foldlFst_canon, memWf_writeN, memWf_write, memWf_filter, memWf_del, notEnabled, settle_canon, h_s]

theorem takeLine_canon (s : State) (c : Nat) (line : Nat)  (h_s : memWf s.mem = true) :
    memWf (takeLine s c line).mem = true := by
  unfold takeLine
  simp (maxDischargeDepth := 60) +contextual [ite_canon, foldl_canon, foldlFst_canon, memWf_writeN, memWf_write, memWf_filter, memWf_del, notEnabled, State.modCore_canon, dirPut_canon, filterSettle_canon, obtainGo_canon, settleAll_canon, settlePlain_canon, h_s]

theorem ownWrite_canon (s : State) (c : Nat) (line : Nat) (b : SMap Byte)  (h_s : memWf s.mem = true) :
    memWf (ownWrite s c line b).mem = true := by
  unfold ownWrite
  simp (maxDischargeDepth := 60) +contextual [ite_canon, foldl_canon, foldlFst_canon, memWf_writeN, memWf_write, memWf_filter, memWf_del, notEnabled, storeHome_canon, storeRdc_canon, h_s]

theorem engineDone_canon (s : State) (c : Nat) (cmd : Nat) (line : Nat)  (h_s : memWf s.mem = true) :
    memWf (engineDone s c cmd line).mem = true := by
  unfold engineDone
  simp (maxDischargeDepth := 60) +contextual [ite_canon, foldl_canon, foldlFst_canon, memWf_writeN, memWf_write, memWf_filter, memWf_del, notEnabled, disown_canon, sendMsg_canon, h_s]

theorem settleRead_canon (s : State) (line : Nat)  (h_s : memWf s.mem = true) :
    memWf (settleRead s line).1.mem = true := by
  unfold settleRead
  simp (maxDischargeDepth := 60) +contextual [ite_canon, foldl_canon, foldlFst_canon, memWf_writeN, memWf_write, memWf_filter, memWf_del, notEnabled, settleAll_canon, h_s]

theorem physReadGo_canon (s : State) (pa : Nat) (x0 : Nat) (x1 : List Byte) (h_s : memWf s.mem = true) :
    memWf (physReadGo s pa x0 x1).1.mem = true := by
  induction x0 generalizing s pa x1
  all_goals
    unfold physReadGo
    simp (maxDischargeDepth := 60) +contextual [*, ite_canon, foldl_canon, foldlFst_canon, memWf_writeN, memWf_write, memWf_filter, memWf_del, notEnabled, settleAll_canon, h_s]

theorem physRead_canon (s : State) (pa : Nat) (n : Nat)  (h_s : memWf s.mem = true) :
    memWf (physRead s pa n).1.mem = true := by
  unfold physRead
  simp (maxDischargeDepth := 60) +contextual [ite_canon, foldl_canon, foldlFst_canon, memWf_writeN, memWf_write, memWf_filter, memWf_del, notEnabled, physReadGo_canon, h_s]

theorem physWriteGo_canon (s : State) (c : Nat) (pa : Nat) (bs : List Byte) (x0 : Nat) (h_s : memWf s.mem = true) :
    memWf (physWriteGo s c pa bs x0).mem = true := by
  induction x0 generalizing s c pa bs
  all_goals
    unfold physWriteGo
    simp (maxDischargeDepth := 60) +contextual [*, ite_canon, foldl_canon, foldlFst_canon, memWf_writeN, memWf_write, memWf_filter, memWf_del, notEnabled, settleAll_canon, storeHome_canon, h_s]

theorem physWrite_canon (s : State) (c : Nat) (pa : Nat) (bs : List Byte)  (h_s : memWf s.mem = true) :
    memWf (physWrite s c pa bs).mem = true := by
  unfold physWrite
  simp (maxDischargeDepth := 60) +contextual [ite_canon, foldl_canon, foldlFst_canon, memWf_writeN, memWf_write, memWf_filter, memWf_del, notEnabled, physWriteGo_canon, h_s]

end Sys2Proof.Machine
end

