-- ==== Sys2Proof/Laws/CanonTranslate.lean ====
section
/-! SUPPORT. Memory stays canonical through every operation of `Translate`. -/

set_option linter.all false

namespace Sys2Proof.Machine
open Sys2Proof

theorem walkFrom_canon (s : State) (ctx : Nat) (va : Nat) (acc : Acc) (x0 : Nat) (x1 : Nat) (x2 : Nat) (x3 : List WalkEntry) (h_s : memWf s.mem = true) :
    memWf (walkFrom s ctx va acc x0 x1 x2 x3).1.mem = true := by
  induction x0 generalizing s ctx va acc x1 x2 x3
  all_goals
    unfold walkFrom
    try dsimp only
    repeat' split
    all_goals simp (maxDischargeDepth := 60) +contextual [*, ite_canon, foldl_canon, foldlFst_canon, memWf_writeN, memWf_write, memWf_filter, memWf_del, notEnabled, physRead_canon, h_s]

theorem walkAll_canon (s : State) (ctx : Nat) (va : Nat) (acc : Acc)  (h_s : memWf s.mem = true) :
    memWf (walkAll s ctx va acc).1.mem = true := by
  unfold walkAll
  try dsimp only
  repeat' split
  all_goals simp (maxDischargeDepth := 60) +contextual [ite_canon, foldl_canon, foldlFst_canon, memWf_writeN, memWf_write, memWf_filter, memWf_del, notEnabled, walkFrom_canon, h_s]

theorem walk_canon (s : State) (ctx : Nat) (va : Nat) (acc : Acc)  (h_s : memWf s.mem = true) :
    memWf (walk s ctx va acc).1.mem = true := by
  unfold walk
  try dsimp only
  repeat' split
  all_goals simp (maxDischargeDepth := 60) +contextual [ite_canon, foldl_canon, foldlFst_canon, memWf_writeN, memWf_write, memWf_filter, memWf_del, notEnabled, walkAll_canon, h_s]

theorem walkPut_canon (s : State) (d : Nat) (x : WalkEntry)  (h_s : memWf s.mem = true) :
    memWf (walkPut s d x).mem = true := by
  unfold walkPut
  try dsimp only
  repeat' first | assumption | (with_reducible refine foldl_canon _ (fun s x hs => ?_) ?_) | (with_reducible apply ite_canon) | (with_reducible apply memWf_writeN) | (with_reducible apply memWf_write) | (with_reducible apply memWf_filter) | (with_reducible apply memWf_del) | (with_reducible apply State.modDie_canon) | (with_reducible apply h_s) | split | (dsimp only)
  all_goals (try simp (maxDischargeDepth := 60) +contextual [*, ite_canon, foldl_canon, foldlFst_canon, memWf_writeN, memWf_write, memWf_filter, memWf_del, notEnabled, State.modDie_canon, h_s])

theorem walkCached_canon (s : State) (d : Nat) (ctx : Nat) (va : Nat) (acc : Acc)  (h_s : memWf s.mem = true) :
    memWf (walkCached s d ctx va acc).1.mem = true := by
  unfold walkCached
  try dsimp only
  repeat' split
  all_goals simp (maxDischargeDepth := 60) +contextual [ite_canon, foldl_canon, foldlFst_canon, memWf_writeN, memWf_write, memWf_filter, memWf_del, notEnabled, walkAll_canon, walkFrom_canon, walkPut_canon, h_s]

theorem walksDrop_canon (s : State) (ctx : Nat) (lo : Nat) (len : Nat)  (h_s : memWf s.mem = true) :
    memWf (walksDrop s ctx lo len).mem = true := by
  unfold walksDrop
  simp (maxDischargeDepth := 60) +contextual [ite_canon, foldl_canon, foldlFst_canon, memWf_writeN, memWf_write, memWf_filter, memWf_del, notEnabled, h_s]

theorem useLeaf_canon (s : State) (core : Option Nat) (ctx : Nat) (va : Nat) (acc : Acc) (leaf : DWord) (entry : Nat) (big : Bool)  (h_s : memWf s.mem = true) :
    memWf (useLeaf s core ctx va acc leaf entry big).1.mem = true := by
  unfold useLeaf
  try dsimp only
  repeat' split
  all_goals simp (maxDischargeDepth := 60) +contextual [ite_canon, foldl_canon, foldlFst_canon, memWf_writeN, memWf_write, memWf_filter, memWf_del, notEnabled, physRead_canon, physWrite_canon, h_s]

theorem translateWalk_canon (s : State) (core : Option Nat) (ctx : Nat) (va : Nat) (acc : Acc)  (h_s : memWf s.mem = true) :
    memWf (translateWalk s core ctx va acc).1.mem = true := by
  unfold translateWalk
  try dsimp only
  repeat' split
  all_goals simp (maxDischargeDepth := 60) +contextual [ite_canon, foldl_canon, foldlFst_canon, memWf_writeN, memWf_write, memWf_filter, memWf_del, notEnabled, useLeaf_canon, walk_canon, walkCached_canon, h_s]

theorem qtlbPut_canon (s : State) (c : Nat) (q : Nat) (x : TlbEntry) (va : Nat)  (h_s : memWf s.mem = true) :
    memWf (qtlbPut s c q x va).mem = true := by
  unfold qtlbPut
  try dsimp only
  repeat' first | assumption | (with_reducible refine foldl_canon _ (fun s x hs => ?_) ?_) | (with_reducible apply ite_canon) | (with_reducible apply memWf_writeN) | (with_reducible apply memWf_write) | (with_reducible apply memWf_filter) | (with_reducible apply memWf_del) | (with_reducible apply State.modCore_canon) | (with_reducible apply h_s) | split | (dsimp only)
  all_goals (try simp (maxDischargeDepth := 60) +contextual [*, ite_canon, foldl_canon, foldlFst_canon, memWf_writeN, memWf_write, memWf_filter, memWf_del, notEnabled, State.modCore_canon, h_s])

theorem tlbPut_canon (s : State) (c q ctx va : Nat) (leaf : DWord) (entry : Nat) (big : Bool) (h_s : memWf s.mem = true) :
    memWf (tlbPut s c q ctx va leaf entry big).mem = true := by
  have h := qtlbPut_canon s c q { ctx := ctx, page := tlbPage big va, leaf := leaf, big := big, entry := entry } va h_s
  unfold tlbPut
  dsimp only
  split
  · rw [State.modCore_mem]; exact State.fresh_canon _ h
  · rw [State.modCore_mem]; exact h

theorem translateCached_canon (s : State) (c : Nat) (q : Nat) (ctx : Nat) (va : Nat) (acc : Acc)  (h_s : memWf s.mem = true) :
    memWf (translateCached s c q ctx va acc).1.mem = true := by
  unfold translateCached
  try dsimp only
  repeat' split
  all_goals simp (maxDischargeDepth := 60) +contextual [ite_canon, foldl_canon, foldlFst_canon, memWf_writeN, memWf_write, memWf_filter, memWf_del, notEnabled, tlbPut_canon, useLeaf_canon, h_s]

theorem translateNow_canon (s : State) (c : Nat) (q : Nat) (ctx : Nat) (va : Nat) (acc : Acc)  (h_s : memWf s.mem = true) :
    memWf (translateNow s c q ctx va acc).1.mem = true := by
  unfold translateNow
  try dsimp only
  repeat' split
  all_goals simp (maxDischargeDepth := 60) +contextual [ite_canon, foldl_canon, foldlFst_canon, memWf_writeN, memWf_write, memWf_filter, memWf_del, notEnabled, tlbPut_canon, translateCached_canon, translateWalk_canon, h_s]

theorem shootCore_canon (s : State) (ctx : Nat) (lo : Nat) (len : Nat) (c : Nat)  (h_s : memWf s.mem = true) :
    memWf (shootCore s ctx lo len c).mem = true := by
  unfold shootCore
  simp (maxDischargeDepth := 60) +contextual [ite_canon, foldl_canon, foldlFst_canon, memWf_writeN, memWf_write, memWf_filter, memWf_del, notEnabled, l1Drop_canon, h_s]

theorem shootdown_canon (s : State) (ctx : Nat) (lo : Nat) (len : Nat) (cores : List Nat)  (h_s : memWf s.mem = true) :
    memWf (shootdown s ctx lo len cores).mem = true := by
  unfold shootdown
  simp (maxDischargeDepth := 60) +contextual [ite_canon, foldl_canon, foldlFst_canon, memWf_writeN, memWf_write, memWf_filter, memWf_del, notEnabled, shootCore_canon, walksDrop_canon, h_s]

theorem dropPlain_canon (s : State) (pa : Nat) (len : Nat)  (h_s : memWf s.mem = true) :
    memWf (dropPlain s pa len).mem = true := by
  unfold dropPlain
  simp (maxDischargeDepth := 60) +contextual [ite_canon, foldl_canon, foldlFst_canon, memWf_writeN, memWf_write, memWf_filter, memWf_del, notEnabled, l1Drop_canon, loopFlush_canon, rdcEvict_canon, h_s]

theorem reclassify_canon (s : State) (pa : Nat) (len : Nat)  (h_s : memWf s.mem = true) :
    memWf (reclassify s pa len).mem = true := by
  unfold reclassify
  simp (maxDischargeDepth := 60) +contextual [ite_canon, foldl_canon, foldlFst_canon, memWf_writeN, memWf_write, memWf_filter, memWf_del, notEnabled, h_s]

theorem classifierRun_canon (s : State) (ctx : Nat) (va : Nat)  (h_s : memWf s.mem = true) :
    memWf (classifierRun s ctx va).mem = true := by
  unfold classifierRun
  try dsimp only
  split <;> simp (maxDischargeDepth := 60) +contextual [ite_canon, foldl_canon, foldlFst_canon, memWf_writeN, memWf_write, memWf_filter, memWf_del, notEnabled, dropPlain_canon, physWrite_canon, reclassify_canon, shootdown_canon, walk_canon, h_s]

theorem translateRetried_canon (s : State) (c : Nat) (q : Nat) (ctx : Nat) (va : Nat) (acc : Acc)  (h_s : memWf s.mem = true) :
    memWf (translateRetried s c q ctx va acc).1.mem = true := by
  unfold translateRetried
  try dsimp only
  split <;> simp (maxDischargeDepth := 60) +contextual [ite_canon, foldl_canon, foldlFst_canon, memWf_writeN, memWf_write, memWf_filter, memWf_del, notEnabled, classifierRun_canon, translateNow_canon, h_s]

theorem translateSettled_canon (s : State) (core : Option Nat) (ctx : Nat) (va : Nat) (acc : Acc)  (h_s : memWf s.mem = true) :
    memWf (translateSettled s core ctx va acc).1.mem = true := by
  unfold translateSettled
  try dsimp only
  split <;> simp (maxDischargeDepth := 60) +contextual [ite_canon, foldl_canon, foldlFst_canon, memWf_writeN, memWf_write, memWf_filter, memWf_del, notEnabled, classifierRun_canon, translateWalk_canon, h_s]

theorem virtReadGo_canon (s : State) (core : Option Nat) (ctx : Nat) (va : Nat) (x0 : Nat) (x1 : List Byte) (h_s : memWf s.mem = true) :
    memWf (virtReadGo s core ctx va x0 x1).1.mem = true := by
  induction x0 generalizing s core ctx va x1
  all_goals
    unfold virtReadGo
    try dsimp only
    repeat' split
    all_goals simp (maxDischargeDepth := 60) +contextual [*, ite_canon, foldl_canon, foldlFst_canon, memWf_writeN, memWf_write, memWf_filter, memWf_del, notEnabled, physRead_canon, translateSettled_canon, h_s]

theorem virtRead_canon (s : State) (core : Option Nat) (ctx : Nat) (va : Nat) (n8 : Nat)  (h_s : memWf s.mem = true) :
    memWf (virtRead s core ctx va n8).1.mem = true := by
  unfold virtRead
  simp (maxDischargeDepth := 60) +contextual [ite_canon, foldl_canon, foldlFst_canon, memWf_writeN, memWf_write, memWf_filter, memWf_del, notEnabled, virtReadGo_canon, h_s]

theorem virtWrite_canon (s : State) (core : Option Nat) (ctx : Nat) (va : Nat) (bs : List Byte)  (h_s : memWf s.mem = true) :
    memWf (virtWrite s core ctx va bs).1.mem = true := by
  unfold virtWrite
  try dsimp only
  split <;> simp (maxDischargeDepth := 60) +contextual [ite_canon, foldl_canon, foldlFst_canon, memWf_writeN, memWf_write, memWf_filter, memWf_del, notEnabled, physWrite_canon, translateSettled_canon, h_s]

theorem virtAtomic64_canon (s : State) (core : Option Nat) (ctx : Nat) (va : Nat) (f : DWord → DWord)  (h_s : memWf s.mem = true) :
    memWf (virtAtomic64 s core ctx va f).1.mem = true := by
  unfold virtAtomic64
  try dsimp only
  split <;> simp (maxDischargeDepth := 60) +contextual [ite_canon, foldl_canon, foldlFst_canon, memWf_writeN, memWf_write, memWf_filter, memWf_del, notEnabled, physRead_canon, physWrite_canon, translateSettled_canon, h_s]

end Sys2Proof.Machine
end

