-- ==== Sys2Proof/Laws/CanonUnits.lean ====
section
/-! SUPPORT. Memory stays canonical through every operation of `Units`. -/

set_option linter.all false

namespace Sys2Proof.Machine
open Sys2Proof

theorem iteSnd_canon {α : Type} {c : Prop} [Decidable c] {a b : α × Memory} (ha : memWf a.2 = true) (hb : memWf b.2 = true) :
    memWf (if c then a else b).2 = true := by split <;> assumption
theorem tracePut_canon (d : Die) (clk : Nat) (m : Memory) (r : List Byte) (h : memWf m = true) : memWf (tracePut d clk m r).2 = true := by
  unfold tracePut
  exact iteSnd_canon h (memWf_writeN _ _ h)
theorem tracePuts_canon (clk : Nat) (l : List (Nat × List Byte)) (x : Die × Memory) (h : memWf x.2 = true) :
    memWf (l.foldl (fun (x : Die × Memory) p => tracePut x.1 clk x.2 p.2) x).2 = true := by
  induction l generalizing x with
  | nil => exact h
  | cons p r ih => exact ih _ (tracePut_canon _ _ _ _ h)
theorem traceFlush_canon (s : State) (die : Nat) (h_s : memWf s.mem = true) :
    memWf (traceFlush s die).mem = true := by
  unfold traceFlush
  dsimp only
  split
  · exact h_s
  · exact State.modDie_canon _ _ _ (tracePuts_canon _ _ _ h_s)

theorem traceFlushAll_canon (s : State)  (h_s : memWf s.mem = true) :
    memWf (traceFlushAll s).mem = true := by
  unfold traceFlushAll
  simp (maxDischargeDepth := 60) +contextual [ite_canon, foldl_canon, foldlFst_canon, memWf_writeN, memWf_write, memWf_filter, memWf_del, notEnabled, traceFlush_canon, h_s]

theorem traceRecord_canon (s : State) (core : Nat) (lane : Nat) (rec : List Byte)  (h_s : memWf s.mem = true) :
    memWf (traceRecord s core lane rec).mem = true := by
  unfold traceRecord
  simp (maxDischargeDepth := 60) +contextual [ite_canon, foldl_canon, foldlFst_canon, memWf_writeN, memWf_write, memWf_filter, memWf_del, notEnabled, State.modDie_canon, h_s]

theorem trace_canon (s : State) (a : Actor) (ty : Nat) (aux : Nat) (pc : Addr) (data : DWord)  (h_s : memWf s.mem = true) :
    memWf (trace s a ty aux pc data).mem = true := by
  unfold trace
  simp (maxDischargeDepth := 60) +contextual [ite_canon, foldl_canon, foldlFst_canon, memWf_writeN, memWf_write, memWf_filter, memWf_del, notEnabled, traceRecord_canon, h_s]

theorem traceThread_canon (s : State) (t : Nat) (ty : Nat) (aux : Nat) (data : DWord)  (h_s : memWf s.mem = true) :
    memWf (traceThread s t ty aux data).mem = true := by
  unfold traceThread
  simp (maxDischargeDepth := 60) +contextual [ite_canon, foldl_canon, foldlFst_canon, memWf_writeN, memWf_write, memWf_filter, memWf_del, notEnabled, trace_canon, h_s]

theorem logNamed_canon (s : State) (die : Nat) (gate : Nat) (name : DWord) (kind : Nat) (aux : Nat)  (h_s : memWf s.mem = true) :
    memWf (logNamed s die gate name kind aux).mem = true := by
  unfold logNamed
  simp (maxDischargeDepth := 60) +contextual [ite_canon, foldl_canon, foldlFst_canon, memWf_writeN, memWf_write, memWf_filter, memWf_del, notEnabled, State.modDie_canon, h_s]

theorem logEvent_canon (s : State) (die : Nat) (gate : Nat) (t : Nat) (kind : Nat)  (h_s : memWf s.mem = true) :
    memWf (logEvent s die gate t kind).mem = true := by
  unfold logEvent
  simp (maxDischargeDepth := 60) +contextual [ite_canon, foldl_canon, foldlFst_canon, memWf_writeN, memWf_write, memWf_filter, memWf_del, notEnabled, logNamed_canon, h_s]

theorem gatesDone_canon (s : State)  (h_s : memWf s.mem = true) :
    memWf (gatesDone s).mem = true := by
  unfold gatesDone
  simp (maxDischargeDepth := 60) +contextual [ite_canon, foldl_canon, foldlFst_canon, memWf_writeN, memWf_write, memWf_filter, memWf_del, notEnabled, h_s]

theorem gatePass_canon (s : State) (gate : Nat)  (h_s : memWf s.mem = true) :
    memWf (gatePass s gate).mem = true := by
  unfold gatePass
  try dsimp only
  split <;> simp (maxDischargeDepth := 60) +contextual [ite_canon, foldl_canon, foldlFst_canon, memWf_writeN, memWf_write, memWf_filter, memWf_del, notEnabled, gatesDone_canon, h_s]

theorem atomLogged_canon (s : State) (line : Nat) (name : DWord) (aux : Nat)  (h_s : memWf s.mem = true) :
    memWf (atomLogged s line name aux).mem = true := by
  unfold atomLogged
  simp (maxDischargeDepth := 60) +contextual [ite_canon, foldl_canon, foldlFst_canon, memWf_writeN, memWf_write, memWf_filter, memWf_del, notEnabled, gatePass_canon, logNamed_canon, h_s]

theorem namesLogged_canon (s : State) (line : Nat) (l : List (DWord × Nat))  (h_s : memWf s.mem = true) :
    memWf (namesLogged s line l).mem = true := by
  unfold namesLogged
  simp (maxDischargeDepth := 60) +contextual [ite_canon, foldl_canon, foldlFst_canon, memWf_writeN, memWf_write, memWf_filter, memWf_del, notEnabled, atomLogged_canon, h_s]

theorem eventMade_canon (s : State) (e : EventDue)  (h_s : memWf s.mem = true) :
    memWf (eventMade s e).1.mem = true := by
  unfold eventMade
  try dsimp only
  repeat' split
  all_goals simp (maxDischargeDepth := 60) +contextual [ite_canon, foldl_canon, foldlFst_canon, memWf_writeN, memWf_write, memWf_filter, memWf_del, notEnabled, atomLogged_canon, translateSettled_canon, virtAtomic64_canon, virtWrite_canon, h_s]

theorem eventDue_canon (s : State) (e : EventDue)  (h_s : memWf s.mem = true) :
    memWf (eventDue s e).mem = true := by
  unfold eventDue
  simp (maxDischargeDepth := 60) +contextual [ite_canon, foldl_canon, foldlFst_canon, memWf_writeN, memWf_write, memWf_filter, memWf_del, notEnabled, eventMade_canon, h_s]

theorem settleEvents_canon (s : State)  (h_s : memWf s.mem = true) :
    memWf (settleEvents s).mem = true := by
  unfold settleEvents
  simp (maxDischargeDepth := 60) +contextual [ite_canon, foldl_canon, foldlFst_canon, memWf_writeN, memWf_write, memWf_filter, memWf_del, notEnabled, eventDue_canon, h_s]

theorem eventWord_canon (s : State) (lid : Nat) (l : Launch) (bit : Nat) (off : Nat)  (h_s : memWf s.mem = true) :
    memWf (eventWord s lid l bit off).mem = true := by
  unfold eventWord
  simp (maxDischargeDepth := 60) +contextual [ite_canon, foldl_canon, foldlFst_canon, memWf_writeN, memWf_write, memWf_filter, memWf_del, notEnabled, eventDue_canon, h_s]

theorem eventStore_canon (s : State) (l : Launch) (off : Nat) (bs : List Byte)  (h_s : memWf s.mem = true) :
    memWf (eventStore s l off bs).mem = true := by
  unfold eventStore
  simp (maxDischargeDepth := 60) +contextual [ite_canon, foldl_canon, foldlFst_canon, memWf_writeN, memWf_write, memWf_filter, memWf_del, notEnabled, eventDue_canon, h_s]

theorem freeUnits_canon (s : State) (lid : Nat)  (h_s : memWf s.mem = true) :
    memWf (freeUnits s lid).mem = true := by
  unfold freeUnits
  simp (maxDischargeDepth := 60) +contextual [ite_canon, foldl_canon, foldlFst_canon, memWf_writeN, memWf_write, memWf_filter, memWf_del, notEnabled, State.modLaunch_canon, h_s]

theorem completeLaunch_canon (s : State) (lid : Nat)  (h_s : memWf s.mem = true) :
    memWf (completeLaunch s lid).mem = true := by
  unfold completeLaunch
  try dsimp only
  repeat' split
  all_goals simp (maxDischargeDepth := 60) +contextual [ite_canon, foldl_canon, foldlFst_canon, memWf_writeN, memWf_write, memWf_filter, memWf_del, notEnabled, eventStore_canon, eventWord_canon, freeUnits_canon, h_s]

theorem settleCounts_canon (s0 : State) (s : State) (lid : Nat)  (h_s0 : memWf s0.mem = true) (h_s : memWf s.mem = true) :
    memWf (settleCounts s0 s lid).mem = true := by
  unfold settleCounts
  try dsimp only
  split <;> simp (maxDischargeDepth := 60) +contextual [ite_canon, foldl_canon, foldlFst_canon, memWf_writeN, memWf_write, memWf_filter, memWf_del, notEnabled, completeLaunch_canon, eventWord_canon, h_s0, h_s]

theorem leaveRegs_canon (s : State) (t : Nat)  (h_s : memWf s.mem = true) :
    memWf (leaveRegs s t).mem = true := by
  unfold leaveRegs
  simp (maxDischargeDepth := 60) +contextual [ite_canon, foldl_canon, foldlFst_canon, memWf_writeN, memWf_write, memWf_filter, memWf_del, notEnabled, State.modCore_canon, h_s]

theorem giveUp_canon (s : State) (c : Nat) (l : List (Nat × Nat))  (h_s : memWf s.mem = true) :
    memWf (giveUp s c l).mem = true := by
  unfold giveUp
  simp (maxDischargeDepth := 60) +contextual [ite_canon, foldl_canon, foldlFst_canon, memWf_writeN, memWf_write, memWf_filter, memWf_del, notEnabled, engineDone_canon, h_s]

theorem discardCommands_canon (s : State) (tr : Nat)  (h_s : memWf s.mem = true) :
    memWf (discardCommands s tr).mem = true := by
  unfold discardCommands
  simp (maxDischargeDepth := 60) +contextual [ite_canon, foldl_canon, foldlFst_canon, memWf_writeN, memWf_write, memWf_filter, memWf_del, notEnabled, State.modCore_canon, giveUp_canon, h_s]

theorem streamPut_canon (s : State) (d : Nat) (n : Nat) (x : Stream)  (h_s : memWf s.mem = true) :
    memWf (streamPut s d n x).mem = true := by
  unfold streamPut
  simp (maxDischargeDepth := 60) +contextual [ite_canon, foldl_canon, foldlFst_canon, memWf_writeN, memWf_write, memWf_filter, memWf_del, notEnabled, State.modDie_canon, h_s]

theorem returnRooms_canon (s : State) (t : Nat)  (h_s : memWf s.mem = true) :
    memWf (returnRooms s t).mem = true := by
  unfold returnRooms
  try dsimp only
  repeat' first | assumption | (with_reducible refine foldl_canon _ (fun s x hs => ?_) ?_) | (with_reducible apply ite_canon) | (with_reducible apply memWf_writeN) | (with_reducible apply memWf_write) | (with_reducible apply memWf_filter) | (with_reducible apply memWf_del) | (with_reducible apply streamPut_canon) | (with_reducible apply h_s) | split | (dsimp only)
  all_goals (try simp (maxDischargeDepth := 60) +contextual [*, ite_canon, foldl_canon, foldlFst_canon, memWf_writeN, memWf_write, memWf_filter, memWf_del, notEnabled, streamPut_canon, h_s])

theorem settleBatches_canon (s : State) (tr : Nat) (x0 : Nat) (h_s : memWf s.mem = true) :
    memWf (settleBatches s tr x0).mem = true := by
  induction x0 generalizing s tr
  all_goals
    unfold settleBatches
    try dsimp only
    repeat' split
    all_goals simp (maxDischargeDepth := 60) +contextual [*, ite_canon, foldl_canon, foldlFst_canon, memWf_writeN, memWf_write, memWf_filter, memWf_del, notEnabled, State.modCore_canon, State.modThread_canon, State.modTrain_canon, h_s]

theorem dropCmds_canon (s : State) (tr : Nat) (ids : List Nat)  (h_s : memWf s.mem = true) :
    memWf (dropCmds s tr ids).mem = true := by
  unfold dropCmds
  simp (maxDischargeDepth := 60) +contextual [ite_canon, foldl_canon, foldlFst_canon, memWf_writeN, memWf_write, memWf_filter, memWf_del, notEnabled, State.modTrain_canon, h_s]

theorem killTrain_canon (s : State) (tr : Nat)  (h_s : memWf s.mem = true) :
    memWf (killTrain s tr).mem = true := by
  unfold killTrain
  try dsimp only
  repeat' split
  all_goals simp (maxDischargeDepth := 60) +contextual [ite_canon, foldl_canon, foldlFst_canon, memWf_writeN, memWf_write, memWf_filter, memWf_del, notEnabled, State.modCore_canon, State.modThread_canon, discardCommands_canon, leaveRegs_canon, returnRooms_canon, h_s]

theorem killLaunch_canon (s : State) (lid : Nat)  (h_s : memWf s.mem = true) :
    memWf (killLaunch s lid).mem = true := by
  unfold killLaunch
  simp (maxDischargeDepth := 60) +contextual [ite_canon, foldl_canon, foldlFst_canon, memWf_writeN, memWf_write, memWf_filter, memWf_del, notEnabled, State.modLaunch_canon, killTrain_canon, h_s]

theorem launchFail_canon (s : State) (lid : Nat) (code : Nat) (a : Actor)  (h_s : memWf s.mem = true) :
    memWf (launchFail s lid code a).mem = true := by
  unfold launchFail
  try dsimp only
  repeat' split
  all_goals simp (maxDischargeDepth := 60) +contextual [ite_canon, foldl_canon, foldlFst_canon, memWf_writeN, memWf_write, memWf_filter, memWf_del, notEnabled, State.modLaunch_canon, eventStore_canon, killLaunch_canon, settleCounts_canon, trace_canon, h_s]

theorem taskKill_canon (s : State) (tr : Nat) (code : Nat)  (h_s : memWf s.mem = true) :
    memWf (taskKill s tr code).mem = true := by
  unfold taskKill
  try dsimp only
  repeat' split
  all_goals simp (maxDischargeDepth := 60) +contextual [ite_canon, foldl_canon, foldlFst_canon, memWf_writeN, memWf_write, memWf_filter, memWf_del, notEnabled, State.modCore_canon, State.modLaunch_canon, killTrain_canon, launchFail_canon, trace_canon, h_s]

end Sys2Proof.Machine
end

