-- ==== Sys2Proof/Laws/CanonOps.lean ====
section
/-! SUPPORT. Memory stays canonical through every operation of `Ops`. -/

set_option linter.all false

namespace Sys2Proof.Machine
open Sys2Proof

theorem advance_canon (i : Instr) (s : State) (t : Nat)  (h_s : memWf s.mem = true) :
    memWf (advance i s t).mem = true := by
  unfold advance
  simp (maxDischargeDepth := 60) +contextual [ite_canon, foldl_canon, foldlFst_canon, memWf_writeN, memWf_write, memWf_filter, memWf_del, notEnabled, State.modThread_canon, h_s]

theorem park_canon (s : State) (t : Nat) (w : Wait)  (h_s : memWf s.mem = true) :
    memWf (park s t w).mem = true := by
  unfold park
  simp (maxDischargeDepth := 60) +contextual [ite_canon, foldl_canon, foldlFst_canon, memWf_writeN, memWf_write, memWf_filter, memWf_del, notEnabled, State.modThread_canon, h_s]

theorem failOp_canon (s : State) (t : Nat) (seq : Nat) (cause : Nat) (faddr : DWord)  (h_s : memWf s.mem = true) :
    memWf (failOp s t seq cause faddr).mem = true := by
  unfold failOp
  simp (maxDischargeDepth := 60) +contextual [ite_canon, foldl_canon, foldlFst_canon, memWf_writeN, memWf_write, memWf_filter, memWf_del, notEnabled, State.modThread_canon, h_s]

theorem resolveOp_canon (s : State) (t : Nat) (seq : Nat)  (h_s : memWf s.mem = true) :
    memWf (resolveOp s t seq).mem = true := by
  unfold resolveOp
  simp (maxDischargeDepth := 60) +contextual [ite_canon, foldl_canon, foldlFst_canon, memWf_writeN, memWf_write, memWf_filter, memWf_del, notEnabled, State.modThread_canon, h_s]

theorem dissolve_canon (s : State) (t : Nat)  (h_s : memWf s.mem = true) :
    memWf (dissolve s t).mem = true := by
  unfold dissolve
  simp (maxDischargeDepth := 60) +contextual [ite_canon, foldl_canon, foldlFst_canon, memWf_writeN, memWf_write, memWf_filter, memWf_del, notEnabled, State.modCore_canon, State.modThread_canon, h_s]

theorem withdraw_canon (s : State) (t : Nat)  (h_s : memWf s.mem = true) :
    memWf (withdraw s t).mem = true := by
  unfold withdraw
  simp (maxDischargeDepth := 60) +contextual [ite_canon, foldl_canon, foldlFst_canon, memWf_writeN, memWf_write, memWf_filter, memWf_del, notEnabled, dissolve_canon, h_s]

theorem overflow_canon (s : State) (t : Nat)  (h_s : memWf s.mem = true) :
    memWf (overflow s t).mem = true := by
  unfold overflow
  simp (maxDischargeDepth := 60) +contextual [ite_canon, foldl_canon, foldlFst_canon, memWf_writeN, memWf_write, memWf_filter, memWf_del, notEnabled, launchFail_canon, park_canon, withdraw_canon, h_s]

theorem raiseAt_canon (s : State) (t : Nat) (cause : Nat) (faddr : DWord) (rpc : Addr)  (h_s : memWf s.mem = true) :
    memWf (raiseAt s t cause faddr rpc).mem = true := by
  unfold raiseAt
  simp (maxDischargeDepth := 60) +contextual [ite_canon, foldl_canon, foldlFst_canon, memWf_writeN, memWf_write, memWf_filter, memWf_del, notEnabled, overflow_canon, park_canon, withdraw_canon, h_s]

theorem raise_canon (s : State) (t : Nat) (cause : Nat) (faddr : DWord)  (h_s : memWf s.mem = true) :
    memWf (raise s t cause faddr).mem = true := by
  unfold raise
  simp (maxDischargeDepth := 60) +contextual [ite_canon, foldl_canon, foldlFst_canon, memWf_writeN, memWf_write, memWf_filter, memWf_del, notEnabled, raiseAt_canon, h_s]

theorem raiseAsync_canon (s : State) (t : Nat) (cause : Nat) (faddr : DWord)  (h_s : memWf s.mem = true) :
    memWf (raiseAsync s t cause faddr).mem = true := by
  unfold raiseAsync
  simp (maxDischargeDepth := 60) +contextual [ite_canon, foldl_canon, foldlFst_canon, memWf_writeN, memWf_write, memWf_filter, memWf_del, notEnabled, dissolve_canon, overflow_canon, traceThread_canon, h_s]

theorem diverge_canon (s : State) (t : Nat)  (h_s : memWf s.mem = true) :
    memWf (diverge s t).mem = true := by
  unfold diverge
  simp (maxDischargeDepth := 60) +contextual [ite_canon, foldl_canon, foldlFst_canon, memWf_writeN, memWf_write, memWf_filter, memWf_del, notEnabled, State.modThread_canon, raiseAsync_canon, traceThread_canon, h_s]

theorem divergeAll_canon (s : State)  (h_s : memWf s.mem = true) :
    memWf (divergeAll s).mem = true := by
  unfold divergeAll
  simp (maxDischargeDepth := 60) +contextual [ite_canon, foldl_canon, foldlFst_canon, memWf_writeN, memWf_write, memWf_filter, memWf_del, notEnabled, diverge_canon, h_s]

theorem testGather_canon (s : State) (tr : Nat) (m : Nat)  (h_s : memWf s.mem = true) :
    memWf (testGather s tr m).mem = true := by
  unfold testGather
  try dsimp only
  split <;> simp (maxDischargeDepth := 60) +contextual [ite_canon, foldl_canon, foldlFst_canon, memWf_writeN, memWf_write, memWf_filter, memWf_del, notEnabled, State.modCore_canon, State.modThread_canon, h_s]

theorem testGathers_canon (s : State) (tr : Nat)  (h_s : memWf s.mem = true) :
    memWf (testGathers s tr).mem = true := by
  unfold testGathers
  simp (maxDischargeDepth := 60) +contextual [ite_canon, foldl_canon, foldlFst_canon, memWf_writeN, memWf_write, memWf_filter, memWf_del, notEnabled, testGather_canon, h_s]

theorem modMask_canon (s : State) (tr : Nat) (m : Nat) (f : DWord → DWord)  (h_s : memWf s.mem = true) :
    memWf (modMask s tr m f).mem = true := by
  unfold modMask
  simp (maxDischargeDepth := 60) +contextual [ite_canon, foldl_canon, foldlFst_canon, memWf_writeN, memWf_write, memWf_filter, memWf_del, notEnabled, State.modTrain_canon, h_s]

theorem issueOne_canon (i : Instr) (body : State → Nat → State) (s : State) (t : Nat)  (h_s : memWf s.mem = true) (h_body : ∀ (y0 : State) (y1 : Nat), memWf y0.mem = true → memWf (body y0 y1).mem = true) :
    memWf (issueOne i body s t).mem = true := by
  unfold issueOne
  try dsimp only
  split <;> simp (maxDischargeDepth := 60) +contextual [ite_canon, foldl_canon, foldlFst_canon, memWf_writeN, memWf_write, memWf_filter, memWf_del, notEnabled, State.modThread_canon, advance_canon, park_canon, raise_canon, h_s, h_body]

theorem issueEach_canon (i : Instr) (body : State → Nat → State) (s : State)  (h_s : memWf s.mem = true) (h_body : ∀ (y0 : State) (y1 : Nat), memWf y0.mem = true → memWf (body y0 y1).mem = true) :
    ∀ s', issueEach i body s = .next s' → memWf s'.mem = true := by
  intro s' e
  unfold issueEach at e
  try dsimp only at e
  repeat' split at e
  all_goals first | (simp [notEnabled] at e; done) | (injection e with e; subst e; simp (maxDischargeDepth := 60) +contextual [ite_canon, foldl_canon, foldlFst_canon, memWf_writeN, memWf_write, memWf_filter, memWf_del, notEnabled, issueOne_canon, h_s, h_body])

theorem fixedBody_canon (i : Instr) (f : Thread → Thread) (s : State) (t : Nat)  (h_s : memWf s.mem = true) :
    memWf (fixedBody i f s t).mem = true := by
  unfold fixedBody
  simp (maxDischargeDepth := 60) +contextual [ite_canon, foldl_canon, foldlFst_canon, memWf_writeN, memWf_write, memWf_filter, memWf_del, notEnabled, State.modThread_canon, h_s]

theorem variableBody_canon (i : Instr) (f : Thread → Result) (s : State) (t : Nat)  (h_s : memWf s.mem = true) :
    memWf (variableBody i f s t).mem = true := by
  unfold variableBody
  simp (maxDischargeDepth := 60) +contextual [ite_canon, foldl_canon, foldlFst_canon, memWf_writeN, memWf_write, memWf_filter, memWf_del, notEnabled, State.modThread_canon, h_s]

theorem notEnabled_canon (n : String)   :
    ∀ s', notEnabled n = .next s' → memWf s'.mem = true := by
  intro s' e
  unfold notEnabled at e
  simp (maxDischargeDepth := 60) +contextual [ite_canon, foldl_canon, foldlFst_canon, memWf_writeN, memWf_write, memWf_filter, memWf_del, notEnabled] at e

theorem markedBody_canon (body : State → Nat → State) (s : State) (t : Nat)  (h_s : memWf s.mem = true) (h_body : ∀ (y0 : State) (y1 : Nat), memWf y0.mem = true → memWf (body y0 y1).mem = true) :
    memWf (markedBody body s t).mem = true := by
  unfold markedBody
  simp (maxDischargeDepth := 60) +contextual [ite_canon, foldl_canon, foldlFst_canon, memWf_writeN, memWf_write, memWf_filter, memWf_del, notEnabled, State.modThread_canon, park_canon, h_s, h_body]

theorem issueTrains_canon (i : Instr) (run : State → Nat → List Nat → State) (s : State) (h_s : memWf s.mem = true)
    (h_run : ∀ (y0 : State) (y1 : Nat) (y2 : List Nat), memWf y0.mem = true → memWf (run y0 y1 y2).mem = true) :
    ∀ s', issueTrains i run s = .next s' → memWf s'.mem = true := by
  intro s' e
  unfold issueTrains at e
  dsimp only at e
  injection e with e
  subst e
  refine foldl_canon _ (fun st t hs => ?_) h_s
  split
  · exact park_canon _ _ _ hs
  · exact raise_canon _ _ _ _ (State.modThread_canon _ _ _ hs)
  · exact advance_canon _ _ _ (State.modThread_canon _ _ _ hs)
  · split
    · exact h_run _ _ _ (foldl_canon _ (fun st u hs => State.modThread_canon _ _ _ hs) hs)
    · split
      · exact hs
      · exact advance_canon _ _ _ (State.modThread_canon _ _ _ hs)

theorem advanceAll_canon (i : Instr) (s : State) (l : List Nat)  (h_s : memWf s.mem = true) :
    memWf (advanceAll i s l).mem = true := by
  unfold advanceAll
  simp (maxDischargeDepth := 60) +contextual [ite_canon, foldl_canon, foldlFst_canon, memWf_writeN, memWf_write, memWf_filter, memWf_del, notEnabled, advance_canon, h_s]

theorem parkAll_canon (s : State) (l : List Nat) (w : Wait)  (h_s : memWf s.mem = true) :
    memWf (parkAll s l w).mem = true := by
  unfold parkAll
  simp (maxDischargeDepth := 60) +contextual [ite_canon, foldl_canon, foldlFst_canon, memWf_writeN, memWf_write, memWf_filter, memWf_del, notEnabled, park_canon, h_s]

theorem moveOldest_canon (s : State) (c : Nat)  (h_s : memWf s.mem = true) :
    memWf (moveOldest s c).mem = true := by
  unfold moveOldest
  try dsimp only
  split <;> simp (maxDischargeDepth := 60) +contextual [ite_canon, foldl_canon, foldlFst_canon, memWf_writeN, memWf_write, memWf_filter, memWf_del, notEnabled, State.modThread_canon, h_s]

theorem stallCore_canon (s : State) (c : Nat) (ctx : Nat) (lid : Nat) (page : Nat) (write : Bool) (met : List (Nat × Nat) := [])  (h_s : memWf s.mem = true) :
    memWf (stallCore s c ctx lid page write met).mem = true := by
  unfold stallCore
  simp (maxDischargeDepth := 60) +contextual [ite_canon, foldl_canon, foldlFst_canon, memWf_writeN, memWf_write, memWf_filter, memWf_del, notEnabled, State.modCore_canon, h_s]

theorem metMissing_canon (s : State) (c : Nat) (ctx : Nat) (lid : Nat) (page : Nat) (write : Bool) (who : Nat × Nat)  (h_s : memWf s.mem = true) :
    memWf (metMissing s c ctx lid page write who).1.mem = true := by
  unfold metMissing
  try dsimp only
  split <;> simp (maxDischargeDepth := 60) +contextual [ite_canon, foldl_canon, foldlFst_canon, memWf_writeN, memWf_write, memWf_filter, memWf_del, notEnabled, State.modCore_canon, stallCore_canon, h_s]

theorem writeClocks_canon (s : State) (c : Nat) (scope : Nat) (tmax : Nat)  (h_s : memWf s.mem = true) :
    memWf (writeClocks s c scope tmax).mem = true := by
  unfold writeClocks
  simp (maxDischargeDepth := 60) +contextual [ite_canon, foldl_canon, foldlFst_canon, memWf_writeN, memWf_write, memWf_filter, memWf_del, notEnabled, State.modDie_canon, raiseLt_canon, h_s]

theorem readClocks_canon (s : State) (c : Nat) (scope : Nat)  (h_s : memWf s.mem = true) :
    memWf (readClocks s c scope).mem = true := by
  unfold readClocks
  simp (maxDischargeDepth := 60) +contextual [ite_canon, foldl_canon, foldlFst_canon, memWf_writeN, memWf_write, memWf_filter, memWf_del, notEnabled, raiseLt_canon, h_s]

theorem boundaryPublish_canon (s : State) (t : Nat) (scope : Nat)  (h_s : memWf s.mem = true) :
    memWf (boundaryPublish s t scope).1.mem = true := by
  unfold boundaryPublish
  try dsimp only
  repeat' split
  all_goals simp (maxDischargeDepth := 60) +contextual [ite_canon, foldl_canon, foldlFst_canon, memWf_writeN, memWf_write, memWf_filter, memWf_del, notEnabled, State.modThread_canon, park_canon, writeClocks_canon, h_s]

theorem boundaryStep_canon (s : State) (t : Nat) (scope : Nat)  (h_s : memWf s.mem = true) :
    memWf (boundaryStep s t scope).1.mem = true := by
  unfold boundaryStep
  try dsimp only
  split <;> simp (maxDischargeDepth := 60) +contextual [ite_canon, foldl_canon, foldlFst_canon, memWf_writeN, memWf_write, memWf_filter, memWf_del, notEnabled, boundaryPublish_canon, readClocks_canon, h_s]

theorem cancelUnits_canon (s : State) (t : Nat)  (h_s : memWf s.mem = true) :
    memWf (cancelUnits s t).mem = true := by
  unfold cancelUnits
  simp (maxDischargeDepth := 60) +contextual [ite_canon, foldl_canon, foldlFst_canon, memWf_writeN, memWf_write, memWf_filter, memWf_del, notEnabled, State.modCore_canon, dropCmds_canon, returnRooms_canon, h_s]

theorem areaMissing_canon (s : State) (t : Nat) (page : Nat) (write : Bool)  (h_s : memWf s.mem = true) :
    memWf (areaMissing s t page write).1.mem = true := by
  unfold areaMissing
  simp (maxDischargeDepth := 60) +contextual [ite_canon, foldl_canon, foldlFst_canon, memWf_writeN, memWf_write, memWf_filter, memWf_del, notEnabled, metMissing_canon, h_s]

theorem checkArea_canon (s : State) (t : Nat)  (h_s : memWf s.mem = true) :
    memWf (checkArea s t).1.mem = true := by
  unfold checkArea
  try dsimp only
  repeat' split
  all_goals simp (maxDischargeDepth := 60) +contextual [ite_canon, foldl_canon, foldlFst_canon, memWf_writeN, memWf_write, memWf_filter, memWf_del, notEnabled, areaMissing_canon, translateSettled_canon, h_s]

theorem writeArea_canon (s : State) (t : Nat) (bs : List Byte)  (h_s : memWf s.mem = true) :
    memWf (writeArea s t bs).mem = true := by
  unfold writeArea
  try dsimp only
  repeat' split
  all_goals simp (maxDischargeDepth := 60) +contextual [ite_canon, foldl_canon, foldlFst_canon, memWf_writeN, memWf_write, memWf_filter, memWf_del, notEnabled, physWrite_canon, translateSettled_canon, h_s]

theorem forceRelease_canon (s : State) (t : Nat)  (h_s : memWf s.mem = true) :
    memWf (forceRelease s t).mem = true := by
  unfold forceRelease
  simp (maxDischargeDepth := 60) +contextual [ite_canon, foldl_canon, foldlFst_canon, memWf_writeN, memWf_write, memWf_filter, memWf_del, notEnabled, State.modThread_canon, h_s]

theorem takeTrap_canon (s : State) (t : Nat) (r : Record) (prepare : Thread → Thread)  (h_s : memWf s.mem = true) :
    memWf (takeTrap s t r prepare).1.mem = true := by
  unfold takeTrap
  try dsimp only
  split <;> simp (maxDischargeDepth := 60) +contextual [ite_canon, foldl_canon, foldlFst_canon, memWf_writeN, memWf_write, memWf_filter, memWf_del, notEnabled, State.modThread_canon, checkArea_canon, forceRelease_canon, overflow_canon, traceThread_canon, withdraw_canon, writeArea_canon, h_s]

theorem readArea_canon (s : State) (t : Nat) (off : Nat) (n8 : Nat)  (h_s : memWf s.mem = true) :
    memWf (readArea s t off n8).1.mem = true := by
  unfold readArea
  try dsimp only
  split <;> simp (maxDischargeDepth := 60) +contextual [ite_canon, foldl_canon, foldlFst_canon, memWf_writeN, memWf_write, memWf_filter, memWf_del, notEnabled, areaMissing_canon, virtRead_canon, h_s]

theorem returnTrap_canon (s : State) (t : Nat)  (h_s : memWf s.mem = true) :
    memWf (returnTrap s t).mem = true := by
  unfold returnTrap
  try dsimp only
  split <;> simp (maxDischargeDepth := 60) +contextual [ite_canon, foldl_canon, foldlFst_canon, memWf_writeN, memWf_write, memWf_filter, memWf_del, notEnabled, State.modThread_canon, overflow_canon, readArea_canon, h_s]

theorem deliverOther_canon (s : State) (t : Nat) (c : Nat)  (h_s : memWf s.mem = true) :
    memWf (deliverOther s t c).mem = true := by
  unfold deliverOther
  try dsimp only
  split <;> simp (maxDischargeDepth := 60) +contextual [ite_canon, foldl_canon, foldlFst_canon, memWf_writeN, memWf_write, memWf_filter, memWf_del, notEnabled, takeTrap_canon, h_s]

theorem deliverHeld_canon (s : State) (t : Nat)  (h_s : memWf s.mem = true) :
    memWf (deliverHeld s t).mem = true := by
  unfold deliverHeld
  try dsimp only
  repeat' split
  all_goals simp (maxDischargeDepth := 60) +contextual [ite_canon, foldl_canon, foldlFst_canon, memWf_writeN, memWf_write, memWf_filter, memWf_del, notEnabled, deliverOther_canon, takeTrap_canon, h_s]

end Sys2Proof.Machine
end

