-- ==== Sys2Proof/Laws/CanonAlu.lean ====
section
/-! SUPPORT. Memory stays canonical through every operation of `Alu`. -/

set_option linter.all false

namespace Sys2Proof.Machine
open Sys2Proof

theorem execMovFormH_canon (b : BitVec 5) (d : BitVec 5) (sm : BitVec 1) (s : State)  (h_s : memWf s.mem = true) :
    ∀ s', execMovFormH b d sm s = .next s' → memWf s'.mem = true := by
  unfold execMovFormH
  refine issueEach_canon _ _ _ (by simp [State.fresh_canon, h_s]) (fun s t hs => ?_)
  first | assumption | (simp (maxDischargeDepth := 60) +contextual [*, ite_canon, foldl_canon, foldlFst_canon, memWf_writeN, memWf_write, memWf_filter, memWf_del, notEnabled, fixedBody_canon, issueEach_canon, h_s]; done) | (repeat' first | assumption | (with_reducible refine foldl_canon _ (fun s x hs => ?_) ?_) | (with_reducible apply ite_canon) | (with_reducible apply memWf_writeN) | (with_reducible apply memWf_write) | (with_reducible apply memWf_filter) | (with_reducible apply memWf_del) | (with_reducible apply fixedBody_canon) | (with_reducible apply issueEach_canon) | (with_reducible apply h_s) | split | (intros; dsimp only))

theorem execAddFormH_canon (b : BitVec 5) (d : BitVec 5) (sm : BitVec 1) (s : State)  (h_s : memWf s.mem = true) :
    ∀ s', execAddFormH b d sm s = .next s' → memWf s'.mem = true := by
  unfold execAddFormH
  refine issueEach_canon _ _ _ (by simp [State.fresh_canon, h_s]) (fun s t hs => ?_)
  first | assumption | (simp (maxDischargeDepth := 60) +contextual [*, ite_canon, foldl_canon, foldlFst_canon, memWf_writeN, memWf_write, memWf_filter, memWf_del, notEnabled, fixedBody_canon, issueEach_canon, h_s]; done) | (repeat' first | assumption | (with_reducible refine foldl_canon _ (fun s x hs => ?_) ?_) | (with_reducible apply ite_canon) | (with_reducible apply memWf_writeN) | (with_reducible apply memWf_write) | (with_reducible apply memWf_filter) | (with_reducible apply memWf_del) | (with_reducible apply fixedBody_canon) | (with_reducible apply issueEach_canon) | (with_reducible apply h_s) | split | (intros; dsimp only))

theorem execSubFormH_canon (b : BitVec 5) (d : BitVec 5) (sm : BitVec 1) (s : State)  (h_s : memWf s.mem = true) :
    ∀ s', execSubFormH b d sm s = .next s' → memWf s'.mem = true := by
  unfold execSubFormH
  refine issueEach_canon _ _ _ (by simp [State.fresh_canon, h_s]) (fun s t hs => ?_)
  first | assumption | (simp (maxDischargeDepth := 60) +contextual [*, ite_canon, foldl_canon, foldlFst_canon, memWf_writeN, memWf_write, memWf_filter, memWf_del, notEnabled, fixedBody_canon, issueEach_canon, h_s]; done) | (repeat' first | assumption | (with_reducible refine foldl_canon _ (fun s x hs => ?_) ?_) | (with_reducible apply ite_canon) | (with_reducible apply memWf_writeN) | (with_reducible apply memWf_write) | (with_reducible apply memWf_filter) | (with_reducible apply memWf_del) | (with_reducible apply fixedBody_canon) | (with_reducible apply issueEach_canon) | (with_reducible apply h_s) | split | (intros; dsimp only))

theorem execAndFormH_canon (b : BitVec 5) (d : BitVec 5) (sm : BitVec 1) (s : State)  (h_s : memWf s.mem = true) :
    ∀ s', execAndFormH b d sm s = .next s' → memWf s'.mem = true := by
  unfold execAndFormH
  refine issueEach_canon _ _ _ (by simp [State.fresh_canon, h_s]) (fun s t hs => ?_)
  first | assumption | (simp (maxDischargeDepth := 60) +contextual [*, ite_canon, foldl_canon, foldlFst_canon, memWf_writeN, memWf_write, memWf_filter, memWf_del, notEnabled, fixedBody_canon, issueEach_canon, h_s]; done) | (repeat' first | assumption | (with_reducible refine foldl_canon _ (fun s x hs => ?_) ?_) | (with_reducible apply ite_canon) | (with_reducible apply memWf_writeN) | (with_reducible apply memWf_write) | (with_reducible apply memWf_filter) | (with_reducible apply memWf_del) | (with_reducible apply fixedBody_canon) | (with_reducible apply issueEach_canon) | (with_reducible apply h_s) | split | (intros; dsimp only))

theorem execOrFormH_canon (b : BitVec 5) (d : BitVec 5) (sm : BitVec 1) (s : State)  (h_s : memWf s.mem = true) :
    ∀ s', execOrFormH b d sm s = .next s' → memWf s'.mem = true := by
  unfold execOrFormH
  refine issueEach_canon _ _ _ (by simp [State.fresh_canon, h_s]) (fun s t hs => ?_)
  first | assumption | (simp (maxDischargeDepth := 60) +contextual [*, ite_canon, foldl_canon, foldlFst_canon, memWf_writeN, memWf_write, memWf_filter, memWf_del, notEnabled, fixedBody_canon, issueEach_canon, h_s]; done) | (repeat' first | assumption | (with_reducible refine foldl_canon _ (fun s x hs => ?_) ?_) | (with_reducible apply ite_canon) | (with_reducible apply memWf_writeN) | (with_reducible apply memWf_write) | (with_reducible apply memWf_filter) | (with_reducible apply memWf_del) | (with_reducible apply fixedBody_canon) | (with_reducible apply issueEach_canon) | (with_reducible apply h_s) | split | (intros; dsimp only))

theorem execXorFormH_canon (b : BitVec 5) (d : BitVec 5) (sm : BitVec 1) (s : State)  (h_s : memWf s.mem = true) :
    ∀ s', execXorFormH b d sm s = .next s' → memWf s'.mem = true := by
  unfold execXorFormH
  refine issueEach_canon _ _ _ (by simp [State.fresh_canon, h_s]) (fun s t hs => ?_)
  first | assumption | (simp (maxDischargeDepth := 60) +contextual [*, ite_canon, foldl_canon, foldlFst_canon, memWf_writeN, memWf_write, memWf_filter, memWf_del, notEnabled, fixedBody_canon, issueEach_canon, h_s]; done) | (repeat' first | assumption | (with_reducible refine foldl_canon _ (fun s x hs => ?_) ?_) | (with_reducible apply ite_canon) | (with_reducible apply memWf_writeN) | (with_reducible apply memWf_write) | (with_reducible apply memWf_filter) | (with_reducible apply memWf_del) | (with_reducible apply fixedBody_canon) | (with_reducible apply issueEach_canon) | (with_reducible apply h_s) | split | (intros; dsimp only))

theorem execShlFormH_canon (b : BitVec 5) (d : BitVec 5) (sm : BitVec 1) (s : State)  (h_s : memWf s.mem = true) :
    ∀ s', execShlFormH b d sm s = .next s' → memWf s'.mem = true := by
  unfold execShlFormH
  refine issueEach_canon _ _ _ (by simp [State.fresh_canon, h_s]) (fun s t hs => ?_)
  first | assumption | (simp (maxDischargeDepth := 60) +contextual [*, ite_canon, foldl_canon, foldlFst_canon, memWf_writeN, memWf_write, memWf_filter, memWf_del, notEnabled, fixedBody_canon, issueEach_canon, h_s]; done) | (repeat' first | assumption | (with_reducible refine foldl_canon _ (fun s x hs => ?_) ?_) | (with_reducible apply ite_canon) | (with_reducible apply memWf_writeN) | (with_reducible apply memWf_write) | (with_reducible apply memWf_filter) | (with_reducible apply memWf_del) | (with_reducible apply fixedBody_canon) | (with_reducible apply issueEach_canon) | (with_reducible apply h_s) | split | (intros; dsimp only))

theorem execShrFormH_canon (b : BitVec 5) (d : BitVec 5) (sm : BitVec 1) (s : State)  (h_s : memWf s.mem = true) :
    ∀ s', execShrFormH b d sm s = .next s' → memWf s'.mem = true := by
  unfold execShrFormH
  refine issueEach_canon _ _ _ (by simp [State.fresh_canon, h_s]) (fun s t hs => ?_)
  first | assumption | (simp (maxDischargeDepth := 60) +contextual [*, ite_canon, foldl_canon, foldlFst_canon, memWf_writeN, memWf_write, memWf_filter, memWf_del, notEnabled, fixedBody_canon, issueEach_canon, h_s]; done) | (repeat' first | assumption | (with_reducible refine foldl_canon _ (fun s x hs => ?_) ?_) | (with_reducible apply ite_canon) | (with_reducible apply memWf_writeN) | (with_reducible apply memWf_write) | (with_reducible apply memWf_filter) | (with_reducible apply memWf_del) | (with_reducible apply fixedBody_canon) | (with_reducible apply issueEach_canon) | (with_reducible apply h_s) | split | (intros; dsimp only))

theorem execMulFormH_canon (b : BitVec 5) (d : BitVec 5) (sm : BitVec 1) (s : State)  (h_s : memWf s.mem = true) :
    ∀ s', execMulFormH b d sm s = .next s' → memWf s'.mem = true := by
  unfold execMulFormH
  refine issueEach_canon _ _ _ (by simp [State.fresh_canon, h_s]) (fun s t hs => ?_)
  first | assumption | (simp (maxDischargeDepth := 60) +contextual [*, ite_canon, foldl_canon, foldlFst_canon, memWf_writeN, memWf_write, memWf_filter, memWf_del, notEnabled, fixedBody_canon, issueEach_canon, h_s]; done) | (repeat' first | assumption | (with_reducible refine foldl_canon _ (fun s x hs => ?_) ?_) | (with_reducible apply ite_canon) | (with_reducible apply memWf_writeN) | (with_reducible apply memWf_write) | (with_reducible apply memWf_filter) | (with_reducible apply memWf_del) | (with_reducible apply fixedBody_canon) | (with_reducible apply issueEach_canon) | (with_reducible apply h_s) | split | (intros; dsimp only))

theorem execAddiFormH_canon (i : BitVec 5) (d : BitVec 5) (sm : BitVec 1) (s : State)  (h_s : memWf s.mem = true) :
    ∀ s', execAddiFormH i d sm s = .next s' → memWf s'.mem = true := by
  unfold execAddiFormH
  refine issueEach_canon _ _ _ (by simp [State.fresh_canon, h_s]) (fun s t hs => ?_)
  first | assumption | (simp (maxDischargeDepth := 60) +contextual [*, ite_canon, foldl_canon, foldlFst_canon, memWf_writeN, memWf_write, memWf_filter, memWf_del, notEnabled, fixedBody_canon, issueEach_canon, h_s]; done) | (repeat' first | assumption | (with_reducible refine foldl_canon _ (fun s x hs => ?_) ?_) | (with_reducible apply ite_canon) | (with_reducible apply memWf_writeN) | (with_reducible apply memWf_write) | (with_reducible apply memWf_filter) | (with_reducible apply memWf_del) | (with_reducible apply fixedBody_canon) | (with_reducible apply issueEach_canon) | (with_reducible apply h_s) | split | (intros; dsimp only))

theorem execMoviFormH_canon (i : BitVec 5) (d : BitVec 5) (sm : BitVec 1) (s : State)  (h_s : memWf s.mem = true) :
    ∀ s', execMoviFormH i d sm s = .next s' → memWf s'.mem = true := by
  unfold execMoviFormH
  refine issueEach_canon _ _ _ (by simp [State.fresh_canon, h_s]) (fun s t hs => ?_)
  first | assumption | (simp (maxDischargeDepth := 60) +contextual [*, ite_canon, foldl_canon, foldlFst_canon, memWf_writeN, memWf_write, memWf_filter, memWf_del, notEnabled, fixedBody_canon, issueEach_canon, h_s]; done) | (repeat' first | assumption | (with_reducible refine foldl_canon _ (fun s x hs => ?_) ?_) | (with_reducible apply ite_canon) | (with_reducible apply memWf_writeN) | (with_reducible apply memWf_write) | (with_reducible apply memWf_filter) | (with_reducible apply memWf_del) | (with_reducible apply fixedBody_canon) | (with_reducible apply issueEach_canon) | (with_reducible apply h_s) | split | (intros; dsimp only))

theorem execAdd_canon (g : BitVec 4) (b : BitVec 6) (a : BitVec 6) (d : BitVec 6) (sm : BitVec 1) (s : State)  (h_s : memWf s.mem = true) :
    ∀ s', execAdd g b a d sm s = .next s' → memWf s'.mem = true := by
  unfold execAdd
  refine issueEach_canon _ _ _ (by simp [State.fresh_canon, h_s]) (fun s t hs => ?_)
  first | assumption | (simp (maxDischargeDepth := 60) +contextual [*, ite_canon, foldl_canon, foldlFst_canon, memWf_writeN, memWf_write, memWf_filter, memWf_del, notEnabled, fixedBody_canon, issueEach_canon, h_s]; done) | (repeat' first | assumption | (with_reducible refine foldl_canon _ (fun s x hs => ?_) ?_) | (with_reducible apply ite_canon) | (with_reducible apply memWf_writeN) | (with_reducible apply memWf_write) | (with_reducible apply memWf_filter) | (with_reducible apply memWf_del) | (with_reducible apply fixedBody_canon) | (with_reducible apply issueEach_canon) | (with_reducible apply h_s) | split | (intros; dsimp only))

theorem execSub_canon (g : BitVec 4) (b : BitVec 6) (a : BitVec 6) (d : BitVec 6) (sm : BitVec 1) (s : State)  (h_s : memWf s.mem = true) :
    ∀ s', execSub g b a d sm s = .next s' → memWf s'.mem = true := by
  unfold execSub
  refine issueEach_canon _ _ _ (by simp [State.fresh_canon, h_s]) (fun s t hs => ?_)
  first | assumption | (simp (maxDischargeDepth := 60) +contextual [*, ite_canon, foldl_canon, foldlFst_canon, memWf_writeN, memWf_write, memWf_filter, memWf_del, notEnabled, fixedBody_canon, issueEach_canon, h_s]; done) | (repeat' first | assumption | (with_reducible refine foldl_canon _ (fun s x hs => ?_) ?_) | (with_reducible apply ite_canon) | (with_reducible apply memWf_writeN) | (with_reducible apply memWf_write) | (with_reducible apply memWf_filter) | (with_reducible apply memWf_del) | (with_reducible apply fixedBody_canon) | (with_reducible apply issueEach_canon) | (with_reducible apply h_s) | split | (intros; dsimp only))

theorem execMul_canon (g : BitVec 4) (b : BitVec 6) (a : BitVec 6) (d : BitVec 6) (sm : BitVec 1) (s : State)  (h_s : memWf s.mem = true) :
    ∀ s', execMul g b a d sm s = .next s' → memWf s'.mem = true := by
  unfold execMul
  refine issueEach_canon _ _ _ (by simp [State.fresh_canon, h_s]) (fun s t hs => ?_)
  first | assumption | (simp (maxDischargeDepth := 60) +contextual [*, ite_canon, foldl_canon, foldlFst_canon, memWf_writeN, memWf_write, memWf_filter, memWf_del, notEnabled, fixedBody_canon, issueEach_canon, h_s]; done) | (repeat' first | assumption | (with_reducible refine foldl_canon _ (fun s x hs => ?_) ?_) | (with_reducible apply ite_canon) | (with_reducible apply memWf_writeN) | (with_reducible apply memWf_write) | (with_reducible apply memWf_filter) | (with_reducible apply memWf_del) | (with_reducible apply fixedBody_canon) | (with_reducible apply issueEach_canon) | (with_reducible apply h_s) | split | (intros; dsimp only))

theorem execMulhi_canon (g : BitVec 4) (b : BitVec 6) (a : BitVec 6) (d : BitVec 6) (sm : BitVec 1) (s : State)  (h_s : memWf s.mem = true) :
    ∀ s', execMulhi g b a d sm s = .next s' → memWf s'.mem = true := by
  unfold execMulhi
  refine issueEach_canon _ _ _ (by simp [State.fresh_canon, h_s]) (fun s t hs => ?_)
  first | assumption | (simp (maxDischargeDepth := 60) +contextual [*, ite_canon, foldl_canon, foldlFst_canon, memWf_writeN, memWf_write, memWf_filter, memWf_del, notEnabled, fixedBody_canon, issueEach_canon, h_s]; done) | (repeat' first | assumption | (with_reducible refine foldl_canon _ (fun s x hs => ?_) ?_) | (with_reducible apply ite_canon) | (with_reducible apply memWf_writeN) | (with_reducible apply memWf_write) | (with_reducible apply memWf_filter) | (with_reducible apply memWf_del) | (with_reducible apply fixedBody_canon) | (with_reducible apply issueEach_canon) | (with_reducible apply h_s) | split | (intros; dsimp only))

theorem execMulhu_canon (g : BitVec 4) (b : BitVec 6) (a : BitVec 6) (d : BitVec 6) (sm : BitVec 1) (s : State)  (h_s : memWf s.mem = true) :
    ∀ s', execMulhu g b a d sm s = .next s' → memWf s'.mem = true := by
  unfold execMulhu
  refine issueEach_canon _ _ _ (by simp [State.fresh_canon, h_s]) (fun s t hs => ?_)
  first | assumption | (simp (maxDischargeDepth := 60) +contextual [*, ite_canon, foldl_canon, foldlFst_canon, memWf_writeN, memWf_write, memWf_filter, memWf_del, notEnabled, fixedBody_canon, issueEach_canon, h_s]; done) | (repeat' first | assumption | (with_reducible refine foldl_canon _ (fun s x hs => ?_) ?_) | (with_reducible apply ite_canon) | (with_reducible apply memWf_writeN) | (with_reducible apply memWf_write) | (with_reducible apply memWf_filter) | (with_reducible apply memWf_del) | (with_reducible apply fixedBody_canon) | (with_reducible apply issueEach_canon) | (with_reducible apply h_s) | split | (intros; dsimp only))

theorem execAnd_canon (g : BitVec 4) (b : BitVec 6) (a : BitVec 6) (d : BitVec 6) (sm : BitVec 1) (s : State)  (h_s : memWf s.mem = true) :
    ∀ s', execAnd g b a d sm s = .next s' → memWf s'.mem = true := by
  unfold execAnd
  refine issueEach_canon _ _ _ (by simp [State.fresh_canon, h_s]) (fun s t hs => ?_)
  first | assumption | (simp (maxDischargeDepth := 60) +contextual [*, ite_canon, foldl_canon, foldlFst_canon, memWf_writeN, memWf_write, memWf_filter, memWf_del, notEnabled, fixedBody_canon, issueEach_canon, h_s]; done) | (repeat' first | assumption | (with_reducible refine foldl_canon _ (fun s x hs => ?_) ?_) | (with_reducible apply ite_canon) | (with_reducible apply memWf_writeN) | (with_reducible apply memWf_write) | (with_reducible apply memWf_filter) | (with_reducible apply memWf_del) | (with_reducible apply fixedBody_canon) | (with_reducible apply issueEach_canon) | (with_reducible apply h_s) | split | (intros; dsimp only))

theorem execOr_canon (g : BitVec 4) (b : BitVec 6) (a : BitVec 6) (d : BitVec 6) (sm : BitVec 1) (s : State)  (h_s : memWf s.mem = true) :
    ∀ s', execOr g b a d sm s = .next s' → memWf s'.mem = true := by
  unfold execOr
  refine issueEach_canon _ _ _ (by simp [State.fresh_canon, h_s]) (fun s t hs => ?_)
  first | assumption | (simp (maxDischargeDepth := 60) +contextual [*, ite_canon, foldl_canon, foldlFst_canon, memWf_writeN, memWf_write, memWf_filter, memWf_del, notEnabled, fixedBody_canon, issueEach_canon, h_s]; done) | (repeat' first | assumption | (with_reducible refine foldl_canon _ (fun s x hs => ?_) ?_) | (with_reducible apply ite_canon) | (with_reducible apply memWf_writeN) | (with_reducible apply memWf_write) | (with_reducible apply memWf_filter) | (with_reducible apply memWf_del) | (with_reducible apply fixedBody_canon) | (with_reducible apply issueEach_canon) | (with_reducible apply h_s) | split | (intros; dsimp only))

theorem execXor_canon (g : BitVec 4) (b : BitVec 6) (a : BitVec 6) (d : BitVec 6) (sm : BitVec 1) (s : State)  (h_s : memWf s.mem = true) :
    ∀ s', execXor g b a d sm s = .next s' → memWf s'.mem = true := by
  unfold execXor
  refine issueEach_canon _ _ _ (by simp [State.fresh_canon, h_s]) (fun s t hs => ?_)
  first | assumption | (simp (maxDischargeDepth := 60) +contextual [*, ite_canon, foldl_canon, foldlFst_canon, memWf_writeN, memWf_write, memWf_filter, memWf_del, notEnabled, fixedBody_canon, issueEach_canon, h_s]; done) | (repeat' first | assumption | (with_reducible refine foldl_canon _ (fun s x hs => ?_) ?_) | (with_reducible apply ite_canon) | (with_reducible apply memWf_writeN) | (with_reducible apply memWf_write) | (with_reducible apply memWf_filter) | (with_reducible apply memWf_del) | (with_reducible apply fixedBody_canon) | (with_reducible apply issueEach_canon) | (with_reducible apply h_s) | split | (intros; dsimp only))

theorem execShl_canon (g : BitVec 4) (b : BitVec 6) (a : BitVec 6) (d : BitVec 6) (sm : BitVec 1) (s : State)  (h_s : memWf s.mem = true) :
    ∀ s', execShl g b a d sm s = .next s' → memWf s'.mem = true := by
  unfold execShl
  refine issueEach_canon _ _ _ (by simp [State.fresh_canon, h_s]) (fun s t hs => ?_)
  first | assumption | (simp (maxDischargeDepth := 60) +contextual [*, ite_canon, foldl_canon, foldlFst_canon, memWf_writeN, memWf_write, memWf_filter, memWf_del, notEnabled, fixedBody_canon, issueEach_canon, h_s]; done) | (repeat' first | assumption | (with_reducible refine foldl_canon _ (fun s x hs => ?_) ?_) | (with_reducible apply ite_canon) | (with_reducible apply memWf_writeN) | (with_reducible apply memWf_write) | (with_reducible apply memWf_filter) | (with_reducible apply memWf_del) | (with_reducible apply fixedBody_canon) | (with_reducible apply issueEach_canon) | (with_reducible apply h_s) | split | (intros; dsimp only))

theorem execShr_canon (g : BitVec 4) (b : BitVec 6) (a : BitVec 6) (d : BitVec 6) (sm : BitVec 1) (s : State)  (h_s : memWf s.mem = true) :
    ∀ s', execShr g b a d sm s = .next s' → memWf s'.mem = true := by
  unfold execShr
  refine issueEach_canon _ _ _ (by simp [State.fresh_canon, h_s]) (fun s t hs => ?_)
  first | assumption | (simp (maxDischargeDepth := 60) +contextual [*, ite_canon, foldl_canon, foldlFst_canon, memWf_writeN, memWf_write, memWf_filter, memWf_del, notEnabled, fixedBody_canon, issueEach_canon, h_s]; done) | (repeat' first | assumption | (with_reducible refine foldl_canon _ (fun s x hs => ?_) ?_) | (with_reducible apply ite_canon) | (with_reducible apply memWf_writeN) | (with_reducible apply memWf_write) | (with_reducible apply memWf_filter) | (with_reducible apply memWf_del) | (with_reducible apply fixedBody_canon) | (with_reducible apply issueEach_canon) | (with_reducible apply h_s) | split | (intros; dsimp only))

theorem execSar_canon (g : BitVec 4) (b : BitVec 6) (a : BitVec 6) (d : BitVec 6) (sm : BitVec 1) (s : State)  (h_s : memWf s.mem = true) :
    ∀ s', execSar g b a d sm s = .next s' → memWf s'.mem = true := by
  unfold execSar
  refine issueEach_canon _ _ _ (by simp [State.fresh_canon, h_s]) (fun s t hs => ?_)
  first | assumption | (simp (maxDischargeDepth := 60) +contextual [*, ite_canon, foldl_canon, foldlFst_canon, memWf_writeN, memWf_write, memWf_filter, memWf_del, notEnabled, fixedBody_canon, issueEach_canon, h_s]; done) | (repeat' first | assumption | (with_reducible refine foldl_canon _ (fun s x hs => ?_) ?_) | (with_reducible apply ite_canon) | (with_reducible apply memWf_writeN) | (with_reducible apply memWf_write) | (with_reducible apply memWf_filter) | (with_reducible apply memWf_del) | (with_reducible apply fixedBody_canon) | (with_reducible apply issueEach_canon) | (with_reducible apply h_s) | split | (intros; dsimp only))

theorem execMin_canon (g : BitVec 4) (b : BitVec 6) (a : BitVec 6) (d : BitVec 6) (sm : BitVec 1) (s : State)  (h_s : memWf s.mem = true) :
    ∀ s', execMin g b a d sm s = .next s' → memWf s'.mem = true := by
  unfold execMin
  refine issueEach_canon _ _ _ (by simp [State.fresh_canon, h_s]) (fun s t hs => ?_)
  first | assumption | (simp (maxDischargeDepth := 60) +contextual [*, ite_canon, foldl_canon, foldlFst_canon, memWf_writeN, memWf_write, memWf_filter, memWf_del, notEnabled, fixedBody_canon, issueEach_canon, h_s]; done) | (repeat' first | assumption | (with_reducible refine foldl_canon _ (fun s x hs => ?_) ?_) | (with_reducible apply ite_canon) | (with_reducible apply memWf_writeN) | (with_reducible apply memWf_write) | (with_reducible apply memWf_filter) | (with_reducible apply memWf_del) | (with_reducible apply fixedBody_canon) | (with_reducible apply issueEach_canon) | (with_reducible apply h_s) | split | (intros; dsimp only))

theorem execMax_canon (g : BitVec 4) (b : BitVec 6) (a : BitVec 6) (d : BitVec 6) (sm : BitVec 1) (s : State)  (h_s : memWf s.mem = true) :
    ∀ s', execMax g b a d sm s = .next s' → memWf s'.mem = true := by
  unfold execMax
  refine issueEach_canon _ _ _ (by simp [State.fresh_canon, h_s]) (fun s t hs => ?_)
  first | assumption | (simp (maxDischargeDepth := 60) +contextual [*, ite_canon, foldl_canon, foldlFst_canon, memWf_writeN, memWf_write, memWf_filter, memWf_del, notEnabled, fixedBody_canon, issueEach_canon, h_s]; done) | (repeat' first | assumption | (with_reducible refine foldl_canon _ (fun s x hs => ?_) ?_) | (with_reducible apply ite_canon) | (with_reducible apply memWf_writeN) | (with_reducible apply memWf_write) | (with_reducible apply memWf_filter) | (with_reducible apply memWf_del) | (with_reducible apply fixedBody_canon) | (with_reducible apply issueEach_canon) | (with_reducible apply h_s) | split | (intros; dsimp only))

theorem execMinu_canon (g : BitVec 4) (b : BitVec 6) (a : BitVec 6) (d : BitVec 6) (sm : BitVec 1) (s : State)  (h_s : memWf s.mem = true) :
    ∀ s', execMinu g b a d sm s = .next s' → memWf s'.mem = true := by
  unfold execMinu
  refine issueEach_canon _ _ _ (by simp [State.fresh_canon, h_s]) (fun s t hs => ?_)
  first | assumption | (simp (maxDischargeDepth := 60) +contextual [*, ite_canon, foldl_canon, foldlFst_canon, memWf_writeN, memWf_write, memWf_filter, memWf_del, notEnabled, fixedBody_canon, issueEach_canon, h_s]; done) | (repeat' first | assumption | (with_reducible refine foldl_canon _ (fun s x hs => ?_) ?_) | (with_reducible apply ite_canon) | (with_reducible apply memWf_writeN) | (with_reducible apply memWf_write) | (with_reducible apply memWf_filter) | (with_reducible apply memWf_del) | (with_reducible apply fixedBody_canon) | (with_reducible apply issueEach_canon) | (with_reducible apply h_s) | split | (intros; dsimp only))

theorem execMaxu_canon (g : BitVec 4) (b : BitVec 6) (a : BitVec 6) (d : BitVec 6) (sm : BitVec 1) (s : State)  (h_s : memWf s.mem = true) :
    ∀ s', execMaxu g b a d sm s = .next s' → memWf s'.mem = true := by
  unfold execMaxu
  refine issueEach_canon _ _ _ (by simp [State.fresh_canon, h_s]) (fun s t hs => ?_)
  first | assumption | (simp (maxDischargeDepth := 60) +contextual [*, ite_canon, foldl_canon, foldlFst_canon, memWf_writeN, memWf_write, memWf_filter, memWf_del, notEnabled, fixedBody_canon, issueEach_canon, h_s]; done) | (repeat' first | assumption | (with_reducible refine foldl_canon _ (fun s x hs => ?_) ?_) | (with_reducible apply ite_canon) | (with_reducible apply memWf_writeN) | (with_reducible apply memWf_write) | (with_reducible apply memWf_filter) | (with_reducible apply memWf_del) | (with_reducible apply fixedBody_canon) | (with_reducible apply issueEach_canon) | (with_reducible apply h_s) | split | (intros; dsimp only))

theorem execMov_canon (g : BitVec 4) (b : BitVec 6) (a : BitVec 6) (d : BitVec 6) (sm : BitVec 1) (s : State)  (h_s : memWf s.mem = true) :
    ∀ s', execMov g b a d sm s = .next s' → memWf s'.mem = true := by
  unfold execMov
  refine issueEach_canon _ _ _ (by simp [State.fresh_canon, h_s]) (fun s t hs => ?_)
  first | assumption | (simp (maxDischargeDepth := 60) +contextual [*, ite_canon, foldl_canon, foldlFst_canon, memWf_writeN, memWf_write, memWf_filter, memWf_del, notEnabled, fixedBody_canon, issueEach_canon, h_s]; done) | (repeat' first | assumption | (with_reducible refine foldl_canon _ (fun s x hs => ?_) ?_) | (with_reducible apply ite_canon) | (with_reducible apply memWf_writeN) | (with_reducible apply memWf_write) | (with_reducible apply memWf_filter) | (with_reducible apply memWf_del) | (with_reducible apply fixedBody_canon) | (with_reducible apply issueEach_canon) | (with_reducible apply h_s) | split | (intros; dsimp only))

theorem execAdd64_canon (g : BitVec 4) (b : BitVec 6) (a : BitVec 6) (d : BitVec 6) (sm : BitVec 1) (s : State)  (h_s : memWf s.mem = true) :
    ∀ s', execAdd64 g b a d sm s = .next s' → memWf s'.mem = true := by
  unfold execAdd64
  refine issueEach_canon _ _ _ (by simp [State.fresh_canon, h_s]) (fun s t hs => ?_)
  first | assumption | (simp (maxDischargeDepth := 60) +contextual [*, ite_canon, foldl_canon, foldlFst_canon, memWf_writeN, memWf_write, memWf_filter, memWf_del, notEnabled, fixedBody_canon, issueEach_canon, h_s]; done) | (repeat' first | assumption | (with_reducible refine foldl_canon _ (fun s x hs => ?_) ?_) | (with_reducible apply ite_canon) | (with_reducible apply memWf_writeN) | (with_reducible apply memWf_write) | (with_reducible apply memWf_filter) | (with_reducible apply memWf_del) | (with_reducible apply fixedBody_canon) | (with_reducible apply issueEach_canon) | (with_reducible apply h_s) | split | (intros; dsimp only))

theorem execSub64_canon (g : BitVec 4) (b : BitVec 6) (a : BitVec 6) (d : BitVec 6) (sm : BitVec 1) (s : State)  (h_s : memWf s.mem = true) :
    ∀ s', execSub64 g b a d sm s = .next s' → memWf s'.mem = true := by
  unfold execSub64
  refine issueEach_canon _ _ _ (by simp [State.fresh_canon, h_s]) (fun s t hs => ?_)
  first | assumption | (simp (maxDischargeDepth := 60) +contextual [*, ite_canon, foldl_canon, foldlFst_canon, memWf_writeN, memWf_write, memWf_filter, memWf_del, notEnabled, fixedBody_canon, issueEach_canon, h_s]; done) | (repeat' first | assumption | (with_reducible refine foldl_canon _ (fun s x hs => ?_) ?_) | (with_reducible apply ite_canon) | (with_reducible apply memWf_writeN) | (with_reducible apply memWf_write) | (with_reducible apply memWf_filter) | (with_reducible apply memWf_del) | (with_reducible apply fixedBody_canon) | (with_reducible apply issueEach_canon) | (with_reducible apply h_s) | split | (intros; dsimp only))

theorem execAddw_canon (g : BitVec 4) (b : BitVec 6) (a : BitVec 6) (d : BitVec 6) (sm : BitVec 1) (s : State)  (h_s : memWf s.mem = true) :
    ∀ s', execAddw g b a d sm s = .next s' → memWf s'.mem = true := by
  unfold execAddw
  refine issueEach_canon _ _ _ (by simp [State.fresh_canon, h_s]) (fun s t hs => ?_)
  first | assumption | (simp (maxDischargeDepth := 60) +contextual [*, ite_canon, foldl_canon, foldlFst_canon, memWf_writeN, memWf_write, memWf_filter, memWf_del, notEnabled, fixedBody_canon, issueEach_canon, h_s]; done) | (repeat' first | assumption | (with_reducible refine foldl_canon _ (fun s x hs => ?_) ?_) | (with_reducible apply ite_canon) | (with_reducible apply memWf_writeN) | (with_reducible apply memWf_write) | (with_reducible apply memWf_filter) | (with_reducible apply memWf_del) | (with_reducible apply fixedBody_canon) | (with_reducible apply issueEach_canon) | (with_reducible apply h_s) | split | (intros; dsimp only))

theorem execAdduw_canon (g : BitVec 4) (b : BitVec 6) (a : BitVec 6) (d : BitVec 6) (sm : BitVec 1) (s : State)  (h_s : memWf s.mem = true) :
    ∀ s', execAdduw g b a d sm s = .next s' → memWf s'.mem = true := by
  unfold execAdduw
  refine issueEach_canon _ _ _ (by simp [State.fresh_canon, h_s]) (fun s t hs => ?_)
  first | assumption | (simp (maxDischargeDepth := 60) +contextual [*, ite_canon, foldl_canon, foldlFst_canon, memWf_writeN, memWf_write, memWf_filter, memWf_del, notEnabled, fixedBody_canon, issueEach_canon, h_s]; done) | (repeat' first | assumption | (with_reducible refine foldl_canon _ (fun s x hs => ?_) ?_) | (with_reducible apply ite_canon) | (with_reducible apply memWf_writeN) | (with_reducible apply memWf_write) | (with_reducible apply memWf_filter) | (with_reducible apply memWf_del) | (with_reducible apply fixedBody_canon) | (with_reducible apply issueEach_canon) | (with_reducible apply h_s) | split | (intros; dsimp only))

theorem execShl64_canon (g : BitVec 4) (b : BitVec 6) (a : BitVec 6) (d : BitVec 6) (sm : BitVec 1) (s : State)  (h_s : memWf s.mem = true) :
    ∀ s', execShl64 g b a d sm s = .next s' → memWf s'.mem = true := by
  unfold execShl64
  refine issueEach_canon _ _ _ (by simp [State.fresh_canon, h_s]) (fun s t hs => ?_)
  first | assumption | (simp (maxDischargeDepth := 60) +contextual [*, ite_canon, foldl_canon, foldlFst_canon, memWf_writeN, memWf_write, memWf_filter, memWf_del, notEnabled, fixedBody_canon, issueEach_canon, h_s]; done) | (repeat' first | assumption | (with_reducible refine foldl_canon _ (fun s x hs => ?_) ?_) | (with_reducible apply ite_canon) | (with_reducible apply memWf_writeN) | (with_reducible apply memWf_write) | (with_reducible apply memWf_filter) | (with_reducible apply memWf_del) | (with_reducible apply fixedBody_canon) | (with_reducible apply issueEach_canon) | (with_reducible apply h_s) | split | (intros; dsimp only))

theorem execShr64_canon (g : BitVec 4) (b : BitVec 6) (a : BitVec 6) (d : BitVec 6) (sm : BitVec 1) (s : State)  (h_s : memWf s.mem = true) :
    ∀ s', execShr64 g b a d sm s = .next s' → memWf s'.mem = true := by
  unfold execShr64
  refine issueEach_canon _ _ _ (by simp [State.fresh_canon, h_s]) (fun s t hs => ?_)
  first | assumption | (simp (maxDischargeDepth := 60) +contextual [*, ite_canon, foldl_canon, foldlFst_canon, memWf_writeN, memWf_write, memWf_filter, memWf_del, notEnabled, fixedBody_canon, issueEach_canon, h_s]; done) | (repeat' first | assumption | (with_reducible refine foldl_canon _ (fun s x hs => ?_) ?_) | (with_reducible apply ite_canon) | (with_reducible apply memWf_writeN) | (with_reducible apply memWf_write) | (with_reducible apply memWf_filter) | (with_reducible apply memWf_del) | (with_reducible apply fixedBody_canon) | (with_reducible apply issueEach_canon) | (with_reducible apply h_s) | split | (intros; dsimp only))

theorem execSar64_canon (g : BitVec 4) (b : BitVec 6) (a : BitVec 6) (d : BitVec 6) (sm : BitVec 1) (s : State)  (h_s : memWf s.mem = true) :
    ∀ s', execSar64 g b a d sm s = .next s' → memWf s'.mem = true := by
  unfold execSar64
  refine issueEach_canon _ _ _ (by simp [State.fresh_canon, h_s]) (fun s t hs => ?_)
  first | assumption | (simp (maxDischargeDepth := 60) +contextual [*, ite_canon, foldl_canon, foldlFst_canon, memWf_writeN, memWf_write, memWf_filter, memWf_del, notEnabled, fixedBody_canon, issueEach_canon, h_s]; done) | (repeat' first | assumption | (with_reducible refine foldl_canon _ (fun s x hs => ?_) ?_) | (with_reducible apply ite_canon) | (with_reducible apply memWf_writeN) | (with_reducible apply memWf_write) | (with_reducible apply memWf_filter) | (with_reducible apply memWf_del) | (with_reducible apply fixedBody_canon) | (with_reducible apply issueEach_canon) | (with_reducible apply h_s) | split | (intros; dsimp only))

theorem execMulw_canon (g : BitVec 4) (b : BitVec 6) (a : BitVec 6) (d : BitVec 6) (sm : BitVec 1) (s : State)  (h_s : memWf s.mem = true) :
    ∀ s', execMulw g b a d sm s = .next s' → memWf s'.mem = true := by
  unfold execMulw
  refine issueEach_canon _ _ _ (by simp [State.fresh_canon, h_s]) (fun s t hs => ?_)
  first | assumption | (simp (maxDischargeDepth := 60) +contextual [*, ite_canon, foldl_canon, foldlFst_canon, memWf_writeN, memWf_write, memWf_filter, memWf_del, notEnabled, fixedBody_canon, issueEach_canon, h_s]; done) | (repeat' first | assumption | (with_reducible refine foldl_canon _ (fun s x hs => ?_) ?_) | (with_reducible apply ite_canon) | (with_reducible apply memWf_writeN) | (with_reducible apply memWf_write) | (with_reducible apply memWf_filter) | (with_reducible apply memWf_del) | (with_reducible apply fixedBody_canon) | (with_reducible apply issueEach_canon) | (with_reducible apply h_s) | split | (intros; dsimp only))

theorem execAddi_canon (i : BitVec 13) (a : BitVec 6) (d : BitVec 6) (sm : BitVec 1) (s : State)  (h_s : memWf s.mem = true) :
    ∀ s', execAddi i a d sm s = .next s' → memWf s'.mem = true := by
  unfold execAddi
  refine issueEach_canon _ _ _ (by simp [State.fresh_canon, h_s]) (fun s t hs => ?_)
  first | assumption | (simp (maxDischargeDepth := 60) +contextual [*, ite_canon, foldl_canon, foldlFst_canon, memWf_writeN, memWf_write, memWf_filter, memWf_del, notEnabled, fixedBody_canon, issueEach_canon, h_s]; done) | (repeat' first | assumption | (with_reducible refine foldl_canon _ (fun s x hs => ?_) ?_) | (with_reducible apply ite_canon) | (with_reducible apply memWf_writeN) | (with_reducible apply memWf_write) | (with_reducible apply memWf_filter) | (with_reducible apply memWf_del) | (with_reducible apply fixedBody_canon) | (with_reducible apply issueEach_canon) | (with_reducible apply h_s) | split | (intros; dsimp only))

theorem execAndi_canon (i : BitVec 13) (a : BitVec 6) (d : BitVec 6) (sm : BitVec 1) (s : State)  (h_s : memWf s.mem = true) :
    ∀ s', execAndi i a d sm s = .next s' → memWf s'.mem = true := by
  unfold execAndi
  refine issueEach_canon _ _ _ (by simp [State.fresh_canon, h_s]) (fun s t hs => ?_)
  first | assumption | (simp (maxDischargeDepth := 60) +contextual [*, ite_canon, foldl_canon, foldlFst_canon, memWf_writeN, memWf_write, memWf_filter, memWf_del, notEnabled, fixedBody_canon, issueEach_canon, h_s]; done) | (repeat' first | assumption | (with_reducible refine foldl_canon _ (fun s x hs => ?_) ?_) | (with_reducible apply ite_canon) | (with_reducible apply memWf_writeN) | (with_reducible apply memWf_write) | (with_reducible apply memWf_filter) | (with_reducible apply memWf_del) | (with_reducible apply fixedBody_canon) | (with_reducible apply issueEach_canon) | (with_reducible apply h_s) | split | (intros; dsimp only))

theorem execClz_canon (a : BitVec 6) (d : BitVec 6) (sm : BitVec 1) (s : State)  (h_s : memWf s.mem = true) :
    ∀ s', execClz a d sm s = .next s' → memWf s'.mem = true := by
  unfold execClz
  refine issueEach_canon _ _ _ (by simp [State.fresh_canon, h_s]) (fun s t hs => ?_)
  first | assumption | (simp (maxDischargeDepth := 60) +contextual [*, ite_canon, foldl_canon, foldlFst_canon, memWf_writeN, memWf_write, memWf_filter, memWf_del, notEnabled, fixedBody_canon, issueEach_canon, h_s]; done) | (repeat' first | assumption | (with_reducible refine foldl_canon _ (fun s x hs => ?_) ?_) | (with_reducible apply ite_canon) | (with_reducible apply memWf_writeN) | (with_reducible apply memWf_write) | (with_reducible apply memWf_filter) | (with_reducible apply memWf_del) | (with_reducible apply fixedBody_canon) | (with_reducible apply issueEach_canon) | (with_reducible apply h_s) | split | (intros; dsimp only))

theorem execCtz_canon (a : BitVec 6) (d : BitVec 6) (sm : BitVec 1) (s : State)  (h_s : memWf s.mem = true) :
    ∀ s', execCtz a d sm s = .next s' → memWf s'.mem = true := by
  unfold execCtz
  refine issueEach_canon _ _ _ (by simp [State.fresh_canon, h_s]) (fun s t hs => ?_)
  first | assumption | (simp (maxDischargeDepth := 60) +contextual [*, ite_canon, foldl_canon, foldlFst_canon, memWf_writeN, memWf_write, memWf_filter, memWf_del, notEnabled, fixedBody_canon, issueEach_canon, h_s]; done) | (repeat' first | assumption | (with_reducible refine foldl_canon _ (fun s x hs => ?_) ?_) | (with_reducible apply ite_canon) | (with_reducible apply memWf_writeN) | (with_reducible apply memWf_write) | (with_reducible apply memWf_filter) | (with_reducible apply memWf_del) | (with_reducible apply fixedBody_canon) | (with_reducible apply issueEach_canon) | (with_reducible apply h_s) | split | (intros; dsimp only))

theorem execPopc_canon (a : BitVec 6) (d : BitVec 6) (sm : BitVec 1) (s : State)  (h_s : memWf s.mem = true) :
    ∀ s', execPopc a d sm s = .next s' → memWf s'.mem = true := by
  unfold execPopc
  refine issueEach_canon _ _ _ (by simp [State.fresh_canon, h_s]) (fun s t hs => ?_)
  first | assumption | (simp (maxDischargeDepth := 60) +contextual [*, ite_canon, foldl_canon, foldlFst_canon, memWf_writeN, memWf_write, memWf_filter, memWf_del, notEnabled, fixedBody_canon, issueEach_canon, h_s]; done) | (repeat' first | assumption | (with_reducible refine foldl_canon _ (fun s x hs => ?_) ?_) | (with_reducible apply ite_canon) | (with_reducible apply memWf_writeN) | (with_reducible apply memWf_write) | (with_reducible apply memWf_filter) | (with_reducible apply memWf_del) | (with_reducible apply fixedBody_canon) | (with_reducible apply issueEach_canon) | (with_reducible apply h_s) | split | (intros; dsimp only))

theorem execBrev_canon (a : BitVec 6) (d : BitVec 6) (sm : BitVec 1) (s : State)  (h_s : memWf s.mem = true) :
    ∀ s', execBrev a d sm s = .next s' → memWf s'.mem = true := by
  unfold execBrev
  refine issueEach_canon _ _ _ (by simp [State.fresh_canon, h_s]) (fun s t hs => ?_)
  first | assumption | (simp (maxDischargeDepth := 60) +contextual [*, ite_canon, foldl_canon, foldlFst_canon, memWf_writeN, memWf_write, memWf_filter, memWf_del, notEnabled, fixedBody_canon, issueEach_canon, h_s]; done) | (repeat' first | assumption | (with_reducible refine foldl_canon _ (fun s x hs => ?_) ?_) | (with_reducible apply ite_canon) | (with_reducible apply memWf_writeN) | (with_reducible apply memWf_write) | (with_reducible apply memWf_filter) | (with_reducible apply memWf_del) | (with_reducible apply fixedBody_canon) | (with_reducible apply issueEach_canon) | (with_reducible apply h_s) | split | (intros; dsimp only))

theorem execSext8_canon (a : BitVec 6) (d : BitVec 6) (sm : BitVec 1) (s : State)  (h_s : memWf s.mem = true) :
    ∀ s', execSext8 a d sm s = .next s' → memWf s'.mem = true := by
  unfold execSext8
  refine issueEach_canon _ _ _ (by simp [State.fresh_canon, h_s]) (fun s t hs => ?_)
  first | assumption | (simp (maxDischargeDepth := 60) +contextual [*, ite_canon, foldl_canon, foldlFst_canon, memWf_writeN, memWf_write, memWf_filter, memWf_del, notEnabled, fixedBody_canon, issueEach_canon, h_s]; done) | (repeat' first | assumption | (with_reducible refine foldl_canon _ (fun s x hs => ?_) ?_) | (with_reducible apply ite_canon) | (with_reducible apply memWf_writeN) | (with_reducible apply memWf_write) | (with_reducible apply memWf_filter) | (with_reducible apply memWf_del) | (with_reducible apply fixedBody_canon) | (with_reducible apply issueEach_canon) | (with_reducible apply h_s) | split | (intros; dsimp only))

theorem execSext16_canon (a : BitVec 6) (d : BitVec 6) (sm : BitVec 1) (s : State)  (h_s : memWf s.mem = true) :
    ∀ s', execSext16 a d sm s = .next s' → memWf s'.mem = true := by
  unfold execSext16
  refine issueEach_canon _ _ _ (by simp [State.fresh_canon, h_s]) (fun s t hs => ?_)
  first | assumption | (simp (maxDischargeDepth := 60) +contextual [*, ite_canon, foldl_canon, foldlFst_canon, memWf_writeN, memWf_write, memWf_filter, memWf_del, notEnabled, fixedBody_canon, issueEach_canon, h_s]; done) | (repeat' first | assumption | (with_reducible refine foldl_canon _ (fun s x hs => ?_) ?_) | (with_reducible apply ite_canon) | (with_reducible apply memWf_writeN) | (with_reducible apply memWf_write) | (with_reducible apply memWf_filter) | (with_reducible apply memWf_del) | (with_reducible apply fixedBody_canon) | (with_reducible apply issueEach_canon) | (with_reducible apply h_s) | split | (intros; dsimp only))

theorem execRol_canon (b : BitVec 6) (a : BitVec 6) (d : BitVec 6) (sm : BitVec 1) (s : State)  (h_s : memWf s.mem = true) :
    ∀ s', execRol b a d sm s = .next s' → memWf s'.mem = true := by
  unfold execRol
  refine issueEach_canon _ _ _ (by simp [State.fresh_canon, h_s]) (fun s t hs => ?_)
  first | assumption | (simp (maxDischargeDepth := 60) +contextual [*, ite_canon, foldl_canon, foldlFst_canon, memWf_writeN, memWf_write, memWf_filter, memWf_del, notEnabled, fixedBody_canon, issueEach_canon, h_s]; done) | (repeat' first | assumption | (with_reducible refine foldl_canon _ (fun s x hs => ?_) ?_) | (with_reducible apply ite_canon) | (with_reducible apply memWf_writeN) | (with_reducible apply memWf_write) | (with_reducible apply memWf_filter) | (with_reducible apply memWf_del) | (with_reducible apply fixedBody_canon) | (with_reducible apply issueEach_canon) | (with_reducible apply h_s) | split | (intros; dsimp only))

theorem execBfx_canon (b : BitVec 6) (a : BitVec 6) (d : BitVec 6) (sm : BitVec 1) (s : State)  (h_s : memWf s.mem = true) :
    ∀ s', execBfx b a d sm s = .next s' → memWf s'.mem = true := by
  unfold execBfx
  refine issueEach_canon _ _ _ (by simp [State.fresh_canon, h_s]) (fun s t hs => ?_)
  first | assumption | (simp (maxDischargeDepth := 60) +contextual [*, ite_canon, foldl_canon, foldlFst_canon, memWf_writeN, memWf_write, memWf_filter, memWf_del, notEnabled, fixedBody_canon, issueEach_canon, h_s]; done) | (repeat' first | assumption | (with_reducible refine foldl_canon _ (fun s x hs => ?_) ?_) | (with_reducible apply ite_canon) | (with_reducible apply memWf_writeN) | (with_reducible apply memWf_write) | (with_reducible apply memWf_filter) | (with_reducible apply memWf_del) | (with_reducible apply fixedBody_canon) | (with_reducible apply issueEach_canon) | (with_reducible apply h_s) | split | (intros; dsimp only))

theorem execAddsat_canon (b : BitVec 6) (a : BitVec 6) (d : BitVec 6) (sm : BitVec 1) (s : State)  (h_s : memWf s.mem = true) :
    ∀ s', execAddsat b a d sm s = .next s' → memWf s'.mem = true := by
  unfold execAddsat
  refine issueEach_canon _ _ _ (by simp [State.fresh_canon, h_s]) (fun s t hs => ?_)
  first | assumption | (simp (maxDischargeDepth := 60) +contextual [*, ite_canon, foldl_canon, foldlFst_canon, memWf_writeN, memWf_write, memWf_filter, memWf_del, notEnabled, fixedBody_canon, issueEach_canon, h_s]; done) | (repeat' first | assumption | (with_reducible refine foldl_canon _ (fun s x hs => ?_) ?_) | (with_reducible apply ite_canon) | (with_reducible apply memWf_writeN) | (with_reducible apply memWf_write) | (with_reducible apply memWf_filter) | (with_reducible apply memWf_del) | (with_reducible apply fixedBody_canon) | (with_reducible apply issueEach_canon) | (with_reducible apply h_s) | split | (intros; dsimp only))

theorem execSubsat_canon (b : BitVec 6) (a : BitVec 6) (d : BitVec 6) (sm : BitVec 1) (s : State)  (h_s : memWf s.mem = true) :
    ∀ s', execSubsat b a d sm s = .next s' → memWf s'.mem = true := by
  unfold execSubsat
  refine issueEach_canon _ _ _ (by simp [State.fresh_canon, h_s]) (fun s t hs => ?_)
  first | assumption | (simp (maxDischargeDepth := 60) +contextual [*, ite_canon, foldl_canon, foldlFst_canon, memWf_writeN, memWf_write, memWf_filter, memWf_del, notEnabled, fixedBody_canon, issueEach_canon, h_s]; done) | (repeat' first | assumption | (with_reducible refine foldl_canon _ (fun s x hs => ?_) ?_) | (with_reducible apply ite_canon) | (with_reducible apply memWf_writeN) | (with_reducible apply memWf_write) | (with_reducible apply memWf_filter) | (with_reducible apply memWf_del) | (with_reducible apply fixedBody_canon) | (with_reducible apply issueEach_canon) | (with_reducible apply h_s) | split | (intros; dsimp only))

theorem execAddsatu_canon (b : BitVec 6) (a : BitVec 6) (d : BitVec 6) (sm : BitVec 1) (s : State)  (h_s : memWf s.mem = true) :
    ∀ s', execAddsatu b a d sm s = .next s' → memWf s'.mem = true := by
  unfold execAddsatu
  refine issueEach_canon _ _ _ (by simp [State.fresh_canon, h_s]) (fun s t hs => ?_)
  first | assumption | (simp (maxDischargeDepth := 60) +contextual [*, ite_canon, foldl_canon, foldlFst_canon, memWf_writeN, memWf_write, memWf_filter, memWf_del, notEnabled, fixedBody_canon, issueEach_canon, h_s]; done) | (repeat' first | assumption | (with_reducible refine foldl_canon _ (fun s x hs => ?_) ?_) | (with_reducible apply ite_canon) | (with_reducible apply memWf_writeN) | (with_reducible apply memWf_write) | (with_reducible apply memWf_filter) | (with_reducible apply memWf_del) | (with_reducible apply fixedBody_canon) | (with_reducible apply issueEach_canon) | (with_reducible apply h_s) | split | (intros; dsimp only))

theorem execSubsatu_canon (b : BitVec 6) (a : BitVec 6) (d : BitVec 6) (sm : BitVec 1) (s : State)  (h_s : memWf s.mem = true) :
    ∀ s', execSubsatu b a d sm s = .next s' → memWf s'.mem = true := by
  unfold execSubsatu
  refine issueEach_canon _ _ _ (by simp [State.fresh_canon, h_s]) (fun s t hs => ?_)
  first | assumption | (simp (maxDischargeDepth := 60) +contextual [*, ite_canon, foldl_canon, foldlFst_canon, memWf_writeN, memWf_write, memWf_filter, memWf_del, notEnabled, fixedBody_canon, issueEach_canon, h_s]; done) | (repeat' first | assumption | (with_reducible refine foldl_canon _ (fun s x hs => ?_) ?_) | (with_reducible apply ite_canon) | (with_reducible apply memWf_writeN) | (with_reducible apply memWf_write) | (with_reducible apply memWf_filter) | (with_reducible apply memWf_del) | (with_reducible apply fixedBody_canon) | (with_reducible apply issueEach_canon) | (with_reducible apply h_s) | split | (intros; dsimp only))

theorem execLiLo_canon (i : BitVec 16) (d : BitVec 6) (sm : BitVec 1) (s : State)  (h_s : memWf s.mem = true) :
    ∀ s', execLiLo i d sm s = .next s' → memWf s'.mem = true := by
  unfold execLiLo
  refine issueEach_canon _ _ _ (by simp [State.fresh_canon, h_s]) (fun s t hs => ?_)
  first | assumption | (simp (maxDischargeDepth := 60) +contextual [*, ite_canon, foldl_canon, foldlFst_canon, memWf_writeN, memWf_write, memWf_filter, memWf_del, notEnabled, fixedBody_canon, issueEach_canon, h_s]; done) | (repeat' first | assumption | (with_reducible refine foldl_canon _ (fun s x hs => ?_) ?_) | (with_reducible apply ite_canon) | (with_reducible apply memWf_writeN) | (with_reducible apply memWf_write) | (with_reducible apply memWf_filter) | (with_reducible apply memWf_del) | (with_reducible apply fixedBody_canon) | (with_reducible apply issueEach_canon) | (with_reducible apply h_s) | split | (intros; dsimp only))

theorem execLiHi_canon (i : BitVec 16) (d : BitVec 6) (sm : BitVec 1) (s : State)  (h_s : memWf s.mem = true) :
    ∀ s', execLiHi i d sm s = .next s' → memWf s'.mem = true := by
  unfold execLiHi
  refine issueEach_canon _ _ _ (by simp [State.fresh_canon, h_s]) (fun s t hs => ?_)
  first | assumption | (simp (maxDischargeDepth := 60) +contextual [*, ite_canon, foldl_canon, foldlFst_canon, memWf_writeN, memWf_write, memWf_filter, memWf_del, notEnabled, fixedBody_canon, issueEach_canon, h_s]; done) | (repeat' first | assumption | (with_reducible refine foldl_canon _ (fun s x hs => ?_) ?_) | (with_reducible apply ite_canon) | (with_reducible apply memWf_writeN) | (with_reducible apply memWf_write) | (with_reducible apply memWf_filter) | (with_reducible apply memWf_del) | (with_reducible apply fixedBody_canon) | (with_reducible apply issueEach_canon) | (with_reducible apply h_s) | split | (intros; dsimp only))

end Sys2Proof.Machine
end

