-- ==== Sys2Proof/Laws/CanonIssue.lean ====
section
/-! SUPPORT. Memory stays canonical through every operation of `Issue`. -/

set_option linter.all false

namespace Sys2Proof.Machine
open Sys2Proof

theorem tick_canon (s : State) (n : Nat) (issues : Nat → Bool)  (h_s : memWf s.mem = true) :
    memWf (tick s n issues).mem = true := by
  unfold tick
  simp (maxDischargeDepth := 60) +contextual [ite_canon, foldl_canon, foldlFst_canon, memWf_writeN, memWf_write, memWf_filter, memWf_del, notEnabled, traceFlushAll_canon, h_s]

theorem closeSlot_canon (s : State) (c : Nat) (q : Nat)  (h_s : memWf s.mem = true) :
    memWf (closeSlot s c q).mem = true := by
  unfold closeSlot
  simp (maxDischargeDepth := 60) +contextual [ite_canon, foldl_canon, foldlFst_canon, memWf_writeN, memWf_write, memWf_filter, memWf_del, notEnabled, State.modCore_canon, h_s]

theorem afterForm_canon (s : State) (c : Nat) (q : Nat) (b : List Nat)  (h_s : memWf s.mem = true) :
    memWf (afterForm s c q b).mem = true := by
  unfold afterForm
  simp (maxDischargeDepth := 60) +contextual [ite_canon, foldl_canon, foldlFst_canon, memWf_writeN, memWf_write, memWf_filter, memWf_del, notEnabled, State.modCore_canon, h_s]

theorem icacheFill_canon (s : State) (c line ctx page : Nat) (h_s : memWf s.mem = true) :
    memWf (icacheFill s c line ctx page).mem = true := by
  have h := settleRead_canon s line h_s
  unfold icacheFill
  split
  · split
    · exact h_s
    · rw [State.modCore_mem]; exact h_s
  · dsimp only
    rw [State.modCore_mem]
    split
    · rw [State.modCore_mem]
      exact h
    · exact h

theorem fetchHalf_canon (s : State) (c q ctx lid va : Nat) (who : List Nat) (land : Option Nat) (h_s : memWf s.mem = true) :
    memWf (fetchHalf s c q ctx lid va who land).1.mem = true := by
  have h := translateRetried_canon s c q ctx va .fetch h_s
  unfold fetchHalf
  dsimp only
  generalize translateRetried s c q ctx va .fetch = r at h ⊢
  split
  · split
    · exact h
    · exact icacheFill_canon _ _ _ _ _ h
  · split
    · exact metMissing_canon _ _ _ _ _ _ _ h
    · exact stallCore_canon _ _ _ _ _ _ _ h
  · exact h
  · exact h

theorem fetchAt_canon (s : State) (c q ctx lid va : Nat) (who : List Nat) (h_s : memWf s.mem = true) :
    memWf (fetchAt s c q ctx lid va who).1.mem = true := by
  have h := fetchHalf_canon s c q ctx lid va who none h_s
  unfold fetchAt
  dsimp only
  generalize fetchHalf s c q ctx lid va who none = r at h ⊢
  split
  · split
    · have h2 := fetchHalf_canon r.1 c q ctx lid ((va + 2) % 2 ^ 48) who none h
      generalize fetchHalf r.1 c q ctx lid ((va + 2) % 2 ^ 48) who none = r2 at h2 ⊢
      split <;> exact h2
    · exact h
  · exact h

theorem fetch32_canon (s : State) (c q ctx lid va t : Nat) (h_s : memWf s.mem = true) :
    memWf (fetch32 s c q ctx lid va t).1.mem = true := by
  have h := fetchHalf_canon s c q ctx lid va [] (some t) h_s
  unfold fetch32
  dsimp only
  generalize fetchHalf s c q ctx lid va [] (some t) = r at h ⊢
  split
  · have h2 := fetchHalf_canon r.1 c q ctx lid ((va + 2) % 2 ^ 48) [] (some t) h
    generalize fetchHalf r.1 c q ctx lid ((va + 2) % 2 ^ 48) [] (some t) = r2 at h2 ⊢
    split <;> exact h2
  · exact h

theorem takeSample_canon (s : State) (c : Nat) (q : Nat) (b : List Nat)  (h_s : memWf s.mem = true) :
    memWf (takeSample s c q b).mem = true := by
  unfold takeSample
  try dsimp only
  split <;> simp (maxDischargeDepth := 60) +contextual [ite_canon, foldl_canon, foldlFst_canon, memWf_writeN, memWf_write, memWf_filter, memWf_del, notEnabled, State.modCore_canon, h_s]

theorem settleHolds_canon (s : State)  (h_s : memWf s.mem = true) :
    memWf (settleHolds s).mem = true := by
  unfold settleHolds
  try dsimp only
  repeat' first | assumption | (with_reducible refine foldl_canon _ (fun s x hs => ?_) ?_) | (with_reducible apply ite_canon) | (with_reducible apply memWf_writeN) | (with_reducible apply memWf_write) | (with_reducible apply memWf_filter) | (with_reducible apply memWf_del) | (with_reducible apply park_canon) | (with_reducible apply h_s) | split | (dsimp only)
  all_goals (try simp (maxDischargeDepth := 60) +contextual [*, ite_canon, foldl_canon, foldlFst_canon, memWf_writeN, memWf_write, memWf_filter, memWf_del, notEnabled, park_canon, h_s])

theorem issueFrom_canon (s : State) (c q : Nat) (but : List Nat) (x0 : Nat) (h_s : memWf s.mem = true) :
    memWf (issueFrom s c q but x0).1.mem = true := by
  induction x0 generalizing s but with
  | zero => exact closeSlot_canon _ _ _ h_s
  | succ n ih =>
    rw [issueFrom]
    split
    · split
      · exact closeSlot_canon _ _ _ h_s
      · exact afterForm_canon _ _ _ _ (closeSlot_canon _ _ _ h_s)
    · next t ts _ =>
      generalize t :: ts = b
      have h := fetchAt_canon s c q (s.ctxOf t) (s.launchOf t) (s.thread t).pc.toNat b h_s
      dsimp only
      generalize fetchAt s c q (s.ctxOf t) (s.launchOf t) (s.thread t).pc.toNat b = r at h ⊢
      have hf : memWf (afterForm (closeSlot r.1 c q) c q b).mem = true := afterForm_canon _ _ _ _ (closeSlot_canon _ _ _ h)
      have hg : memWf (afterForm (takeSample (closeSlot r.1 c q) c q b) c q b).mem = true :=
        afterForm_canon _ _ _ _ (takeSample_canon _ _ _ _ (closeSlot_canon _ _ _ h))
      split
      · split
        · exact closeSlot_canon _ _ _ h
        · exact ih _ _ h
      · exact foldl_canon _ (fun s x hs => raise_canon _ _ _ _ hs) hf
      · split
        · split
          · apply ih
            refine foldl_canon _ (fun s x hs => ?_) h
            split
            · exact park_canon _ _ _ hs
            · exact hs
          · exact hg
        · exact hg

theorem issueQuarter_canon (s : State) (c q : Nat) (h_s : memWf s.mem = true) :
    memWf (issueQuarter s c q).1.mem = true := by
  unfold issueQuarter
  split
  · exact h_s
  · exact issueFrom_canon _ _ _ _ _ h_s

theorem settleGroups_canon (s : State)  (h_s : memWf s.mem = true) :
    memWf (settleGroups s).mem = true := by
  unfold settleGroups
  simp (maxDischargeDepth := 60) +contextual [ite_canon, foldl_canon, foldlFst_canon, memWf_writeN, memWf_write, memWf_filter, memWf_del, notEnabled, dissolve_canon, testGathers_canon, h_s]

theorem pruneStarved_canon (s : State)  (h_s : memWf s.mem = true) :
    memWf (pruneStarved s).mem = true := by
  unfold pruneStarved
  simp (maxDischargeDepth := 60) +contextual [ite_canon, foldl_canon, foldlFst_canon, memWf_writeN, memWf_write, memWf_filter, memWf_del, notEnabled, h_s]

theorem settleQueues_canon (s : State)  (h_s : memWf s.mem = true) :
    memWf (settleQueues s).mem = true := by
  unfold settleQueues
  simp (maxDischargeDepth := 60) +contextual [ite_canon, foldl_canon, foldlFst_canon, memWf_writeN, memWf_write, memWf_filter, memWf_del, notEnabled, goOn_canon, h_s]

end Sys2Proof.Machine
end

