-- ==== Sys2Proof/Laws/CanonAccess.lean ====
section
/-! SUPPORT. Memory stays canonical through every operation of `Access`. -/

set_option linter.all false

namespace Sys2Proof.Machine
open Sys2Proof

theorem deliver_canon (s : State) (t : Nat) (seq : Nat) (b : List Byte)  (h_s : memWf s.mem = true) :
    memWf (deliver s t seq b).mem = true := by
  unfold deliver
  simp (maxDischargeDepth := 60) +contextual [ite_canon, foldl_canon, foldlFst_canon, memWf_writeN, memWf_write, memWf_filter, memWf_del, notEnabled, State.modThread_canon, h_s]

theorem setPhase_canon (s : State) (t : Nat) (seq : Nat) (p : OpPhase)  (h_s : memWf s.mem = true) :
    memWf (setPhase s t seq p).mem = true := by
  unfold setPhase
  simp (maxDischargeDepth := 60) +contextual [ite_canon, foldl_canon, foldlFst_canon, memWf_writeN, memWf_write, memWf_filter, memWf_del, notEnabled, State.modThread_canon, h_s]

theorem makeRoom_canon (s : State) (c line : Nat) (x0 : Nat) (h_s : memWf s.mem = true) :
    ∀ s', makeRoom s c line x0 = some s' → memWf s'.mem = true := by
  induction x0 generalizing s with
  | zero => intro s' e; simp [makeRoom] at e
  | succ n ih =>
    intro s' e
    rw [makeRoom] at e
    split at e
    · injection e with e; subst e; exact h_s
    · split at e
      · exact ih _ (moveOldest_canon _ _ h_s) _ e
      · simp at e

theorem wsEnter_canon (s : State) (c : Nat) (line : Nat)  (h_s : memWf s.mem = true) :
    memWf (wsEnter s c line).mem = true := by
  unfold wsEnter
  simp (maxDischargeDepth := 60) +contextual [ite_canon, foldl_canon, foldlFst_canon, memWf_writeN, memWf_write, memWf_filter, memWf_del, notEnabled, State.fresh_canon, l1Drop_canon, h_s]

theorem landWs_canon (s : State) (c : Nat) (t : Nat)  (h_s : memWf s.mem = true) :
    memWf (landWs s c t).mem = true := by
  unfold landWs
  simp (maxDischargeDepth := 60) +contextual [ite_canon, foldl_canon, foldlFst_canon, memWf_writeN, memWf_write, memWf_filter, memWf_del, notEnabled, State.modThread_canon, wsEnter_canon, h_s]

theorem placeWeak_canon (s : State) (t seq : Nat) (o : Op) (pa cls : Nat) (h_s : memWf s.mem = true) :
    memWf (placeWeak s t seq o pa cls).mem = true := by
  unfold placeWeak
  dsimp only
  split
  · exact State.modThread_canon _ _ _ h_s
  · split
    · next e => exact State.modThread_canon _ _ _ (wsEnter_canon _ _ _ (makeRoom_canon _ _ _ _ h_s _ e))
    · exact State.modCore_canon _ _ _ (State.modThread_canon _ _ _ h_s)

theorem translated_canon (s : State) (t : Nat) (seq : Nat) (pa : Nat) (leaf : DWord)  (h_s : memWf s.mem = true) :
    memWf (translated s t seq pa leaf).mem = true := by
  unfold translated
  try dsimp only
  repeat' split
  all_goals simp (maxDischargeDepth := 60) +contextual [ite_canon, foldl_canon, foldlFst_canon, memWf_writeN, memWf_write, memWf_filter, memWf_del, notEnabled, State.modThread_canon, placeWeak_canon, h_s]

theorem joinMiss_canon (s : State) (t : Nat) (seq : Nat) (va : Nat) (write : Bool)  (h_s : memWf s.mem = true) :
    memWf (joinMiss s t seq va write).mem = true := by
  unfold joinMiss
  try dsimp only
  split <;> simp (maxDischargeDepth := 60) +contextual [ite_canon, foldl_canon, foldlFst_canon, memWf_writeN, memWf_write, memWf_filter, memWf_del, notEnabled, State.modCore_canon, setPhase_canon, walk_canon, h_s]

theorem lookedUp_canon (s : State) (t : Nat) (seq : Nat)  (h_s : memWf s.mem = true) :
    memWf (lookedUp s t seq).mem = true := by
  unfold lookedUp
  try dsimp only
  split <;> simp (maxDischargeDepth := 60) +contextual [ite_canon, foldl_canon, foldlFst_canon, memWf_writeN, memWf_write, memWf_filter, memWf_del, notEnabled, State.modThread_canon, h_s]

theorem startDevice_canon (s : State) (t : Nat) (seq : Nat)  (h_s : memWf s.mem = true) :
    memWf (startDevice s t seq).mem = true := by
  unfold startDevice
  try dsimp only
  repeat' split
  all_goals simp (maxDischargeDepth := 60) +contextual [ite_canon, foldl_canon, foldlFst_canon, memWf_writeN, memWf_write, memWf_filter, memWf_del, notEnabled, failOp_canon, joinMiss_canon, lookedUp_canon, translateCached_canon, translated_canon, h_s]

theorem plainLine_canon (s : State) (c : Nat) (line : Nat)  (h_s : memWf s.mem = true) :
    memWf (plainLine s c line).1.mem = true := by
  unfold plainLine
  try dsimp only
  repeat' split
  all_goals simp (maxDischargeDepth := 60) +contextual [ite_canon, foldl_canon, foldlFst_canon, memWf_writeN, memWf_write, memWf_filter, memWf_del, notEnabled, l1Put_canon, plainData_canon, h_s]

theorem weakLine_canon (s : State) (c : Nat) (line : Nat) (m : BitVec 128) (w : Waiter)  (h_s : memWf s.mem = true) :
    memWf (weakLine s c line m w).1.mem = true := by
  unfold weakLine
  try dsimp only
  repeat' split
  all_goals simp (maxDischargeDepth := 60) +contextual [ite_canon, foldl_canon, foldlFst_canon, memWf_writeN, memWf_write, memWf_filter, memWf_del, notEnabled, ensureHomePriv_canon, ensureHomeRead_canon, ensureRdcRead_canon, leaseFill_canon, h_s]

theorem loadLine_canon (s : State) (c : Nat) (line : Nat) (cls : Nat) (strong : Bool) (m : BitVec 128) (w : Waiter)  (h_s : memWf s.mem = true) :
    memWf (loadLine s c line cls strong m w).1.mem = true := by
  unfold loadLine
  try dsimp only
  repeat' split
  all_goals simp (maxDischargeDepth := 60) +contextual [ite_canon, foldl_canon, foldlFst_canon, memWf_writeN, memWf_write, memWf_filter, memWf_del, notEnabled, ensureHomeRead_canon, plainLine_canon, raiseLt_canon, weakLine_canon, h_s]

theorem sawHandOver_canon (s : State) (c : Nat) (pa : Nat) (b : List Byte)  (h_s : memWf s.mem = true) :
    memWf (sawHandOver s c pa b).mem = true := by
  unfold sawHandOver
  try dsimp only
  split <;> simp (maxDischargeDepth := 60) +contextual [ite_canon, foldl_canon, foldlFst_canon, memWf_writeN, memWf_write, memWf_filter, memWf_del, notEnabled, readClocks_canon, h_s]

theorem sawHandOvers_canon (s : State) (c : Nat) (pa : Nat) (b : List Byte) (x0 : Nat) (h_s : memWf s.mem = true) :
    memWf (sawHandOvers s c pa b x0).mem = true := by
  induction x0 generalizing s c pa b
  all_goals
    unfold sawHandOvers
    simp (maxDischargeDepth := 60) +contextual [*, ite_canon, foldl_canon, foldlFst_canon, memWf_writeN, memWf_write, memWf_filter, memWf_del, notEnabled, sawHandOver_canon, h_s]

theorem performLoad_canon (s : State) (t : Nat) (o : Op) (w : Waiter)  (h_s : memWf s.mem = true) :
    memWf (performLoad s t o w).1.mem = true := by
  unfold performLoad
  try dsimp only
  split <;> simp (maxDischargeDepth := 60) +contextual [ite_canon, foldl_canon, foldlFst_canon, memWf_writeN, memWf_write, memWf_filter, memWf_del, notEnabled, l1Tag_canon, loadLine_canon, sawHandOvers_canon, h_s]

theorem storePlain_canon (s : State) (c : Nat) (line : Nat) (ctx : Nat) (page : Nat) (b : SMap Byte)  (h_s : memWf s.mem = true) :
    memWf (storePlain s c line ctx page b).mem = true := by
  unfold storePlain
  simp (maxDischargeDepth := 60) +contextual [ite_canon, foldl_canon, foldlFst_canon, memWf_writeN, memWf_write, memWf_filter, memWf_del, notEnabled, l1Put_canon, l1Tag_canon, plainLine_canon, h_s]

theorem storeStrong_canon (s : State) (c : Nat) (line : Nat) (cls : Nat) (ctx : Nat) (page : Nat) (b : SMap Byte) (w : Waiter)  (h_s : memWf s.mem = true) :
    memWf (storeStrong s c line cls ctx page b w).1.mem = true := by
  unfold storeStrong
  try dsimp only
  repeat' split
  all_goals simp (maxDischargeDepth := 60) +contextual [ite_canon, foldl_canon, foldlFst_canon, memWf_writeN, memWf_write, memWf_filter, memWf_del, notEnabled, ensureHomeWrite_canon, storeHome_canon, storePlain_canon, h_s]

theorem publish_canon (s : State) (c : Nat) (line : Nat) (cls : Nat) (ctx : Nat) (page : Nat) (b : SMap Byte) (w : Waiter)  (h_s : memWf s.mem = true) :
    memWf (publish s c line cls ctx page b w).1.mem = true := by
  unfold publish
  try dsimp only
  repeat' split
  all_goals simp (maxDischargeDepth := 60) +contextual [ite_canon, foldl_canon, foldlFst_canon, memWf_writeN, memWf_write, memWf_filter, memWf_del, notEnabled, ensureHomePriv_canon, ensureRdcWrite_canon, storePlain_canon, storeRdc_canon, storeStrong_canon, h_s]

theorem dropCopies_canon (s : State) (key : Nat)  (h_s : memWf s.mem = true) :
    memWf (dropCopies s key).mem = true := by
  unfold dropCopies
  try dsimp only
  repeat' first | assumption | (with_reducible refine foldl_canon _ (fun s x hs => ?_) ?_) | (with_reducible apply ite_canon) | (with_reducible apply memWf_writeN) | (with_reducible apply memWf_write) | (with_reducible apply memWf_filter) | (with_reducible apply memWf_del) | (with_reducible apply rdcEvict_canon) | (with_reducible apply h_s) | split | (dsimp only)
  all_goals (try simp (maxDischargeDepth := 60) +contextual [*, ite_canon, foldl_canon, foldlFst_canon, memWf_writeN, memWf_write, memWf_filter, memWf_del, notEnabled, rdcEvict_canon, h_s])

theorem storeCopy_canon (s : State) (d : Nat) (key : Nat) (x : RdcLine) (off : Nat) (b : List Byte)  (h_s : memWf s.mem = true) :
    memWf (storeCopy s d key x off b).mem = true := by
  unfold storeCopy
  simp (maxDischargeDepth := 60) +contextual [ite_canon, foldl_canon, foldlFst_canon, memWf_writeN, memWf_write, memWf_filter, memWf_del, notEnabled, rdcPut_canon, h_s]

theorem hostTake_canon (s : State) (d : Nat) (key : Nat) (write : Bool)  (h_s : memWf s.mem = true) :
    memWf (hostTake s d key write).mem = true := by
  unfold hostTake
  try dsimp only
  repeat' split
  all_goals simp (maxDischargeDepth := 60) +contextual [ite_canon, foldl_canon, foldlFst_canon, memWf_writeN, memWf_write, memWf_filter, memWf_del, notEnabled, dropElsewhere_canon, rdcInstall_canon, rdcPut_canon, h_s]

theorem sentAll_canon (s : State) (l : Lanes)  (h_s : memWf s.mem = true) :
    memWf (sentAll s l).mem = true := by
  unfold sentAll
  simp (maxDischargeDepth := 60) +contextual [ite_canon, foldl_canon, foldlFst_canon, memWf_writeN, memWf_write, memWf_filter, memWf_del, notEnabled, setPhase_canon, h_s]

theorem sendRemote_canon (s : State) (l : Lanes)  (h_s : memWf s.mem = true) :
    memWf (sendRemote s l).mem = true := by
  unfold sendRemote
  try dsimp only
  repeat' first | assumption | (with_reducible refine foldl_canon _ (fun s x hs => ?_) ?_) | (with_reducible apply ite_canon) | (with_reducible apply memWf_writeN) | (with_reducible apply memWf_write) | (with_reducible apply memWf_filter) | (with_reducible apply memWf_del) | (with_reducible apply deliver_canon) | (with_reducible apply rdcTouch_canon) | (with_reducible apply resolveOp_canon) | (with_reducible apply sendOut_canon) | (with_reducible apply sentAll_canon) | (with_reducible apply storeCopy_canon) | (with_reducible apply h_s) | split | (dsimp only)
  all_goals (try simp (maxDischargeDepth := 60) +contextual [*, ite_canon, foldl_canon, foldlFst_canon, memWf_writeN, memWf_write, memWf_filter, memWf_del, notEnabled, deliver_canon, rdcTouch_canon, resolveOp_canon, sendOut_canon, sentAll_canon, storeCopy_canon, h_s])

theorem sendHost_canon (s : State) (l : Lanes)  (h_s : memWf s.mem = true) :
    memWf (sendHost s l).mem = true := by
  unfold sendHost
  try dsimp only
  repeat' first | assumption | (with_reducible refine foldl_canon _ (fun s x hs => ?_) ?_) | (with_reducible apply ite_canon) | (with_reducible apply memWf_writeN) | (with_reducible apply memWf_write) | (with_reducible apply memWf_filter) | (with_reducible apply memWf_del) | (with_reducible apply deliver_canon) | (with_reducible apply dropElsewhere_canon) | (with_reducible apply hostTake_canon) | (with_reducible apply rdcTouch_canon) | (with_reducible apply resolveOp_canon) | (with_reducible apply sendOut_canon) | (with_reducible apply sentAll_canon) | (with_reducible apply storeCopy_canon) | (with_reducible apply h_s) | split | (dsimp only)
  all_goals (try simp (maxDischargeDepth := 60) +contextual [*, ite_canon, foldl_canon, foldlFst_canon, memWf_writeN, memWf_write, memWf_filter, memWf_del, notEnabled, deliver_canon, dropElsewhere_canon, hostTake_canon, rdcTouch_canon, resolveOp_canon, sendOut_canon, sentAll_canon, storeCopy_canon, h_s])

theorem sendAperture_canon (s : State) (l : Lanes)  (h_s : memWf s.mem = true) :
    memWf (sendAperture s l).mem = true := by
  unfold sendAperture
  try dsimp only
  split <;> simp (maxDischargeDepth := 60) +contextual [ite_canon, foldl_canon, foldlFst_canon, memWf_writeN, memWf_write, memWf_filter, memWf_del, notEnabled, sendOut_canon, sentAll_canon, h_s]

theorem sendXq_canon (s : State) (l : Lanes)  (h_s : memWf s.mem = true) :
    memWf (sendXq s l).mem = true := by
  unfold sendXq
  try dsimp only
  repeat' split
  all_goals simp (maxDischargeDepth := 60) +contextual [ite_canon, foldl_canon, foldlFst_canon, memWf_writeN, memWf_write, memWf_filter, memWf_del, notEnabled, sendOut_canon, sentAll_canon, h_s]

theorem sendLanes_canon (s : State) (l : Lanes)  (h_s : memWf s.mem = true) :
    memWf (sendLanes s l).mem = true := by
  unfold sendLanes
  try dsimp only
  split <;> simp (maxDischargeDepth := 60) +contextual [ite_canon, foldl_canon, foldlFst_canon, memWf_writeN, memWf_write, memWf_filter, memWf_del, notEnabled, sendAperture_canon, sendHost_canon, sendRemote_canon, sendXq_canon, h_s]

theorem pumpGo_canon (s : State) (x0 : Nat) (h_s : memWf s.mem = true) :
    memWf (pumpGo s x0).mem = true := by
  induction x0 generalizing s
  all_goals
    unfold pumpGo
    try dsimp only
    repeat' split
    all_goals simp (maxDischargeDepth := 60) +contextual [*, ite_canon, foldl_canon, foldlFst_canon, memWf_writeN, memWf_write, memWf_filter, memWf_del, notEnabled, dropCopies_canon, sendLanes_canon, h_s]

theorem pump_canon (s : State)  (h_s : memWf s.mem = true) :
    memWf (pump s).mem = true := by
  unfold pump
  simp (maxDischargeDepth := 60) +contextual [ite_canon, foldl_canon, foldlFst_canon, memWf_writeN, memWf_write, memWf_filter, memWf_del, notEnabled, pumpGo_canon, h_s]

theorem beginStep_canon (s : State)  (h_s : memWf s.mem = true) :
    memWf (beginStep s).mem = true := by
  unfold beginStep
  simp (maxDischargeDepth := 60) +contextual [ite_canon, foldl_canon, foldlFst_canon, memWf_writeN, memWf_write, memWf_filter, memWf_del, notEnabled, divergeAll_canon, pruneStarved_canon, pump_canon, settleEvents_canon, settleGroups_canon, settleHolds_canon, settleQueues_canon, tick_canon, h_s]

theorem startRemote_canon (s : State) (t : Nat) (seq : Nat) (o : Op)  (h_s : memWf s.mem = true) :
    memWf (startRemote s t seq o).mem = true := by
  unfold startRemote
  simp (maxDischargeDepth := 60) +contextual [ite_canon, foldl_canon, foldlFst_canon, memWf_writeN, memWf_write, memWf_filter, memWf_del, notEnabled, failOp_canon, setPhase_canon, h_s]

theorem startAperture_canon (s : State) (t : Nat) (seq : Nat) (o : Op)  (h_s : memWf s.mem = true) :
    memWf (startAperture s t seq o).mem = true := by
  unfold startAperture
  simp (maxDischargeDepth := 60) +contextual [ite_canon, foldl_canon, foldlFst_canon, memWf_writeN, memWf_write, memWf_filter, memWf_del, notEnabled, failOp_canon, setPhase_canon, h_s]

theorem startHost_canon (s : State) (t : Nat) (seq : Nat) (o : Op)  (h_s : memWf s.mem = true) :
    memWf (startHost s t seq o).mem = true := by
  unfold startHost
  try dsimp only
  split <;> simp (maxDischargeDepth := 60) +contextual [ite_canon, foldl_canon, foldlFst_canon, memWf_writeN, memWf_write, memWf_filter, memWf_del, notEnabled, failOp_canon, setPhase_canon, h_s]

theorem startMem_canon (s : State) (t : Nat) (kind : Nat) (group : Nat) (i : Instr) (pc : Addr) (addr : DWord) (data : List Byte)  (h_s : memWf s.mem = true) :
    memWf (startMem s t kind group i pc addr data).mem = true := by
  unfold startMem
  simp (maxDischargeDepth := 60) +contextual [ite_canon, foldl_canon, foldlFst_canon, memWf_writeN, memWf_write, memWf_filter, memWf_del, notEnabled, State.modThread_canon, failOp_canon, startAperture_canon, startDevice_canon, startHost_canon, startRemote_canon, h_s]

theorem issueMem_canon (i : Instr) (group : Nat) (addr : DWord) (data : List Byte) (s : State) (t : Nat)  (h_s : memWf s.mem = true) :
    memWf (issueMem i group addr data s t).mem = true := by
  unfold issueMem
  try dsimp only
  split <;> simp (maxDischargeDepth := 60) +contextual [ite_canon, foldl_canon, foldlFst_canon, memWf_writeN, memWf_write, memWf_filter, memWf_del, notEnabled, advance_canon, park_canon, startMem_canon, h_s]

theorem scratchBody_canon (i : Instr) (f : MemForm) (ea : DWord) (group : Nat) (s : State) (t : Nat)  (h_s : memWf s.mem = true) :
    memWf (scratchBody i f ea group s t).mem = true := by
  unfold scratchBody
  try dsimp only
  repeat' split
  all_goals simp (maxDischargeDepth := 60) +contextual [ite_canon, foldl_canon, foldlFst_canon, memWf_writeN, memWf_write, memWf_filter, memWf_del, notEnabled, State.modCore_canon, State.modThread_canon, advance_canon, park_canon, raise_canon, h_s]

theorem memBody_canon (i : Instr) (o : BitVec 4) (w : BitVec 3) (a : BitVec 6) (group : Nat) (s : State) (t : Nat)  (h_s : memWf s.mem = true) :
    memWf (memBody i o w a group s t).mem = true := by
  unfold memBody
  try dsimp only
  split <;> simp (maxDischargeDepth := 60) +contextual [ite_canon, foldl_canon, foldlFst_canon, memWf_writeN, memWf_write, memWf_filter, memWf_del, notEnabled, issueMem_canon, scratchBody_canon, h_s]

theorem atomBody_canon (i : Instr) (b : BitVec 6) (a : BitVec 6) (group : Nat) (s : State) (t : Nat)  (h_s : memWf s.mem = true) :
    memWf (atomBody i b a group s t).mem = true := by
  unfold atomBody
  try dsimp only
  split <;> simp (maxDischargeDepth := 60) +contextual [ite_canon, foldl_canon, foldlFst_canon, memWf_writeN, memWf_write, memWf_filter, memWf_del, notEnabled, issueMem_canon, h_s]

theorem stfBody_canon (i : Instr) (w : BitVec 1) (b a d : BitVec 6) (n : Nat) (s : State) (t : Nat) (h_s : memWf s.mem = true) :
    memWf (stfBody i w b a d n s t).mem = true := by
  unfold stfBody
  exact issueMem_canon _ _ _ _ _ _ h_s

theorem issueAccess_canon (i : Instr) (body : Nat → State → Nat → State) (s : State)  (h_s : memWf s.mem = true) (h_body : ∀ (y0 : Nat) (y1 : State) (y2 : Nat), memWf y1.mem = true → memWf (body y0 y1 y2).mem = true) :
    ∀ s', issueAccess i body s = .next s' → memWf s'.mem = true := by
  intro s' e
  unfold issueAccess at e
  try dsimp only at e
  repeat' split at e
  all_goals first | (simp [notEnabled] at e; done) | (injection e with e; subst e; simp (maxDischargeDepth := 60) +contextual [ite_canon, foldl_canon, foldlFst_canon, memWf_writeN, memWf_write, memWf_filter, memWf_del, notEnabled, State.fresh_canon, issueOne_canon, pump_canon, h_s, h_body])

end Sys2Proof.Machine
end

