-- ==== Sys2Proof/Laws/CanonAtomics.lean ====
section
/-! SUPPORT. Memory stays canonical through every operation of `Atomics`. -/

set_option linter.all false

namespace Sys2Proof.Machine
open Sys2Proof

theorem execAtomAdd_canon (w : BitVec 1) (p : BitVec 2) (b : BitVec 6) (a : BitVec 6) (d : BitVec 6) (sm : BitVec 1) (s : State)  (h_s : memWf s.mem = true) :
    ∀ s', execAtomAdd w p b a d sm s = .next s' → memWf s'.mem = true := by
  unfold execAtomAdd
  exact issueAccess_canon _ _ _ h_s (fun g s t hs => by first | exact memBody_canon _ _ _ _ _ _ _ hs | exact atomBody_canon _ _ _ _ _ _ hs | exact stfBody_canon _ _ _ _ _ _ _ _ hs)

theorem execAtomMin_canon (w : BitVec 1) (p : BitVec 2) (b : BitVec 6) (a : BitVec 6) (d : BitVec 6) (sm : BitVec 1) (s : State)  (h_s : memWf s.mem = true) :
    ∀ s', execAtomMin w p b a d sm s = .next s' → memWf s'.mem = true := by
  unfold execAtomMin
  exact issueAccess_canon _ _ _ h_s (fun g s t hs => by first | exact memBody_canon _ _ _ _ _ _ _ hs | exact atomBody_canon _ _ _ _ _ _ hs | exact stfBody_canon _ _ _ _ _ _ _ _ hs)

theorem execAtomMax_canon (w : BitVec 1) (p : BitVec 2) (b : BitVec 6) (a : BitVec 6) (d : BitVec 6) (sm : BitVec 1) (s : State)  (h_s : memWf s.mem = true) :
    ∀ s', execAtomMax w p b a d sm s = .next s' → memWf s'.mem = true := by
  unfold execAtomMax
  exact issueAccess_canon _ _ _ h_s (fun g s t hs => by first | exact memBody_canon _ _ _ _ _ _ _ hs | exact atomBody_canon _ _ _ _ _ _ hs | exact stfBody_canon _ _ _ _ _ _ _ _ hs)

theorem execAtomMinu_canon (w : BitVec 1) (p : BitVec 2) (b : BitVec 6) (a : BitVec 6) (d : BitVec 6) (sm : BitVec 1) (s : State)  (h_s : memWf s.mem = true) :
    ∀ s', execAtomMinu w p b a d sm s = .next s' → memWf s'.mem = true := by
  unfold execAtomMinu
  exact issueAccess_canon _ _ _ h_s (fun g s t hs => by first | exact memBody_canon _ _ _ _ _ _ _ hs | exact atomBody_canon _ _ _ _ _ _ hs | exact stfBody_canon _ _ _ _ _ _ _ _ hs)

theorem execAtomMaxu_canon (w : BitVec 1) (p : BitVec 2) (b : BitVec 6) (a : BitVec 6) (d : BitVec 6) (sm : BitVec 1) (s : State)  (h_s : memWf s.mem = true) :
    ∀ s', execAtomMaxu w p b a d sm s = .next s' → memWf s'.mem = true := by
  unfold execAtomMaxu
  exact issueAccess_canon _ _ _ h_s (fun g s t hs => by first | exact memBody_canon _ _ _ _ _ _ _ hs | exact atomBody_canon _ _ _ _ _ _ hs | exact stfBody_canon _ _ _ _ _ _ _ _ hs)

theorem execAtomAnd_canon (w : BitVec 1) (p : BitVec 2) (b : BitVec 6) (a : BitVec 6) (d : BitVec 6) (sm : BitVec 1) (s : State)  (h_s : memWf s.mem = true) :
    ∀ s', execAtomAnd w p b a d sm s = .next s' → memWf s'.mem = true := by
  unfold execAtomAnd
  exact issueAccess_canon _ _ _ h_s (fun g s t hs => by first | exact memBody_canon _ _ _ _ _ _ _ hs | exact atomBody_canon _ _ _ _ _ _ hs | exact stfBody_canon _ _ _ _ _ _ _ _ hs)

theorem execAtomOr_canon (w : BitVec 1) (p : BitVec 2) (b : BitVec 6) (a : BitVec 6) (d : BitVec 6) (sm : BitVec 1) (s : State)  (h_s : memWf s.mem = true) :
    ∀ s', execAtomOr w p b a d sm s = .next s' → memWf s'.mem = true := by
  unfold execAtomOr
  exact issueAccess_canon _ _ _ h_s (fun g s t hs => by first | exact memBody_canon _ _ _ _ _ _ _ hs | exact atomBody_canon _ _ _ _ _ _ hs | exact stfBody_canon _ _ _ _ _ _ _ _ hs)

theorem execAtomXor_canon (w : BitVec 1) (p : BitVec 2) (b : BitVec 6) (a : BitVec 6) (d : BitVec 6) (sm : BitVec 1) (s : State)  (h_s : memWf s.mem = true) :
    ∀ s', execAtomXor w p b a d sm s = .next s' → memWf s'.mem = true := by
  unfold execAtomXor
  exact issueAccess_canon _ _ _ h_s (fun g s t hs => by first | exact memBody_canon _ _ _ _ _ _ _ hs | exact atomBody_canon _ _ _ _ _ _ hs | exact stfBody_canon _ _ _ _ _ _ _ _ hs)

theorem execAtomExch_canon (w : BitVec 1) (p : BitVec 2) (b : BitVec 6) (a : BitVec 6) (d : BitVec 6) (sm : BitVec 1) (s : State)  (h_s : memWf s.mem = true) :
    ∀ s', execAtomExch w p b a d sm s = .next s' → memWf s'.mem = true := by
  unfold execAtomExch
  exact issueAccess_canon _ _ _ h_s (fun g s t hs => by first | exact memBody_canon _ _ _ _ _ _ _ hs | exact atomBody_canon _ _ _ _ _ _ hs | exact stfBody_canon _ _ _ _ _ _ _ _ hs)

theorem execAtomCas_canon (w : BitVec 1) (p : BitVec 2) (b : BitVec 6) (a : BitVec 6) (d : BitVec 6) (sm : BitVec 1) (s : State)  (h_s : memWf s.mem = true) :
    ∀ s', execAtomCas w p b a d sm s = .next s' → memWf s'.mem = true := by
  unfold execAtomCas
  exact issueAccess_canon _ _ _ h_s (fun g s t hs => by first | exact memBody_canon _ _ _ _ _ _ _ hs | exact atomBody_canon _ _ _ _ _ _ hs | exact stfBody_canon _ _ _ _ _ _ _ _ hs)

theorem execAtomFadd_canon (w : BitVec 1) (p : BitVec 2) (b : BitVec 6) (a : BitVec 6) (d : BitVec 6) (sm : BitVec 1) (s : State)  (h_s : memWf s.mem = true) :
    ∀ s', execAtomFadd w p b a d sm s = .next s' → memWf s'.mem = true := by
  unfold execAtomFadd
  exact issueAccess_canon _ _ _ h_s (fun g s t hs => by first | exact memBody_canon _ _ _ _ _ _ _ hs | exact atomBody_canon _ _ _ _ _ _ hs | exact stfBody_canon _ _ _ _ _ _ _ _ hs)

theorem execAtomFaddRa_canon (w : BitVec 1) (p : BitVec 2) (b : BitVec 6) (a : BitVec 6) (d : BitVec 6) (sm : BitVec 1) (s : State)  (h_s : memWf s.mem = true) :
    ∀ s', execAtomFaddRa w p b a d sm s = .next s' → memWf s'.mem = true := by
  unfold execAtomFaddRa
  exact issueAccess_canon _ _ _ h_s (fun g s t hs => by first | exact memBody_canon _ _ _ _ _ _ _ hs | exact atomBody_canon _ _ _ _ _ _ hs | exact stfBody_canon _ _ _ _ _ _ _ _ hs)

theorem execAtomFmin_canon (w : BitVec 1) (p : BitVec 2) (b : BitVec 6) (a : BitVec 6) (d : BitVec 6) (sm : BitVec 1) (s : State)  (h_s : memWf s.mem = true) :
    ∀ s', execAtomFmin w p b a d sm s = .next s' → memWf s'.mem = true := by
  unfold execAtomFmin
  exact issueAccess_canon _ _ _ h_s (fun g s t hs => by first | exact memBody_canon _ _ _ _ _ _ _ hs | exact atomBody_canon _ _ _ _ _ _ hs | exact stfBody_canon _ _ _ _ _ _ _ _ hs)

theorem execAtomFmax_canon (w : BitVec 1) (p : BitVec 2) (b : BitVec 6) (a : BitVec 6) (d : BitVec 6) (sm : BitVec 1) (s : State)  (h_s : memWf s.mem = true) :
    ∀ s', execAtomFmax w p b a d sm s = .next s' → memWf s'.mem = true := by
  unfold execAtomFmax
  exact issueAccess_canon _ _ _ h_s (fun g s t hs => by first | exact memBody_canon _ _ _ _ _ _ _ hs | exact atomBody_canon _ _ _ _ _ _ hs | exact stfBody_canon _ _ _ _ _ _ _ _ hs)

theorem execStf_canon (w : BitVec 1) (b : BitVec 6) (a : BitVec 6) (d : BitVec 6) (sm : BitVec 1) (s : State)  (h_s : memWf s.mem = true) :
    ∀ s', execStf w b a d sm s = .next s' → memWf s'.mem = true := by
  unfold execStf
  exact issueAccess_canon _ _ _ h_s (fun g s t hs => by first | exact memBody_canon _ _ _ _ _ _ _ hs | exact atomBody_canon _ _ _ _ _ _ hs | exact stfBody_canon _ _ _ _ _ _ _ _ hs)

end Sys2Proof.Machine
end

