-- ==== Sys2Proof/Laws/CanonFpArith.lean ====
section
/-! SUPPORT. Memory stays canonical through every operation of `FpArith`. -/

set_option linter.all false

namespace Sys2Proof.Machine
open Sys2Proof

theorem execIcmp_canon (g : BitVec 4) (b : BitVec 6) (a : BitVec 6) (c : BitVec 3) (q : BitVec 3) (sm : BitVec 1) (s : State)  (h_s : memWf s.mem = true) :
    ∀ s', execIcmp g b a c q sm s = .next s' → memWf s'.mem = true := by
  unfold execIcmp
  refine issueEach_canon _ _ _ (by simp [State.fresh_canon, h_s]) (fun s t hs => ?_)
  first | assumption | (simp (maxDischargeDepth := 60) +contextual [*, ite_canon, foldl_canon, foldlFst_canon, memWf_writeN, memWf_write, memWf_filter, memWf_del, notEnabled, fixedBody_canon, issueEach_canon, h_s]; done) | (repeat' first | assumption | (with_reducible refine foldl_canon _ (fun s x hs => ?_) ?_) | (with_reducible apply ite_canon) | (with_reducible apply memWf_writeN) | (with_reducible apply memWf_write) | (with_reducible apply memWf_filter) | (with_reducible apply memWf_del) | (with_reducible apply fixedBody_canon) | (with_reducible apply issueEach_canon) | (with_reducible apply h_s) | split | (intros; dsimp only))

theorem execUcmp_canon (g : BitVec 4) (b : BitVec 6) (a : BitVec 6) (c : BitVec 3) (q : BitVec 3) (sm : BitVec 1) (s : State)  (h_s : memWf s.mem = true) :
    ∀ s', execUcmp g b a c q sm s = .next s' → memWf s'.mem = true := by
  unfold execUcmp
  refine issueEach_canon _ _ _ (by simp [State.fresh_canon, h_s]) (fun s t hs => ?_)
  first | assumption | (simp (maxDischargeDepth := 60) +contextual [*, ite_canon, foldl_canon, foldlFst_canon, memWf_writeN, memWf_write, memWf_filter, memWf_del, notEnabled, fixedBody_canon, issueEach_canon, h_s]; done) | (repeat' first | assumption | (with_reducible refine foldl_canon _ (fun s x hs => ?_) ?_) | (with_reducible apply ite_canon) | (with_reducible apply memWf_writeN) | (with_reducible apply memWf_write) | (with_reducible apply memWf_filter) | (with_reducible apply memWf_del) | (with_reducible apply fixedBody_canon) | (with_reducible apply issueEach_canon) | (with_reducible apply h_s) | split | (intros; dsimp only))

theorem execFcmpF32_canon (g : BitVec 4) (b : BitVec 6) (a : BitVec 6) (c : BitVec 3) (q : BitVec 3) (sm : BitVec 1) (s : State)  (h_s : memWf s.mem = true) :
    ∀ s', execFcmpF32 g b a c q sm s = .next s' → memWf s'.mem = true := by
  unfold execFcmpF32
  refine issueEach_canon _ _ _ (by simp [State.fresh_canon, h_s]) (fun s t hs => ?_)
  first | assumption | (simp (maxDischargeDepth := 60) +contextual [*, ite_canon, foldl_canon, foldlFst_canon, memWf_writeN, memWf_write, memWf_filter, memWf_del, notEnabled, fixedBody_canon, issueEach_canon, h_s]; done) | (repeat' first | assumption | (with_reducible refine foldl_canon _ (fun s x hs => ?_) ?_) | (with_reducible apply ite_canon) | (with_reducible apply memWf_writeN) | (with_reducible apply memWf_write) | (with_reducible apply memWf_filter) | (with_reducible apply memWf_del) | (with_reducible apply fixedBody_canon) | (with_reducible apply issueEach_canon) | (with_reducible apply h_s) | split | (intros; dsimp only))

theorem execFcmpF64_canon (g : BitVec 4) (b : BitVec 6) (a : BitVec 6) (c : BitVec 3) (q : BitVec 3) (sm : BitVec 1) (s : State)  (h_s : memWf s.mem = true) :
    ∀ s', execFcmpF64 g b a c q sm s = .next s' → memWf s'.mem = true := by
  unfold execFcmpF64
  refine issueEach_canon _ _ _ (by simp [State.fresh_canon, h_s]) (fun s t hs => ?_)
  first | assumption | (simp (maxDischargeDepth := 60) +contextual [*, ite_canon, foldl_canon, foldlFst_canon, memWf_writeN, memWf_write, memWf_filter, memWf_del, notEnabled, issueEach_canon, variableBody_canon, h_s]; done) | (repeat' first | assumption | (with_reducible refine foldl_canon _ (fun s x hs => ?_) ?_) | (with_reducible apply ite_canon) | (with_reducible apply memWf_writeN) | (with_reducible apply memWf_write) | (with_reducible apply memWf_filter) | (with_reducible apply memWf_del) | (with_reducible apply issueEach_canon) | (with_reducible apply variableBody_canon) | (with_reducible apply h_s) | split | (intros; dsimp only))

theorem execPand_canon (g : BitVec 4) (b : BitVec 3) (a : BitVec 3) (q : BitVec 3) (sm : BitVec 1) (s : State)  (h_s : memWf s.mem = true) :
    ∀ s', execPand g b a q sm s = .next s' → memWf s'.mem = true := by
  unfold execPand
  refine issueEach_canon _ _ _ (by simp [State.fresh_canon, h_s]) (fun s t hs => ?_)
  first | assumption | (simp (maxDischargeDepth := 60) +contextual [*, ite_canon, foldl_canon, foldlFst_canon, memWf_writeN, memWf_write, memWf_filter, memWf_del, notEnabled, fixedBody_canon, issueEach_canon, h_s]; done) | (repeat' first | assumption | (with_reducible refine foldl_canon _ (fun s x hs => ?_) ?_) | (with_reducible apply ite_canon) | (with_reducible apply memWf_writeN) | (with_reducible apply memWf_write) | (with_reducible apply memWf_filter) | (with_reducible apply memWf_del) | (with_reducible apply fixedBody_canon) | (with_reducible apply issueEach_canon) | (with_reducible apply h_s) | split | (intros; dsimp only))

theorem execPor_canon (g : BitVec 4) (b : BitVec 3) (a : BitVec 3) (q : BitVec 3) (sm : BitVec 1) (s : State)  (h_s : memWf s.mem = true) :
    ∀ s', execPor g b a q sm s = .next s' → memWf s'.mem = true := by
  unfold execPor
  refine issueEach_canon _ _ _ (by simp [State.fresh_canon, h_s]) (fun s t hs => ?_)
  first | assumption | (simp (maxDischargeDepth := 60) +contextual [*, ite_canon, foldl_canon, foldlFst_canon, memWf_writeN, memWf_write, memWf_filter, memWf_del, notEnabled, fixedBody_canon, issueEach_canon, h_s]; done) | (repeat' first | assumption | (with_reducible refine foldl_canon _ (fun s x hs => ?_) ?_) | (with_reducible apply ite_canon) | (with_reducible apply memWf_writeN) | (with_reducible apply memWf_write) | (with_reducible apply memWf_filter) | (with_reducible apply memWf_del) | (with_reducible apply fixedBody_canon) | (with_reducible apply issueEach_canon) | (with_reducible apply h_s) | split | (intros; dsimp only))

theorem execPxor_canon (g : BitVec 4) (b : BitVec 3) (a : BitVec 3) (q : BitVec 3) (sm : BitVec 1) (s : State)  (h_s : memWf s.mem = true) :
    ∀ s', execPxor g b a q sm s = .next s' → memWf s'.mem = true := by
  unfold execPxor
  refine issueEach_canon _ _ _ (by simp [State.fresh_canon, h_s]) (fun s t hs => ?_)
  first | assumption | (simp (maxDischargeDepth := 60) +contextual [*, ite_canon, foldl_canon, foldlFst_canon, memWf_writeN, memWf_write, memWf_filter, memWf_del, notEnabled, fixedBody_canon, issueEach_canon, h_s]; done) | (repeat' first | assumption | (with_reducible refine foldl_canon _ (fun s x hs => ?_) ?_) | (with_reducible apply ite_canon) | (with_reducible apply memWf_writeN) | (with_reducible apply memWf_write) | (with_reducible apply memWf_filter) | (with_reducible apply memWf_del) | (with_reducible apply fixedBody_canon) | (with_reducible apply issueEach_canon) | (with_reducible apply h_s) | split | (intros; dsimp only))

theorem execPandn_canon (g : BitVec 4) (b : BitVec 3) (a : BitVec 3) (q : BitVec 3) (sm : BitVec 1) (s : State)  (h_s : memWf s.mem = true) :
    ∀ s', execPandn g b a q sm s = .next s' → memWf s'.mem = true := by
  unfold execPandn
  refine issueEach_canon _ _ _ (by simp [State.fresh_canon, h_s]) (fun s t hs => ?_)
  first | assumption | (simp (maxDischargeDepth := 60) +contextual [*, ite_canon, foldl_canon, foldlFst_canon, memWf_writeN, memWf_write, memWf_filter, memWf_del, notEnabled, fixedBody_canon, issueEach_canon, h_s]; done) | (repeat' first | assumption | (with_reducible refine foldl_canon _ (fun s x hs => ?_) ?_) | (with_reducible apply ite_canon) | (with_reducible apply memWf_writeN) | (with_reducible apply memWf_write) | (with_reducible apply memWf_filter) | (with_reducible apply memWf_del) | (with_reducible apply fixedBody_canon) | (with_reducible apply issueEach_canon) | (with_reducible apply h_s) | split | (intros; dsimp only))

theorem execPnot_canon (g : BitVec 4) (a : BitVec 3) (q : BitVec 3) (sm : BitVec 1) (s : State)  (h_s : memWf s.mem = true) :
    ∀ s', execPnot g a q sm s = .next s' → memWf s'.mem = true := by
  unfold execPnot
  refine issueEach_canon _ _ _ (by simp [State.fresh_canon, h_s]) (fun s t hs => ?_)
  first | assumption | (simp (maxDischargeDepth := 60) +contextual [*, ite_canon, foldl_canon, foldlFst_canon, memWf_writeN, memWf_write, memWf_filter, memWf_del, notEnabled, fixedBody_canon, issueEach_canon, h_s]; done) | (repeat' first | assumption | (with_reducible refine foldl_canon _ (fun s x hs => ?_) ?_) | (with_reducible apply ite_canon) | (with_reducible apply memWf_writeN) | (with_reducible apply memWf_write) | (with_reducible apply memWf_filter) | (with_reducible apply memWf_del) | (with_reducible apply fixedBody_canon) | (with_reducible apply issueEach_canon) | (with_reducible apply h_s) | split | (intros; dsimp only))

theorem execPmov_canon (g : BitVec 4) (a : BitVec 3) (q : BitVec 3) (sm : BitVec 1) (s : State)  (h_s : memWf s.mem = true) :
    ∀ s', execPmov g a q sm s = .next s' → memWf s'.mem = true := by
  unfold execPmov
  refine issueEach_canon _ _ _ (by simp [State.fresh_canon, h_s]) (fun s t hs => ?_)
  first | assumption | (simp (maxDischargeDepth := 60) +contextual [*, ite_canon, foldl_canon, foldlFst_canon, memWf_writeN, memWf_write, memWf_filter, memWf_del, notEnabled, fixedBody_canon, issueEach_canon, h_s]; done) | (repeat' first | assumption | (with_reducible refine foldl_canon _ (fun s x hs => ?_) ?_) | (with_reducible apply ite_canon) | (with_reducible apply memWf_writeN) | (with_reducible apply memWf_write) | (with_reducible apply memWf_filter) | (with_reducible apply memWf_del) | (with_reducible apply fixedBody_canon) | (with_reducible apply issueEach_canon) | (with_reducible apply h_s) | split | (intros; dsimp only))

theorem execPget_canon (g : BitVec 4) (d : BitVec 6) (sm : BitVec 1) (s : State)  (h_s : memWf s.mem = true) :
    ∀ s', execPget g d sm s = .next s' → memWf s'.mem = true := by
  unfold execPget
  refine issueEach_canon _ _ _ (by simp [State.fresh_canon, h_s]) (fun s t hs => ?_)
  first | assumption | (simp (maxDischargeDepth := 60) +contextual [*, ite_canon, foldl_canon, foldlFst_canon, memWf_writeN, memWf_write, memWf_filter, memWf_del, notEnabled, fixedBody_canon, issueEach_canon, h_s]; done) | (repeat' first | assumption | (with_reducible refine foldl_canon _ (fun s x hs => ?_) ?_) | (with_reducible apply ite_canon) | (with_reducible apply memWf_writeN) | (with_reducible apply memWf_write) | (with_reducible apply memWf_filter) | (with_reducible apply memWf_del) | (with_reducible apply fixedBody_canon) | (with_reducible apply issueEach_canon) | (with_reducible apply h_s) | split | (intros; dsimp only))

theorem execPset_canon (g : BitVec 4) (a : BitVec 6) (sm : BitVec 1) (s : State)  (h_s : memWf s.mem = true) :
    ∀ s', execPset g a sm s = .next s' → memWf s'.mem = true := by
  unfold execPset
  refine issueEach_canon _ _ _ (by simp [State.fresh_canon, h_s]) (fun s t hs => ?_)
  first | assumption | (simp (maxDischargeDepth := 60) +contextual [*, ite_canon, foldl_canon, foldlFst_canon, memWf_writeN, memWf_write, memWf_filter, memWf_del, notEnabled, fixedBody_canon, issueEach_canon, h_s]; done) | (repeat' first | assumption | (with_reducible refine foldl_canon _ (fun s x hs => ?_) ?_) | (with_reducible apply ite_canon) | (with_reducible apply memWf_writeN) | (with_reducible apply memWf_write) | (with_reducible apply memWf_filter) | (with_reducible apply memWf_del) | (with_reducible apply fixedBody_canon) | (with_reducible apply issueEach_canon) | (with_reducible apply h_s) | split | (intros; dsimp only))

theorem execFaddF32FormH_canon (b : BitVec 5) (d : BitVec 5) (sm : BitVec 1) (s : State)  (h_s : memWf s.mem = true) :
    ∀ s', execFaddF32FormH b d sm s = .next s' → memWf s'.mem = true := by
  unfold execFaddF32FormH
  refine issueEach_canon _ _ _ (by simp [State.fresh_canon, h_s]) (fun s t hs => ?_)
  first | assumption | (simp (maxDischargeDepth := 60) +contextual [*, ite_canon, foldl_canon, foldlFst_canon, memWf_writeN, memWf_write, memWf_filter, memWf_del, notEnabled, fixedBody_canon, issueEach_canon, h_s]; done) | (repeat' first | assumption | (with_reducible refine foldl_canon _ (fun s x hs => ?_) ?_) | (with_reducible apply ite_canon) | (with_reducible apply memWf_writeN) | (with_reducible apply memWf_write) | (with_reducible apply memWf_filter) | (with_reducible apply memWf_del) | (with_reducible apply fixedBody_canon) | (with_reducible apply issueEach_canon) | (with_reducible apply h_s) | split | (intros; dsimp only))

theorem execFsubF32FormH_canon (b : BitVec 5) (d : BitVec 5) (sm : BitVec 1) (s : State)  (h_s : memWf s.mem = true) :
    ∀ s', execFsubF32FormH b d sm s = .next s' → memWf s'.mem = true := by
  unfold execFsubF32FormH
  refine issueEach_canon _ _ _ (by simp [State.fresh_canon, h_s]) (fun s t hs => ?_)
  first | assumption | (simp (maxDischargeDepth := 60) +contextual [*, ite_canon, foldl_canon, foldlFst_canon, memWf_writeN, memWf_write, memWf_filter, memWf_del, notEnabled, fixedBody_canon, issueEach_canon, h_s]; done) | (repeat' first | assumption | (with_reducible refine foldl_canon _ (fun s x hs => ?_) ?_) | (with_reducible apply ite_canon) | (with_reducible apply memWf_writeN) | (with_reducible apply memWf_write) | (with_reducible apply memWf_filter) | (with_reducible apply memWf_del) | (with_reducible apply fixedBody_canon) | (with_reducible apply issueEach_canon) | (with_reducible apply h_s) | split | (intros; dsimp only))

theorem execFmulF32FormH_canon (b : BitVec 5) (d : BitVec 5) (sm : BitVec 1) (s : State)  (h_s : memWf s.mem = true) :
    ∀ s', execFmulF32FormH b d sm s = .next s' → memWf s'.mem = true := by
  unfold execFmulF32FormH
  refine issueEach_canon _ _ _ (by simp [State.fresh_canon, h_s]) (fun s t hs => ?_)
  first | assumption | (simp (maxDischargeDepth := 60) +contextual [*, ite_canon, foldl_canon, foldlFst_canon, memWf_writeN, memWf_write, memWf_filter, memWf_del, notEnabled, fixedBody_canon, issueEach_canon, h_s]; done) | (repeat' first | assumption | (with_reducible refine foldl_canon _ (fun s x hs => ?_) ?_) | (with_reducible apply ite_canon) | (with_reducible apply memWf_writeN) | (with_reducible apply memWf_write) | (with_reducible apply memWf_filter) | (with_reducible apply memWf_del) | (with_reducible apply fixedBody_canon) | (with_reducible apply issueEach_canon) | (with_reducible apply h_s) | split | (intros; dsimp only))

theorem execFmaxF32FormH_canon (b : BitVec 5) (d : BitVec 5) (sm : BitVec 1) (s : State)  (h_s : memWf s.mem = true) :
    ∀ s', execFmaxF32FormH b d sm s = .next s' → memWf s'.mem = true := by
  unfold execFmaxF32FormH
  refine issueEach_canon _ _ _ (by simp [State.fresh_canon, h_s]) (fun s t hs => ?_)
  first | assumption | (simp (maxDischargeDepth := 60) +contextual [*, ite_canon, foldl_canon, foldlFst_canon, memWf_writeN, memWf_write, memWf_filter, memWf_del, notEnabled, fixedBody_canon, issueEach_canon, h_s]; done) | (repeat' first | assumption | (with_reducible refine foldl_canon _ (fun s x hs => ?_) ?_) | (with_reducible apply ite_canon) | (with_reducible apply memWf_writeN) | (with_reducible apply memWf_write) | (with_reducible apply memWf_filter) | (with_reducible apply memWf_del) | (with_reducible apply fixedBody_canon) | (with_reducible apply issueEach_canon) | (with_reducible apply h_s) | split | (intros; dsimp only))

theorem execFminF32FormH_canon (b : BitVec 5) (d : BitVec 5) (sm : BitVec 1) (s : State)  (h_s : memWf s.mem = true) :
    ∀ s', execFminF32FormH b d sm s = .next s' → memWf s'.mem = true := by
  unfold execFminF32FormH
  refine issueEach_canon _ _ _ (by simp [State.fresh_canon, h_s]) (fun s t hs => ?_)
  first | assumption | (simp (maxDischargeDepth := 60) +contextual [*, ite_canon, foldl_canon, foldlFst_canon, memWf_writeN, memWf_write, memWf_filter, memWf_del, notEnabled, fixedBody_canon, issueEach_canon, h_s]; done) | (repeat' first | assumption | (with_reducible refine foldl_canon _ (fun s x hs => ?_) ?_) | (with_reducible apply ite_canon) | (with_reducible apply memWf_writeN) | (with_reducible apply memWf_write) | (with_reducible apply memWf_filter) | (with_reducible apply memWf_del) | (with_reducible apply fixedBody_canon) | (with_reducible apply issueEach_canon) | (with_reducible apply h_s) | split | (intros; dsimp only))

theorem execFaddF32_canon (g : BitVec 4) (b : BitVec 6) (a : BitVec 6) (d : BitVec 6) (sm : BitVec 1) (s : State)  (h_s : memWf s.mem = true) :
    ∀ s', execFaddF32 g b a d sm s = .next s' → memWf s'.mem = true := by
  unfold execFaddF32
  refine issueEach_canon _ _ _ (by simp [State.fresh_canon, h_s]) (fun s t hs => ?_)
  first | assumption | (simp (maxDischargeDepth := 60) +contextual [*, ite_canon, foldl_canon, foldlFst_canon, memWf_writeN, memWf_write, memWf_filter, memWf_del, notEnabled, fixedBody_canon, issueEach_canon, h_s]; done) | (repeat' first | assumption | (with_reducible refine foldl_canon _ (fun s x hs => ?_) ?_) | (with_reducible apply ite_canon) | (with_reducible apply memWf_writeN) | (with_reducible apply memWf_write) | (with_reducible apply memWf_filter) | (with_reducible apply memWf_del) | (with_reducible apply fixedBody_canon) | (with_reducible apply issueEach_canon) | (with_reducible apply h_s) | split | (intros; dsimp only))

theorem execFsubF32_canon (g : BitVec 4) (b : BitVec 6) (a : BitVec 6) (d : BitVec 6) (sm : BitVec 1) (s : State)  (h_s : memWf s.mem = true) :
    ∀ s', execFsubF32 g b a d sm s = .next s' → memWf s'.mem = true := by
  unfold execFsubF32
  refine issueEach_canon _ _ _ (by simp [State.fresh_canon, h_s]) (fun s t hs => ?_)
  first | assumption | (simp (maxDischargeDepth := 60) +contextual [*, ite_canon, foldl_canon, foldlFst_canon, memWf_writeN, memWf_write, memWf_filter, memWf_del, notEnabled, fixedBody_canon, issueEach_canon, h_s]; done) | (repeat' first | assumption | (with_reducible refine foldl_canon _ (fun s x hs => ?_) ?_) | (with_reducible apply ite_canon) | (with_reducible apply memWf_writeN) | (with_reducible apply memWf_write) | (with_reducible apply memWf_filter) | (with_reducible apply memWf_del) | (with_reducible apply fixedBody_canon) | (with_reducible apply issueEach_canon) | (with_reducible apply h_s) | split | (intros; dsimp only))

theorem execFmulF32_canon (g : BitVec 4) (b : BitVec 6) (a : BitVec 6) (d : BitVec 6) (sm : BitVec 1) (s : State)  (h_s : memWf s.mem = true) :
    ∀ s', execFmulF32 g b a d sm s = .next s' → memWf s'.mem = true := by
  unfold execFmulF32
  refine issueEach_canon _ _ _ (by simp [State.fresh_canon, h_s]) (fun s t hs => ?_)
  first | assumption | (simp (maxDischargeDepth := 60) +contextual [*, ite_canon, foldl_canon, foldlFst_canon, memWf_writeN, memWf_write, memWf_filter, memWf_del, notEnabled, fixedBody_canon, issueEach_canon, h_s]; done) | (repeat' first | assumption | (with_reducible refine foldl_canon _ (fun s x hs => ?_) ?_) | (with_reducible apply ite_canon) | (with_reducible apply memWf_writeN) | (with_reducible apply memWf_write) | (with_reducible apply memWf_filter) | (with_reducible apply memWf_del) | (with_reducible apply fixedBody_canon) | (with_reducible apply issueEach_canon) | (with_reducible apply h_s) | split | (intros; dsimp only))

theorem execFminF32_canon (g : BitVec 4) (b : BitVec 6) (a : BitVec 6) (d : BitVec 6) (sm : BitVec 1) (s : State)  (h_s : memWf s.mem = true) :
    ∀ s', execFminF32 g b a d sm s = .next s' → memWf s'.mem = true := by
  unfold execFminF32
  refine issueEach_canon _ _ _ (by simp [State.fresh_canon, h_s]) (fun s t hs => ?_)
  first | assumption | (simp (maxDischargeDepth := 60) +contextual [*, ite_canon, foldl_canon, foldlFst_canon, memWf_writeN, memWf_write, memWf_filter, memWf_del, notEnabled, fixedBody_canon, issueEach_canon, h_s]; done) | (repeat' first | assumption | (with_reducible refine foldl_canon _ (fun s x hs => ?_) ?_) | (with_reducible apply ite_canon) | (with_reducible apply memWf_writeN) | (with_reducible apply memWf_write) | (with_reducible apply memWf_filter) | (with_reducible apply memWf_del) | (with_reducible apply fixedBody_canon) | (with_reducible apply issueEach_canon) | (with_reducible apply h_s) | split | (intros; dsimp only))

theorem execFmaxF32_canon (g : BitVec 4) (b : BitVec 6) (a : BitVec 6) (d : BitVec 6) (sm : BitVec 1) (s : State)  (h_s : memWf s.mem = true) :
    ∀ s', execFmaxF32 g b a d sm s = .next s' → memWf s'.mem = true := by
  unfold execFmaxF32
  refine issueEach_canon _ _ _ (by simp [State.fresh_canon, h_s]) (fun s t hs => ?_)
  first | assumption | (simp (maxDischargeDepth := 60) +contextual [*, ite_canon, foldl_canon, foldlFst_canon, memWf_writeN, memWf_write, memWf_filter, memWf_del, notEnabled, fixedBody_canon, issueEach_canon, h_s]; done) | (repeat' first | assumption | (with_reducible refine foldl_canon _ (fun s x hs => ?_) ?_) | (with_reducible apply ite_canon) | (with_reducible apply memWf_writeN) | (with_reducible apply memWf_write) | (with_reducible apply memWf_filter) | (with_reducible apply memWf_del) | (with_reducible apply fixedBody_canon) | (with_reducible apply issueEach_canon) | (with_reducible apply h_s) | split | (intros; dsimp only))

theorem execFaddRzF32_canon (g : BitVec 4) (b : BitVec 6) (a : BitVec 6) (d : BitVec 6) (sm : BitVec 1) (s : State)  (h_s : memWf s.mem = true) :
    ∀ s', execFaddRzF32 g b a d sm s = .next s' → memWf s'.mem = true := by
  unfold execFaddRzF32
  refine issueEach_canon _ _ _ (by simp [State.fresh_canon, h_s]) (fun s t hs => ?_)
  first | assumption | (simp (maxDischargeDepth := 60) +contextual [*, ite_canon, foldl_canon, foldlFst_canon, memWf_writeN, memWf_write, memWf_filter, memWf_del, notEnabled, fixedBody_canon, issueEach_canon, h_s]; done) | (repeat' first | assumption | (with_reducible refine foldl_canon _ (fun s x hs => ?_) ?_) | (with_reducible apply ite_canon) | (with_reducible apply memWf_writeN) | (with_reducible apply memWf_write) | (with_reducible apply memWf_filter) | (with_reducible apply memWf_del) | (with_reducible apply fixedBody_canon) | (with_reducible apply issueEach_canon) | (with_reducible apply h_s) | split | (intros; dsimp only))

theorem execFmulRzF32_canon (g : BitVec 4) (b : BitVec 6) (a : BitVec 6) (d : BitVec 6) (sm : BitVec 1) (s : State)  (h_s : memWf s.mem = true) :
    ∀ s', execFmulRzF32 g b a d sm s = .next s' → memWf s'.mem = true := by
  unfold execFmulRzF32
  refine issueEach_canon _ _ _ (by simp [State.fresh_canon, h_s]) (fun s t hs => ?_)
  first | assumption | (simp (maxDischargeDepth := 60) +contextual [*, ite_canon, foldl_canon, foldlFst_canon, memWf_writeN, memWf_write, memWf_filter, memWf_del, notEnabled, fixedBody_canon, issueEach_canon, h_s]; done) | (repeat' first | assumption | (with_reducible refine foldl_canon _ (fun s x hs => ?_) ?_) | (with_reducible apply ite_canon) | (with_reducible apply memWf_writeN) | (with_reducible apply memWf_write) | (with_reducible apply memWf_filter) | (with_reducible apply memWf_del) | (with_reducible apply fixedBody_canon) | (with_reducible apply issueEach_canon) | (with_reducible apply h_s) | split | (intros; dsimp only))

theorem execFsgnjF32_canon (g : BitVec 4) (b : BitVec 6) (a : BitVec 6) (d : BitVec 6) (sm : BitVec 1) (s : State)  (h_s : memWf s.mem = true) :
    ∀ s', execFsgnjF32 g b a d sm s = .next s' → memWf s'.mem = true := by
  unfold execFsgnjF32
  refine issueEach_canon _ _ _ (by simp [State.fresh_canon, h_s]) (fun s t hs => ?_)
  first | assumption | (simp (maxDischargeDepth := 60) +contextual [*, ite_canon, foldl_canon, foldlFst_canon, memWf_writeN, memWf_write, memWf_filter, memWf_del, notEnabled, fixedBody_canon, issueEach_canon, h_s]; done) | (repeat' first | assumption | (with_reducible refine foldl_canon _ (fun s x hs => ?_) ?_) | (with_reducible apply ite_canon) | (with_reducible apply memWf_writeN) | (with_reducible apply memWf_write) | (with_reducible apply memWf_filter) | (with_reducible apply memWf_del) | (with_reducible apply fixedBody_canon) | (with_reducible apply issueEach_canon) | (with_reducible apply h_s) | split | (intros; dsimp only))

theorem execFaddF64_canon (g : BitVec 4) (b : BitVec 6) (a : BitVec 6) (d : BitVec 6) (sm : BitVec 1) (s : State)  (h_s : memWf s.mem = true) :
    ∀ s', execFaddF64 g b a d sm s = .next s' → memWf s'.mem = true := by
  unfold execFaddF64
  refine issueEach_canon _ _ _ (by simp [State.fresh_canon, h_s]) (fun s t hs => ?_)
  first | assumption | (simp (maxDischargeDepth := 60) +contextual [*, ite_canon, foldl_canon, foldlFst_canon, memWf_writeN, memWf_write, memWf_filter, memWf_del, notEnabled, issueEach_canon, variableBody_canon, h_s]; done) | (repeat' first | assumption | (with_reducible refine foldl_canon _ (fun s x hs => ?_) ?_) | (with_reducible apply ite_canon) | (with_reducible apply memWf_writeN) | (with_reducible apply memWf_write) | (with_reducible apply memWf_filter) | (with_reducible apply memWf_del) | (with_reducible apply issueEach_canon) | (with_reducible apply variableBody_canon) | (with_reducible apply h_s) | split | (intros; dsimp only))

theorem execFsubF64_canon (g : BitVec 4) (b : BitVec 6) (a : BitVec 6) (d : BitVec 6) (sm : BitVec 1) (s : State)  (h_s : memWf s.mem = true) :
    ∀ s', execFsubF64 g b a d sm s = .next s' → memWf s'.mem = true := by
  unfold execFsubF64
  refine issueEach_canon _ _ _ (by simp [State.fresh_canon, h_s]) (fun s t hs => ?_)
  first | assumption | (simp (maxDischargeDepth := 60) +contextual [*, ite_canon, foldl_canon, foldlFst_canon, memWf_writeN, memWf_write, memWf_filter, memWf_del, notEnabled, issueEach_canon, variableBody_canon, h_s]; done) | (repeat' first | assumption | (with_reducible refine foldl_canon _ (fun s x hs => ?_) ?_) | (with_reducible apply ite_canon) | (with_reducible apply memWf_writeN) | (with_reducible apply memWf_write) | (with_reducible apply memWf_filter) | (with_reducible apply memWf_del) | (with_reducible apply issueEach_canon) | (with_reducible apply variableBody_canon) | (with_reducible apply h_s) | split | (intros; dsimp only))

theorem execFmulF64_canon (g : BitVec 4) (b : BitVec 6) (a : BitVec 6) (d : BitVec 6) (sm : BitVec 1) (s : State)  (h_s : memWf s.mem = true) :
    ∀ s', execFmulF64 g b a d sm s = .next s' → memWf s'.mem = true := by
  unfold execFmulF64
  refine issueEach_canon _ _ _ (by simp [State.fresh_canon, h_s]) (fun s t hs => ?_)
  first | assumption | (simp (maxDischargeDepth := 60) +contextual [*, ite_canon, foldl_canon, foldlFst_canon, memWf_writeN, memWf_write, memWf_filter, memWf_del, notEnabled, issueEach_canon, variableBody_canon, h_s]; done) | (repeat' first | assumption | (with_reducible refine foldl_canon _ (fun s x hs => ?_) ?_) | (with_reducible apply ite_canon) | (with_reducible apply memWf_writeN) | (with_reducible apply memWf_write) | (with_reducible apply memWf_filter) | (with_reducible apply memWf_del) | (with_reducible apply issueEach_canon) | (with_reducible apply variableBody_canon) | (with_reducible apply h_s) | split | (intros; dsimp only))

theorem execFminF64_canon (g : BitVec 4) (b : BitVec 6) (a : BitVec 6) (d : BitVec 6) (sm : BitVec 1) (s : State)  (h_s : memWf s.mem = true) :
    ∀ s', execFminF64 g b a d sm s = .next s' → memWf s'.mem = true := by
  unfold execFminF64
  refine issueEach_canon _ _ _ (by simp [State.fresh_canon, h_s]) (fun s t hs => ?_)
  first | assumption | (simp (maxDischargeDepth := 60) +contextual [*, ite_canon, foldl_canon, foldlFst_canon, memWf_writeN, memWf_write, memWf_filter, memWf_del, notEnabled, issueEach_canon, variableBody_canon, h_s]; done) | (repeat' first | assumption | (with_reducible refine foldl_canon _ (fun s x hs => ?_) ?_) | (with_reducible apply ite_canon) | (with_reducible apply memWf_writeN) | (with_reducible apply memWf_write) | (with_reducible apply memWf_filter) | (with_reducible apply memWf_del) | (with_reducible apply issueEach_canon) | (with_reducible apply variableBody_canon) | (with_reducible apply h_s) | split | (intros; dsimp only))

theorem execFmaxF64_canon (g : BitVec 4) (b : BitVec 6) (a : BitVec 6) (d : BitVec 6) (sm : BitVec 1) (s : State)  (h_s : memWf s.mem = true) :
    ∀ s', execFmaxF64 g b a d sm s = .next s' → memWf s'.mem = true := by
  unfold execFmaxF64
  refine issueEach_canon _ _ _ (by simp [State.fresh_canon, h_s]) (fun s t hs => ?_)
  first | assumption | (simp (maxDischargeDepth := 60) +contextual [*, ite_canon, foldl_canon, foldlFst_canon, memWf_writeN, memWf_write, memWf_filter, memWf_del, notEnabled, issueEach_canon, variableBody_canon, h_s]; done) | (repeat' first | assumption | (with_reducible refine foldl_canon _ (fun s x hs => ?_) ?_) | (with_reducible apply ite_canon) | (with_reducible apply memWf_writeN) | (with_reducible apply memWf_write) | (with_reducible apply memWf_filter) | (with_reducible apply memWf_del) | (with_reducible apply issueEach_canon) | (with_reducible apply variableBody_canon) | (with_reducible apply h_s) | split | (intros; dsimp only))

theorem execFaddRzF64_canon (g : BitVec 4) (b : BitVec 6) (a : BitVec 6) (d : BitVec 6) (sm : BitVec 1) (s : State)  (h_s : memWf s.mem = true) :
    ∀ s', execFaddRzF64 g b a d sm s = .next s' → memWf s'.mem = true := by
  unfold execFaddRzF64
  refine issueEach_canon _ _ _ (by simp [State.fresh_canon, h_s]) (fun s t hs => ?_)
  first | assumption | (simp (maxDischargeDepth := 60) +contextual [*, ite_canon, foldl_canon, foldlFst_canon, memWf_writeN, memWf_write, memWf_filter, memWf_del, notEnabled, issueEach_canon, variableBody_canon, h_s]; done) | (repeat' first | assumption | (with_reducible refine foldl_canon _ (fun s x hs => ?_) ?_) | (with_reducible apply ite_canon) | (with_reducible apply memWf_writeN) | (with_reducible apply memWf_write) | (with_reducible apply memWf_filter) | (with_reducible apply memWf_del) | (with_reducible apply issueEach_canon) | (with_reducible apply variableBody_canon) | (with_reducible apply h_s) | split | (intros; dsimp only))

theorem execFmulRzF64_canon (g : BitVec 4) (b : BitVec 6) (a : BitVec 6) (d : BitVec 6) (sm : BitVec 1) (s : State)  (h_s : memWf s.mem = true) :
    ∀ s', execFmulRzF64 g b a d sm s = .next s' → memWf s'.mem = true := by
  unfold execFmulRzF64
  refine issueEach_canon _ _ _ (by simp [State.fresh_canon, h_s]) (fun s t hs => ?_)
  first | assumption | (simp (maxDischargeDepth := 60) +contextual [*, ite_canon, foldl_canon, foldlFst_canon, memWf_writeN, memWf_write, memWf_filter, memWf_del, notEnabled, issueEach_canon, variableBody_canon, h_s]; done) | (repeat' first | assumption | (with_reducible refine foldl_canon _ (fun s x hs => ?_) ?_) | (with_reducible apply ite_canon) | (with_reducible apply memWf_writeN) | (with_reducible apply memWf_write) | (with_reducible apply memWf_filter) | (with_reducible apply memWf_del) | (with_reducible apply issueEach_canon) | (with_reducible apply variableBody_canon) | (with_reducible apply h_s) | split | (intros; dsimp only))

theorem execFsgnjF64_canon (g : BitVec 4) (b : BitVec 6) (a : BitVec 6) (d : BitVec 6) (sm : BitVec 1) (s : State)  (h_s : memWf s.mem = true) :
    ∀ s', execFsgnjF64 g b a d sm s = .next s' → memWf s'.mem = true := by
  unfold execFsgnjF64
  refine issueEach_canon _ _ _ (by simp [State.fresh_canon, h_s]) (fun s t hs => ?_)
  first | assumption | (simp (maxDischargeDepth := 60) +contextual [*, ite_canon, foldl_canon, foldlFst_canon, memWf_writeN, memWf_write, memWf_filter, memWf_del, notEnabled, issueEach_canon, variableBody_canon, h_s]; done) | (repeat' first | assumption | (with_reducible refine foldl_canon _ (fun s x hs => ?_) ?_) | (with_reducible apply ite_canon) | (with_reducible apply memWf_writeN) | (with_reducible apply memWf_write) | (with_reducible apply memWf_filter) | (with_reducible apply memWf_del) | (with_reducible apply issueEach_canon) | (with_reducible apply variableBody_canon) | (with_reducible apply h_s) | split | (intros; dsimp only))

theorem execFaddF16x2_canon (g : BitVec 4) (b : BitVec 6) (a : BitVec 6) (d : BitVec 6) (sm : BitVec 1) (s : State)  (h_s : memWf s.mem = true) :
    ∀ s', execFaddF16x2 g b a d sm s = .next s' → memWf s'.mem = true := by
  unfold execFaddF16x2
  refine issueEach_canon _ _ _ (by simp [State.fresh_canon, h_s]) (fun s t hs => ?_)
  first | assumption | (simp (maxDischargeDepth := 60) +contextual [*, ite_canon, foldl_canon, foldlFst_canon, memWf_writeN, memWf_write, memWf_filter, memWf_del, notEnabled, issueEach_canon, variableBody_canon, h_s]; done) | (repeat' first | assumption | (with_reducible refine foldl_canon _ (fun s x hs => ?_) ?_) | (with_reducible apply ite_canon) | (with_reducible apply memWf_writeN) | (with_reducible apply memWf_write) | (with_reducible apply memWf_filter) | (with_reducible apply memWf_del) | (with_reducible apply issueEach_canon) | (with_reducible apply variableBody_canon) | (with_reducible apply h_s) | split | (intros; dsimp only))

theorem execFmulF16x2_canon (g : BitVec 4) (b : BitVec 6) (a : BitVec 6) (d : BitVec 6) (sm : BitVec 1) (s : State)  (h_s : memWf s.mem = true) :
    ∀ s', execFmulF16x2 g b a d sm s = .next s' → memWf s'.mem = true := by
  unfold execFmulF16x2
  refine issueEach_canon _ _ _ (by simp [State.fresh_canon, h_s]) (fun s t hs => ?_)
  first | assumption | (simp (maxDischargeDepth := 60) +contextual [*, ite_canon, foldl_canon, foldlFst_canon, memWf_writeN, memWf_write, memWf_filter, memWf_del, notEnabled, issueEach_canon, variableBody_canon, h_s]; done) | (repeat' first | assumption | (with_reducible refine foldl_canon _ (fun s x hs => ?_) ?_) | (with_reducible apply ite_canon) | (with_reducible apply memWf_writeN) | (with_reducible apply memWf_write) | (with_reducible apply memWf_filter) | (with_reducible apply memWf_del) | (with_reducible apply issueEach_canon) | (with_reducible apply variableBody_canon) | (with_reducible apply h_s) | split | (intros; dsimp only))

theorem execFfmaF16x2_canon (g : BitVec 4) (b : BitVec 6) (a : BitVec 6) (d : BitVec 6) (sm : BitVec 1) (s : State)  (h_s : memWf s.mem = true) :
    ∀ s', execFfmaF16x2 g b a d sm s = .next s' → memWf s'.mem = true := by
  unfold execFfmaF16x2
  refine issueEach_canon _ _ _ (by simp [State.fresh_canon, h_s]) (fun s t hs => ?_)
  first | assumption | (simp (maxDischargeDepth := 60) +contextual [*, ite_canon, foldl_canon, foldlFst_canon, memWf_writeN, memWf_write, memWf_filter, memWf_del, notEnabled, issueEach_canon, variableBody_canon, h_s]; done) | (repeat' first | assumption | (with_reducible refine foldl_canon _ (fun s x hs => ?_) ?_) | (with_reducible apply ite_canon) | (with_reducible apply memWf_writeN) | (with_reducible apply memWf_write) | (with_reducible apply memWf_filter) | (with_reducible apply memWf_del) | (with_reducible apply issueEach_canon) | (with_reducible apply variableBody_canon) | (with_reducible apply h_s) | split | (intros; dsimp only))

theorem execFmaxF16x2_canon (g : BitVec 4) (b : BitVec 6) (a : BitVec 6) (d : BitVec 6) (sm : BitVec 1) (s : State)  (h_s : memWf s.mem = true) :
    ∀ s', execFmaxF16x2 g b a d sm s = .next s' → memWf s'.mem = true := by
  unfold execFmaxF16x2
  refine issueEach_canon _ _ _ (by simp [State.fresh_canon, h_s]) (fun s t hs => ?_)
  first | assumption | (simp (maxDischargeDepth := 60) +contextual [*, ite_canon, foldl_canon, foldlFst_canon, memWf_writeN, memWf_write, memWf_filter, memWf_del, notEnabled, issueEach_canon, variableBody_canon, h_s]; done) | (repeat' first | assumption | (with_reducible refine foldl_canon _ (fun s x hs => ?_) ?_) | (with_reducible apply ite_canon) | (with_reducible apply memWf_writeN) | (with_reducible apply memWf_write) | (with_reducible apply memWf_filter) | (with_reducible apply memWf_del) | (with_reducible apply issueEach_canon) | (with_reducible apply variableBody_canon) | (with_reducible apply h_s) | split | (intros; dsimp only))

theorem execFaddBf16x2_canon (g : BitVec 4) (b : BitVec 6) (a : BitVec 6) (d : BitVec 6) (sm : BitVec 1) (s : State)  (h_s : memWf s.mem = true) :
    ∀ s', execFaddBf16x2 g b a d sm s = .next s' → memWf s'.mem = true := by
  unfold execFaddBf16x2
  refine issueEach_canon _ _ _ (by simp [State.fresh_canon, h_s]) (fun s t hs => ?_)
  first | assumption | (simp (maxDischargeDepth := 60) +contextual [*, ite_canon, foldl_canon, foldlFst_canon, memWf_writeN, memWf_write, memWf_filter, memWf_del, notEnabled, issueEach_canon, variableBody_canon, h_s]; done) | (repeat' first | assumption | (with_reducible refine foldl_canon _ (fun s x hs => ?_) ?_) | (with_reducible apply ite_canon) | (with_reducible apply memWf_writeN) | (with_reducible apply memWf_write) | (with_reducible apply memWf_filter) | (with_reducible apply memWf_del) | (with_reducible apply issueEach_canon) | (with_reducible apply variableBody_canon) | (with_reducible apply h_s) | split | (intros; dsimp only))

theorem execFmulBf16x2_canon (g : BitVec 4) (b : BitVec 6) (a : BitVec 6) (d : BitVec 6) (sm : BitVec 1) (s : State)  (h_s : memWf s.mem = true) :
    ∀ s', execFmulBf16x2 g b a d sm s = .next s' → memWf s'.mem = true := by
  unfold execFmulBf16x2
  refine issueEach_canon _ _ _ (by simp [State.fresh_canon, h_s]) (fun s t hs => ?_)
  first | assumption | (simp (maxDischargeDepth := 60) +contextual [*, ite_canon, foldl_canon, foldlFst_canon, memWf_writeN, memWf_write, memWf_filter, memWf_del, notEnabled, issueEach_canon, variableBody_canon, h_s]; done) | (repeat' first | assumption | (with_reducible refine foldl_canon _ (fun s x hs => ?_) ?_) | (with_reducible apply ite_canon) | (with_reducible apply memWf_writeN) | (with_reducible apply memWf_write) | (with_reducible apply memWf_filter) | (with_reducible apply memWf_del) | (with_reducible apply issueEach_canon) | (with_reducible apply variableBody_canon) | (with_reducible apply h_s) | split | (intros; dsimp only))

theorem execFfmaBf16x2_canon (g : BitVec 4) (b : BitVec 6) (a : BitVec 6) (d : BitVec 6) (sm : BitVec 1) (s : State)  (h_s : memWf s.mem = true) :
    ∀ s', execFfmaBf16x2 g b a d sm s = .next s' → memWf s'.mem = true := by
  unfold execFfmaBf16x2
  refine issueEach_canon _ _ _ (by simp [State.fresh_canon, h_s]) (fun s t hs => ?_)
  first | assumption | (simp (maxDischargeDepth := 60) +contextual [*, ite_canon, foldl_canon, foldlFst_canon, memWf_writeN, memWf_write, memWf_filter, memWf_del, notEnabled, issueEach_canon, variableBody_canon, h_s]; done) | (repeat' first | assumption | (with_reducible refine foldl_canon _ (fun s x hs => ?_) ?_) | (with_reducible apply ite_canon) | (with_reducible apply memWf_writeN) | (with_reducible apply memWf_write) | (with_reducible apply memWf_filter) | (with_reducible apply memWf_del) | (with_reducible apply issueEach_canon) | (with_reducible apply variableBody_canon) | (with_reducible apply h_s) | split | (intros; dsimp only))

theorem execFmaxBf16x2_canon (g : BitVec 4) (b : BitVec 6) (a : BitVec 6) (d : BitVec 6) (sm : BitVec 1) (s : State)  (h_s : memWf s.mem = true) :
    ∀ s', execFmaxBf16x2 g b a d sm s = .next s' → memWf s'.mem = true := by
  unfold execFmaxBf16x2
  refine issueEach_canon _ _ _ (by simp [State.fresh_canon, h_s]) (fun s t hs => ?_)
  first | assumption | (simp (maxDischargeDepth := 60) +contextual [*, ite_canon, foldl_canon, foldlFst_canon, memWf_writeN, memWf_write, memWf_filter, memWf_del, notEnabled, issueEach_canon, variableBody_canon, h_s]; done) | (repeat' first | assumption | (with_reducible refine foldl_canon _ (fun s x hs => ?_) ?_) | (with_reducible apply ite_canon) | (with_reducible apply memWf_writeN) | (with_reducible apply memWf_write) | (with_reducible apply memWf_filter) | (with_reducible apply memWf_del) | (with_reducible apply issueEach_canon) | (with_reducible apply variableBody_canon) | (with_reducible apply h_s) | split | (intros; dsimp only))

theorem execFfmaF32_canon (c : BitVec 6) (b : BitVec 6) (a : BitVec 6) (d : BitVec 6) (sm : BitVec 1) (s : State)  (h_s : memWf s.mem = true) :
    ∀ s', execFfmaF32 c b a d sm s = .next s' → memWf s'.mem = true := by
  unfold execFfmaF32
  refine issueEach_canon _ _ _ (by simp [State.fresh_canon, h_s]) (fun s t hs => ?_)
  first | assumption | (simp (maxDischargeDepth := 60) +contextual [*, ite_canon, foldl_canon, foldlFst_canon, memWf_writeN, memWf_write, memWf_filter, memWf_del, notEnabled, fixedBody_canon, issueEach_canon, h_s]; done) | (repeat' first | assumption | (with_reducible refine foldl_canon _ (fun s x hs => ?_) ?_) | (with_reducible apply ite_canon) | (with_reducible apply memWf_writeN) | (with_reducible apply memWf_write) | (with_reducible apply memWf_filter) | (with_reducible apply memWf_del) | (with_reducible apply fixedBody_canon) | (with_reducible apply issueEach_canon) | (with_reducible apply h_s) | split | (intros; dsimp only))

theorem execFfmaF64_canon (c : BitVec 6) (b : BitVec 6) (a : BitVec 6) (d : BitVec 6) (sm : BitVec 1) (s : State)  (h_s : memWf s.mem = true) :
    ∀ s', execFfmaF64 c b a d sm s = .next s' → memWf s'.mem = true := by
  unfold execFfmaF64
  refine issueEach_canon _ _ _ (by simp [State.fresh_canon, h_s]) (fun s t hs => ?_)
  first | assumption | (simp (maxDischargeDepth := 60) +contextual [*, ite_canon, foldl_canon, foldlFst_canon, memWf_writeN, memWf_write, memWf_filter, memWf_del, notEnabled, issueEach_canon, variableBody_canon, h_s]; done) | (repeat' first | assumption | (with_reducible refine foldl_canon _ (fun s x hs => ?_) ?_) | (with_reducible apply ite_canon) | (with_reducible apply memWf_writeN) | (with_reducible apply memWf_write) | (with_reducible apply memWf_filter) | (with_reducible apply memWf_del) | (with_reducible apply issueEach_canon) | (with_reducible apply variableBody_canon) | (with_reducible apply h_s) | split | (intros; dsimp only))

end Sys2Proof.Machine
end

