-- ==== Sys2Proof/Laws/CanonCrossLane.lean ====
section
/-! SUPPORT. Memory stays canonical through every operation of `CrossLane`. -/

set_option linter.all false

namespace Sys2Proof.Machine
open Sys2Proof

theorem gatherBody_canon (m : Nat) (run : State → Nat → State) (s : State) (t : Nat)  (h_s : memWf s.mem = true) (h_run : ∀ (y0 : State) (y1 : Nat), memWf y0.mem = true → memWf (run y0 y1).mem = true) :
    memWf (gatherBody m run s t).mem = true := by
  unfold gatherBody
  simp (maxDischargeDepth := 60) +contextual [ite_canon, foldl_canon, foldlFst_canon, memWf_writeN, memWf_write, memWf_filter, memWf_del, notEnabled, park_canon, raise_canon, testGather_canon, h_s, h_run]

theorem crossRun_canon (i : Instr) (s0 : State) (f : List Thread → Thread → Result) (s : State) (t : Nat)  (h_s0 : memWf s0.mem = true) (h_s : memWf s.mem = true) :
    memWf (crossRun i s0 f s t).mem = true := by
  unfold crossRun
  simp (maxDischargeDepth := 60) +contextual [ite_canon, foldl_canon, foldlFst_canon, memWf_writeN, memWf_write, memWf_filter, memWf_del, notEnabled, State.modThread_canon, h_s0, h_s]

theorem execLswap_canon (m : BitVec 4) (i : BitVec 6) (a : BitVec 6) (d : BitVec 6) (sm : BitVec 1) (s : State)  (h_s : memWf s.mem = true) :
    ∀ s', execLswap m i a d sm s = .next s' → memWf s'.mem = true := by
  unfold execLswap
  refine issueEach_canon _ _ _ (by simp [State.fresh_canon, h_s]) (fun s t hs => ?_)
  first | assumption | (simp (maxDischargeDepth := 60) +contextual [*, ite_canon, foldl_canon, foldlFst_canon, memWf_writeN, memWf_write, memWf_filter, memWf_del, notEnabled, crossRun_canon, gatherBody_canon, issueEach_canon, h_s]; done) | (repeat' first | assumption | (with_reducible refine foldl_canon _ (fun s x hs => ?_) ?_) | (with_reducible apply ite_canon) | (with_reducible apply memWf_writeN) | (with_reducible apply memWf_write) | (with_reducible apply memWf_filter) | (with_reducible apply memWf_del) | (with_reducible apply crossRun_canon) | (with_reducible apply gatherBody_canon) | (with_reducible apply issueEach_canon) | (with_reducible apply h_s) | split | (intros; dsimp only))

theorem execShfl_canon (m : BitVec 4) (b : BitVec 6) (a : BitVec 6) (d : BitVec 6) (sm : BitVec 1) (s : State)  (h_s : memWf s.mem = true) :
    ∀ s', execShfl m b a d sm s = .next s' → memWf s'.mem = true := by
  unfold execShfl
  refine issueEach_canon _ _ _ (by simp [State.fresh_canon, h_s]) (fun s t hs => ?_)
  first | assumption | (simp (maxDischargeDepth := 60) +contextual [*, ite_canon, foldl_canon, foldlFst_canon, memWf_writeN, memWf_write, memWf_filter, memWf_del, notEnabled, crossRun_canon, gatherBody_canon, issueEach_canon, h_s]; done) | (repeat' first | assumption | (with_reducible refine foldl_canon _ (fun s x hs => ?_) ?_) | (with_reducible apply ite_canon) | (with_reducible apply memWf_writeN) | (with_reducible apply memWf_write) | (with_reducible apply memWf_filter) | (with_reducible apply memWf_del) | (with_reducible apply crossRun_canon) | (with_reducible apply gatherBody_canon) | (with_reducible apply issueEach_canon) | (with_reducible apply h_s) | split | (intros; dsimp only))

theorem execBcast_canon (m : BitVec 4) (i : BitVec 6) (a : BitVec 6) (d : BitVec 6) (sm : BitVec 1) (s : State)  (h_s : memWf s.mem = true) :
    ∀ s', execBcast m i a d sm s = .next s' → memWf s'.mem = true := by
  unfold execBcast
  refine issueEach_canon _ _ _ (by simp [State.fresh_canon, h_s]) (fun s t hs => ?_)
  first | assumption | (simp (maxDischargeDepth := 60) +contextual [*, ite_canon, foldl_canon, foldlFst_canon, memWf_writeN, memWf_write, memWf_filter, memWf_del, notEnabled, crossRun_canon, gatherBody_canon, issueEach_canon, h_s]; done) | (repeat' first | assumption | (with_reducible refine foldl_canon _ (fun s x hs => ?_) ?_) | (with_reducible apply ite_canon) | (with_reducible apply memWf_writeN) | (with_reducible apply memWf_write) | (with_reducible apply memWf_filter) | (with_reducible apply memWf_del) | (with_reducible apply crossRun_canon) | (with_reducible apply gatherBody_canon) | (with_reducible apply issueEach_canon) | (with_reducible apply h_s) | split | (intros; dsimp only))

theorem execBallot_canon (m : BitVec 4) (a : BitVec 3) (d : BitVec 6) (sm : BitVec 1) (s : State)  (h_s : memWf s.mem = true) :
    ∀ s', execBallot m a d sm s = .next s' → memWf s'.mem = true := by
  unfold execBallot
  refine issueEach_canon _ _ _ (by simp [State.fresh_canon, h_s]) (fun s t hs => ?_)
  first | assumption | (simp (maxDischargeDepth := 60) +contextual [*, ite_canon, foldl_canon, foldlFst_canon, memWf_writeN, memWf_write, memWf_filter, memWf_del, notEnabled, crossRun_canon, gatherBody_canon, issueEach_canon, h_s]; done) | (repeat' first | assumption | (with_reducible refine foldl_canon _ (fun s x hs => ?_) ?_) | (with_reducible apply ite_canon) | (with_reducible apply memWf_writeN) | (with_reducible apply memWf_write) | (with_reducible apply memWf_filter) | (with_reducible apply memWf_del) | (with_reducible apply crossRun_canon) | (with_reducible apply gatherBody_canon) | (with_reducible apply issueEach_canon) | (with_reducible apply h_s) | split | (intros; dsimp only))

theorem execRedOp_canon (m : BitVec 4) (o : BitVec 3) (a : BitVec 6) (d : BitVec 6) (sm : BitVec 1) (s : State)  (h_s : memWf s.mem = true) :
    ∀ s', execRedOp m o a d sm s = .next s' → memWf s'.mem = true := by
  unfold execRedOp
  refine issueEach_canon _ _ _ (by simp [State.fresh_canon, h_s]) (fun s t hs => ?_)
  first | assumption | (simp (maxDischargeDepth := 60) +contextual [*, ite_canon, foldl_canon, foldlFst_canon, memWf_writeN, memWf_write, memWf_filter, memWf_del, notEnabled, crossRun_canon, gatherBody_canon, issueEach_canon, h_s]; done) | (repeat' first | assumption | (with_reducible refine foldl_canon _ (fun s x hs => ?_) ?_) | (with_reducible apply ite_canon) | (with_reducible apply memWf_writeN) | (with_reducible apply memWf_write) | (with_reducible apply memWf_filter) | (with_reducible apply memWf_del) | (with_reducible apply crossRun_canon) | (with_reducible apply gatherBody_canon) | (with_reducible apply issueEach_canon) | (with_reducible apply h_s) | split | (intros; dsimp only))

theorem execRedFopF32_canon (m : BitVec 4) (o : BitVec 2) (a : BitVec 6) (d : BitVec 6) (sm : BitVec 1) (s : State)  (h_s : memWf s.mem = true) :
    ∀ s', execRedFopF32 m o a d sm s = .next s' → memWf s'.mem = true := by
  unfold execRedFopF32
  refine issueEach_canon _ _ _ (by simp [State.fresh_canon, h_s]) (fun s t hs => ?_)
  first | assumption | (simp (maxDischargeDepth := 60) +contextual [*, ite_canon, foldl_canon, foldlFst_canon, memWf_writeN, memWf_write, memWf_filter, memWf_del, notEnabled, crossRun_canon, gatherBody_canon, issueEach_canon, h_s]; done) | (repeat' first | assumption | (with_reducible refine foldl_canon _ (fun s x hs => ?_) ?_) | (with_reducible apply ite_canon) | (with_reducible apply memWf_writeN) | (with_reducible apply memWf_write) | (with_reducible apply memWf_filter) | (with_reducible apply memWf_del) | (with_reducible apply crossRun_canon) | (with_reducible apply gatherBody_canon) | (with_reducible apply issueEach_canon) | (with_reducible apply h_s) | split | (intros; dsimp only))

theorem execScanAdd_canon (m : BitVec 4) (a : BitVec 6) (d : BitVec 6) (sm : BitVec 1) (s : State)  (h_s : memWf s.mem = true) :
    ∀ s', execScanAdd m a d sm s = .next s' → memWf s'.mem = true := by
  unfold execScanAdd
  refine issueEach_canon _ _ _ (by simp [State.fresh_canon, h_s]) (fun s t hs => ?_)
  first | assumption | (simp (maxDischargeDepth := 60) +contextual [*, ite_canon, foldl_canon, foldlFst_canon, memWf_writeN, memWf_write, memWf_filter, memWf_del, notEnabled, crossRun_canon, gatherBody_canon, issueEach_canon, h_s]; done) | (repeat' first | assumption | (with_reducible refine foldl_canon _ (fun s x hs => ?_) ?_) | (with_reducible apply ite_canon) | (with_reducible apply memWf_writeN) | (with_reducible apply memWf_write) | (with_reducible apply memWf_filter) | (with_reducible apply memWf_del) | (with_reducible apply crossRun_canon) | (with_reducible apply gatherBody_canon) | (with_reducible apply issueEach_canon) | (with_reducible apply h_s) | split | (intros; dsimp only))

theorem execRedFopF64_canon (m : BitVec 4) (o : BitVec 2) (a : BitVec 6) (d : BitVec 6) (sm : BitVec 1) (s : State)  (h_s : memWf s.mem = true) :
    ∀ s', execRedFopF64 m o a d sm s = .next s' → memWf s'.mem = true := by
  unfold execRedFopF64
  refine issueEach_canon _ _ _ (by simp [State.fresh_canon, h_s]) (fun s t hs => ?_)
  first | assumption | (simp (maxDischargeDepth := 60) +contextual [*, ite_canon, foldl_canon, foldlFst_canon, memWf_writeN, memWf_write, memWf_filter, memWf_del, notEnabled, crossRun_canon, gatherBody_canon, issueEach_canon, h_s]; done) | (repeat' first | assumption | (with_reducible refine foldl_canon _ (fun s x hs => ?_) ?_) | (with_reducible apply ite_canon) | (with_reducible apply memWf_writeN) | (with_reducible apply memWf_write) | (with_reducible apply memWf_filter) | (with_reducible apply memWf_del) | (with_reducible apply crossRun_canon) | (with_reducible apply gatherBody_canon) | (with_reducible apply issueEach_canon) | (with_reducible apply h_s) | split | (intros; dsimp only))

end Sys2Proof.Machine
end

