-- ==== Sys2Proof/Laws/CanonControl.lean ====
section
/-! SUPPORT. Memory stays canonical through every operation of `Control`. -/

set_option linter.all false

namespace Sys2Proof.Machine
open Sys2Proof

theorem landCheck_canon (s : State) (t : Nat) (target : DWord) (h_s : memWf s.mem = true) :
    memWf (landCheck s t target).1.mem = true := by
  have h := fetch32_canon s (s.coreOf t) (s.trainOf t).quarter (s.ctxOf t) (s.launchOf t) target.toNat t h_s
  unfold landCheck
  generalize fetch32 s (s.coreOf t) (s.trainOf t).quarter (s.ctxOf t) (s.launchOf t) target.toNat t = r at h ⊢
  split
  · split
    · dsimp only
      split
      · split <;> exact h
      · exact h
      · exact h
    · exact h_s
  · exact h_s

theorem jumpBody_canon (a : Nat) (land : Bool) (link : Thread → Thread) (s : State) (t : Nat)  (h_s : memWf s.mem = true) :
    memWf (jumpBody a land link s t).mem = true := by
  unfold jumpBody
  try dsimp only
  repeat' split
  all_goals simp (maxDischargeDepth := 60) +contextual [ite_canon, foldl_canon, foldlFst_canon, memWf_writeN, memWf_write, memWf_filter, memWf_del, notEnabled, State.modThread_canon, landCheck_canon, raise_canon, h_s]

theorem deliverCharged_canon (s : State) (t : Nat) (r : Record)  (h_s : memWf s.mem = true) :
    memWf (deliverCharged s t r).mem = true := by
  unfold deliverCharged
  simp (maxDischargeDepth := 60) +contextual [ite_canon, foldl_canon, foldlFst_canon, memWf_writeN, memWf_write, memWf_filter, memWf_del, notEnabled, park_canon, takeTrap_canon, h_s]

theorem afterHelpers_canon (rest : State → Nat → State) (s : State) (t : Nat)  (h_s : memWf s.mem = true) (h_rest : ∀ (y0 : State) (y1 : Nat), memWf y0.mem = true → memWf (rest y0 y1).mem = true) :
    memWf (afterHelpers rest s t).mem = true := by
  unfold afterHelpers
  try dsimp only
  repeat' split
  all_goals simp (maxDischargeDepth := 60) +contextual [ite_canon, foldl_canon, foldlFst_canon, memWf_writeN, memWf_write, memWf_filter, memWf_del, notEnabled, deliverCharged_canon, park_canon, h_s, h_rest]

theorem endThread_canon (s : State) (t : Nat)  (h_s : memWf s.mem = true) :
    memWf (endThread s t).mem = true := by
  unfold endThread
  simp (maxDischargeDepth := 60) +contextual [ite_canon, foldl_canon, foldlFst_canon, memWf_writeN, memWf_write, memWf_filter, memWf_del, notEnabled, State.modThread_canon, State.modTrain_canon, testGathers_canon, h_s]

theorem exitSteps_canon  (x0 : State) (x1 : Nat) (h_x0 : memWf x0.mem = true) :
    memWf (exitSteps x0 x1).mem = true := by
  induction x0 generalizing x1
  all_goals
    unfold exitSteps
    simp (maxDischargeDepth := 60) +contextual [*, ite_canon, foldl_canon, foldlFst_canon, memWf_writeN, memWf_write, memWf_filter, memWf_del, notEnabled, State.modThread_canon, afterHelpers_canon, boundaryStep_canon, endThread_canon, h_x0]

theorem exitBody_canon (s : State) (t : Nat)  (h_s : memWf s.mem = true) :
    memWf (exitBody s t).mem = true := by
  unfold exitBody
  simp (maxDischargeDepth := 60) +contextual [ite_canon, foldl_canon, foldlFst_canon, memWf_writeN, memWf_write, memWf_filter, memWf_del, notEnabled, State.modThread_canon, deliverHeld_canon, exitSteps_canon, markedBody_canon, h_s]

theorem execBr_canon (x : BitVec 21) (v : BitVec 1) (q : BitVec 3) (sm : BitVec 1) (s : State)  (h_s : memWf s.mem = true) :
    ∀ s', execBr x v q sm s = .next s' → memWf s'.mem = true := by
  unfold execBr
  refine issueEach_canon _ _ _ (by simp [State.fresh_canon, h_s]) (fun s t hs => ?_)
  first | assumption | (simp (maxDischargeDepth := 60) +contextual [*, ite_canon, foldl_canon, foldlFst_canon, memWf_writeN, memWf_write, memWf_filter, memWf_del, notEnabled, State.modThread_canon, issueEach_canon, h_s]; done) | (repeat' first | assumption | (with_reducible refine foldl_canon _ (fun s x hs => ?_) ?_) | (with_reducible apply ite_canon) | (with_reducible apply memWf_writeN) | (with_reducible apply memWf_write) | (with_reducible apply memWf_filter) | (with_reducible apply memWf_del) | (with_reducible apply State.modThread_canon) | (with_reducible apply issueEach_canon) | (with_reducible apply h_s) | split | (intros; dsimp only))

theorem execCall_canon (x : BitVec 21) (sm : BitVec 1) (s : State)  (h_s : memWf s.mem = true) :
    ∀ s', execCall x sm s = .next s' → memWf s'.mem = true := by
  unfold execCall
  refine issueEach_canon _ _ _ (by simp [State.fresh_canon, h_s]) (fun s t hs => ?_)
  first | assumption | (simp (maxDischargeDepth := 60) +contextual [*, ite_canon, foldl_canon, foldlFst_canon, memWf_writeN, memWf_write, memWf_filter, memWf_del, notEnabled, State.modThread_canon, issueEach_canon, h_s]; done) | (repeat' first | assumption | (with_reducible refine foldl_canon _ (fun s x hs => ?_) ?_) | (with_reducible apply ite_canon) | (with_reducible apply memWf_writeN) | (with_reducible apply memWf_write) | (with_reducible apply memWf_filter) | (with_reducible apply memWf_del) | (with_reducible apply State.modThread_canon) | (with_reducible apply issueEach_canon) | (with_reducible apply h_s) | split | (intros; dsimp only))

theorem execExit_canon (sm : BitVec 1) (s : State)  (h_s : memWf s.mem = true) :
    ∀ s', execExit sm s = .next s' → memWf s'.mem = true := by
  unfold execExit
  refine issueEach_canon _ _ _ (by simp [State.fresh_canon, h_s]) (fun s t hs => ?_)
  first | assumption | (simp (maxDischargeDepth := 60) +contextual [*, ite_canon, foldl_canon, foldlFst_canon, memWf_writeN, memWf_write, memWf_filter, memWf_del, notEnabled, exitBody_canon, issueEach_canon, h_s]; done) | (repeat' first | assumption | (with_reducible refine foldl_canon _ (fun s x hs => ?_) ?_) | (with_reducible apply ite_canon) | (with_reducible apply memWf_writeN) | (with_reducible apply memWf_write) | (with_reducible apply memWf_filter) | (with_reducible apply memWf_del) | (with_reducible apply exitBody_canon) | (with_reducible apply issueEach_canon) | (with_reducible apply h_s) | split | (intros; dsimp only))

theorem execJr_canon (a : BitVec 6) (sm : BitVec 1) (s : State)  (h_s : memWf s.mem = true) :
    ∀ s', execJr a sm s = .next s' → memWf s'.mem = true := by
  unfold execJr
  refine issueEach_canon _ _ _ (by simp [State.fresh_canon, h_s]) (fun s t hs => ?_)
  first | assumption | (simp (maxDischargeDepth := 60) +contextual [*, ite_canon, foldl_canon, foldlFst_canon, memWf_writeN, memWf_write, memWf_filter, memWf_del, notEnabled, issueEach_canon, jumpBody_canon, h_s]; done) | (repeat' first | assumption | (with_reducible refine foldl_canon _ (fun s x hs => ?_) ?_) | (with_reducible apply ite_canon) | (with_reducible apply memWf_writeN) | (with_reducible apply memWf_write) | (with_reducible apply memWf_filter) | (with_reducible apply memWf_del) | (with_reducible apply issueEach_canon) | (with_reducible apply jumpBody_canon) | (with_reducible apply h_s) | split | (intros; dsimp only))

theorem execJalr_canon (a : BitVec 6) (d : BitVec 6) (sm : BitVec 1) (s : State)  (h_s : memWf s.mem = true) :
    ∀ s', execJalr a d sm s = .next s' → memWf s'.mem = true := by
  unfold execJalr
  refine issueEach_canon _ _ _ (by simp [State.fresh_canon, h_s]) (fun s t hs => ?_)
  first | assumption | (simp (maxDischargeDepth := 60) +contextual [*, ite_canon, foldl_canon, foldlFst_canon, memWf_writeN, memWf_write, memWf_filter, memWf_del, notEnabled, issueEach_canon, jumpBody_canon, h_s]; done) | (repeat' first | assumption | (with_reducible refine foldl_canon _ (fun s x hs => ?_) ?_) | (with_reducible apply ite_canon) | (with_reducible apply memWf_writeN) | (with_reducible apply memWf_write) | (with_reducible apply memWf_filter) | (with_reducible apply memWf_del) | (with_reducible apply issueEach_canon) | (with_reducible apply jumpBody_canon) | (with_reducible apply h_s) | split | (intros; dsimp only))

theorem execRet_canon (a : BitVec 6) (sm : BitVec 1) (s : State)  (h_s : memWf s.mem = true) :
    ∀ s', execRet a sm s = .next s' → memWf s'.mem = true := by
  unfold execRet
  refine issueEach_canon _ _ _ (by simp [State.fresh_canon, h_s]) (fun s t hs => ?_)
  first | assumption | (simp (maxDischargeDepth := 60) +contextual [*, ite_canon, foldl_canon, foldlFst_canon, memWf_writeN, memWf_write, memWf_filter, memWf_del, notEnabled, issueEach_canon, jumpBody_canon, h_s]; done) | (repeat' first | assumption | (with_reducible refine foldl_canon _ (fun s x hs => ?_) ?_) | (with_reducible apply ite_canon) | (with_reducible apply memWf_writeN) | (with_reducible apply memWf_write) | (with_reducible apply memWf_filter) | (with_reducible apply memWf_del) | (with_reducible apply issueEach_canon) | (with_reducible apply jumpBody_canon) | (with_reducible apply h_s) | split | (intros; dsimp only))

theorem execLand_canon (sm : BitVec 1) (s : State)  (h_s : memWf s.mem = true) :
    ∀ s', execLand sm s = .next s' → memWf s'.mem = true := by
  unfold execLand
  refine issueEach_canon _ _ _ (by simp [State.fresh_canon, h_s]) (fun s t hs => ?_)
  first | assumption | (simp (maxDischargeDepth := 60) +contextual [*, ite_canon, foldl_canon, foldlFst_canon, memWf_writeN, memWf_write, memWf_filter, memWf_del, notEnabled, fixedBody_canon, issueEach_canon, h_s]; done) | (repeat' first | assumption | (with_reducible refine foldl_canon _ (fun s x hs => ?_) ?_) | (with_reducible apply ite_canon) | (with_reducible apply memWf_writeN) | (with_reducible apply memWf_write) | (with_reducible apply memWf_filter) | (with_reducible apply memWf_del) | (with_reducible apply fixedBody_canon) | (with_reducible apply issueEach_canon) | (with_reducible apply h_s) | split | (intros; dsimp only))

theorem execJoin_canon (d : BitVec 6) (sm : BitVec 1) (s : State)  (h_s : memWf s.mem = true) :
    ∀ s', execJoin d sm s = .next s' → memWf s'.mem = true := by
  unfold execJoin
  refine issueEach_canon _ _ _ (by simp [State.fresh_canon, h_s]) (fun s t hs => ?_)
  first | assumption | (simp (maxDischargeDepth := 60) +contextual [*, ite_canon, foldl_canon, foldlFst_canon, memWf_writeN, memWf_write, memWf_filter, memWf_del, notEnabled, advance_canon, issueEach_canon, modMask_canon, h_s]; done) | (repeat' first | assumption | (with_reducible refine foldl_canon _ (fun s x hs => ?_) ?_) | (with_reducible apply ite_canon) | (with_reducible apply memWf_writeN) | (with_reducible apply memWf_write) | (with_reducible apply memWf_filter) | (with_reducible apply memWf_del) | (with_reducible apply advance_canon) | (with_reducible apply issueEach_canon) | (with_reducible apply modMask_canon) | (with_reducible apply h_s) | split | (intros; dsimp only))

theorem execLeave_canon (d : BitVec 6) (sm : BitVec 1) (s : State)  (h_s : memWf s.mem = true) :
    ∀ s', execLeave d sm s = .next s' → memWf s'.mem = true := by
  unfold execLeave
  refine issueEach_canon _ _ _ (by simp [State.fresh_canon, h_s]) (fun s t hs => ?_)
  first | assumption | (simp (maxDischargeDepth := 60) +contextual [*, ite_canon, foldl_canon, foldlFst_canon, memWf_writeN, memWf_write, memWf_filter, memWf_del, notEnabled, advance_canon, issueEach_canon, modMask_canon, testGather_canon, h_s]; done) | (repeat' first | assumption | (with_reducible refine foldl_canon _ (fun s x hs => ?_) ?_) | (with_reducible apply ite_canon) | (with_reducible apply memWf_writeN) | (with_reducible apply memWf_write) | (with_reducible apply memWf_filter) | (with_reducible apply memWf_del) | (with_reducible apply advance_canon) | (with_reducible apply issueEach_canon) | (with_reducible apply modMask_canon) | (with_reducible apply testGather_canon) | (with_reducible apply h_s) | split | (intros; dsimp only))

theorem execWaitm_canon (d : BitVec 6) (sm : BitVec 1) (s : State)  (h_s : memWf s.mem = true) :
    ∀ s', execWaitm d sm s = .next s' → memWf s'.mem = true := by
  unfold execWaitm
  refine issueEach_canon _ _ _ (by simp [State.fresh_canon, h_s]) (fun s t hs => ?_)
  first | assumption | (simp (maxDischargeDepth := 60) +contextual [*, ite_canon, foldl_canon, foldlFst_canon, memWf_writeN, memWf_write, memWf_filter, memWf_del, notEnabled, advance_canon, gatherBody_canon, issueEach_canon, h_s]; done) | (repeat' first | assumption | (with_reducible refine foldl_canon _ (fun s x hs => ?_) ?_) | (with_reducible apply ite_canon) | (with_reducible apply memWf_writeN) | (with_reducible apply memWf_write) | (with_reducible apply memWf_filter) | (with_reducible apply memWf_del) | (with_reducible apply advance_canon) | (with_reducible apply gatherBody_canon) | (with_reducible apply issueEach_canon) | (with_reducible apply h_s) | split | (intros; dsimp only))

theorem execMrd_canon (a : BitVec 6) (d : BitVec 6) (sm : BitVec 1) (s : State)  (h_s : memWf s.mem = true) :
    ∀ s', execMrd a d sm s = .next s' → memWf s'.mem = true := by
  unfold execMrd
  refine issueEach_canon _ _ _ (by simp [State.fresh_canon, h_s]) (fun s t hs => ?_)
  first | assumption | (simp (maxDischargeDepth := 60) +contextual [*, ite_canon, foldl_canon, foldlFst_canon, memWf_writeN, memWf_write, memWf_filter, memWf_del, notEnabled, State.modThread_canon, issueEach_canon, h_s]; done) | (repeat' first | assumption | (with_reducible refine foldl_canon _ (fun s x hs => ?_) ?_) | (with_reducible apply ite_canon) | (with_reducible apply memWf_writeN) | (with_reducible apply memWf_write) | (with_reducible apply memWf_filter) | (with_reducible apply memWf_del) | (with_reducible apply State.modThread_canon) | (with_reducible apply issueEach_canon) | (with_reducible apply h_s) | split | (intros; dsimp only))

theorem execHzrd_canon (d : BitVec 6) (sm : BitVec 1) (s : State)  (h_s : memWf s.mem = true) :
    ∀ s', execHzrd d sm s = .next s' → memWf s'.mem = true := by
  unfold execHzrd
  refine issueEach_canon _ _ _ (by simp [State.fresh_canon, h_s]) (fun s t hs => ?_)
  first | assumption | (simp (maxDischargeDepth := 60) +contextual [*, ite_canon, foldl_canon, foldlFst_canon, memWf_writeN, memWf_write, memWf_filter, memWf_del, notEnabled, issueEach_canon, variableBody_canon, h_s]; done) | (repeat' first | assumption | (with_reducible refine foldl_canon _ (fun s x hs => ?_) ?_) | (with_reducible apply ite_canon) | (with_reducible apply memWf_writeN) | (with_reducible apply memWf_write) | (with_reducible apply memWf_filter) | (with_reducible apply memWf_del) | (with_reducible apply issueEach_canon) | (with_reducible apply variableBody_canon) | (with_reducible apply h_s) | split | (intros; dsimp only))

theorem execHzwait_canon (a : BitVec 6) (sm : BitVec 1) (s : State)  (h_s : memWf s.mem = true) :
    ∀ s', execHzwait a sm s = .next s' → memWf s'.mem = true := by
  unfold execHzwait
  refine issueEach_canon _ _ _ (by simp [State.fresh_canon, h_s]) (fun s t hs => ?_)
  first | assumption | (simp (maxDischargeDepth := 60) +contextual [*, ite_canon, foldl_canon, foldlFst_canon, memWf_writeN, memWf_write, memWf_filter, memWf_del, notEnabled, advance_canon, issueEach_canon, park_canon, h_s]; done) | (repeat' first | assumption | (with_reducible refine foldl_canon _ (fun s x hs => ?_) ?_) | (with_reducible apply ite_canon) | (with_reducible apply memWf_writeN) | (with_reducible apply memWf_write) | (with_reducible apply memWf_filter) | (with_reducible apply memWf_del) | (with_reducible apply advance_canon) | (with_reducible apply issueEach_canon) | (with_reducible apply park_canon) | (with_reducible apply h_s) | split | (intros; dsimp only))

theorem execHzbr_canon (x : BitVec 18) (sm : BitVec 1) (s : State)  (h_s : memWf s.mem = true) :
    ∀ s', execHzbr x sm s = .next s' → memWf s'.mem = true := by
  unfold execHzbr
  refine issueEach_canon _ _ _ (by simp [State.fresh_canon, h_s]) (fun s t hs => ?_)
  first | assumption | (simp (maxDischargeDepth := 60) +contextual [*, ite_canon, foldl_canon, foldlFst_canon, memWf_writeN, memWf_write, memWf_filter, memWf_del, notEnabled, State.modThread_canon, advance_canon, issueEach_canon, h_s]; done) | (repeat' first | assumption | (with_reducible refine foldl_canon _ (fun s x hs => ?_) ?_) | (with_reducible apply ite_canon) | (with_reducible apply memWf_writeN) | (with_reducible apply memWf_write) | (with_reducible apply memWf_filter) | (with_reducible apply memWf_del) | (with_reducible apply State.modThread_canon) | (with_reducible apply advance_canon) | (with_reducible apply issueEach_canon) | (with_reducible apply h_s) | split | (intros; dsimp only))

theorem execHzbrn_canon (x : BitVec 18) (sm : BitVec 1) (s : State)  (h_s : memWf s.mem = true) :
    ∀ s', execHzbrn x sm s = .next s' → memWf s'.mem = true := by
  unfold execHzbrn
  refine issueEach_canon _ _ _ (by simp [State.fresh_canon, h_s]) (fun s t hs => ?_)
  first | assumption | (simp (maxDischargeDepth := 60) +contextual [*, ite_canon, foldl_canon, foldlFst_canon, memWf_writeN, memWf_write, memWf_filter, memWf_del, notEnabled, State.modThread_canon, advance_canon, issueEach_canon, h_s]; done) | (repeat' first | assumption | (with_reducible refine foldl_canon _ (fun s x hs => ?_) ?_) | (with_reducible apply ite_canon) | (with_reducible apply memWf_writeN) | (with_reducible apply memWf_write) | (with_reducible apply memWf_filter) | (with_reducible apply memWf_del) | (with_reducible apply State.modThread_canon) | (with_reducible apply advance_canon) | (with_reducible apply issueEach_canon) | (with_reducible apply h_s) | split | (intros; dsimp only))

end Sys2Proof.Machine
end

