-- ==== Sys2Proof/Laws/CanonConvert.lean ====
section
/-! SUPPORT. Memory stays canonical through every operation of `Convert`. -/

set_option linter.all false

namespace Sys2Proof.Machine
open Sys2Proof

theorem execCvtF32F64_canon (a : BitVec 6) (d : BitVec 6) (sm : BitVec 1) (s : State)  (h_s : memWf s.mem = true) :
    ∀ s', execCvtF32F64 a d sm s = .next s' → memWf s'.mem = true := by
  unfold execCvtF32F64
  refine issueEach_canon _ _ _ (by simp [State.fresh_canon, h_s]) (fun s t hs => ?_)
  first | assumption | (simp (maxDischargeDepth := 60) +contextual [*, ite_canon, foldl_canon, foldlFst_canon, memWf_writeN, memWf_write, memWf_filter, memWf_del, notEnabled, issueEach_canon, variableBody_canon, h_s]; done) | (repeat' first | assumption | (with_reducible refine foldl_canon _ (fun s x hs => ?_) ?_) | (with_reducible apply ite_canon) | (with_reducible apply memWf_writeN) | (with_reducible apply memWf_write) | (with_reducible apply memWf_filter) | (with_reducible apply memWf_del) | (with_reducible apply issueEach_canon) | (with_reducible apply variableBody_canon) | (with_reducible apply h_s) | split | (intros; dsimp only))

theorem execCvtRzF32F64_canon (a : BitVec 6) (d : BitVec 6) (sm : BitVec 1) (s : State)  (h_s : memWf s.mem = true) :
    ∀ s', execCvtRzF32F64 a d sm s = .next s' → memWf s'.mem = true := by
  unfold execCvtRzF32F64
  refine issueEach_canon _ _ _ (by simp [State.fresh_canon, h_s]) (fun s t hs => ?_)
  first | assumption | (simp (maxDischargeDepth := 60) +contextual [*, ite_canon, foldl_canon, foldlFst_canon, memWf_writeN, memWf_write, memWf_filter, memWf_del, notEnabled, issueEach_canon, variableBody_canon, h_s]; done) | (repeat' first | assumption | (with_reducible refine foldl_canon _ (fun s x hs => ?_) ?_) | (with_reducible apply ite_canon) | (with_reducible apply memWf_writeN) | (with_reducible apply memWf_write) | (with_reducible apply memWf_filter) | (with_reducible apply memWf_del) | (with_reducible apply issueEach_canon) | (with_reducible apply variableBody_canon) | (with_reducible apply h_s) | split | (intros; dsimp only))

theorem execCvtF64F32_canon (a : BitVec 6) (d : BitVec 6) (sm : BitVec 1) (s : State)  (h_s : memWf s.mem = true) :
    ∀ s', execCvtF64F32 a d sm s = .next s' → memWf s'.mem = true := by
  unfold execCvtF64F32
  refine issueEach_canon _ _ _ (by simp [State.fresh_canon, h_s]) (fun s t hs => ?_)
  first | assumption | (simp (maxDischargeDepth := 60) +contextual [*, ite_canon, foldl_canon, foldlFst_canon, memWf_writeN, memWf_write, memWf_filter, memWf_del, notEnabled, issueEach_canon, variableBody_canon, h_s]; done) | (repeat' first | assumption | (with_reducible refine foldl_canon _ (fun s x hs => ?_) ?_) | (with_reducible apply ite_canon) | (with_reducible apply memWf_writeN) | (with_reducible apply memWf_write) | (with_reducible apply memWf_filter) | (with_reducible apply memWf_del) | (with_reducible apply issueEach_canon) | (with_reducible apply variableBody_canon) | (with_reducible apply h_s) | split | (intros; dsimp only))

theorem execCvtF32S32_canon (a : BitVec 6) (d : BitVec 6) (sm : BitVec 1) (s : State)  (h_s : memWf s.mem = true) :
    ∀ s', execCvtF32S32 a d sm s = .next s' → memWf s'.mem = true := by
  unfold execCvtF32S32
  refine issueEach_canon _ _ _ (by simp [State.fresh_canon, h_s]) (fun s t hs => ?_)
  first | assumption | (simp (maxDischargeDepth := 60) +contextual [*, ite_canon, foldl_canon, foldlFst_canon, memWf_writeN, memWf_write, memWf_filter, memWf_del, notEnabled, issueEach_canon, variableBody_canon, h_s]; done) | (repeat' first | assumption | (with_reducible refine foldl_canon _ (fun s x hs => ?_) ?_) | (with_reducible apply ite_canon) | (with_reducible apply memWf_writeN) | (with_reducible apply memWf_write) | (with_reducible apply memWf_filter) | (with_reducible apply memWf_del) | (with_reducible apply issueEach_canon) | (with_reducible apply variableBody_canon) | (with_reducible apply h_s) | split | (intros; dsimp only))

theorem execCvtF32Uns32_canon (a : BitVec 6) (d : BitVec 6) (sm : BitVec 1) (s : State)  (h_s : memWf s.mem = true) :
    ∀ s', execCvtF32Uns32 a d sm s = .next s' → memWf s'.mem = true := by
  unfold execCvtF32Uns32
  refine issueEach_canon _ _ _ (by simp [State.fresh_canon, h_s]) (fun s t hs => ?_)
  first | assumption | (simp (maxDischargeDepth := 60) +contextual [*, ite_canon, foldl_canon, foldlFst_canon, memWf_writeN, memWf_write, memWf_filter, memWf_del, notEnabled, issueEach_canon, variableBody_canon, h_s]; done) | (repeat' first | assumption | (with_reducible refine foldl_canon _ (fun s x hs => ?_) ?_) | (with_reducible apply ite_canon) | (with_reducible apply memWf_writeN) | (with_reducible apply memWf_write) | (with_reducible apply memWf_filter) | (with_reducible apply memWf_del) | (with_reducible apply issueEach_canon) | (with_reducible apply variableBody_canon) | (with_reducible apply h_s) | split | (intros; dsimp only))

theorem execCvtS32F32_canon (a : BitVec 6) (d : BitVec 6) (sm : BitVec 1) (s : State)  (h_s : memWf s.mem = true) :
    ∀ s', execCvtS32F32 a d sm s = .next s' → memWf s'.mem = true := by
  unfold execCvtS32F32
  refine issueEach_canon _ _ _ (by simp [State.fresh_canon, h_s]) (fun s t hs => ?_)
  first | assumption | (simp (maxDischargeDepth := 60) +contextual [*, ite_canon, foldl_canon, foldlFst_canon, memWf_writeN, memWf_write, memWf_filter, memWf_del, notEnabled, issueEach_canon, variableBody_canon, h_s]; done) | (repeat' first | assumption | (with_reducible refine foldl_canon _ (fun s x hs => ?_) ?_) | (with_reducible apply ite_canon) | (with_reducible apply memWf_writeN) | (with_reducible apply memWf_write) | (with_reducible apply memWf_filter) | (with_reducible apply memWf_del) | (with_reducible apply issueEach_canon) | (with_reducible apply variableBody_canon) | (with_reducible apply h_s) | split | (intros; dsimp only))

theorem execCvtRzS32F32_canon (a : BitVec 6) (d : BitVec 6) (sm : BitVec 1) (s : State)  (h_s : memWf s.mem = true) :
    ∀ s', execCvtRzS32F32 a d sm s = .next s' → memWf s'.mem = true := by
  unfold execCvtRzS32F32
  refine issueEach_canon _ _ _ (by simp [State.fresh_canon, h_s]) (fun s t hs => ?_)
  first | assumption | (simp (maxDischargeDepth := 60) +contextual [*, ite_canon, foldl_canon, foldlFst_canon, memWf_writeN, memWf_write, memWf_filter, memWf_del, notEnabled, issueEach_canon, variableBody_canon, h_s]; done) | (repeat' first | assumption | (with_reducible refine foldl_canon _ (fun s x hs => ?_) ?_) | (with_reducible apply ite_canon) | (with_reducible apply memWf_writeN) | (with_reducible apply memWf_write) | (with_reducible apply memWf_filter) | (with_reducible apply memWf_del) | (with_reducible apply issueEach_canon) | (with_reducible apply variableBody_canon) | (with_reducible apply h_s) | split | (intros; dsimp only))

theorem execCvtF64S32_canon (a : BitVec 6) (d : BitVec 6) (sm : BitVec 1) (s : State)  (h_s : memWf s.mem = true) :
    ∀ s', execCvtF64S32 a d sm s = .next s' → memWf s'.mem = true := by
  unfold execCvtF64S32
  refine issueEach_canon _ _ _ (by simp [State.fresh_canon, h_s]) (fun s t hs => ?_)
  first | assumption | (simp (maxDischargeDepth := 60) +contextual [*, ite_canon, foldl_canon, foldlFst_canon, memWf_writeN, memWf_write, memWf_filter, memWf_del, notEnabled, issueEach_canon, variableBody_canon, h_s]; done) | (repeat' first | assumption | (with_reducible refine foldl_canon _ (fun s x hs => ?_) ?_) | (with_reducible apply ite_canon) | (with_reducible apply memWf_writeN) | (with_reducible apply memWf_write) | (with_reducible apply memWf_filter) | (with_reducible apply memWf_del) | (with_reducible apply issueEach_canon) | (with_reducible apply variableBody_canon) | (with_reducible apply h_s) | split | (intros; dsimp only))

theorem execCvtS32F64_canon (a : BitVec 6) (d : BitVec 6) (sm : BitVec 1) (s : State)  (h_s : memWf s.mem = true) :
    ∀ s', execCvtS32F64 a d sm s = .next s' → memWf s'.mem = true := by
  unfold execCvtS32F64
  refine issueEach_canon _ _ _ (by simp [State.fresh_canon, h_s]) (fun s t hs => ?_)
  first | assumption | (simp (maxDischargeDepth := 60) +contextual [*, ite_canon, foldl_canon, foldlFst_canon, memWf_writeN, memWf_write, memWf_filter, memWf_del, notEnabled, issueEach_canon, variableBody_canon, h_s]; done) | (repeat' first | assumption | (with_reducible refine foldl_canon _ (fun s x hs => ?_) ?_) | (with_reducible apply ite_canon) | (with_reducible apply memWf_writeN) | (with_reducible apply memWf_write) | (with_reducible apply memWf_filter) | (with_reducible apply memWf_del) | (with_reducible apply issueEach_canon) | (with_reducible apply variableBody_canon) | (with_reducible apply h_s) | split | (intros; dsimp only))

theorem execCvtRzS32F64_canon (a : BitVec 6) (d : BitVec 6) (sm : BitVec 1) (s : State)  (h_s : memWf s.mem = true) :
    ∀ s', execCvtRzS32F64 a d sm s = .next s' → memWf s'.mem = true := by
  unfold execCvtRzS32F64
  refine issueEach_canon _ _ _ (by simp [State.fresh_canon, h_s]) (fun s t hs => ?_)
  first | assumption | (simp (maxDischargeDepth := 60) +contextual [*, ite_canon, foldl_canon, foldlFst_canon, memWf_writeN, memWf_write, memWf_filter, memWf_del, notEnabled, issueEach_canon, variableBody_canon, h_s]; done) | (repeat' first | assumption | (with_reducible refine foldl_canon _ (fun s x hs => ?_) ?_) | (with_reducible apply ite_canon) | (with_reducible apply memWf_writeN) | (with_reducible apply memWf_write) | (with_reducible apply memWf_filter) | (with_reducible apply memWf_del) | (with_reducible apply issueEach_canon) | (with_reducible apply variableBody_canon) | (with_reducible apply h_s) | split | (intros; dsimp only))

theorem execCvtF16x2F32_canon (b : BitVec 6) (a : BitVec 6) (d : BitVec 6) (sm : BitVec 1) (s : State)  (h_s : memWf s.mem = true) :
    ∀ s', execCvtF16x2F32 b a d sm s = .next s' → memWf s'.mem = true := by
  unfold execCvtF16x2F32
  refine issueEach_canon _ _ _ (by simp [State.fresh_canon, h_s]) (fun s t hs => ?_)
  first | assumption | (simp (maxDischargeDepth := 60) +contextual [*, ite_canon, foldl_canon, foldlFst_canon, memWf_writeN, memWf_write, memWf_filter, memWf_del, notEnabled, issueEach_canon, variableBody_canon, h_s]; done) | (repeat' first | assumption | (with_reducible refine foldl_canon _ (fun s x hs => ?_) ?_) | (with_reducible apply ite_canon) | (with_reducible apply memWf_writeN) | (with_reducible apply memWf_write) | (with_reducible apply memWf_filter) | (with_reducible apply memWf_del) | (with_reducible apply issueEach_canon) | (with_reducible apply variableBody_canon) | (with_reducible apply h_s) | split | (intros; dsimp only))

theorem execCvtBf16x2F32_canon (b : BitVec 6) (a : BitVec 6) (d : BitVec 6) (sm : BitVec 1) (s : State)  (h_s : memWf s.mem = true) :
    ∀ s', execCvtBf16x2F32 b a d sm s = .next s' → memWf s'.mem = true := by
  unfold execCvtBf16x2F32
  refine issueEach_canon _ _ _ (by simp [State.fresh_canon, h_s]) (fun s t hs => ?_)
  first | assumption | (simp (maxDischargeDepth := 60) +contextual [*, ite_canon, foldl_canon, foldlFst_canon, memWf_writeN, memWf_write, memWf_filter, memWf_del, notEnabled, issueEach_canon, variableBody_canon, h_s]; done) | (repeat' first | assumption | (with_reducible refine foldl_canon _ (fun s x hs => ?_) ?_) | (with_reducible apply ite_canon) | (with_reducible apply memWf_writeN) | (with_reducible apply memWf_write) | (with_reducible apply memWf_filter) | (with_reducible apply memWf_del) | (with_reducible apply issueEach_canon) | (with_reducible apply variableBody_canon) | (with_reducible apply h_s) | split | (intros; dsimp only))

theorem execCvtRzBf16x2F32_canon (b : BitVec 6) (a : BitVec 6) (d : BitVec 6) (sm : BitVec 1) (s : State)  (h_s : memWf s.mem = true) :
    ∀ s', execCvtRzBf16x2F32 b a d sm s = .next s' → memWf s'.mem = true := by
  unfold execCvtRzBf16x2F32
  refine issueEach_canon _ _ _ (by simp [State.fresh_canon, h_s]) (fun s t hs => ?_)
  first | assumption | (simp (maxDischargeDepth := 60) +contextual [*, ite_canon, foldl_canon, foldlFst_canon, memWf_writeN, memWf_write, memWf_filter, memWf_del, notEnabled, issueEach_canon, variableBody_canon, h_s]; done) | (repeat' first | assumption | (with_reducible refine foldl_canon _ (fun s x hs => ?_) ?_) | (with_reducible apply ite_canon) | (with_reducible apply memWf_writeN) | (with_reducible apply memWf_write) | (with_reducible apply memWf_filter) | (with_reducible apply memWf_del) | (with_reducible apply issueEach_canon) | (with_reducible apply variableBody_canon) | (with_reducible apply h_s) | split | (intros; dsimp only))

theorem execCvtF32F16_canon (h : BitVec 1) (a : BitVec 6) (d : BitVec 6) (sm : BitVec 1) (s : State)  (h_s : memWf s.mem = true) :
    ∀ s', execCvtF32F16 h a d sm s = .next s' → memWf s'.mem = true := by
  unfold execCvtF32F16
  refine issueEach_canon _ _ _ (by simp [State.fresh_canon, h_s]) (fun s t hs => ?_)
  first | assumption | (simp (maxDischargeDepth := 60) +contextual [*, ite_canon, foldl_canon, foldlFst_canon, memWf_writeN, memWf_write, memWf_filter, memWf_del, notEnabled, issueEach_canon, variableBody_canon, h_s]; done) | (repeat' first | assumption | (with_reducible refine foldl_canon _ (fun s x hs => ?_) ?_) | (with_reducible apply ite_canon) | (with_reducible apply memWf_writeN) | (with_reducible apply memWf_write) | (with_reducible apply memWf_filter) | (with_reducible apply memWf_del) | (with_reducible apply issueEach_canon) | (with_reducible apply variableBody_canon) | (with_reducible apply h_s) | split | (intros; dsimp only))

theorem execCvtF32Bf16_canon (h : BitVec 1) (a : BitVec 6) (d : BitVec 6) (sm : BitVec 1) (s : State)  (h_s : memWf s.mem = true) :
    ∀ s', execCvtF32Bf16 h a d sm s = .next s' → memWf s'.mem = true := by
  unfold execCvtF32Bf16
  refine issueEach_canon _ _ _ (by simp [State.fresh_canon, h_s]) (fun s t hs => ?_)
  first | assumption | (simp (maxDischargeDepth := 60) +contextual [*, ite_canon, foldl_canon, foldlFst_canon, memWf_writeN, memWf_write, memWf_filter, memWf_del, notEnabled, issueEach_canon, variableBody_canon, h_s]; done) | (repeat' first | assumption | (with_reducible refine foldl_canon _ (fun s x hs => ?_) ?_) | (with_reducible apply ite_canon) | (with_reducible apply memWf_writeN) | (with_reducible apply memWf_write) | (with_reducible apply memWf_filter) | (with_reducible apply memWf_del) | (with_reducible apply issueEach_canon) | (with_reducible apply variableBody_canon) | (with_reducible apply h_s) | split | (intros; dsimp only))

theorem execD8Pack_canon (y : BitVec 2) (a : BitVec 6) (d : BitVec 6) (sm : BitVec 1) (s : State)  (h_s : memWf s.mem = true) :
    ∀ s', execD8Pack y a d sm s = .next s' → memWf s'.mem = true := by
  unfold execD8Pack
  refine issueEach_canon _ _ _ (by simp [State.fresh_canon, h_s]) (fun s t hs => ?_)
  first | assumption | (simp (maxDischargeDepth := 60) +contextual [*, ite_canon, foldl_canon, foldlFst_canon, memWf_writeN, memWf_write, memWf_filter, memWf_del, notEnabled, issueEach_canon, variableBody_canon, h_s]; done) | (repeat' first | assumption | (with_reducible refine foldl_canon _ (fun s x hs => ?_) ?_) | (with_reducible apply ite_canon) | (with_reducible apply memWf_writeN) | (with_reducible apply memWf_write) | (with_reducible apply memWf_filter) | (with_reducible apply memWf_del) | (with_reducible apply issueEach_canon) | (with_reducible apply variableBody_canon) | (with_reducible apply h_s) | split | (intros; dsimp only))

theorem execD8Unpack_canon (y : BitVec 2) (a : BitVec 6) (d : BitVec 6) (sm : BitVec 1) (s : State)  (h_s : memWf s.mem = true) :
    ∀ s', execD8Unpack y a d sm s = .next s' → memWf s'.mem = true := by
  unfold execD8Unpack
  refine issueEach_canon _ _ _ (by simp [State.fresh_canon, h_s]) (fun s t hs => ?_)
  first | assumption | (simp (maxDischargeDepth := 60) +contextual [*, ite_canon, foldl_canon, foldlFst_canon, memWf_writeN, memWf_write, memWf_filter, memWf_del, notEnabled, issueEach_canon, variableBody_canon, h_s]; done) | (repeat' first | assumption | (with_reducible refine foldl_canon _ (fun s x hs => ?_) ?_) | (with_reducible apply ite_canon) | (with_reducible apply memWf_writeN) | (with_reducible apply memWf_write) | (with_reducible apply memWf_filter) | (with_reducible apply memWf_del) | (with_reducible apply issueEach_canon) | (with_reducible apply variableBody_canon) | (with_reducible apply h_s) | split | (intros; dsimp only))

theorem execCvtS8F32_canon (y : BitVec 2) (a : BitVec 6) (d : BitVec 6) (sm : BitVec 1) (s : State)  (h_s : memWf s.mem = true) :
    ∀ s', execCvtS8F32 y a d sm s = .next s' → memWf s'.mem = true := by
  unfold execCvtS8F32
  refine issueEach_canon _ _ _ (by simp [State.fresh_canon, h_s]) (fun s t hs => ?_)
  first | assumption | (simp (maxDischargeDepth := 60) +contextual [*, ite_canon, foldl_canon, foldlFst_canon, memWf_writeN, memWf_write, memWf_filter, memWf_del, notEnabled, issueEach_canon, variableBody_canon, h_s]; done) | (repeat' first | assumption | (with_reducible refine foldl_canon _ (fun s x hs => ?_) ?_) | (with_reducible apply ite_canon) | (with_reducible apply memWf_writeN) | (with_reducible apply memWf_write) | (with_reducible apply memWf_filter) | (with_reducible apply memWf_del) | (with_reducible apply issueEach_canon) | (with_reducible apply variableBody_canon) | (with_reducible apply h_s) | split | (intros; dsimp only))

theorem execCvtF32S8_canon (y : BitVec 2) (a : BitVec 6) (d : BitVec 6) (sm : BitVec 1) (s : State)  (h_s : memWf s.mem = true) :
    ∀ s', execCvtF32S8 y a d sm s = .next s' → memWf s'.mem = true := by
  unfold execCvtF32S8
  refine issueEach_canon _ _ _ (by simp [State.fresh_canon, h_s]) (fun s t hs => ?_)
  first | assumption | (simp (maxDischargeDepth := 60) +contextual [*, ite_canon, foldl_canon, foldlFst_canon, memWf_writeN, memWf_write, memWf_filter, memWf_del, notEnabled, issueEach_canon, variableBody_canon, h_s]; done) | (repeat' first | assumption | (with_reducible refine foldl_canon _ (fun s x hs => ?_) ?_) | (with_reducible apply ite_canon) | (with_reducible apply memWf_writeN) | (with_reducible apply memWf_write) | (with_reducible apply memWf_filter) | (with_reducible apply memWf_del) | (with_reducible apply issueEach_canon) | (with_reducible apply variableBody_canon) | (with_reducible apply h_s) | split | (intros; dsimp only))

theorem execFsint_canon (a : BitVec 6) (d : BitVec 6) (sm : BitVec 1) (s : State)  (h_s : memWf s.mem = true) :
    ∀ s', execFsint a d sm s = .next s' → memWf s'.mem = true := by
  unfold execFsint
  refine issueEach_canon _ _ _ (by simp [State.fresh_canon, h_s]) (fun s t hs => ?_)
  first | assumption | (simp (maxDischargeDepth := 60) +contextual [*, ite_canon, foldl_canon, foldlFst_canon, memWf_writeN, memWf_write, memWf_filter, memWf_del, notEnabled, issueEach_canon, variableBody_canon, h_s]; done) | (repeat' first | assumption | (with_reducible refine foldl_canon _ (fun s x hs => ?_) ?_) | (with_reducible apply ite_canon) | (with_reducible apply memWf_writeN) | (with_reducible apply memWf_write) | (with_reducible apply memWf_filter) | (with_reducible apply memWf_del) | (with_reducible apply issueEach_canon) | (with_reducible apply variableBody_canon) | (with_reducible apply h_s) | split | (intros; dsimp only))

theorem execFcost_canon (a : BitVec 6) (d : BitVec 6) (sm : BitVec 1) (s : State)  (h_s : memWf s.mem = true) :
    ∀ s', execFcost a d sm s = .next s' → memWf s'.mem = true := by
  unfold execFcost
  refine issueEach_canon _ _ _ (by simp [State.fresh_canon, h_s]) (fun s t hs => ?_)
  first | assumption | (simp (maxDischargeDepth := 60) +contextual [*, ite_canon, foldl_canon, foldlFst_canon, memWf_writeN, memWf_write, memWf_filter, memWf_del, notEnabled, issueEach_canon, variableBody_canon, h_s]; done) | (repeat' first | assumption | (with_reducible refine foldl_canon _ (fun s x hs => ?_) ?_) | (with_reducible apply ite_canon) | (with_reducible apply memWf_writeN) | (with_reducible apply memWf_write) | (with_reducible apply memWf_filter) | (with_reducible apply memWf_del) | (with_reducible apply issueEach_canon) | (with_reducible apply variableBody_canon) | (with_reducible apply h_s) | split | (intros; dsimp only))

theorem execFexp2_canon (a : BitVec 6) (d : BitVec 6) (sm : BitVec 1) (s : State)  (h_s : memWf s.mem = true) :
    ∀ s', execFexp2 a d sm s = .next s' → memWf s'.mem = true := by
  unfold execFexp2
  refine issueEach_canon _ _ _ (by simp [State.fresh_canon, h_s]) (fun s t hs => ?_)
  first | assumption | (simp (maxDischargeDepth := 60) +contextual [*, ite_canon, foldl_canon, foldlFst_canon, memWf_writeN, memWf_write, memWf_filter, memWf_del, notEnabled, issueEach_canon, variableBody_canon, h_s]; done) | (repeat' first | assumption | (with_reducible refine foldl_canon _ (fun s x hs => ?_) ?_) | (with_reducible apply ite_canon) | (with_reducible apply memWf_writeN) | (with_reducible apply memWf_write) | (with_reducible apply memWf_filter) | (with_reducible apply memWf_del) | (with_reducible apply issueEach_canon) | (with_reducible apply variableBody_canon) | (with_reducible apply h_s) | split | (intros; dsimp only))

theorem execFlog2_canon (a : BitVec 6) (d : BitVec 6) (sm : BitVec 1) (s : State)  (h_s : memWf s.mem = true) :
    ∀ s', execFlog2 a d sm s = .next s' → memWf s'.mem = true := by
  unfold execFlog2
  refine issueEach_canon _ _ _ (by simp [State.fresh_canon, h_s]) (fun s t hs => ?_)
  first | assumption | (simp (maxDischargeDepth := 60) +contextual [*, ite_canon, foldl_canon, foldlFst_canon, memWf_writeN, memWf_write, memWf_filter, memWf_del, notEnabled, issueEach_canon, variableBody_canon, h_s]; done) | (repeat' first | assumption | (with_reducible refine foldl_canon _ (fun s x hs => ?_) ?_) | (with_reducible apply ite_canon) | (with_reducible apply memWf_writeN) | (with_reducible apply memWf_write) | (with_reducible apply memWf_filter) | (with_reducible apply memWf_del) | (with_reducible apply issueEach_canon) | (with_reducible apply variableBody_canon) | (with_reducible apply h_s) | split | (intros; dsimp only))

theorem execFrcp_canon (a : BitVec 6) (d : BitVec 6) (sm : BitVec 1) (s : State)  (h_s : memWf s.mem = true) :
    ∀ s', execFrcp a d sm s = .next s' → memWf s'.mem = true := by
  unfold execFrcp
  refine issueEach_canon _ _ _ (by simp [State.fresh_canon, h_s]) (fun s t hs => ?_)
  first | assumption | (simp (maxDischargeDepth := 60) +contextual [*, ite_canon, foldl_canon, foldlFst_canon, memWf_writeN, memWf_write, memWf_filter, memWf_del, notEnabled, issueEach_canon, variableBody_canon, h_s]; done) | (repeat' first | assumption | (with_reducible refine foldl_canon _ (fun s x hs => ?_) ?_) | (with_reducible apply ite_canon) | (with_reducible apply memWf_writeN) | (with_reducible apply memWf_write) | (with_reducible apply memWf_filter) | (with_reducible apply memWf_del) | (with_reducible apply issueEach_canon) | (with_reducible apply variableBody_canon) | (with_reducible apply h_s) | split | (intros; dsimp only))

theorem execFrsq_canon (a : BitVec 6) (d : BitVec 6) (sm : BitVec 1) (s : State)  (h_s : memWf s.mem = true) :
    ∀ s', execFrsq a d sm s = .next s' → memWf s'.mem = true := by
  unfold execFrsq
  refine issueEach_canon _ _ _ (by simp [State.fresh_canon, h_s]) (fun s t hs => ?_)
  first | assumption | (simp (maxDischargeDepth := 60) +contextual [*, ite_canon, foldl_canon, foldlFst_canon, memWf_writeN, memWf_write, memWf_filter, memWf_del, notEnabled, issueEach_canon, variableBody_canon, h_s]; done) | (repeat' first | assumption | (with_reducible refine foldl_canon _ (fun s x hs => ?_) ?_) | (with_reducible apply ite_canon) | (with_reducible apply memWf_writeN) | (with_reducible apply memWf_write) | (with_reducible apply memWf_filter) | (with_reducible apply memWf_del) | (with_reducible apply issueEach_canon) | (with_reducible apply variableBody_canon) | (with_reducible apply h_s) | split | (intros; dsimp only))

theorem execFsqrt_canon (a : BitVec 6) (d : BitVec 6) (sm : BitVec 1) (s : State)  (h_s : memWf s.mem = true) :
    ∀ s', execFsqrt a d sm s = .next s' → memWf s'.mem = true := by
  unfold execFsqrt
  refine issueEach_canon _ _ _ (by simp [State.fresh_canon, h_s]) (fun s t hs => ?_)
  first | assumption | (simp (maxDischargeDepth := 60) +contextual [*, ite_canon, foldl_canon, foldlFst_canon, memWf_writeN, memWf_write, memWf_filter, memWf_del, notEnabled, issueEach_canon, variableBody_canon, h_s]; done) | (repeat' first | assumption | (with_reducible refine foldl_canon _ (fun s x hs => ?_) ?_) | (with_reducible apply ite_canon) | (with_reducible apply memWf_writeN) | (with_reducible apply memWf_write) | (with_reducible apply memWf_filter) | (with_reducible apply memWf_del) | (with_reducible apply issueEach_canon) | (with_reducible apply variableBody_canon) | (with_reducible apply h_s) | split | (intros; dsimp only))

theorem execFdiv_canon (b : BitVec 6) (a : BitVec 6) (d : BitVec 6) (sm : BitVec 1) (s : State)  (h_s : memWf s.mem = true) :
    ∀ s', execFdiv b a d sm s = .next s' → memWf s'.mem = true := by
  unfold execFdiv
  refine issueEach_canon _ _ _ (by simp [State.fresh_canon, h_s]) (fun s t hs => ?_)
  first | assumption | (simp (maxDischargeDepth := 60) +contextual [*, ite_canon, foldl_canon, foldlFst_canon, memWf_writeN, memWf_write, memWf_filter, memWf_del, notEnabled, issueEach_canon, variableBody_canon, h_s]; done) | (repeat' first | assumption | (with_reducible refine foldl_canon _ (fun s x hs => ?_) ?_) | (with_reducible apply ite_canon) | (with_reducible apply memWf_writeN) | (with_reducible apply memWf_write) | (with_reducible apply memWf_filter) | (with_reducible apply memWf_del) | (with_reducible apply issueEach_canon) | (with_reducible apply variableBody_canon) | (with_reducible apply h_s) | split | (intros; dsimp only))

theorem execFrcpF64_canon (a : BitVec 6) (d : BitVec 6) (sm : BitVec 1) (s : State)  (h_s : memWf s.mem = true) :
    ∀ s', execFrcpF64 a d sm s = .next s' → memWf s'.mem = true := by
  unfold execFrcpF64
  refine issueEach_canon _ _ _ (by simp [State.fresh_canon, h_s]) (fun s t hs => ?_)
  first | assumption | (simp (maxDischargeDepth := 60) +contextual [*, ite_canon, foldl_canon, foldlFst_canon, memWf_writeN, memWf_write, memWf_filter, memWf_del, notEnabled, issueEach_canon, variableBody_canon, h_s]; done) | (repeat' first | assumption | (with_reducible refine foldl_canon _ (fun s x hs => ?_) ?_) | (with_reducible apply ite_canon) | (with_reducible apply memWf_writeN) | (with_reducible apply memWf_write) | (with_reducible apply memWf_filter) | (with_reducible apply memWf_del) | (with_reducible apply issueEach_canon) | (with_reducible apply variableBody_canon) | (with_reducible apply h_s) | split | (intros; dsimp only))

theorem execFsqrtF64_canon (a : BitVec 6) (d : BitVec 6) (sm : BitVec 1) (s : State)  (h_s : memWf s.mem = true) :
    ∀ s', execFsqrtF64 a d sm s = .next s' → memWf s'.mem = true := by
  unfold execFsqrtF64
  refine issueEach_canon _ _ _ (by simp [State.fresh_canon, h_s]) (fun s t hs => ?_)
  first | assumption | (simp (maxDischargeDepth := 60) +contextual [*, ite_canon, foldl_canon, foldlFst_canon, memWf_writeN, memWf_write, memWf_filter, memWf_del, notEnabled, issueEach_canon, variableBody_canon, h_s]; done) | (repeat' first | assumption | (with_reducible refine foldl_canon _ (fun s x hs => ?_) ?_) | (with_reducible apply ite_canon) | (with_reducible apply memWf_writeN) | (with_reducible apply memWf_write) | (with_reducible apply memWf_filter) | (with_reducible apply memWf_del) | (with_reducible apply issueEach_canon) | (with_reducible apply variableBody_canon) | (with_reducible apply h_s) | split | (intros; dsimp only))

theorem execFdivF64_canon (b : BitVec 6) (a : BitVec 6) (d : BitVec 6) (sm : BitVec 1) (s : State)  (h_s : memWf s.mem = true) :
    ∀ s', execFdivF64 b a d sm s = .next s' → memWf s'.mem = true := by
  unfold execFdivF64
  refine issueEach_canon _ _ _ (by simp [State.fresh_canon, h_s]) (fun s t hs => ?_)
  first | assumption | (simp (maxDischargeDepth := 60) +contextual [*, ite_canon, foldl_canon, foldlFst_canon, memWf_writeN, memWf_write, memWf_filter, memWf_del, notEnabled, issueEach_canon, variableBody_canon, h_s]; done) | (repeat' first | assumption | (with_reducible refine foldl_canon _ (fun s x hs => ?_) ?_) | (with_reducible apply ite_canon) | (with_reducible apply memWf_writeN) | (with_reducible apply memWf_write) | (with_reducible apply memWf_filter) | (with_reducible apply memWf_del) | (with_reducible apply issueEach_canon) | (with_reducible apply variableBody_canon) | (with_reducible apply h_s) | split | (intros; dsimp only))

end Sys2Proof.Machine
end

