-- ==== Sys2Proof/Laws/CanonEscapement.lean ====
section
/-! SUPPORT. Memory stays canonical through every operation of `Escapement`. -/

set_option linter.all false

namespace Sys2Proof.Machine
open Sys2Proof

theorem streamMoves_canon (s : State) (k : Nat) (n : Nat) (x : Stream)  (h_s : memWf s.mem = true) :
    memWf (streamMoves s k n x).mem = true := by
  unfold streamMoves
  simp (maxDischargeDepth := 60) +contextual [ite_canon, foldl_canon, foldlFst_canon, memWf_writeN, memWf_write, memWf_filter, memWf_del, notEnabled, State.modThread_canon, streamPut_canon, h_s]

theorem startEsc_canon (s : State) (t : Nat) (group : Nat) (i : Instr) (pc : Addr) (data : List Byte)  (h_s : memWf s.mem = true) :
    memWf (startEsc s t group i pc data).mem = true := by
  unfold startEsc
  try dsimp only
  repeat' split
  all_goals simp (maxDischargeDepth := 60) +contextual [ite_canon, foldl_canon, foldlFst_canon, memWf_writeN, memWf_write, memWf_filter, memWf_del, notEnabled, State.modThread_canon, failOp_canon, streamPut_canon, h_s]

theorem escMarkBody_canon (i : Instr) (n : Nat) (group : Nat) (s : State) (t : Nat)  (h_s : memWf s.mem = true) :
    memWf (escMarkBody i n group s t).mem = true := by
  unfold escMarkBody
  simp (maxDischargeDepth := 60) +contextual [ite_canon, foldl_canon, foldlFst_canon, memWf_writeN, memWf_write, memWf_filter, memWf_del, notEnabled, advance_canon, raise_canon, startEsc_canon, h_s]

theorem escInBody_canon (i : Instr) (b : BitVec 6) (a : BitVec 6) (k : Nat) (n : Nat) (group : Nat) (s : State) (t : Nat)  (h_s : memWf s.mem = true) :
    memWf (escInBody i b a k n group s t).mem = true := by
  unfold escInBody
  simp (maxDischargeDepth := 60) +contextual [ite_canon, foldl_canon, foldlFst_canon, memWf_writeN, memWf_write, memWf_filter, memWf_del, notEnabled, advance_canon, boundaryStep_canon, park_canon, raise_canon, startEsc_canon, h_s]

theorem escNextBody_canon (i : Instr) (d : BitVec 6) (n : Nat) (s : State) (t : Nat)  (h_s : memWf s.mem = true) :
    memWf (escNextBody i d n s t).mem = true := by
  unfold escNextBody
  try dsimp only
  repeat' split
  all_goals simp (maxDischargeDepth := 60) +contextual [ite_canon, foldl_canon, foldlFst_canon, memWf_writeN, memWf_write, memWf_filter, memWf_del, notEnabled, gatePass_canon, logEvent_canon, park_canon, raise_canon, readClocks_canon, streamPut_canon, h_s]

theorem escDoneBody_canon (i : Instr) (b : BitVec 6) (n : Nat) (s : State) (t : Nat)  (h_s : memWf s.mem = true) :
    memWf (escDoneBody i b n s t).mem = true := by
  unfold escDoneBody
  simp (maxDischargeDepth := 60) +contextual [ite_canon, foldl_canon, foldlFst_canon, memWf_writeN, memWf_write, memWf_filter, memWf_del, notEnabled, advance_canon, boundaryStep_canon, raise_canon, streamMoves_canon, h_s]

theorem execEscOpen_canon (d : BitVec 6) (sm : BitVec 1) (s : State)  (h_s : memWf s.mem = true) :
    ∀ s', execEscOpen d sm s = .next s' → memWf s'.mem = true := by
  unfold execEscOpen
  refine issueEach_canon _ _ _ (by simp [State.fresh_canon, h_s]) (fun s t hs => ?_)
  first | assumption | (simp (maxDischargeDepth := 60) +contextual [*, ite_canon, foldl_canon, foldlFst_canon, memWf_writeN, memWf_write, memWf_filter, memWf_del, notEnabled, State.fresh_canon, escMarkBody_canon, issueEach_canon, h_s]; done) | (repeat' first | assumption | (with_reducible refine foldl_canon _ (fun s x hs => ?_) ?_) | (with_reducible apply ite_canon) | (with_reducible apply memWf_writeN) | (with_reducible apply memWf_write) | (with_reducible apply memWf_filter) | (with_reducible apply memWf_del) | (with_reducible apply State.fresh_canon) | (with_reducible apply escMarkBody_canon) | (with_reducible apply issueEach_canon) | (with_reducible apply h_s) | split | (intros; dsimp only))

theorem execEscIn_canon (b : BitVec 6) (a : BitVec 6) (k : BitVec 3) (i : BitVec 3) (sm : BitVec 1) (s : State)  (h_s : memWf s.mem = true) :
    ∀ s', execEscIn b a k i sm s = .next s' → memWf s'.mem = true := by
  unfold execEscIn
  refine issueEach_canon _ _ _ (by simp [State.fresh_canon, h_s]) (fun s t hs => ?_)
  first | assumption | (simp (maxDischargeDepth := 60) +contextual [*, ite_canon, foldl_canon, foldlFst_canon, memWf_writeN, memWf_write, memWf_filter, memWf_del, notEnabled, State.fresh_canon, escInBody_canon, issueEach_canon, h_s]; done) | (repeat' first | assumption | (with_reducible refine foldl_canon _ (fun s x hs => ?_) ?_) | (with_reducible apply ite_canon) | (with_reducible apply memWf_writeN) | (with_reducible apply memWf_write) | (with_reducible apply memWf_filter) | (with_reducible apply memWf_del) | (with_reducible apply State.fresh_canon) | (with_reducible apply escInBody_canon) | (with_reducible apply issueEach_canon) | (with_reducible apply h_s) | split | (intros; dsimp only))

theorem execEscEnd_canon (d : BitVec 6) (sm : BitVec 1) (s : State)  (h_s : memWf s.mem = true) :
    ∀ s', execEscEnd d sm s = .next s' → memWf s'.mem = true := by
  unfold execEscEnd
  refine issueEach_canon _ _ _ (by simp [State.fresh_canon, h_s]) (fun s t hs => ?_)
  first | assumption | (simp (maxDischargeDepth := 60) +contextual [*, ite_canon, foldl_canon, foldlFst_canon, memWf_writeN, memWf_write, memWf_filter, memWf_del, notEnabled, State.fresh_canon, escMarkBody_canon, issueEach_canon, h_s]; done) | (repeat' first | assumption | (with_reducible refine foldl_canon _ (fun s x hs => ?_) ?_) | (with_reducible apply ite_canon) | (with_reducible apply memWf_writeN) | (with_reducible apply memWf_write) | (with_reducible apply memWf_filter) | (with_reducible apply memWf_del) | (with_reducible apply State.fresh_canon) | (with_reducible apply escMarkBody_canon) | (with_reducible apply issueEach_canon) | (with_reducible apply h_s) | split | (intros; dsimp only))

theorem execEscNext_canon (a : BitVec 6) (d : BitVec 6) (sm : BitVec 1) (s : State)  (h_s : memWf s.mem = true) :
    ∀ s', execEscNext a d sm s = .next s' → memWf s'.mem = true := by
  unfold execEscNext
  refine issueEach_canon _ _ _ (by simp [State.fresh_canon, h_s]) (fun s t hs => ?_)
  first | assumption | (simp (maxDischargeDepth := 60) +contextual [*, ite_canon, foldl_canon, foldlFst_canon, memWf_writeN, memWf_write, memWf_filter, memWf_del, notEnabled, escNextBody_canon, issueEach_canon, h_s]; done) | (repeat' first | assumption | (with_reducible refine foldl_canon _ (fun s x hs => ?_) ?_) | (with_reducible apply ite_canon) | (with_reducible apply memWf_writeN) | (with_reducible apply memWf_write) | (with_reducible apply memWf_filter) | (with_reducible apply memWf_del) | (with_reducible apply escNextBody_canon) | (with_reducible apply issueEach_canon) | (with_reducible apply h_s) | split | (intros; dsimp only))

theorem execEscDone_canon (b : BitVec 6) (a : BitVec 6) (sm : BitVec 1) (s : State)  (h_s : memWf s.mem = true) :
    ∀ s', execEscDone b a sm s = .next s' → memWf s'.mem = true := by
  unfold execEscDone
  refine issueEach_canon _ _ _ (by simp [State.fresh_canon, h_s]) (fun s t hs => ?_)
  first | assumption | (simp (maxDischargeDepth := 60) +contextual [*, ite_canon, foldl_canon, foldlFst_canon, memWf_writeN, memWf_write, memWf_filter, memWf_del, notEnabled, escDoneBody_canon, issueEach_canon, h_s]; done) | (repeat' first | assumption | (with_reducible refine foldl_canon _ (fun s x hs => ?_) ?_) | (with_reducible apply ite_canon) | (with_reducible apply memWf_writeN) | (with_reducible apply memWf_write) | (with_reducible apply memWf_filter) | (with_reducible apply memWf_del) | (with_reducible apply escDoneBody_canon) | (with_reducible apply issueEach_canon) | (with_reducible apply h_s) | split | (intros; dsimp only))

end Sys2Proof.Machine
end

