-- ==== Sys2Proof/Laws/CanonEvCoherence.lean ====
section
/-! SUPPORT. Memory stays canonical through every operation of `EvCoherence`. -/

set_option linter.all false

namespace Sys2Proof.Machine
open Sys2Proof

theorem deviceLevelFault_canon (s : State)  (h_s : memWf s.mem = true) :
    memWf (deviceLevelFault s).mem = true := by
  unfold deviceLevelFault
  simp (maxDischargeDepth := 60) +contextual [ite_canon, foldl_canon, foldlFst_canon, memWf_writeN, memWf_write, memWf_filter, memWf_del, notEnabled, h_s]

theorem recvKind_canon (k : MsgKind) (name : String) (src : Nat) (dst : Nat) (s : State)  (h_s : memWf s.mem = true) :
    ∀ s', recvKind k name src dst s = .next s' → memWf s'.mem = true := by
  intro s' e
  unfold recvKind at e
  try dsimp only at e
  repeat' split at e
  all_goals first | (simp [notEnabled] at e; done) | (injection e with e; subst e; simp (maxDischargeDepth := 60) +contextual [ite_canon, foldl_canon, foldlFst_canon, memWf_writeN, memWf_write, memWf_filter, memWf_del, notEnabled, dieLinkPut_canon, notEnabled_canon, takeMsg_canon, h_s])

theorem execGets_canon (src : Nat) (dst : Nat) (s : State)  (h_s : memWf s.mem = true) :
    ∀ s', execGets src dst s = .next s' → memWf s'.mem = true := by
  unfold execGets
  first | exact recvKind_canon _ _ _ _ _ h_s | exact snoop_canon _ _ _ _ h_s

theorem execGetx_canon (src : Nat) (dst : Nat) (s : State)  (h_s : memWf s.mem = true) :
    ∀ s', execGetx src dst s = .next s' → memWf s'.mem = true := by
  unfold execGetx
  first | exact recvKind_canon _ _ _ _ _ h_s | exact snoop_canon _ _ _ _ h_s

theorem execUpg_canon (src : Nat) (dst : Nat) (s : State)  (h_s : memWf s.mem = true) :
    ∀ s', execUpg src dst s = .next s' → memWf s'.mem = true := by
  unfold execUpg
  first | exact recvKind_canon _ _ _ _ _ h_s | exact snoop_canon _ _ _ _ h_s

theorem execData_canon (src : Nat) (dst : Nat) (s : State)  (h_s : memWf s.mem = true) :
    ∀ s', execData src dst s = .next s' → memWf s'.mem = true := by
  unfold execData
  first | exact recvKind_canon _ _ _ _ _ h_s | exact snoop_canon _ _ _ _ h_s

theorem execFwds_canon (src : Nat) (dst : Nat) (s : State)  (h_s : memWf s.mem = true) :
    ∀ s', execFwds src dst s = .next s' → memWf s'.mem = true := by
  unfold execFwds
  first | exact recvKind_canon _ _ _ _ _ h_s | exact snoop_canon _ _ _ _ h_s

theorem execFwdx_canon (src : Nat) (dst : Nat) (s : State)  (h_s : memWf s.mem = true) :
    ∀ s', execFwdx src dst s = .next s' → memWf s'.mem = true := by
  unfold execFwdx
  first | exact recvKind_canon _ _ _ _ _ h_s | exact snoop_canon _ _ _ _ h_s

theorem execFdata_canon (src : Nat) (dst : Nat) (s : State)  (h_s : memWf s.mem = true) :
    ∀ s', execFdata src dst s = .next s' → memWf s'.mem = true := by
  unfold execFdata
  first | exact recvKind_canon _ _ _ _ _ h_s | exact snoop_canon _ _ _ _ h_s

theorem execFack_canon (src : Nat) (dst : Nat) (s : State)  (h_s : memWf s.mem = true) :
    ∀ s', execFack src dst s = .next s' → memWf s'.mem = true := by
  unfold execFack
  first | exact recvKind_canon _ _ _ _ _ h_s | exact snoop_canon _ _ _ _ h_s

theorem execInv_canon (src : Nat) (dst : Nat) (s : State)  (h_s : memWf s.mem = true) :
    ∀ s', execInv src dst s = .next s' → memWf s'.mem = true := by
  unfold execInv
  first | exact recvKind_canon _ _ _ _ _ h_s | exact snoop_canon _ _ _ _ h_s

theorem execIack_canon (src : Nat) (dst : Nat) (s : State)  (h_s : memWf s.mem = true) :
    ∀ s', execIack src dst s = .next s' → memWf s'.mem = true := by
  unfold execIack
  first | exact recvKind_canon _ _ _ _ _ h_s | exact snoop_canon _ _ _ _ h_s

theorem execRecalls_canon (src : Nat) (dst : Nat) (s : State)  (h_s : memWf s.mem = true) :
    ∀ s', execRecalls src dst s = .next s' → memWf s'.mem = true := by
  unfold execRecalls
  first | exact recvKind_canon _ _ _ _ _ h_s | exact snoop_canon _ _ _ _ h_s

theorem execRecalli_canon (src : Nat) (dst : Nat) (s : State)  (h_s : memWf s.mem = true) :
    ∀ s', execRecalli src dst s = .next s' → memWf s'.mem = true := by
  unfold execRecalli
  first | exact recvKind_canon _ _ _ _ _ h_s | exact snoop_canon _ _ _ _ h_s

theorem execRdata_canon (src : Nat) (dst : Nat) (s : State)  (h_s : memWf s.mem = true) :
    ∀ s', execRdata src dst s = .next s' → memWf s'.mem = true := by
  unfold execRdata
  first | exact recvKind_canon _ _ _ _ _ h_s | exact snoop_canon _ _ _ _ h_s

theorem execWb_canon (src : Nat) (dst : Nat) (s : State)  (h_s : memWf s.mem = true) :
    ∀ s', execWb src dst s = .next s' → memWf s'.mem = true := by
  unfold execWb
  first | exact recvKind_canon _ _ _ _ _ h_s | exact snoop_canon _ _ _ _ h_s

theorem execEvict_canon (src : Nat) (dst : Nat) (s : State)  (h_s : memWf s.mem = true) :
    ∀ s', execEvict src dst s = .next s' → memWf s'.mem = true := by
  unfold execEvict
  first | exact recvKind_canon _ _ _ _ _ h_s | exact snoop_canon _ _ _ _ h_s

theorem execWback_canon (src : Nat) (dst : Nat) (s : State)  (h_s : memWf s.mem = true) :
    ∀ s', execWback src dst s = .next s' → memWf s'.mem = true := by
  unfold execWback
  first | exact recvKind_canon _ _ _ _ _ h_s | exact snoop_canon _ _ _ _ h_s

theorem execClaim_canon (src : Nat) (dst : Nat) (s : State)  (h_s : memWf s.mem = true) :
    ∀ s', execClaim src dst s = .next s' → memWf s'.mem = true := by
  unfold execClaim
  first | exact recvKind_canon _ _ _ _ _ h_s | exact snoop_canon _ _ _ _ h_s

theorem execClaimok_canon (src : Nat) (dst : Nat) (s : State)  (h_s : memWf s.mem = true) :
    ∀ s', execClaimok src dst s = .next s' → memWf s'.mem = true := by
  unfold execClaimok
  first | exact recvKind_canon _ _ _ _ _ h_s | exact snoop_canon _ _ _ _ h_s

theorem execMerge_canon (src : Nat) (dst : Nat) (s : State)  (h_s : memWf s.mem = true) :
    ∀ s', execMerge src dst s = .next s' → memWf s'.mem = true := by
  unfold execMerge
  first | exact recvKind_canon _ _ _ _ _ h_s | exact snoop_canon _ _ _ _ h_s

theorem execMdata_canon (src : Nat) (dst : Nat) (s : State)  (h_s : memWf s.mem = true) :
    ∀ s', execMdata src dst s = .next s' → memWf s'.mem = true := by
  unfold execMdata
  first | exact recvKind_canon _ _ _ _ _ h_s | exact snoop_canon _ _ _ _ h_s

theorem execDieLinkCrcFailure_canon (src : Nat) (dst : LinkLane) (s : State)  (h_s : memWf s.mem = true) :
    ∀ s', execDieLinkCrcFailure src dst s = .next s' → memWf s'.mem = true := by
  intro s' e
  unfold execDieLinkCrcFailure at e
  try dsimp only at e
  repeat' split at e
  all_goals first | (simp [notEnabled] at e; done) | (injection e with e; subst e; simp (maxDischargeDepth := 60) +contextual [ite_canon, foldl_canon, foldlFst_canon, memWf_writeN, memWf_write, memWf_filter, memWf_del, notEnabled, dieLinkPut_canon, notEnabled_canon, h_s])

theorem execDieLinkLaneFailure_canon (src : Nat) (dst : LinkLane) (s : State)  (h_s : memWf s.mem = true) :
    ∀ s', execDieLinkLaneFailure src dst s = .next s' → memWf s'.mem = true := by
  intro s' e
  unfold execDieLinkLaneFailure at e
  try dsimp only at e
  repeat' split at e
  all_goals first | (simp [notEnabled] at e; done) | (injection e with e; subst e; simp (maxDischargeDepth := 60) +contextual [ite_canon, foldl_canon, foldlFst_canon, memWf_writeN, memWf_write, memWf_filter, memWf_del, notEnabled, deviceLevelFault_canon, dieLinkPut_canon, notEnabled_canon, h_s])

theorem execDieLinkRetrainComplete_canon (src : Nat) (dst : Nat) (s : State)  (h_s : memWf s.mem = true) :
    ∀ s', execDieLinkRetrainComplete src dst s = .next s' → memWf s'.mem = true := by
  intro s' e
  unfold execDieLinkRetrainComplete at e
  try dsimp only at e
  repeat' split at e
  all_goals first | (simp [notEnabled] at e; done) | (injection e with e; subst e; simp (maxDischargeDepth := 60) +contextual [ite_canon, foldl_canon, foldlFst_canon, memWf_writeN, memWf_write, memWf_filter, memWf_del, notEnabled, dieLinkPut_canon, notEnabled_canon, h_s])

theorem uncorrectable_canon (s : State) (x0 : Tier) (h_s : memWf s.mem = true) :
    memWf (uncorrectable s x0).mem = true := by
  induction x0 generalizing s
  all_goals
    unfold uncorrectable
    try dsimp only
    repeat' split
    all_goals simp (maxDischargeDepth := 60) +contextual [*, ite_canon, foldl_canon, foldlFst_canon, memWf_writeN, memWf_write, memWf_filter, memWf_del, notEnabled, State.modCore_canon, deviceLevelFault_canon, l2Evict_canon, rdcDrop_canon, h_s]

theorem softError_canon (s : State) (e : SoftError)  (h_s : memWf s.mem = true) :
    memWf (softError s e).mem = true := by
  unfold softError
  simp (maxDischargeDepth := 60) +contextual [ite_canon, foldl_canon, foldlFst_canon, memWf_writeN, memWf_write, memWf_filter, memWf_del, notEnabled, State.modDie_canon, uncorrectable_canon, h_s]

theorem execPatrolScrub_canon (visit : Patrol) (s : State)  (h_s : memWf s.mem = true) :
    ∀ s', execPatrolScrub visit s = .next s' → memWf s'.mem = true := by
  intro s' e
  unfold execPatrolScrub at e
  try dsimp only at e
  repeat' split at e
  all_goals first | (simp [notEnabled] at e; done) | (injection e with e; subst e; simp (maxDischargeDepth := 60) +contextual [ite_canon, foldl_canon, foldlFst_canon, memWf_writeN, memWf_write, memWf_filter, memWf_del, notEnabled, notEnabled_canon, softError_canon, h_s])

end Sys2Proof.Machine
end

