-- ==== Sys2Proof/Laws/CanonPhases.lean ====
section
/-! SUPPORT. Memory stays canonical through every operation of `Phases`. -/

set_option linter.all false

namespace Sys2Proof.Machine
open Sys2Proof

theorem phaseBody_canon (i : Instr) (scope : Nat) (s : State) (t : Nat)  (h_s : memWf s.mem = true) :
    memWf (phaseBody i scope s t).mem = true := by
  unfold phaseBody
  simp (maxDischargeDepth := 60) +contextual [ite_canon, foldl_canon, foldlFst_canon, memWf_writeN, memWf_write, memWf_filter, memWf_del, notEnabled, advance_canon, boundaryStep_canon, h_s]

theorem fenceBody_canon (i : Instr) (domain : Bool) (s : State) (t : Nat)  (h_s : memWf s.mem = true) :
    memWf (fenceBody i domain s t).mem = true := by
  unfold fenceBody
  simp (maxDischargeDepth := 60) +contextual [ite_canon, foldl_canon, foldlFst_canon, memWf_writeN, memWf_write, memWf_filter, memWf_del, notEnabled, advance_canon, park_canon, h_s]

theorem barTrainBody_canon (i : Instr) (m : Nat) (s : State) (t : Nat)  (h_s : memWf s.mem = true) :
    memWf (barTrainBody i m s t).mem = true := by
  unfold barTrainBody
  simp (maxDischargeDepth := 60) +contextual [ite_canon, foldl_canon, foldlFst_canon, memWf_writeN, memWf_write, memWf_filter, memWf_del, notEnabled, advance_canon, boundaryPublish_canon, park_canon, raise_canon, readClocks_canon, testGather_canon, h_s]

theorem arrive_canon (i : Instr) (s : State) (t : Nat) (scope : Nat) (id : Nat) (count : Nat)  (h_s : memWf s.mem = true) :
    memWf (arrive i s t scope id count).mem = true := by
  unfold arrive
  simp (maxDischargeDepth := 60) +contextual [ite_canon, foldl_canon, foldlFst_canon, memWf_writeN, memWf_write, memWf_filter, memWf_del, notEnabled, advance_canon, park_canon, readClocks_canon, h_s]

theorem barBody_canon (i : Instr) (scope : Nat) (id : BitVec 4) (a : BitVec 6) (s : State) (t : Nat)  (h_s : memWf s.mem = true) :
    memWf (barBody i scope id a s t).mem = true := by
  unfold barBody
  simp (maxDischargeDepth := 60) +contextual [ite_canon, foldl_canon, foldlFst_canon, memWf_writeN, memWf_write, memWf_filter, memWf_del, notEnabled, advance_canon, arrive_canon, boundaryPublish_canon, raise_canon, readClocks_canon, h_s]

theorem startRange_canon (s : State) (t : Nat) (kind : Nat) (space : Nat) (i : Instr) (pc : Addr) (addr : DWord) (data : List Byte)  (h_s : memWf s.mem = true) :
    memWf (startRange s t kind space i pc addr data).mem = true := by
  unfold startRange
  simp (maxDischargeDepth := 60) +contextual [ite_canon, foldl_canon, foldlFst_canon, memWf_writeN, memWf_write, memWf_filter, memWf_del, notEnabled, State.modThread_canon, failOp_canon, h_s]

theorem rangeBody_canon (i : Instr) (kind : Nat) (space : Nat) (b : BitVec 6) (a : BitVec 6) (s : State) (t : Nat)  (h_s : memWf s.mem = true) :
    memWf (rangeBody i kind space b a s t).mem = true := by
  unfold rangeBody
  simp (maxDischargeDepth := 60) +contextual [ite_canon, foldl_canon, foldlFst_canon, memWf_writeN, memWf_write, memWf_filter, memWf_del, notEnabled, advance_canon, startRange_canon, h_s]

theorem prsWaitBody_canon (i : Instr) (b : BitVec 6) (a : BitVec 6) (s : State) (t : Nat)  (h_s : memWf s.mem = true) :
    memWf (prsWaitBody i b a s t).mem = true := by
  unfold prsWaitBody
  try dsimp only
  repeat' split
  all_goals simp (maxDischargeDepth := 60) +contextual [ite_canon, foldl_canon, foldlFst_canon, memWf_writeN, memWf_write, memWf_filter, memWf_del, notEnabled, advance_canon, park_canon, raise_canon, h_s]

theorem prsTestBody_canon (i : Instr) (a : BitVec 6) (q : BitVec 3) (s : State) (t : Nat)  (h_s : memWf s.mem = true) :
    memWf (prsTestBody i a q s t).mem = true := by
  unfold prsTestBody
  simp (maxDischargeDepth := 60) +contextual [ite_canon, foldl_canon, foldlFst_canon, memWf_writeN, memWf_write, memWf_filter, memWf_del, notEnabled, raise_canon, variableBody_canon, h_s]

theorem execPhaseTrain_canon (sm : BitVec 1) (s : State)  (h_s : memWf s.mem = true) :
    ∀ s', execPhaseTrain sm s = .next s' → memWf s'.mem = true := by
  unfold execPhaseTrain
  refine issueEach_canon _ _ _ (by simp [State.fresh_canon, h_s]) (fun s t hs => ?_)
  first | assumption | (simp (maxDischargeDepth := 60) +contextual [*, ite_canon, foldl_canon, foldlFst_canon, memWf_writeN, memWf_write, memWf_filter, memWf_del, notEnabled, issueEach_canon, phaseBody_canon, h_s]; done) | (repeat' first | assumption | (with_reducible refine foldl_canon _ (fun s x hs => ?_) ?_) | (with_reducible apply ite_canon) | (with_reducible apply memWf_writeN) | (with_reducible apply memWf_write) | (with_reducible apply memWf_filter) | (with_reducible apply memWf_del) | (with_reducible apply issueEach_canon) | (with_reducible apply phaseBody_canon) | (with_reducible apply h_s) | split | (intros; dsimp only))

theorem execPhaseMovement_canon (sm : BitVec 1) (s : State)  (h_s : memWf s.mem = true) :
    ∀ s', execPhaseMovement sm s = .next s' → memWf s'.mem = true := by
  unfold execPhaseMovement
  refine issueEach_canon _ _ _ (by simp [State.fresh_canon, h_s]) (fun s t hs => ?_)
  first | assumption | (simp (maxDischargeDepth := 60) +contextual [*, ite_canon, foldl_canon, foldlFst_canon, memWf_writeN, memWf_write, memWf_filter, memWf_del, notEnabled, issueEach_canon, phaseBody_canon, h_s]; done) | (repeat' first | assumption | (with_reducible refine foldl_canon _ (fun s x hs => ?_) ?_) | (with_reducible apply ite_canon) | (with_reducible apply memWf_writeN) | (with_reducible apply memWf_write) | (with_reducible apply memWf_filter) | (with_reducible apply memWf_del) | (with_reducible apply issueEach_canon) | (with_reducible apply phaseBody_canon) | (with_reducible apply h_s) | split | (intros; dsimp only))

theorem execPhaseCalibre_canon (sm : BitVec 1) (s : State)  (h_s : memWf s.mem = true) :
    ∀ s', execPhaseCalibre sm s = .next s' → memWf s'.mem = true := by
  unfold execPhaseCalibre
  refine issueEach_canon _ _ _ (by simp [State.fresh_canon, h_s]) (fun s t hs => ?_)
  first | assumption | (simp (maxDischargeDepth := 60) +contextual [*, ite_canon, foldl_canon, foldlFst_canon, memWf_writeN, memWf_write, memWf_filter, memWf_del, notEnabled, issueEach_canon, phaseBody_canon, h_s]; done) | (repeat' first | assumption | (with_reducible refine foldl_canon _ (fun s x hs => ?_) ?_) | (with_reducible apply ite_canon) | (with_reducible apply memWf_writeN) | (with_reducible apply memWf_write) | (with_reducible apply memWf_filter) | (with_reducible apply memWf_del) | (with_reducible apply issueEach_canon) | (with_reducible apply phaseBody_canon) | (with_reducible apply h_s) | split | (intros; dsimp only))

theorem execPhaseDevice_canon (sm : BitVec 1) (s : State)  (h_s : memWf s.mem = true) :
    ∀ s', execPhaseDevice sm s = .next s' → memWf s'.mem = true := by
  unfold execPhaseDevice
  refine issueEach_canon _ _ _ (by simp [State.fresh_canon, h_s]) (fun s t hs => ?_)
  first | assumption | (simp (maxDischargeDepth := 60) +contextual [*, ite_canon, foldl_canon, foldlFst_canon, memWf_writeN, memWf_write, memWf_filter, memWf_del, notEnabled, issueEach_canon, phaseBody_canon, h_s]; done) | (repeat' first | assumption | (with_reducible refine foldl_canon _ (fun s x hs => ?_) ?_) | (with_reducible apply ite_canon) | (with_reducible apply memWf_writeN) | (with_reducible apply memWf_write) | (with_reducible apply memWf_filter) | (with_reducible apply memWf_del) | (with_reducible apply issueEach_canon) | (with_reducible apply phaseBody_canon) | (with_reducible apply h_s) | split | (intros; dsimp only))

theorem execPhaseDomain_canon (sm : BitVec 1) (s : State)  (h_s : memWf s.mem = true) :
    ∀ s', execPhaseDomain sm s = .next s' → memWf s'.mem = true := by
  unfold execPhaseDomain
  refine issueEach_canon _ _ _ (by simp [State.fresh_canon, h_s]) (fun s t hs => ?_)
  first | assumption | (simp (maxDischargeDepth := 60) +contextual [*, ite_canon, foldl_canon, foldlFst_canon, memWf_writeN, memWf_write, memWf_filter, memWf_del, notEnabled, issueEach_canon, phaseBody_canon, h_s]; done) | (repeat' first | assumption | (with_reducible refine foldl_canon _ (fun s x hs => ?_) ?_) | (with_reducible apply ite_canon) | (with_reducible apply memWf_writeN) | (with_reducible apply memWf_write) | (with_reducible apply memWf_filter) | (with_reducible apply memWf_del) | (with_reducible apply issueEach_canon) | (with_reducible apply phaseBody_canon) | (with_reducible apply h_s) | split | (intros; dsimp only))

theorem execFenceTrain_canon (sm : BitVec 1) (s : State)  (h_s : memWf s.mem = true) :
    ∀ s', execFenceTrain sm s = .next s' → memWf s'.mem = true := by
  unfold execFenceTrain
  refine issueEach_canon _ _ _ (by simp [State.fresh_canon, h_s]) (fun s t hs => ?_)
  first | assumption | (simp (maxDischargeDepth := 60) +contextual [*, ite_canon, foldl_canon, foldlFst_canon, memWf_writeN, memWf_write, memWf_filter, memWf_del, notEnabled, fenceBody_canon, issueEach_canon, h_s]; done) | (repeat' first | assumption | (with_reducible refine foldl_canon _ (fun s x hs => ?_) ?_) | (with_reducible apply ite_canon) | (with_reducible apply memWf_writeN) | (with_reducible apply memWf_write) | (with_reducible apply memWf_filter) | (with_reducible apply memWf_del) | (with_reducible apply fenceBody_canon) | (with_reducible apply issueEach_canon) | (with_reducible apply h_s) | split | (intros; dsimp only))

theorem execFenceMovement_canon (sm : BitVec 1) (s : State)  (h_s : memWf s.mem = true) :
    ∀ s', execFenceMovement sm s = .next s' → memWf s'.mem = true := by
  unfold execFenceMovement
  refine issueEach_canon _ _ _ (by simp [State.fresh_canon, h_s]) (fun s t hs => ?_)
  first | assumption | (simp (maxDischargeDepth := 60) +contextual [*, ite_canon, foldl_canon, foldlFst_canon, memWf_writeN, memWf_write, memWf_filter, memWf_del, notEnabled, fenceBody_canon, issueEach_canon, h_s]; done) | (repeat' first | assumption | (with_reducible refine foldl_canon _ (fun s x hs => ?_) ?_) | (with_reducible apply ite_canon) | (with_reducible apply memWf_writeN) | (with_reducible apply memWf_write) | (with_reducible apply memWf_filter) | (with_reducible apply memWf_del) | (with_reducible apply fenceBody_canon) | (with_reducible apply issueEach_canon) | (with_reducible apply h_s) | split | (intros; dsimp only))

theorem execFenceCalibre_canon (sm : BitVec 1) (s : State)  (h_s : memWf s.mem = true) :
    ∀ s', execFenceCalibre sm s = .next s' → memWf s'.mem = true := by
  unfold execFenceCalibre
  refine issueEach_canon _ _ _ (by simp [State.fresh_canon, h_s]) (fun s t hs => ?_)
  first | assumption | (simp (maxDischargeDepth := 60) +contextual [*, ite_canon, foldl_canon, foldlFst_canon, memWf_writeN, memWf_write, memWf_filter, memWf_del, notEnabled, fenceBody_canon, issueEach_canon, h_s]; done) | (repeat' first | assumption | (with_reducible refine foldl_canon _ (fun s x hs => ?_) ?_) | (with_reducible apply ite_canon) | (with_reducible apply memWf_writeN) | (with_reducible apply memWf_write) | (with_reducible apply memWf_filter) | (with_reducible apply memWf_del) | (with_reducible apply fenceBody_canon) | (with_reducible apply issueEach_canon) | (with_reducible apply h_s) | split | (intros; dsimp only))

theorem execFenceDevice_canon (sm : BitVec 1) (s : State)  (h_s : memWf s.mem = true) :
    ∀ s', execFenceDevice sm s = .next s' → memWf s'.mem = true := by
  unfold execFenceDevice
  refine issueEach_canon _ _ _ (by simp [State.fresh_canon, h_s]) (fun s t hs => ?_)
  first | assumption | (simp (maxDischargeDepth := 60) +contextual [*, ite_canon, foldl_canon, foldlFst_canon, memWf_writeN, memWf_write, memWf_filter, memWf_del, notEnabled, fenceBody_canon, issueEach_canon, h_s]; done) | (repeat' first | assumption | (with_reducible refine foldl_canon _ (fun s x hs => ?_) ?_) | (with_reducible apply ite_canon) | (with_reducible apply memWf_writeN) | (with_reducible apply memWf_write) | (with_reducible apply memWf_filter) | (with_reducible apply memWf_del) | (with_reducible apply fenceBody_canon) | (with_reducible apply issueEach_canon) | (with_reducible apply h_s) | split | (intros; dsimp only))

theorem execFenceDomain_canon (sm : BitVec 1) (s : State)  (h_s : memWf s.mem = true) :
    ∀ s', execFenceDomain sm s = .next s' → memWf s'.mem = true := by
  unfold execFenceDomain
  refine issueEach_canon _ _ _ (by simp [State.fresh_canon, h_s]) (fun s t hs => ?_)
  first | assumption | (simp (maxDischargeDepth := 60) +contextual [*, ite_canon, foldl_canon, foldlFst_canon, memWf_writeN, memWf_write, memWf_filter, memWf_del, notEnabled, fenceBody_canon, issueEach_canon, h_s]; done) | (repeat' first | assumption | (with_reducible refine foldl_canon _ (fun s x hs => ?_) ?_) | (with_reducible apply ite_canon) | (with_reducible apply memWf_writeN) | (with_reducible apply memWf_write) | (with_reducible apply memWf_filter) | (with_reducible apply memWf_del) | (with_reducible apply fenceBody_canon) | (with_reducible apply issueEach_canon) | (with_reducible apply h_s) | split | (intros; dsimp only))

theorem execBarTrain_canon (d : BitVec 6) (sm : BitVec 1) (s : State)  (h_s : memWf s.mem = true) :
    ∀ s', execBarTrain d sm s = .next s' → memWf s'.mem = true := by
  unfold execBarTrain
  refine issueEach_canon _ _ _ (by simp [State.fresh_canon, h_s]) (fun s t hs => ?_)
  first | assumption | (simp (maxDischargeDepth := 60) +contextual [*, ite_canon, foldl_canon, foldlFst_canon, memWf_writeN, memWf_write, memWf_filter, memWf_del, notEnabled, barTrainBody_canon, issueEach_canon, h_s]; done) | (repeat' first | assumption | (with_reducible refine foldl_canon _ (fun s x hs => ?_) ?_) | (with_reducible apply ite_canon) | (with_reducible apply memWf_writeN) | (with_reducible apply memWf_write) | (with_reducible apply memWf_filter) | (with_reducible apply memWf_del) | (with_reducible apply barTrainBody_canon) | (with_reducible apply issueEach_canon) | (with_reducible apply h_s) | split | (intros; dsimp only))

theorem execBarMovement_canon (i : BitVec 4) (a : BitVec 6) (sm : BitVec 1) (s : State)  (h_s : memWf s.mem = true) :
    ∀ s', execBarMovement i a sm s = .next s' → memWf s'.mem = true := by
  unfold execBarMovement
  refine issueEach_canon _ _ _ (by simp [State.fresh_canon, h_s]) (fun s t hs => ?_)
  first | assumption | (simp (maxDischargeDepth := 60) +contextual [*, ite_canon, foldl_canon, foldlFst_canon, memWf_writeN, memWf_write, memWf_filter, memWf_del, notEnabled, barBody_canon, issueEach_canon, h_s]; done) | (repeat' first | assumption | (with_reducible refine foldl_canon _ (fun s x hs => ?_) ?_) | (with_reducible apply ite_canon) | (with_reducible apply memWf_writeN) | (with_reducible apply memWf_write) | (with_reducible apply memWf_filter) | (with_reducible apply memWf_del) | (with_reducible apply barBody_canon) | (with_reducible apply issueEach_canon) | (with_reducible apply h_s) | split | (intros; dsimp only))

theorem execBarCalibre_canon (i : BitVec 4) (a : BitVec 6) (sm : BitVec 1) (s : State)  (h_s : memWf s.mem = true) :
    ∀ s', execBarCalibre i a sm s = .next s' → memWf s'.mem = true := by
  unfold execBarCalibre
  refine issueEach_canon _ _ _ (by simp [State.fresh_canon, h_s]) (fun s t hs => ?_)
  first | assumption | (simp (maxDischargeDepth := 60) +contextual [*, ite_canon, foldl_canon, foldlFst_canon, memWf_writeN, memWf_write, memWf_filter, memWf_del, notEnabled, barBody_canon, issueEach_canon, h_s]; done) | (repeat' first | assumption | (with_reducible refine foldl_canon _ (fun s x hs => ?_) ?_) | (with_reducible apply ite_canon) | (with_reducible apply memWf_writeN) | (with_reducible apply memWf_write) | (with_reducible apply memWf_filter) | (with_reducible apply memWf_del) | (with_reducible apply barBody_canon) | (with_reducible apply issueEach_canon) | (with_reducible apply h_s) | split | (intros; dsimp only))

theorem execBarDevice_canon (i : BitVec 4) (a : BitVec 6) (sm : BitVec 1) (s : State)  (h_s : memWf s.mem = true) :
    ∀ s', execBarDevice i a sm s = .next s' → memWf s'.mem = true := by
  unfold execBarDevice
  refine issueEach_canon _ _ _ (by simp [State.fresh_canon, h_s]) (fun s t hs => ?_)
  first | assumption | (simp (maxDischargeDepth := 60) +contextual [*, ite_canon, foldl_canon, foldlFst_canon, memWf_writeN, memWf_write, memWf_filter, memWf_del, notEnabled, barBody_canon, issueEach_canon, h_s]; done) | (repeat' first | assumption | (with_reducible refine foldl_canon _ (fun s x hs => ?_) ?_) | (with_reducible apply ite_canon) | (with_reducible apply memWf_writeN) | (with_reducible apply memWf_write) | (with_reducible apply memWf_filter) | (with_reducible apply memWf_del) | (with_reducible apply barBody_canon) | (with_reducible apply issueEach_canon) | (with_reducible apply h_s) | split | (intros; dsimp only))

theorem execRflushDev_canon (b : BitVec 6) (a : BitVec 6) (sm : BitVec 1) (s : State)  (h_s : memWf s.mem = true) :
    ∀ s', execRflushDev b a sm s = .next s' → memWf s'.mem = true := by
  unfold execRflushDev
  refine issueEach_canon _ _ _ (by simp [State.fresh_canon, h_s]) (fun s t hs => ?_)
  first | assumption | (simp (maxDischargeDepth := 60) +contextual [*, ite_canon, foldl_canon, foldlFst_canon, memWf_writeN, memWf_write, memWf_filter, memWf_del, notEnabled, issueEach_canon, rangeBody_canon, h_s]; done) | (repeat' first | assumption | (with_reducible refine foldl_canon _ (fun s x hs => ?_) ?_) | (with_reducible apply ite_canon) | (with_reducible apply memWf_writeN) | (with_reducible apply memWf_write) | (with_reducible apply memWf_filter) | (with_reducible apply memWf_del) | (with_reducible apply issueEach_canon) | (with_reducible apply rangeBody_canon) | (with_reducible apply h_s) | split | (intros; dsimp only))

theorem execRflushRem_canon (b : BitVec 6) (a : BitVec 6) (sm : BitVec 1) (s : State)  (h_s : memWf s.mem = true) :
    ∀ s', execRflushRem b a sm s = .next s' → memWf s'.mem = true := by
  unfold execRflushRem
  refine issueEach_canon _ _ _ (by simp [State.fresh_canon, h_s]) (fun s t hs => ?_)
  first | assumption | (simp (maxDischargeDepth := 60) +contextual [*, ite_canon, foldl_canon, foldlFst_canon, memWf_writeN, memWf_write, memWf_filter, memWf_del, notEnabled, issueEach_canon, rangeBody_canon, h_s]; done) | (repeat' first | assumption | (with_reducible refine foldl_canon _ (fun s x hs => ?_) ?_) | (with_reducible apply ite_canon) | (with_reducible apply memWf_writeN) | (with_reducible apply memWf_write) | (with_reducible apply memWf_filter) | (with_reducible apply memWf_del) | (with_reducible apply issueEach_canon) | (with_reducible apply rangeBody_canon) | (with_reducible apply h_s) | split | (intros; dsimp only))

theorem execRflushHost_canon (b : BitVec 6) (a : BitVec 6) (sm : BitVec 1) (s : State)  (h_s : memWf s.mem = true) :
    ∀ s', execRflushHost b a sm s = .next s' → memWf s'.mem = true := by
  unfold execRflushHost
  refine issueEach_canon _ _ _ (by simp [State.fresh_canon, h_s]) (fun s t hs => ?_)
  first | assumption | (simp (maxDischargeDepth := 60) +contextual [*, ite_canon, foldl_canon, foldlFst_canon, memWf_writeN, memWf_write, memWf_filter, memWf_del, notEnabled, issueEach_canon, rangeBody_canon, h_s]; done) | (repeat' first | assumption | (with_reducible refine foldl_canon _ (fun s x hs => ?_) ?_) | (with_reducible apply ite_canon) | (with_reducible apply memWf_writeN) | (with_reducible apply memWf_write) | (with_reducible apply memWf_filter) | (with_reducible apply memWf_del) | (with_reducible apply issueEach_canon) | (with_reducible apply rangeBody_canon) | (with_reducible apply h_s) | split | (intros; dsimp only))

theorem execRinvalDev_canon (b : BitVec 6) (a : BitVec 6) (sm : BitVec 1) (s : State)  (h_s : memWf s.mem = true) :
    ∀ s', execRinvalDev b a sm s = .next s' → memWf s'.mem = true := by
  unfold execRinvalDev
  refine issueEach_canon _ _ _ (by simp [State.fresh_canon, h_s]) (fun s t hs => ?_)
  first | assumption | (simp (maxDischargeDepth := 60) +contextual [*, ite_canon, foldl_canon, foldlFst_canon, memWf_writeN, memWf_write, memWf_filter, memWf_del, notEnabled, issueEach_canon, rangeBody_canon, h_s]; done) | (repeat' first | assumption | (with_reducible refine foldl_canon _ (fun s x hs => ?_) ?_) | (with_reducible apply ite_canon) | (with_reducible apply memWf_writeN) | (with_reducible apply memWf_write) | (with_reducible apply memWf_filter) | (with_reducible apply memWf_del) | (with_reducible apply issueEach_canon) | (with_reducible apply rangeBody_canon) | (with_reducible apply h_s) | split | (intros; dsimp only))

theorem execRinvalRem_canon (b : BitVec 6) (a : BitVec 6) (sm : BitVec 1) (s : State)  (h_s : memWf s.mem = true) :
    ∀ s', execRinvalRem b a sm s = .next s' → memWf s'.mem = true := by
  unfold execRinvalRem
  refine issueEach_canon _ _ _ (by simp [State.fresh_canon, h_s]) (fun s t hs => ?_)
  first | assumption | (simp (maxDischargeDepth := 60) +contextual [*, ite_canon, foldl_canon, foldlFst_canon, memWf_writeN, memWf_write, memWf_filter, memWf_del, notEnabled, issueEach_canon, rangeBody_canon, h_s]; done) | (repeat' first | assumption | (with_reducible refine foldl_canon _ (fun s x hs => ?_) ?_) | (with_reducible apply ite_canon) | (with_reducible apply memWf_writeN) | (with_reducible apply memWf_write) | (with_reducible apply memWf_filter) | (with_reducible apply memWf_del) | (with_reducible apply issueEach_canon) | (with_reducible apply rangeBody_canon) | (with_reducible apply h_s) | split | (intros; dsimp only))

theorem execRinvalHost_canon (b : BitVec 6) (a : BitVec 6) (sm : BitVec 1) (s : State)  (h_s : memWf s.mem = true) :
    ∀ s', execRinvalHost b a sm s = .next s' → memWf s'.mem = true := by
  unfold execRinvalHost
  refine issueEach_canon _ _ _ (by simp [State.fresh_canon, h_s]) (fun s t hs => ?_)
  first | assumption | (simp (maxDischargeDepth := 60) +contextual [*, ite_canon, foldl_canon, foldlFst_canon, memWf_writeN, memWf_write, memWf_filter, memWf_del, notEnabled, issueEach_canon, rangeBody_canon, h_s]; done) | (repeat' first | assumption | (with_reducible refine foldl_canon _ (fun s x hs => ?_) ?_) | (with_reducible apply ite_canon) | (with_reducible apply memWf_writeN) | (with_reducible apply memWf_write) | (with_reducible apply memWf_filter) | (with_reducible apply memWf_del) | (with_reducible apply issueEach_canon) | (with_reducible apply rangeBody_canon) | (with_reducible apply h_s) | split | (intros; dsimp only))

theorem execPrsWait_canon (b : BitVec 6) (a : BitVec 6) (sm : BitVec 1) (s : State)  (h_s : memWf s.mem = true) :
    ∀ s', execPrsWait b a sm s = .next s' → memWf s'.mem = true := by
  unfold execPrsWait
  refine issueEach_canon _ _ _ (by simp [State.fresh_canon, h_s]) (fun s t hs => ?_)
  first | assumption | (simp (maxDischargeDepth := 60) +contextual [*, ite_canon, foldl_canon, foldlFst_canon, memWf_writeN, memWf_write, memWf_filter, memWf_del, notEnabled, issueEach_canon, prsWaitBody_canon, h_s]; done) | (repeat' first | assumption | (with_reducible refine foldl_canon _ (fun s x hs => ?_) ?_) | (with_reducible apply ite_canon) | (with_reducible apply memWf_writeN) | (with_reducible apply memWf_write) | (with_reducible apply memWf_filter) | (with_reducible apply memWf_del) | (with_reducible apply issueEach_canon) | (with_reducible apply prsWaitBody_canon) | (with_reducible apply h_s) | split | (intros; dsimp only))

theorem execPrsTest_canon (a : BitVec 6) (q : BitVec 3) (sm : BitVec 1) (s : State)  (h_s : memWf s.mem = true) :
    ∀ s', execPrsTest a q sm s = .next s' → memWf s'.mem = true := by
  unfold execPrsTest
  refine issueEach_canon _ _ _ (by simp [State.fresh_canon, h_s]) (fun s t hs => ?_)
  first | assumption | (simp (maxDischargeDepth := 60) +contextual [*, ite_canon, foldl_canon, foldlFst_canon, memWf_writeN, memWf_write, memWf_filter, memWf_del, notEnabled, issueEach_canon, prsTestBody_canon, h_s]; done) | (repeat' first | assumption | (with_reducible refine foldl_canon _ (fun s x hs => ?_) ?_) | (with_reducible apply ite_canon) | (with_reducible apply memWf_writeN) | (with_reducible apply memWf_write) | (with_reducible apply memWf_filter) | (with_reducible apply memWf_del) | (with_reducible apply issueEach_canon) | (with_reducible apply prsTestBody_canon) | (with_reducible apply h_s) | split | (intros; dsimp only))

end Sys2Proof.Machine
end

