-- ==== Sys2Proof/Laws/CanonEvThread.lean ====
section
/-! SUPPORT. Memory stays canonical through every operation of `EvThread`. -/

set_option linter.all false

namespace Sys2Proof.Machine
open Sys2Proof

theorem arriveResult_canon (s : State) (t : Nat) (i : Nat) (r : Result)  (h_s : memWf s.mem = true) :
    memWf (arriveResult s t i r).mem = true := by
  unfold arriveResult
  try dsimp only
  split <;> simp (maxDischargeDepth := 60) +contextual [ite_canon, foldl_canon, foldlFst_canon, memWf_writeN, memWf_write, memWf_filter, memWf_del, notEnabled, State.modThread_canon, State.modTrain_canon, settleBatches_canon, h_s]

theorem arriveGroup_canon (s : State) (g : Nat)  (h_s : memWf s.mem = true) :
    memWf (arriveGroup s g).mem = true := by
  unfold arriveGroup
  try dsimp only
  repeat' first | assumption | (with_reducible refine foldl_canon _ (fun s x hs => ?_) ?_) | (with_reducible apply ite_canon) | (with_reducible apply memWf_writeN) | (with_reducible apply memWf_write) | (with_reducible apply memWf_filter) | (with_reducible apply memWf_del) | (with_reducible apply arriveResult_canon) | (with_reducible apply h_s) | split | (dsimp only)
  all_goals (try simp (maxDischargeDepth := 60) +contextual [*, ite_canon, foldl_canon, foldlFst_canon, memWf_writeN, memWf_write, memWf_filter, memWf_del, notEnabled, arriveResult_canon, h_s])

theorem walkOne_canon (s : State) (c ctx : Nat) (x : Nat × Nat) (h_s : memWf s.mem = true) :
    memWf (walkOne s c ctx x).mem = true := by
  unfold walkOne
  split
  · exact h_s
  · next o _ =>
    have h := translateNow_canon s c (s.trainOf x.1).quarter ctx o.addr.toNat (accOf o.insn) h_s
    dsimp only
    generalize translateNow s c (s.trainOf x.1).quarter ctx o.addr.toNat (accOf o.insn) = r at h ⊢
    split
    · exact lookedUp_canon _ _ _ (translated_canon _ _ _ _ _ h)
    · exact failOp_canon _ _ _ _ _ h
    · exact stallCore_canon _ _ _ _ _ _ _ h
    · exact h

theorem freeMiss_canon (s : State) (c : Nat) (ctx : Nat) (page : Nat)  (h_s : memWf s.mem = true) :
    memWf (freeMiss s c ctx page).mem = true := by
  unfold freeMiss
  simp (maxDischargeDepth := 60) +contextual [ite_canon, foldl_canon, foldlFst_canon, memWf_writeN, memWf_write, memWf_filter, memWf_del, notEnabled, State.modCore_canon, h_s]

theorem installEntries_canon (s : State) (l : List (Nat × DWord))  (h_s : memWf s.mem = true) :
    memWf (installEntries s l).mem = true := by
  unfold installEntries
  simp (maxDischargeDepth := 60) +contextual [ite_canon, foldl_canon, foldlFst_canon, memWf_writeN, memWf_write, memWf_filter, memWf_del, notEnabled, physWrite_canon, h_s]

theorem unstall_canon (s : State) (c : Nat)  (h_s : memWf s.mem = true) :
    memWf (unstall s c).mem = true := by
  unfold unstall
  simp (maxDischargeDepth := 60) +contextual [ite_canon, foldl_canon, foldlFst_canon, memWf_writeN, memWf_write, memWf_filter, memWf_del, notEnabled, State.modCore_canon, h_s]

theorem declineFault_canon (s : State) (c : Nat) (m : Miss)  (h_s : memWf s.mem = true) :
    memWf (declineFault s c m).mem = true := by
  unfold declineFault
  try dsimp only
  repeat' first | assumption | (with_reducible refine foldl_canon _ (fun s x hs => ?_) ?_) | (with_reducible apply ite_canon) | (with_reducible apply memWf_writeN) | (with_reducible apply memWf_write) | (with_reducible apply memWf_filter) | (with_reducible apply memWf_del) | (with_reducible apply State.modCore_canon) | (with_reducible apply failOp_canon) | (with_reducible apply raise_canon) | (with_reducible apply h_s) | split | (dsimp only)
  all_goals (try simp (maxDischargeDepth := 60) +contextual [*, ite_canon, foldl_canon, foldlFst_canon, memWf_writeN, memWf_write, memWf_filter, memWf_del, notEnabled, State.modCore_canon, failOp_canon, raise_canon, h_s])

theorem retryWeak_canon (s : State) (c : Nat) (fail : Bool)  (h_s : memWf s.mem = true) :
    memWf (retryWeak s c fail).mem = true := by
  unfold retryWeak
  simp (maxDischargeDepth := 60) +contextual [ite_canon, foldl_canon, foldlFst_canon, memWf_writeN, memWf_write, memWf_filter, memWf_del, notEnabled, failOp_canon, placeWeak_canon, h_s]

theorem dropL1s_canon (s : State)  (h_s : memWf s.mem = true) :
    memWf (dropL1s s).mem = true := by
  unfold dropL1s
  simp (maxDischargeDepth := 60) +contextual [ite_canon, foldl_canon, foldlFst_canon, memWf_writeN, memWf_write, memWf_filter, memWf_del, notEnabled, l1Drop_canon, h_s]

theorem rebased_canon (s : State)  (h_s : memWf s.mem = true) :
    memWf (rebased s).mem = true := by
  unfold rebased
  simp (maxDischargeDepth := 60) +contextual [ite_canon, foldl_canon, foldlFst_canon, memWf_writeN, memWf_write, memWf_filter, memWf_del, notEnabled, dropL1s_canon, h_s]

theorem transPieces_canon (s : State) (c : Option Nat) (ctx : Nat) (acc : Acc) (x0 : List (Nat × Nat)) (x1 : List (Nat × Nat)) (h_s : memWf s.mem = true) :
    memWf (transPieces s c ctx acc x0 x1).1.mem = true := by
  induction x0 generalizing s c ctx acc x1
  all_goals
    unfold transPieces
    try dsimp only
    repeat' split
    all_goals simp (maxDischargeDepth := 60) +contextual [*, ite_canon, foldl_canon, foldlFst_canon, memWf_writeN, memWf_write, memWf_filter, memWf_del, notEnabled, translateSettled_canon, h_s]

theorem publishNow_canon (s : State) (c line cls ctx page : Nat) (b : SMap Byte) (h_s : memWf s.mem = true) :
    memWf (publishNow s c line cls ctx page b).1.mem = true := by
  have h1 := storePlain_canon s c line ctx page b h_s
  have h2 := storeHome_canon _ c line b (settleAll_canon _ line true h_s)
  unfold publishNow
  generalize storePlain s c line ctx page b = x at h1 ⊢
  generalize storeHome (settleAll s line true) c line b = y at h2 ⊢
  split
  · exact h1
  · exact h2

theorem publishRange_canon (s : State) (t : Nat) (o : Op) (l : List (Nat × Nat)) (h_s : memWf s.mem = true) :
    memWf (publishRange s t o l).mem = true := by
  unfold publishRange
  dsimp only
  refine readClocks_canon _ _ _ (writeClocks_canon _ _ _ _ (foldlFst_canon _ (fun s x hs => ?_) h_s))
  exact State.modThread_canon _ _ _ (publishNow_canon _ _ _ _ _ _ _ hs)

theorem joinOut_canon (s : State) (t : Nat) (seq : BitVec 16) (d : Nat) (key : Nat)  (h_s : memWf s.mem = true) :
    memWf (joinOut s t seq d key).mem = true := by
  unfold joinOut
  simp (maxDischargeDepth := 60) +contextual [ite_canon, foldl_canon, foldlFst_canon, memWf_writeN, memWf_write, memWf_filter, memWf_del, notEnabled, h_s]

theorem walkLine_canon (s : State) (t : Nat) (seq : BitVec 16) (inval : Bool) (d : Nat) (key : Nat)  (h_s : memWf s.mem = true) :
    memWf (walkLine s t seq inval d key).mem = true := by
  unfold walkLine
  try dsimp only
  split <;> simp (maxDischargeDepth := 60) +contextual [ite_canon, foldl_canon, foldlFst_canon, memWf_writeN, memWf_write, memWf_filter, memWf_del, notEnabled, joinOut_canon, rdcDrop_canon, rdcPut_canon, sendOut_canon, h_s]

theorem walkRange_canon (s : State) (t : Nat) (o : Op) (space : Nat) (h_s : memWf s.mem = true) :
    memWf (walkRange s t o space).mem = true := by
  unfold walkRange
  dsimp only
  generalize (if space = 4 then upTo 4 else [s.dieOf t]) = ds
  have h : memWf (ds.foldl (fun s d => (rangeKeys (s.die d) space o.addr (natOfBytes o.data)).foldl
      (fun s k => walkLine s t o.seq (o.kind = 0x41) d k) s) s).mem = true :=
    foldl_canon _ (fun s x hs => foldl_canon _ (fun s y hs => walkLine_canon _ _ _ _ _ _ hs) hs) h_s
  split
  · exact setPhase_canon _ _ _ _ h
  · exact pump_canon _ (resolveOp_canon _ _ _ h)

theorem tryStore_canon (s : State) (t seq : Nat) (h_s : memWf s.mem = true) :
    ∀ s', tryStore s t seq = some s' → memWf s'.mem = true := by
  intro s' e
  unfold tryStore at e
  split at e
  · simp at e
  · next o _ =>
    dsimp only at e
    split at e
    · have h := storeStrong_canon s (s.coreOf t) (o.pa / 128) o.cls (s.ctxOf t) (o.addr.toNat / 2 ^ 16)
        ((storeLanes s t o).flatMap fun x => lineBytes x.2.pa x.2.data) (lineWaiter (storeLanes s t o) (t, o)) h_s
      generalize storeStrong s (s.coreOf t) (o.pa / 128) o.cls (s.ctxOf t) (o.addr.toNat / 2 ^ 16)
        ((storeLanes s t o).flatMap fun x => lineBytes x.2.pa x.2.data) (lineWaiter (storeLanes s t o) (t, o)) = r at h e
      split at e
      · injection e with e; subst e
        exact pump_canon _ (foldl_canon _ (fun s x hs => State.modThread_canon _ _ _ hs) h)
      · injection e with e; subst e; exact h
    · simp at e

theorem tryPublish_canon (s : State) (t k : Nat) (h_s : memWf s.mem = true) :
    ∀ s', tryPublish s t k = some s' → memWf s'.mem = true := by
  intro s' e
  unfold tryPublish at e
  dsimp only at e
  split at e
  · simp at e
  · split at e
    · simp at e
    · split at e
      · injection e with e; subst e
        exact State.modThread_canon _ _ _ (writeClocks_canon _ _ _ _ h_s)
      · split at e
        · simp at e
        · next e' _ =>
          split at e
          · injection e with e; subst e
            exact State.modThread_canon _ _ _ h_s
          · have h := publish_canon s (s.coreOf t) e'.line e'.cls (s.ctxOf t) e'.page e'.bytes (.boundary t) h_s
            generalize publish s (s.coreOf t) e'.line e'.cls (s.ctxOf t) e'.page e'.bytes (.boundary t) = q at h e
            split at e
            · injection e with e; subst e
              exact State.modThread_canon _ _ _ h
            · injection e with e; subst e; exact h

theorem serveAtoms_canon (s : State) (g : Nat × Nat) (l : List AtomReq) (h_s : memWf s.mem = true) :
    memWf (serveAtoms s g l).mem = true := by
  have h := ensureHomeWrite_canon _ g.2 (.atoms g.1) (settlePlain_canon s g.2 true h_s)
  unfold serveAtoms
  dsimp only
  generalize ensureHomeWrite (settlePlain s g.2 true) g.2 (.atoms g.1) = r at h ⊢
  split
  · exact h
  · refine foldl_canon _ (fun s x hs => State.modThread_canon _ _ _ (sawHandOver_canon _ _ _ _ hs)) ?_
    refine foldl_canon _ (fun s x hs => gatePass_canon _ _ (logEvent_canon _ _ _ _ _ hs)) ?_
    exact storeHome_canon _ _ _ _ (State.fresh_canon _ h)

theorem holdAsync_canon (s : State) (t : Nat) (x0 : Option TrapReq) (h_s : memWf s.mem = true) :
    memWf (holdAsync s t x0).mem = true := by
  induction x0 generalizing s t
  all_goals
    unfold holdAsync
    simp (maxDischargeDepth := 60) +contextual [*, ite_canon, foldl_canon, foldlFst_canon, memWf_writeN, memWf_write, memWf_filter, memWf_del, notEnabled, traceThread_canon, h_s]

theorem deliverRecord_canon (s : State) (t : Nat) (r : Record) (held : Option TrapReq) (prepare : Thread → Thread)  (h_s : memWf s.mem = true) :
    memWf (deliverRecord s t r held prepare).mem = true := by
  unfold deliverRecord
  try dsimp only
  split <;> simp (maxDischargeDepth := 60) +contextual [ite_canon, foldl_canon, foldlFst_canon, memWf_writeN, memWf_write, memWf_filter, memWf_del, notEnabled, cancelUnits_canon, checkArea_canon, holdAsync_canon, overflow_canon, settleBatches_canon, takeTrap_canon, h_s]

theorem deliverTrap_canon (s : State) (t : Nat) (h_s : memWf s.mem = true) :
    ∀ s', deliverTrap s t = some s' → memWf s'.mem = true := by
  intro s' e
  unfold deliverTrap at e
  dsimp only at e
  split at e
  · simp at e
  · split at e
    · simp only [Option.map_eq_some_iff] at e
      obtain ⟨r, -, rfl⟩ := e
      exact deliverRecord_canon _ _ _ _ _ h_s
    · split at e
      · split at e
        · injection e with e; subst e; exact deliverRecord_canon _ _ _ _ _ h_s
        · simp at e
      · simp at e

theorem settleHeld_canon (s : State) (t : Nat)  (h_s : memWf s.mem = true) :
    ∀ s', settleHeld s t = some s' → memWf s'.mem = true := by
  intro s' e
  unfold settleHeld at e
  try dsimp only at e
  repeat' split at e
  all_goals first | (simp [notEnabled] at e; done) | (injection e with e; subst e; simp (maxDischargeDepth := 60) +contextual [ite_canon, foldl_canon, foldlFst_canon, memWf_writeN, memWf_write, memWf_filter, memWf_del, notEnabled, cancelUnits_canon, overflow_canon, settleBatches_canon, traceThread_canon, h_s])

theorem failHelper_canon (s : State) (t : Nat) (o : Nat) (i : Nat) (r : Record)  (h_s : memWf s.mem = true) :
    memWf (failHelper s t o i r).mem = true := by
  unfold failHelper
  simp (maxDischargeDepth := 60) +contextual [ite_canon, foldl_canon, foldlFst_canon, memWf_writeN, memWf_write, memWf_filter, memWf_del, notEnabled, State.modThread_canon, cancelUnits_canon, overflow_canon, traceThread_canon, withdraw_canon, h_s]

theorem execStarvedListJoin_canon (t : Nat) (s : State)  (h_s : memWf s.mem = true) :
    ∀ s', execStarvedListJoin t s = .next s' → memWf s'.mem = true := by
  intro s' e
  unfold execStarvedListJoin at e
  try dsimp only at e
  repeat' split at e
  all_goals first | (simp [notEnabled] at e; done) | (injection e with e; subst e; simp (maxDischargeDepth := 60) +contextual [ite_canon, foldl_canon, foldlFst_canon, memWf_writeN, memWf_write, memWf_filter, memWf_del, notEnabled, State.modCore_canon, notEnabled_canon, h_s])

theorem performLoads_canon (l : Lanes) (s : State) (x0 : Lanes) (h_s : memWf s.mem = true) :
    memWf (performLoads l s x0).1.mem = true := by
  induction x0 generalizing s with
  | nil => exact h_s
  | cons x r ih =>
    have h := performLoad_canon s x.1 x.2 (lineWaiter l x) h_s
    rw [performLoads]
    dsimp only
    generalize performLoad s x.1 x.2 (lineWaiter l x) = q at h ⊢
    split
    · exact h
    · exact ih _ h

theorem execLoadResultArrival_canon (t seq : Nat) (s : State) (h_s : memWf s.mem = true) :
    ∀ s', execLoadResultArrival t seq s = .next s' → memWf s'.mem = true := by
  intro s' e
  unfold execLoadResultArrival at e
  dsimp only at e
  split at e
  · simp [notEnabled] at e
  · split at e
    · split at e
      · simp [notEnabled] at e
      · split at e
        · injection e with e; subst e
          split
          · exact arriveResult_canon _ _ _ _ h_s
          · exact arriveGroup_canon _ _ h_s
        · simp [notEnabled] at e
    · split at e
      · simp [notEnabled] at e
      · next o _ =>
        split at e
        · have h := performLoads_canon ((loadLanes s t o).filter fun x => mayPerform (s.thread x.1) x.2) s
            ((loadLanes s t o).filter fun x => mayPerform (s.thread x.1) x.2) h_s
          generalize performLoads ((loadLanes s t o).filter fun x => mayPerform (s.thread x.1) x.2) s
            ((loadLanes s t o).filter fun x => mayPerform (s.thread x.1) x.2) = r at h e
          split at e
          · injection e with e; subst e
            exact pump_canon _ (foldl_canon _ (fun s x hs => deliver_canon _ _ _ _ hs) h)
          · injection e with e; subst e; exact h
        · simp [notEnabled] at e

theorem execVariableLatencyResultArrival_canon (t : Nat) (k : Nat) (s : State)  (h_s : memWf s.mem = true) :
    ∀ s', execVariableLatencyResultArrival t k s = .next s' → memWf s'.mem = true := by
  intro s' e
  unfold execVariableLatencyResultArrival at e
  try dsimp only at e
  repeat' split at e
  all_goals first | (simp [notEnabled] at e; done) | (injection e with e; subst e; simp (maxDischargeDepth := 60) +contextual [ite_canon, foldl_canon, foldlFst_canon, memWf_writeN, memWf_write, memWf_filter, memWf_del, notEnabled, arriveResult_canon, notEnabled_canon, h_s])

theorem execTranslationWalkComplete_canon (ctx : Nat) (core : Nat) (page : Nat) (s : State)  (h_s : memWf s.mem = true) :
    ∀ s', execTranslationWalkComplete ctx core page s = .next s' → memWf s'.mem = true := by
  intro s' e
  unfold execTranslationWalkComplete at e
  try dsimp only at e
  repeat' split at e
  all_goals first | (simp [notEnabled] at e; done) | (injection e with e; subst e; simp (maxDischargeDepth := 60) +contextual [ite_canon, foldl_canon, foldlFst_canon, memWf_writeN, memWf_write, memWf_filter, memWf_del, notEnabled, freeMiss_canon, notEnabled_canon, walkOne_canon, h_s])

theorem execServiceableFaultServiced_canon (core : Nat) (install : Option (List (Nat × DWord))) (s : State)  (h_s : memWf s.mem = true) :
    ∀ s', execServiceableFaultServiced core install s = .next s' → memWf s'.mem = true := by
  intro s' e
  unfold execServiceableFaultServiced at e
  try dsimp only at e
  repeat' split at e
  all_goals first | (simp [notEnabled] at e; done) | (injection e with e; subst e; simp (maxDischargeDepth := 60) +contextual [ite_canon, foldl_canon, foldlFst_canon, memWf_writeN, memWf_write, memWf_filter, memWf_del, notEnabled, State.modCore_canon, declineFault_canon, installEntries_canon, notEnabled_canon, unstall_canon, walksDrop_canon, h_s])

theorem execTranslationShootdown_canon (ctx : Nat) (lo : Nat) (len : Nat) (cores : List Nat) (s : State)  (h_s : memWf s.mem = true) :
    ∀ s', execTranslationShootdown ctx lo len cores s = .next s' → memWf s'.mem = true := by
  intro s' e
  unfold execTranslationShootdown at e
  try dsimp only at e
  repeat' split at e
  all_goals first | (simp [notEnabled] at e; done) | (injection e with e; subst e; simp (maxDischargeDepth := 60) +contextual [ite_canon, foldl_canon, foldlFst_canon, memWf_writeN, memWf_write, memWf_filter, memWf_del, notEnabled, notEnabled_canon, shootdown_canon, h_s])

theorem execClassifierRun_canon (ctx : Nat) (page : Nat) (s : State)  (h_s : memWf s.mem = true) :
    ∀ s', execClassifierRun ctx page s = .next s' → memWf s'.mem = true := by
  intro s' e
  unfold execClassifierRun at e
  try dsimp only at e
  repeat' split at e
  all_goals first | (simp [notEnabled] at e; done) | (injection e with e; subst e; simp (maxDischargeDepth := 60) +contextual [ite_canon, foldl_canon, foldlFst_canon, memWf_writeN, memWf_write, memWf_filter, memWf_del, notEnabled, classifierRun_canon, notEnabled_canon, walk_canon, h_s])

theorem execRebase_canon (s : State)  (h_s : memWf s.mem = true) :
    ∀ s', execRebase s = .next s' → memWf s'.mem = true := by
  intro s' e
  unfold execRebase at e
  try dsimp only at e
  repeat' split at e
  all_goals first | (simp [notEnabled] at e; done) | (injection e with e; subst e; simp (maxDischargeDepth := 60) +contextual [ite_canon, foldl_canon, foldlFst_canon, memWf_writeN, memWf_write, memWf_filter, memWf_del, notEnabled, notEnabled_canon, rebased_canon, h_s])

theorem execLtTick_canon (core : Nat) (s : State)  (h_s : memWf s.mem = true) :
    ∀ s', execLtTick core s = .next s' → memWf s'.mem = true := by
  intro s' e
  unfold execLtTick at e
  try dsimp only at e
  repeat' split at e
  all_goals first | (simp [notEnabled] at e; done) | (injection e with e; subst e; simp (maxDischargeDepth := 60) +contextual [ite_canon, foldl_canon, foldlFst_canon, memWf_writeN, memWf_write, memWf_filter, memWf_del, notEnabled, State.modCore_canon, notEnabled_canon, h_s])

theorem execOverflowAreaServiced_canon (core : Nat) (room : Option Nat) (s : State)  (h_s : memWf s.mem = true) :
    ∀ s', execOverflowAreaServiced core room s = .next s' → memWf s'.mem = true := by
  intro s' e
  unfold execOverflowAreaServiced at e
  try dsimp only at e
  repeat' split at e
  all_goals first | (simp [notEnabled] at e; done) | (injection e with e; subst e; simp (maxDischargeDepth := 60) +contextual [ite_canon, foldl_canon, foldlFst_canon, memWf_writeN, memWf_write, memWf_filter, memWf_del, notEnabled, State.modCore_canon, notEnabled_canon, retryWeak_canon, unstall_canon, h_s])

theorem execRangeWalkStart_canon (t : Nat) (seq : Nat) (s : State)  (h_s : memWf s.mem = true) :
    ∀ s', execRangeWalkStart t seq s = .next s' → memWf s'.mem = true := by
  intro s' e
  unfold execRangeWalkStart at e
  try dsimp only at e
  repeat' split at e
  all_goals first | (simp [notEnabled] at e; done) | (injection e with e; subst e; simp (maxDischargeDepth := 60) +contextual [*, ite_canon, foldl_canon, foldlFst_canon, memWf_writeN, memWf_write, memWf_filter, memWf_del, notEnabled, failOp_canon, notEnabled_canon, publishRange_canon, resolveOp_canon, stallCore_canon, transPieces_canon, walkRange_canon, h_s]) | (injection e with e; subst e; (simp (maxDischargeDepth := 60) +contextual [*, ite_canon, foldl_canon, foldlFst_canon, memWf_writeN, memWf_write, memWf_filter, memWf_del, notEnabled, failOp_canon, notEnabled_canon, publishRange_canon, resolveOp_canon, stallCore_canon, transPieces_canon, walkRange_canon, h_s])) | (injection e with e; subst e; repeat' first | assumption | (with_reducible refine foldl_canon _ (fun s x hs => ?_) ?_) | (with_reducible apply ite_canon) | (with_reducible apply memWf_writeN) | (with_reducible apply memWf_write) | (with_reducible apply memWf_filter) | (with_reducible apply memWf_del) | (with_reducible apply failOp_canon) | (with_reducible apply notEnabled_canon) | (with_reducible apply publishRange_canon) | (with_reducible apply resolveOp_canon) | (with_reducible apply stallCore_canon) | (with_reducible apply transPieces_canon) | (with_reducible apply walkRange_canon) | (with_reducible apply h_s) | split | (dsimp only); done) | (simp (maxDischargeDepth := 60) +contextual [ite_canon, foldl_canon, foldlFst_canon, memWf_writeN, memWf_write, memWf_filter, memWf_del, notEnabled, failOp_canon, notEnabled_canon, publishRange_canon, resolveOp_canon, stallCore_canon, transPieces_canon, walkRange_canon, h_s] at e; subst e; simp (maxDischargeDepth := 60) +contextual [ite_canon, foldl_canon, foldlFst_canon, memWf_writeN, memWf_write, memWf_filter, memWf_del, notEnabled, failOp_canon, notEnabled_canon, publishRange_canon, resolveOp_canon, stallCore_canon, transPieces_canon, walkRange_canon, h_s])

theorem execPerformedAcknowledgement_canon (t k : Nat) (s : State) (h_s : memWf s.mem = true) :
    ∀ s', execPerformedAcknowledgement t k s = .next s' → memWf s'.mem = true := by
  intro s' e
  unfold execPerformedAcknowledgement at e
  dsimp only at e
  split at e
  · next s1 e1 =>
    injection e with e
    subst e
    split at e1
    · exact tryStore_canon _ _ _ h_s _ e1
    · exact tryPublish_canon _ _ _ h_s _ e1
  · simp [notEnabled] at e

theorem execServiceTrainAtomic_canon (k : Nat) (s : State)  (h_s : memWf s.mem = true) :
    ∀ s', execServiceTrainAtomic k s = .next s' → memWf s'.mem = true := by
  intro s' e
  unfold execServiceTrainAtomic at e
  try dsimp only at e
  repeat' split at e
  all_goals first | (simp [notEnabled] at e; done) | (injection e with e; subst e; simp (maxDischargeDepth := 60) +contextual [*, ite_canon, foldl_canon, foldlFst_canon, memWf_writeN, memWf_write, memWf_filter, memWf_del, notEnabled, notEnabled_canon, serveAtoms_canon, h_s]) | (injection e with e; subst e; (simp (maxDischargeDepth := 60) +contextual [*, ite_canon, foldl_canon, foldlFst_canon, memWf_writeN, memWf_write, memWf_filter, memWf_del, notEnabled, notEnabled_canon, serveAtoms_canon, h_s])) | (injection e with e; subst e; repeat' first | assumption | (with_reducible refine foldl_canon _ (fun s x hs => ?_) ?_) | (with_reducible apply ite_canon) | (with_reducible apply memWf_writeN) | (with_reducible apply memWf_write) | (with_reducible apply memWf_filter) | (with_reducible apply memWf_del) | (with_reducible apply notEnabled_canon) | (with_reducible apply serveAtoms_canon) | (with_reducible apply h_s) | split | (dsimp only); done) | (simp (maxDischargeDepth := 60) +contextual [ite_canon, foldl_canon, foldlFst_canon, memWf_writeN, memWf_write, memWf_filter, memWf_del, notEnabled, notEnabled_canon, serveAtoms_canon, h_s] at e; subst e; simp (maxDischargeDepth := 60) +contextual [ite_canon, foldl_canon, foldlFst_canon, memWf_writeN, memWf_write, memWf_filter, memWf_del, notEnabled, notEnabled_canon, serveAtoms_canon, h_s])

theorem execAtomicReplyArrival_canon (t seq : Nat) (s : State) (h_s : memWf s.mem = true) :
    ∀ s', execAtomicReplyArrival t seq s = .next s' → memWf s'.mem = true := by
  intro s' e
  unfold execAtomicReplyArrival at e
  split at e
  · simp [notEnabled] at e
  · split at e
    · injection e with e; subst e
      exact pump_canon _ (deliver_canon _ _ _ _ h_s)
    · simp [notEnabled] at e

theorem execTrapDelivery_canon (t : Nat) (s : State) (h_s : memWf s.mem = true) :
    ∀ s', execTrapDelivery t s = .next s' → memWf s'.mem = true := by
  intro s' e
  unfold execTrapDelivery at e
  split at e
  · simp [notEnabled] at e
  · split at e
    · next s1 e1 =>
      injection e with e
      subst e
      split at e1
      · exact settleHeld_canon _ _ h_s _ e1
      · exact deliverTrap_canon _ _ h_s _ e1
    · simp [notEnabled] at e

theorem execHelperFailure_canon (t : Nat) (s : State)  (h_s : memWf s.mem = true) :
    ∀ s', execHelperFailure t s = .next s' → memWf s'.mem = true := by
  intro s' e
  unfold execHelperFailure at e
  try dsimp only at e
  repeat' split at e
  all_goals first | (simp [notEnabled] at e; done) | (injection e with e; subst e; simp (maxDischargeDepth := 60) +contextual [ite_canon, foldl_canon, foldlFst_canon, memWf_writeN, memWf_write, memWf_filter, memWf_del, notEnabled, failHelper_canon, notEnabled_canon, h_s])

theorem execWatchdogExpiry_canon (t : Nat) (s : State)  (h_s : memWf s.mem = true) :
    ∀ s', execWatchdogExpiry t s = .next s' → memWf s'.mem = true := by
  intro s' e
  unfold execWatchdogExpiry at e
  try dsimp only at e
  repeat' split at e
  all_goals first | (simp [notEnabled] at e; done) | (injection e with e; subst e; simp (maxDischargeDepth := 60) +contextual [ite_canon, foldl_canon, foldlFst_canon, memWf_writeN, memWf_write, memWf_filter, memWf_del, notEnabled, forceRelease_canon, notEnabled_canon, raise_canon, h_s])

theorem execIllegalInstruction_canon (s : State)  (h_s : memWf s.mem = true) :
    ∀ s', execIllegalInstruction s = .next s' → memWf s'.mem = true := by
  intro s' e
  unfold execIllegalInstruction at e
  try dsimp only at e
  repeat' split at e
  all_goals first | (simp [notEnabled] at e; done) | (injection e with e; subst e; simp (maxDischargeDepth := 60) +contextual [ite_canon, foldl_canon, foldlFst_canon, memWf_writeN, memWf_write, memWf_filter, memWf_del, notEnabled, notEnabled_canon, raise_canon, h_s])

end Sys2Proof.Machine
end

