-- ==== Sys2Proof/Laws/CanonMatrixCopy.lean ====
section
/-! SUPPORT. Memory stays canonical through every operation of `MatrixCopy`. -/

set_option linter.all false

namespace Sys2Proof.Machine
open Sys2Proof

theorem holdTogether_canon (s : State) (l : List Nat) (w : Wait)  (h_s : memWf s.mem = true) :
    memWf (holdTogether s l w).mem = true := by
  unfold holdTogether
  try dsimp only
  split <;> simp (maxDischargeDepth := 60) +contextual [ite_canon, foldl_canon, foldlFst_canon, memWf_writeN, memWf_write, memWf_filter, memWf_del, notEnabled, State.modCore_canon, park_canon, h_s]

theorem startMx_canon (s : State) (t : Nat) (i : Instr) (pc : Addr) (addr : DWord)  (h_s : memWf s.mem = true) :
    memWf (startMx s t i pc addr).mem = true := by
  unfold startMx
  try dsimp only
  split <;> simp (maxDischargeDepth := 60) +contextual [ite_canon, foldl_canon, foldlFst_canon, memWf_writeN, memWf_write, memWf_filter, memWf_del, notEnabled, State.modCore_canon, State.modThread_canon, State.modTrain_canon, failOp_canon, h_s]

theorem startCp_canon (s : State) (t : Nat) (i : Instr) (pc : Addr) (addr : DWord) (data : List Byte)  (h_s : memWf s.mem = true) :
    memWf (startCp s t i pc addr data).mem = true := by
  unfold startCp
  try dsimp only
  split <;> simp (maxDischargeDepth := 60) +contextual [ite_canon, foldl_canon, foldlFst_canon, memWf_writeN, memWf_write, memWf_filter, memWf_del, notEnabled, State.modCore_canon, State.modThread_canon, failOp_canon, h_s]

theorem commandRun_canon (i : Instr) (kind : Nat) (start : State → Thread → State) (s : State) (t : Nat) (mates : List Nat)  (h_s : memWf s.mem = true) (h_start : ∀ (y0 : State) (y1 : Thread), memWf y0.mem = true → memWf (start y0 y1).mem = true) :
    memWf (commandRun i kind start s t mates).mem = true := by
  unfold commandRun
  simp (maxDischargeDepth := 60) +contextual [ite_canon, foldl_canon, foldlFst_canon, memWf_writeN, memWf_write, memWf_filter, memWf_del, notEnabled, advance_canon, advanceAll_canon, park_canon, raise_canon, h_s, h_start]

theorem mxCommitRun_canon (i : Instr) (d : BitVec 6) (s : State) (t : Nat) (mates : List Nat)  (h_s : memWf s.mem = true) :
    memWf (mxCommitRun i d s t mates).mem = true := by
  unfold mxCommitRun
  simp (maxDischargeDepth := 60) +contextual [ite_canon, foldl_canon, foldlFst_canon, memWf_writeN, memWf_write, memWf_filter, memWf_del, notEnabled, State.modThread_canon, State.modTrain_canon, advanceAll_canon, holdTogether_canon, raise_canon, settleBatches_canon, h_s]

theorem mxWaitBody_canon (i : Instr) (n : Nat) (s : State) (t : Nat)  (h_s : memWf s.mem = true) :
    memWf (mxWaitBody i n s t).mem = true := by
  unfold mxWaitBody
  simp (maxDischargeDepth := 60) +contextual [ite_canon, foldl_canon, foldlFst_canon, memWf_writeN, memWf_write, memWf_filter, memWf_del, notEnabled, advance_canon, park_canon, raise_canon, h_s]

theorem tileBody_canon (tiles : List Nat) (busy : State → Nat → Nat → Bool) (idx : Thread → Word) (run : State → Nat → Nat → Nat → State) (s : State) (t : Nat)  (h_s : memWf s.mem = true) (h_run : ∀ (y0 : State) (y1 : Nat) (y2 : Nat) (y3 : Nat), memWf y0.mem = true → memWf (run y0 y1 y2 y3).mem = true) :
    memWf (tileBody tiles busy idx run s t).mem = true := by
  unfold tileBody
  simp (maxDischargeDepth := 60) +contextual [ite_canon, foldl_canon, foldlFst_canon, memWf_writeN, memWf_write, memWf_filter, memWf_del, notEnabled, park_canon, raise_canon, h_s, h_run]

theorem mxRdBody_canon (i : Instr) (tile : BitVec 6) (a : BitVec 6) (d : BitVec 6) (x0 : State) (x1 : Nat) (h_x0 : memWf x0.mem = true) :
    memWf (mxRdBody i tile a d x0 x1).mem = true := by
  induction x0 generalizing i tile a d x1
  all_goals
    unfold mxRdBody
    simp (maxDischargeDepth := 60) +contextual [*, ite_canon, foldl_canon, foldlFst_canon, memWf_writeN, memWf_write, memWf_filter, memWf_del, notEnabled, State.modThread_canon, tileBody_canon, h_x0]

theorem mxWrBody_canon (i : Instr) (b : BitVec 6) (a : BitVec 6) (tile : BitVec 6) (x0 : State) (x1 : Nat) (h_x0 : memWf x0.mem = true) :
    memWf (mxWrBody i b a tile x0 x1).mem = true := by
  induction x0 generalizing i b a tile x1
  all_goals
    unfold mxWrBody
    simp (maxDischargeDepth := 60) +contextual [*, ite_canon, foldl_canon, foldlFst_canon, memWf_writeN, memWf_write, memWf_filter, memWf_del, notEnabled, State.modCore_canon, advance_canon, tileBody_canon, h_x0]

theorem mxRd64Body_canon (i : Instr) (tile : BitVec 6) (a : BitVec 6) (d : BitVec 6) (x0 : State) (x1 : Nat) (h_x0 : memWf x0.mem = true) :
    memWf (mxRd64Body i tile a d x0 x1).mem = true := by
  induction x0 generalizing i tile a d x1
  all_goals
    unfold mxRd64Body
    simp (maxDischargeDepth := 60) +contextual [*, ite_canon, foldl_canon, foldlFst_canon, memWf_writeN, memWf_write, memWf_filter, memWf_del, notEnabled, State.modThread_canon, tileBody_canon, h_x0]

theorem mxWr64Body_canon (i : Instr) (b : BitVec 6) (a : BitVec 6) (tile : BitVec 6) (x0 : State) (x1 : Nat) (h_x0 : memWf x0.mem = true) :
    memWf (mxWr64Body i b a tile x0 x1).mem = true := by
  induction x0 generalizing i b a tile x1
  all_goals
    unfold mxWr64Body
    simp (maxDischargeDepth := 60) +contextual [*, ite_canon, foldl_canon, foldlFst_canon, memWf_writeN, memWf_write, memWf_filter, memWf_del, notEnabled, State.modCore_canon, advance_canon, tileBody_canon, h_x0]

theorem mxZeroRun_canon (i : Instr) (tile : BitVec 6) (s : State) (t : Nat) (mates : List Nat)  (h_s : memWf s.mem = true) :
    memWf (mxZeroRun i tile s t mates).mem = true := by
  unfold mxZeroRun
  simp (maxDischargeDepth := 60) +contextual [ite_canon, foldl_canon, foldlFst_canon, memWf_writeN, memWf_write, memWf_filter, memWf_del, notEnabled, State.modCore_canon, advance_canon, advanceAll_canon, tileBody_canon, h_s]

theorem execMxOp_canon (a : BitVec 6) (sm : BitVec 1) (s : State)  (h_s : memWf s.mem = true) :
    ∀ s', execMxOp a sm s = .next s' → memWf s'.mem = true := by
  unfold execMxOp
  refine issueTrains_canon _ _ _ h_s (fun s t l hs => ?_)
  first | assumption | (simp (maxDischargeDepth := 60) +contextual [*, ite_canon, foldl_canon, foldlFst_canon, memWf_writeN, memWf_write, memWf_filter, memWf_del, notEnabled, commandRun_canon, issueTrains_canon, startMx_canon, h_s]; done) | (repeat' first | assumption | (with_reducible refine foldl_canon _ (fun s x hs => ?_) ?_) | (with_reducible apply ite_canon) | (with_reducible apply memWf_writeN) | (with_reducible apply memWf_write) | (with_reducible apply memWf_filter) | (with_reducible apply memWf_del) | (with_reducible apply commandRun_canon) | (with_reducible apply issueTrains_canon) | (with_reducible apply startMx_canon) | (with_reducible apply h_s) | split | (intros; dsimp only))

theorem execMxCommit_canon (d : BitVec 6) (sm : BitVec 1) (s : State)  (h_s : memWf s.mem = true) :
    ∀ s', execMxCommit d sm s = .next s' → memWf s'.mem = true := by
  unfold execMxCommit
  refine issueTrains_canon _ _ _ h_s (fun s t l hs => ?_)
  first | assumption | (simp (maxDischargeDepth := 60) +contextual [*, ite_canon, foldl_canon, foldlFst_canon, memWf_writeN, memWf_write, memWf_filter, memWf_del, notEnabled, issueTrains_canon, mxCommitRun_canon, h_s]; done) | (repeat' first | assumption | (with_reducible refine foldl_canon _ (fun s x hs => ?_) ?_) | (with_reducible apply ite_canon) | (with_reducible apply memWf_writeN) | (with_reducible apply memWf_write) | (with_reducible apply memWf_filter) | (with_reducible apply memWf_del) | (with_reducible apply issueTrains_canon) | (with_reducible apply mxCommitRun_canon) | (with_reducible apply h_s) | split | (intros; dsimp only))

theorem execMxWait_canon (i : BitVec 6) (sm : BitVec 1) (s : State)  (h_s : memWf s.mem = true) :
    ∀ s', execMxWait i sm s = .next s' → memWf s'.mem = true := by
  unfold execMxWait
  refine issueEach_canon _ _ _ (by simp [State.fresh_canon, h_s]) (fun s t hs => ?_)
  first | assumption | (simp (maxDischargeDepth := 60) +contextual [*, ite_canon, foldl_canon, foldlFst_canon, memWf_writeN, memWf_write, memWf_filter, memWf_del, notEnabled, issueEach_canon, mxWaitBody_canon, h_s]; done) | (repeat' first | assumption | (with_reducible refine foldl_canon _ (fun s x hs => ?_) ?_) | (with_reducible apply ite_canon) | (with_reducible apply memWf_writeN) | (with_reducible apply memWf_write) | (with_reducible apply memWf_filter) | (with_reducible apply memWf_del) | (with_reducible apply issueEach_canon) | (with_reducible apply mxWaitBody_canon) | (with_reducible apply h_s) | split | (intros; dsimp only))

theorem execMxRd_canon (t : BitVec 6) (a : BitVec 6) (d : BitVec 6) (sm : BitVec 1) (s : State)  (h_s : memWf s.mem = true) :
    ∀ s', execMxRd t a d sm s = .next s' → memWf s'.mem = true := by
  unfold execMxRd
  refine issueEach_canon _ _ _ (by simp [State.fresh_canon, h_s]) (fun s t hs => ?_)
  first | assumption | (simp (maxDischargeDepth := 60) +contextual [*, ite_canon, foldl_canon, foldlFst_canon, memWf_writeN, memWf_write, memWf_filter, memWf_del, notEnabled, issueEach_canon, mxRdBody_canon, h_s]; done) | (repeat' first | assumption | (with_reducible refine foldl_canon _ (fun s x hs => ?_) ?_) | (with_reducible apply ite_canon) | (with_reducible apply memWf_writeN) | (with_reducible apply memWf_write) | (with_reducible apply memWf_filter) | (with_reducible apply memWf_del) | (with_reducible apply issueEach_canon) | (with_reducible apply mxRdBody_canon) | (with_reducible apply h_s) | split | (intros; dsimp only))

theorem execMxWr_canon (b : BitVec 6) (a : BitVec 6) (t : BitVec 6) (sm : BitVec 1) (s : State)  (h_s : memWf s.mem = true) :
    ∀ s', execMxWr b a t sm s = .next s' → memWf s'.mem = true := by
  unfold execMxWr
  refine issueEach_canon _ _ _ (by simp [State.fresh_canon, h_s]) (fun s t hs => ?_)
  first | assumption | (simp (maxDischargeDepth := 60) +contextual [*, ite_canon, foldl_canon, foldlFst_canon, memWf_writeN, memWf_write, memWf_filter, memWf_del, notEnabled, issueEach_canon, mxWrBody_canon, h_s]; done) | (repeat' first | assumption | (with_reducible refine foldl_canon _ (fun s x hs => ?_) ?_) | (with_reducible apply ite_canon) | (with_reducible apply memWf_writeN) | (with_reducible apply memWf_write) | (with_reducible apply memWf_filter) | (with_reducible apply memWf_del) | (with_reducible apply issueEach_canon) | (with_reducible apply mxWrBody_canon) | (with_reducible apply h_s) | split | (intros; dsimp only))

theorem execMxRd64_canon (t : BitVec 6) (a : BitVec 6) (d : BitVec 6) (sm : BitVec 1) (s : State)  (h_s : memWf s.mem = true) :
    ∀ s', execMxRd64 t a d sm s = .next s' → memWf s'.mem = true := by
  unfold execMxRd64
  refine issueEach_canon _ _ _ (by simp [State.fresh_canon, h_s]) (fun s t hs => ?_)
  first | assumption | (simp (maxDischargeDepth := 60) +contextual [*, ite_canon, foldl_canon, foldlFst_canon, memWf_writeN, memWf_write, memWf_filter, memWf_del, notEnabled, issueEach_canon, mxRd64Body_canon, h_s]; done) | (repeat' first | assumption | (with_reducible refine foldl_canon _ (fun s x hs => ?_) ?_) | (with_reducible apply ite_canon) | (with_reducible apply memWf_writeN) | (with_reducible apply memWf_write) | (with_reducible apply memWf_filter) | (with_reducible apply memWf_del) | (with_reducible apply issueEach_canon) | (with_reducible apply mxRd64Body_canon) | (with_reducible apply h_s) | split | (intros; dsimp only))

theorem execMxWr64_canon (b : BitVec 6) (a : BitVec 6) (t : BitVec 6) (sm : BitVec 1) (s : State)  (h_s : memWf s.mem = true) :
    ∀ s', execMxWr64 b a t sm s = .next s' → memWf s'.mem = true := by
  unfold execMxWr64
  refine issueEach_canon _ _ _ (by simp [State.fresh_canon, h_s]) (fun s t hs => ?_)
  first | assumption | (simp (maxDischargeDepth := 60) +contextual [*, ite_canon, foldl_canon, foldlFst_canon, memWf_writeN, memWf_write, memWf_filter, memWf_del, notEnabled, issueEach_canon, mxWr64Body_canon, h_s]; done) | (repeat' first | assumption | (with_reducible refine foldl_canon _ (fun s x hs => ?_) ?_) | (with_reducible apply ite_canon) | (with_reducible apply memWf_writeN) | (with_reducible apply memWf_write) | (with_reducible apply memWf_filter) | (with_reducible apply memWf_del) | (with_reducible apply issueEach_canon) | (with_reducible apply mxWr64Body_canon) | (with_reducible apply h_s) | split | (intros; dsimp only))

theorem execMxZero_canon (t : BitVec 6) (sm : BitVec 1) (s : State)  (h_s : memWf s.mem = true) :
    ∀ s', execMxZero t sm s = .next s' → memWf s'.mem = true := by
  unfold execMxZero
  refine issueTrains_canon _ _ _ h_s (fun s t l hs => ?_)
  first | assumption | (simp (maxDischargeDepth := 60) +contextual [*, ite_canon, foldl_canon, foldlFst_canon, memWf_writeN, memWf_write, memWf_filter, memWf_del, notEnabled, issueTrains_canon, mxZeroRun_canon, h_s]; done) | (repeat' first | assumption | (with_reducible refine foldl_canon _ (fun s x hs => ?_) ?_) | (with_reducible apply ite_canon) | (with_reducible apply memWf_writeN) | (with_reducible apply memWf_write) | (with_reducible apply memWf_filter) | (with_reducible apply memWf_del) | (with_reducible apply issueTrains_canon) | (with_reducible apply mxZeroRun_canon) | (with_reducible apply h_s) | split | (intros; dsimp only))

theorem execCpTileLd_canon (b : BitVec 6) (a : BitVec 6) (d : BitVec 6) (sm : BitVec 1) (s : State)  (h_s : memWf s.mem = true) :
    ∀ s', execCpTileLd b a d sm s = .next s' → memWf s'.mem = true := by
  unfold execCpTileLd
  refine issueTrains_canon _ _ _ h_s (fun s t l hs => ?_)
  first | assumption | (simp (maxDischargeDepth := 60) +contextual [*, ite_canon, foldl_canon, foldlFst_canon, memWf_writeN, memWf_write, memWf_filter, memWf_del, notEnabled, commandRun_canon, issueTrains_canon, startCp_canon, h_s]; done) | (repeat' first | assumption | (with_reducible refine foldl_canon _ (fun s x hs => ?_) ?_) | (with_reducible apply ite_canon) | (with_reducible apply memWf_writeN) | (with_reducible apply memWf_write) | (with_reducible apply memWf_filter) | (with_reducible apply memWf_del) | (with_reducible apply commandRun_canon) | (with_reducible apply issueTrains_canon) | (with_reducible apply startCp_canon) | (with_reducible apply h_s) | split | (intros; dsimp only))

theorem execCpTileSt_canon (b : BitVec 6) (a : BitVec 6) (d : BitVec 6) (sm : BitVec 1) (s : State)  (h_s : memWf s.mem = true) :
    ∀ s', execCpTileSt b a d sm s = .next s' → memWf s'.mem = true := by
  unfold execCpTileSt
  refine issueTrains_canon _ _ _ h_s (fun s t l hs => ?_)
  first | assumption | (simp (maxDischargeDepth := 60) +contextual [*, ite_canon, foldl_canon, foldlFst_canon, memWf_writeN, memWf_write, memWf_filter, memWf_del, notEnabled, commandRun_canon, issueTrains_canon, startCp_canon, h_s]; done) | (repeat' first | assumption | (with_reducible refine foldl_canon _ (fun s x hs => ?_) ?_) | (with_reducible apply ite_canon) | (with_reducible apply memWf_writeN) | (with_reducible apply memWf_write) | (with_reducible apply memWf_filter) | (with_reducible apply memWf_del) | (with_reducible apply commandRun_canon) | (with_reducible apply issueTrains_canon) | (with_reducible apply startCp_canon) | (with_reducible apply h_s) | split | (intros; dsimp only))

end Sys2Proof.Machine
end

