-- ==== Sys2Proof/Laws/CanonRegulator.lean ====
section
/-! SUPPORT. Memory stays canonical through every operation of `Regulator`. -/

set_option linter.all false

namespace Sys2Proof.Machine
open Sys2Proof

theorem queuePut_canon (s : State) (q : Nat) (x : XQueue)  (h_s : memWf s.mem = true) :
    memWf (queuePut s q x).mem = true := by
  unfold queuePut
  simp (maxDischargeDepth := 60) +contextual [ite_canon, foldl_canon, foldlFst_canon, memWf_writeN, memWf_write, memWf_filter, memWf_del, notEnabled, h_s]

theorem spillToken_canon (s : State) (q : Nat) (x : XQueue) (k : Token)  (h_s : memWf s.mem = true) :
    memWf (spillToken s q x k).1.mem = true := by
  unfold spillToken
  try dsimp only
  repeat' split
  all_goals simp (maxDischargeDepth := 60) +contextual [ite_canon, foldl_canon, foldlFst_canon, memWf_writeN, memWf_write, memWf_filter, memWf_del, notEnabled, metMissing_canon, queuePut_canon, virtWrite_canon, h_s]

theorem acceptToken_canon (s : State) (src : Nat) (q : Nat) (words : List Word)  (h_s : memWf s.mem = true) :
    memWf (acceptToken s src q words).1.mem = true := by
  unfold acceptToken
  try dsimp only
  repeat' split
  all_goals simp (maxDischargeDepth := 60) +contextual [ite_canon, foldl_canon, foldlFst_canon, memWf_writeN, memWf_write, memWf_filter, memWf_del, notEnabled, queuePut_canon, spillToken_canon, h_s]

theorem startXq_canon (s : State) (t : Nat) (i : Instr) (pc : Addr) (addr : DWord) (data : List Byte) (h_s : memWf s.mem = true) :
    memWf (startXq s t i pc addr data).mem = true := by
  unfold startXq
  dsimp only
  repeat' split
  all_goals first
    | exact State.modThread_canon _ _ _ h_s
    | exact failOp_canon _ _ _ _ _ (State.modThread_canon _ _ _ h_s)
    | exact pump_canon _ (State.modThread_canon _ _ _ h_s)

theorem xqCfgBody_canon (i : Instr) (a : BitVec 6) (s : State) (t : Nat)  (h_s : memWf s.mem = true) :
    memWf (xqCfgBody i a s t).mem = true := by
  unfold xqCfgBody
  simp (maxDischargeDepth := 60) +contextual [ite_canon, foldl_canon, foldlFst_canon, memWf_writeN, memWf_write, memWf_filter, memWf_del, notEnabled, advance_canon, startXq_canon, h_s]

theorem xqInBody_canon (i : Instr) (b : BitVec 6) (a : BitVec 6) (s : State) (t : Nat)  (h_s : memWf s.mem = true) :
    memWf (xqInBody i b a s t).mem = true := by
  unfold xqInBody
  simp (maxDischargeDepth := 60) +contextual [ite_canon, foldl_canon, foldlFst_canon, memWf_writeN, memWf_write, memWf_filter, memWf_del, notEnabled, advance_canon, boundaryStep_canon, startXq_canon, h_s]

theorem xqDoneBody_canon (i : Instr) (b : BitVec 6) (a : BitVec 6) (s : State) (t : Nat)  (h_s : memWf s.mem = true) :
    memWf (xqDoneBody i b a s t).mem = true := by
  unfold xqDoneBody
  try dsimp only
  repeat' split
  all_goals simp (maxDischargeDepth := 60) +contextual [ite_canon, foldl_canon, foldlFst_canon, memWf_writeN, memWf_write, memWf_filter, memWf_del, notEnabled, advance_canon, boundaryStep_canon, park_canon, raise_canon, startXq_canon, h_s]

theorem xqTakeRun_canon (i : Instr) (a : BitVec 6) (d : BitVec 6) (s : State) (t : Nat) (mates : List Nat)  (h_s : memWf s.mem = true) :
    memWf (xqTakeRun i a d s t mates).mem = true := by
  unfold xqTakeRun
  try dsimp only
  repeat' split
  all_goals simp (maxDischargeDepth := 60) +contextual [ite_canon, foldl_canon, foldlFst_canon, memWf_writeN, memWf_write, memWf_filter, memWf_del, notEnabled, State.modCore_canon, State.modThread_canon, State.modTrain_canon, advanceAll_canon, holdTogether_canon, queuePut_canon, raise_canon, readClocks_canon, h_s]

theorem execXqCfg_canon (a : BitVec 6) (sm : BitVec 1) (s : State)  (h_s : memWf s.mem = true) :
    ∀ s', execXqCfg a sm s = .next s' → memWf s'.mem = true := by
  unfold execXqCfg
  refine issueEach_canon _ _ _ (by simp [State.fresh_canon, h_s]) (fun s t hs => ?_)
  first | assumption | (simp (maxDischargeDepth := 60) +contextual [*, ite_canon, foldl_canon, foldlFst_canon, memWf_writeN, memWf_write, memWf_filter, memWf_del, notEnabled, issueEach_canon, xqCfgBody_canon, h_s]; done) | (repeat' first | assumption | (with_reducible refine foldl_canon _ (fun s x hs => ?_) ?_) | (with_reducible apply ite_canon) | (with_reducible apply memWf_writeN) | (with_reducible apply memWf_write) | (with_reducible apply memWf_filter) | (with_reducible apply memWf_del) | (with_reducible apply issueEach_canon) | (with_reducible apply xqCfgBody_canon) | (with_reducible apply h_s) | split | (intros; dsimp only))

theorem execXqIn_canon (b : BitVec 6) (a : BitVec 6) (sm : BitVec 1) (s : State)  (h_s : memWf s.mem = true) :
    ∀ s', execXqIn b a sm s = .next s' → memWf s'.mem = true := by
  unfold execXqIn
  refine issueEach_canon _ _ _ (by simp [State.fresh_canon, h_s]) (fun s t hs => ?_)
  first | assumption | (simp (maxDischargeDepth := 60) +contextual [*, ite_canon, foldl_canon, foldlFst_canon, memWf_writeN, memWf_write, memWf_filter, memWf_del, notEnabled, issueEach_canon, xqInBody_canon, h_s]; done) | (repeat' first | assumption | (with_reducible refine foldl_canon _ (fun s x hs => ?_) ?_) | (with_reducible apply ite_canon) | (with_reducible apply memWf_writeN) | (with_reducible apply memWf_write) | (with_reducible apply memWf_filter) | (with_reducible apply memWf_del) | (with_reducible apply issueEach_canon) | (with_reducible apply xqInBody_canon) | (with_reducible apply h_s) | split | (intros; dsimp only))

theorem execXqTake_canon (a : BitVec 6) (d : BitVec 6) (sm : BitVec 1) (s : State)  (h_s : memWf s.mem = true) :
    ∀ s', execXqTake a d sm s = .next s' → memWf s'.mem = true := by
  unfold execXqTake
  refine issueTrains_canon _ _ _ h_s (fun s t l hs => ?_)
  first | assumption | (simp (maxDischargeDepth := 60) +contextual [*, ite_canon, foldl_canon, foldlFst_canon, memWf_writeN, memWf_write, memWf_filter, memWf_del, notEnabled, issueTrains_canon, xqTakeRun_canon, h_s]; done) | (repeat' first | assumption | (with_reducible refine foldl_canon _ (fun s x hs => ?_) ?_) | (with_reducible apply ite_canon) | (with_reducible apply memWf_writeN) | (with_reducible apply memWf_write) | (with_reducible apply memWf_filter) | (with_reducible apply memWf_del) | (with_reducible apply issueTrains_canon) | (with_reducible apply xqTakeRun_canon) | (with_reducible apply h_s) | split | (intros; dsimp only))

theorem execXqDone_canon (b : BitVec 6) (a : BitVec 6) (sm : BitVec 1) (s : State)  (h_s : memWf s.mem = true) :
    ∀ s', execXqDone b a sm s = .next s' → memWf s'.mem = true := by
  unfold execXqDone
  refine issueEach_canon _ _ _ (by simp [State.fresh_canon, h_s]) (fun s t hs => ?_)
  first | assumption | (simp (maxDischargeDepth := 60) +contextual [*, ite_canon, foldl_canon, foldlFst_canon, memWf_writeN, memWf_write, memWf_filter, memWf_del, notEnabled, issueEach_canon, xqDoneBody_canon, h_s]; done) | (repeat' first | assumption | (with_reducible refine foldl_canon _ (fun s x hs => ?_) ?_) | (with_reducible apply ite_canon) | (with_reducible apply memWf_writeN) | (with_reducible apply memWf_write) | (with_reducible apply memWf_filter) | (with_reducible apply memWf_del) | (with_reducible apply issueEach_canon) | (with_reducible apply xqDoneBody_canon) | (with_reducible apply h_s) | split | (intros; dsimp only))

end Sys2Proof.Machine
end

