-- ==== Sys2Proof/Laws/CanonTasks.lean ====
section
/-! SUPPORT. Memory stays canonical through every operation of `Tasks`. -/

set_option linter.all false

namespace Sys2Proof.Machine
open Sys2Proof

theorem typeEntry_canon (s : State) (lid : Nat) (core : Nat) (ttype : Nat)  (h_s : memWf s.mem = true) :
    memWf (typeEntry s lid core ttype).1.mem = true := by
  unfold typeEntry
  try dsimp only
  repeat' split
  all_goals simp (maxDischargeDepth := 60) +contextual [ite_canon, foldl_canon, foldlFst_canon, memWf_writeN, memWf_write, memWf_filter, memWf_del, notEnabled, metMissing_canon, virtRead_canon, h_s]

theorem placeTask_canon (s : State) (lid : Nat) (core : Nat) (rc : BitVec 512) (addr : Nat) (fired : Option (Nat × Nat)) (range : Option (Nat × Nat))  (h_s : memWf s.mem = true) :
    memWf (placeTask s lid core rc addr fired range).mem = true := by
  unfold placeTask
  try dsimp only
  split <;> simp (maxDischargeDepth := 60) +contextual [ite_canon, foldl_canon, foldlFst_canon, memWf_writeN, memWf_write, memWf_filter, memWf_del, notEnabled, State.modCore_canon, State.modLaunch_canon, h_s]

theorem spawnAt_canon (x : DWord) (target : Option Nat) (place : State → Nat → BitVec 512 → State) (s : State) (t : Nat)  (h_s : memWf s.mem = true) (h_place : ∀ (y0 : State) (y1 : Nat) (y2 : BitVec 512), memWf y0.mem = true → memWf (place y0 y1 y2).mem = true) :
    memWf (spawnAt x target place s t).mem = true := by
  unfold spawnAt
  try dsimp only
  repeat' split
  all_goals simp (maxDischargeDepth := 60) +contextual [ite_canon, foldl_canon, foldlFst_canon, memWf_writeN, memWf_write, memWf_filter, memWf_del, notEnabled, park_canon, raise_canon, typeEntry_canon, h_s, h_place]

theorem tkSpawnBody_canon (i : Instr) (b : BitVec 6) (a : BitVec 6) (s : State) (t : Nat)  (h_s : memWf s.mem = true) :
    memWf (tkSpawnBody i b a s t).mem = true := by
  unfold tkSpawnBody
  simp (maxDischargeDepth := 60) +contextual [ite_canon, foldl_canon, foldlFst_canon, memWf_writeN, memWf_write, memWf_filter, memWf_del, notEnabled, advance_canon, boundaryStep_canon, park_canon, placeTask_canon, spawnAt_canon, h_s]

theorem handRange_canon (s : State) (tr : Nat)  (h_s : memWf s.mem = true) :
    memWf (handRange s tr).mem = true := by
  unfold handRange
  simp (maxDischargeDepth := 60) +contextual [ite_canon, foldl_canon, foldlFst_canon, memWf_writeN, memWf_write, memWf_filter, memWf_del, notEnabled, State.modCore_canon, State.modTrain_canon, h_s]

theorem tkHandRun_canon (i : Instr) (a : BitVec 6) (s : State) (t : Nat) (mates : List Nat)  (h_s : memWf s.mem = true) :
    memWf (tkHandRun i a s t mates).mem = true := by
  unfold tkHandRun
  simp (maxDischargeDepth := 60) +contextual [ite_canon, foldl_canon, foldlFst_canon, memWf_writeN, memWf_write, memWf_filter, memWf_del, notEnabled, advance_canon, advanceAll_canon, boundaryStep_canon, handRange_canon, park_canon, placeTask_canon, raise_canon, spawnAt_canon, h_s]

theorem krdBody_canon (i : Instr) (a : BitVec 6) (d : BitVec 6) (s : State) (t : Nat)  (h_s : memWf s.mem = true) :
    memWf (krdBody i a d s t).mem = true := by
  unfold krdBody
  simp (maxDischargeDepth := 60) +contextual [ite_canon, foldl_canon, foldlFst_canon, memWf_writeN, memWf_write, memWf_filter, memWf_del, notEnabled, raise_canon, variableBody_canon, h_s]

theorem ringPut_canon (s : State) (tr : Train) (r : Nat) (x : Ring)  (h_s : memWf s.mem = true) :
    memWf (ringPut s tr r x).mem = true := by
  unfold ringPut
  simp (maxDischargeDepth := 60) +contextual [ite_canon, foldl_canon, foldlFst_canon, memWf_writeN, memWf_write, memWf_filter, memWf_del, notEnabled, State.modLaunch_canon, h_s]

theorem boundaryShare_canon (scope : Nat) (s : State) (t : Nat)  (h_s : memWf s.mem = true) :
    memWf (boundaryShare scope s t).mem = true := by
  unfold boundaryShare
  try dsimp only
  split <;> simp (maxDischargeDepth := 60) +contextual [ite_canon, foldl_canon, foldlFst_canon, memWf_writeN, memWf_write, memWf_filter, memWf_del, notEnabled, State.modThread_canon, writeClocks_canon, h_s]

theorem rgSendRun_canon (i : Instr) (a : BitVec 6) (d : BitVec 6) (s : State) (t : Nat) (mates : List Nat)  (h_s : memWf s.mem = true) :
    memWf (rgSendRun i a d s t mates).mem = true := by
  unfold rgSendRun
  try dsimp only
  split <;> simp (maxDischargeDepth := 60) +contextual [ite_canon, foldl_canon, foldlFst_canon, memWf_writeN, memWf_write, memWf_filter, memWf_del, notEnabled, advanceAll_canon, boundaryShare_canon, holdTogether_canon, raise_canon, readClocks_canon, ringPut_canon, h_s]

theorem rgRecvRun_canon (i : Instr) (a : BitVec 6) (d : BitVec 6) (s : State) (t : Nat) (mates : List Nat)  (h_s : memWf s.mem = true) :
    memWf (rgRecvRun i a d s t mates).mem = true := by
  unfold rgRecvRun
  try dsimp only
  repeat' split
  all_goals simp (maxDischargeDepth := 60) +contextual [ite_canon, foldl_canon, foldlFst_canon, memWf_writeN, memWf_write, memWf_filter, memWf_del, notEnabled, advanceAll_canon, holdTogether_canon, raise_canon, readClocks_canon, ringPut_canon, h_s]

theorem rgEosRun_canon (i : Instr) (d : BitVec 6) (s : State) (t : Nat) (mates : List Nat)  (h_s : memWf s.mem = true) :
    memWf (rgEosRun i d s t mates).mem = true := by
  unfold rgEosRun
  try dsimp only
  split <;> simp (maxDischargeDepth := 60) +contextual [ite_canon, foldl_canon, foldlFst_canon, memWf_writeN, memWf_write, memWf_filter, memWf_del, notEnabled, advance_canon, advanceAll_canon, raise_canon, ringPut_canon, h_s]

theorem phEndBody_canon (i : Instr) (d : BitVec 6) (s : State) (t : Nat)  (h_s : memWf s.mem = true) :
    memWf (phEndBody i d s t).mem = true := by
  unfold phEndBody
  simp (maxDischargeDepth := 60) +contextual [ite_canon, foldl_canon, foldlFst_canon, memWf_writeN, memWf_write, memWf_filter, memWf_del, notEnabled, boundaryStep_canon, park_canon, variableBody_canon, h_s]

theorem execTkSpawn_canon (b : BitVec 6) (a : BitVec 6) (sm : BitVec 1) (s : State)  (h_s : memWf s.mem = true) :
    ∀ s', execTkSpawn b a sm s = .next s' → memWf s'.mem = true := by
  unfold execTkSpawn
  refine issueEach_canon _ _ _ (by simp [State.fresh_canon, h_s]) (fun s t hs => ?_)
  first | assumption | (simp (maxDischargeDepth := 60) +contextual [*, ite_canon, foldl_canon, foldlFst_canon, memWf_writeN, memWf_write, memWf_filter, memWf_del, notEnabled, issueEach_canon, tkSpawnBody_canon, h_s]; done) | (repeat' first | assumption | (with_reducible refine foldl_canon _ (fun s x hs => ?_) ?_) | (with_reducible apply ite_canon) | (with_reducible apply memWf_writeN) | (with_reducible apply memWf_write) | (with_reducible apply memWf_filter) | (with_reducible apply memWf_del) | (with_reducible apply issueEach_canon) | (with_reducible apply tkSpawnBody_canon) | (with_reducible apply h_s) | split | (intros; dsimp only))

theorem execTkHand_canon (a : BitVec 6) (sm : BitVec 1) (s : State)  (h_s : memWf s.mem = true) :
    ∀ s', execTkHand a sm s = .next s' → memWf s'.mem = true := by
  unfold execTkHand
  refine issueTrains_canon _ _ _ h_s (fun s t l hs => ?_)
  first | assumption | (simp (maxDischargeDepth := 60) +contextual [*, ite_canon, foldl_canon, foldlFst_canon, memWf_writeN, memWf_write, memWf_filter, memWf_del, notEnabled, issueTrains_canon, tkHandRun_canon, h_s]; done) | (repeat' first | assumption | (with_reducible refine foldl_canon _ (fun s x hs => ?_) ?_) | (with_reducible apply ite_canon) | (with_reducible apply memWf_writeN) | (with_reducible apply memWf_write) | (with_reducible apply memWf_filter) | (with_reducible apply memWf_del) | (with_reducible apply issueTrains_canon) | (with_reducible apply tkHandRun_canon) | (with_reducible apply h_s) | split | (intros; dsimp only))

theorem execKrd_canon (a : BitVec 6) (d : BitVec 6) (sm : BitVec 1) (s : State)  (h_s : memWf s.mem = true) :
    ∀ s', execKrd a d sm s = .next s' → memWf s'.mem = true := by
  unfold execKrd
  refine issueEach_canon _ _ _ (by simp [State.fresh_canon, h_s]) (fun s t hs => ?_)
  first | assumption | (simp (maxDischargeDepth := 60) +contextual [*, ite_canon, foldl_canon, foldlFst_canon, memWf_writeN, memWf_write, memWf_filter, memWf_del, notEnabled, issueEach_canon, krdBody_canon, h_s]; done) | (repeat' first | assumption | (with_reducible refine foldl_canon _ (fun s x hs => ?_) ?_) | (with_reducible apply ite_canon) | (with_reducible apply memWf_writeN) | (with_reducible apply memWf_write) | (with_reducible apply memWf_filter) | (with_reducible apply memWf_del) | (with_reducible apply issueEach_canon) | (with_reducible apply krdBody_canon) | (with_reducible apply h_s) | split | (intros; dsimp only))

theorem execRgSend_canon (a : BitVec 6) (d : BitVec 6) (sm : BitVec 1) (s : State)  (h_s : memWf s.mem = true) :
    ∀ s', execRgSend a d sm s = .next s' → memWf s'.mem = true := by
  unfold execRgSend
  refine issueTrains_canon _ _ _ h_s (fun s t l hs => ?_)
  first | assumption | (simp (maxDischargeDepth := 60) +contextual [*, ite_canon, foldl_canon, foldlFst_canon, memWf_writeN, memWf_write, memWf_filter, memWf_del, notEnabled, issueTrains_canon, rgSendRun_canon, h_s]; done) | (repeat' first | assumption | (with_reducible refine foldl_canon _ (fun s x hs => ?_) ?_) | (with_reducible apply ite_canon) | (with_reducible apply memWf_writeN) | (with_reducible apply memWf_write) | (with_reducible apply memWf_filter) | (with_reducible apply memWf_del) | (with_reducible apply issueTrains_canon) | (with_reducible apply rgSendRun_canon) | (with_reducible apply h_s) | split | (intros; dsimp only))

theorem execRgRecv_canon (a : BitVec 6) (d : BitVec 6) (sm : BitVec 1) (s : State)  (h_s : memWf s.mem = true) :
    ∀ s', execRgRecv a d sm s = .next s' → memWf s'.mem = true := by
  unfold execRgRecv
  refine issueTrains_canon _ _ _ h_s (fun s t l hs => ?_)
  first | assumption | (simp (maxDischargeDepth := 60) +contextual [*, ite_canon, foldl_canon, foldlFst_canon, memWf_writeN, memWf_write, memWf_filter, memWf_del, notEnabled, issueTrains_canon, rgRecvRun_canon, h_s]; done) | (repeat' first | assumption | (with_reducible refine foldl_canon _ (fun s x hs => ?_) ?_) | (with_reducible apply ite_canon) | (with_reducible apply memWf_writeN) | (with_reducible apply memWf_write) | (with_reducible apply memWf_filter) | (with_reducible apply memWf_del) | (with_reducible apply issueTrains_canon) | (with_reducible apply rgRecvRun_canon) | (with_reducible apply h_s) | split | (intros; dsimp only))

theorem execRgEos_canon (d : BitVec 6) (sm : BitVec 1) (s : State)  (h_s : memWf s.mem = true) :
    ∀ s', execRgEos d sm s = .next s' → memWf s'.mem = true := by
  unfold execRgEos
  refine issueTrains_canon _ _ _ h_s (fun s t l hs => ?_)
  first | assumption | (simp (maxDischargeDepth := 60) +contextual [*, ite_canon, foldl_canon, foldlFst_canon, memWf_writeN, memWf_write, memWf_filter, memWf_del, notEnabled, issueTrains_canon, rgEosRun_canon, h_s]; done) | (repeat' first | assumption | (with_reducible refine foldl_canon _ (fun s x hs => ?_) ?_) | (with_reducible apply ite_canon) | (with_reducible apply memWf_writeN) | (with_reducible apply memWf_write) | (with_reducible apply memWf_filter) | (with_reducible apply memWf_del) | (with_reducible apply issueTrains_canon) | (with_reducible apply rgEosRun_canon) | (with_reducible apply h_s) | split | (intros; dsimp only))

theorem execPhEnd_canon (d : BitVec 6) (sm : BitVec 1) (s : State)  (h_s : memWf s.mem = true) :
    ∀ s', execPhEnd d sm s = .next s' → memWf s'.mem = true := by
  unfold execPhEnd
  refine issueEach_canon _ _ _ (by simp [State.fresh_canon, h_s]) (fun s t hs => ?_)
  first | assumption | (simp (maxDischargeDepth := 60) +contextual [*, ite_canon, foldl_canon, foldlFst_canon, memWf_writeN, memWf_write, memWf_filter, memWf_del, notEnabled, issueEach_canon, phEndBody_canon, h_s]; done) | (repeat' first | assumption | (with_reducible refine foldl_canon _ (fun s x hs => ?_) ?_) | (with_reducible apply ite_canon) | (with_reducible apply memWf_writeN) | (with_reducible apply memWf_write) | (with_reducible apply memWf_filter) | (with_reducible apply memWf_del) | (with_reducible apply issueEach_canon) | (with_reducible apply phEndBody_canon) | (with_reducible apply h_s) | split | (intros; dsimp only))

end Sys2Proof.Machine
end

