-- ==== Sys2Proof/Laws/CanonEvLaunch.lean ====
section
/-! SUPPORT. Memory stays canonical through every operation of `EvLaunch`. -/

set_option linter.all false

namespace Sys2Proof.Machine
open Sys2Proof

theorem startThreads_canon (s : State) (key : Nat) (t : Train) (pc : Nat) (x0 : Nat) (x1 : Nat) (h_s : memWf s.mem = true) :
    memWf (startThreads s key t pc x0 x1).mem = true := by
  induction x0 generalizing s key t pc x1
  all_goals
    unfold startThreads
    simp (maxDischargeDepth := 60) +contextual [*, ite_canon, foldl_canon, foldlFst_canon, memWf_writeN, memWf_write, memWf_filter, memWf_del, notEnabled, State.setThread_canon, h_s]

theorem startTrain_canon (s : State) (t : Train) (pc : Nat)  (h_s : memWf s.mem = true) :
    memWf (startTrain s t pc).mem = true := by
  unfold startTrain
  simp (maxDischargeDepth := 60) +contextual [ite_canon, foldl_canon, foldlFst_canon, memWf_writeN, memWf_write, memWf_filter, memWf_del, notEnabled, State.modCore_canon, startThreads_canon, h_s]

theorem removeTrain_canon (s : State) (tr : Nat)  (h_s : memWf s.mem = true) :
    memWf (removeTrain s tr).mem = true := by
  unfold removeTrain
  simp (maxDischargeDepth := 60) +contextual [ite_canon, foldl_canon, foldlFst_canon, memWf_writeN, memWf_write, memWf_filter, memWf_del, notEnabled, State.modCore_canon, leaveRegs_canon, h_s]

theorem successor_canon (s : State) (tr : Nat) (succ : Nat)  (h_s : memWf s.mem = true) :
    memWf (successor s tr succ).1.mem = true := by
  unfold successor
  try dsimp only
  repeat' split
  all_goals simp (maxDischargeDepth := 60) +contextual [ite_canon, foldl_canon, foldlFst_canon, memWf_writeN, memWf_write, memWf_filter, memWf_del, notEnabled, atomLogged_canon, metMissing_canon, physRead_canon, physWrite_canon, placeTask_canon, trace_canon, translateSettled_canon, typeEntry_canon, virtRead_canon, writeClocks_canon, h_s]

theorem moveTrain_canon (s : State) (tr : Nat) (y : Train)  (h_s : memWf s.mem = true) :
    memWf (moveTrain s tr y).mem = true := by
  unfold moveTrain
  simp (maxDischargeDepth := 60) +contextual [ite_canon, foldl_canon, foldlFst_canon, memWf_writeN, memWf_write, memWf_filter, memWf_del, notEnabled, State.modCore_canon, State.modThread_canon, dissolve_canon, landWs_canon, leaveRegs_canon, h_s]

theorem moveScratch_canon (s : State) (c : Nat) (base : Nat) (c' : Nat) (base' : Nat) (len : Nat)  (h_s : memWf s.mem = true) :
    memWf (moveScratch s c base c' base' len).mem = true := by
  unfold moveScratch
  simp (maxDischargeDepth := 60) +contextual [ite_canon, foldl_canon, foldlFst_canon, memWf_writeN, memWf_write, memWf_filter, memWf_del, notEnabled, State.modCore_canon, h_s]

theorem saveBytes_canon (s : State) (core : Nat) (pa : Nat) (bs : List Byte)  (h_s : memWf s.mem = true) :
    memWf (saveBytes s core pa bs).mem = true := by
  unfold saveBytes
  simp (maxDischargeDepth := 60) +contextual [ite_canon, foldl_canon, foldlFst_canon, memWf_writeN, memWf_write, memWf_filter, memWf_del, notEnabled, physWrite_canon, h_s]

theorem saveScratch_canon (s : State) (tr : Nat)  (h_s : memWf s.mem = true) :
    memWf (saveScratch s tr).mem = true := by
  unfold saveScratch
  try dsimp only
  repeat' first | assumption | (with_reducible refine foldl_canon _ (fun s x hs => ?_) ?_) | (with_reducible apply ite_canon) | (with_reducible apply memWf_writeN) | (with_reducible apply memWf_write) | (with_reducible apply memWf_filter) | (with_reducible apply memWf_del) | (with_reducible apply saveBytes_canon) | (with_reducible apply h_s) | split | (dsimp only)
  all_goals (try simp (maxDischargeDepth := 60) +contextual [*, ite_canon, foldl_canon, foldlFst_canon, memWf_writeN, memWf_write, memWf_filter, memWf_del, notEnabled, saveBytes_canon, h_s])

theorem evictTrain_canon (s : State) (tr : Nat) (save : Nat)  (h_s : memWf s.mem = true) :
    memWf (evictTrain s tr save).mem = true := by
  unfold evictTrain
  simp (maxDischargeDepth := 60) +contextual [ite_canon, foldl_canon, foldlFst_canon, memWf_writeN, memWf_write, memWf_filter, memWf_del, notEnabled, State.modThread_canon, State.modTrain_canon, dissolve_canon, leaveRegs_canon, saveBytes_canon, saveScratch_canon, trace_canon, h_s]

theorem restoreTrain_canon (s : State) (tr : Nat) (tile : Nat) (sbase : Nat) (share : Bool) (save : Nat)  (h_s : memWf s.mem = true) :
    memWf (restoreTrain s tr tile sbase share save).mem = true := by
  unfold restoreTrain
  simp (maxDischargeDepth := 60) +contextual [ite_canon, foldl_canon, foldlFst_canon, memWf_writeN, memWf_write, memWf_filter, memWf_del, notEnabled, State.modCore_canon, State.modThread_canon, physRead_canon, testGathers_canon, trace_canon, h_s]

theorem onceEvicted_canon (s : State) (c : Nat) (ctx : Nat)  (h_s : memWf s.mem = true) :
    memWf (onceEvicted s c ctx).mem = true := by
  unfold onceEvicted
  simp (maxDischargeDepth := 60) +contextual [ite_canon, foldl_canon, foldlFst_canon, memWf_writeN, memWf_write, memWf_filter, memWf_del, notEnabled, h_s]

theorem cutSweeps_canon (s : State) (others : List (Bool × Nat × Nat)) (tot : Nat × Nat)  (h_s : memWf s.mem = true) :
    memWf (cutSweeps s others tot).mem = true := by
  unfold cutSweeps
  simp (maxDischargeDepth := 60) +contextual [ite_canon, foldl_canon, foldlFst_canon, memWf_writeN, memWf_write, memWf_filter, memWf_del, notEnabled, h_s]

theorem submitWaits_canon (s : State) (part : Nat) (ctx : Nat) (addr : Nat)  (h_s : memWf s.mem = true) :
    ∀ s', submitWaits s part ctx addr = .next s' → memWf s'.mem = true := by
  intro s' e
  unfold submitWaits at e
  try dsimp only at e
  repeat' split at e
  all_goals first | (simp [notEnabled] at e; done) | (injection e with e; subst e; simp (maxDischargeDepth := 60) +contextual [ite_canon, foldl_canon, foldlFst_canon, memWf_writeN, memWf_write, memWf_filter, memWf_del, notEnabled, notEnabled_canon, h_s])

theorem execSubmitLaunch_canon (part ctx addr : Nat) (s : State) (h_s : memWf s.mem = true) :
    ∀ s', execSubmitLaunch part ctx addr s = .next s' → memWf s'.mem = true := by
  intro s' e
  unfold execSubmitLaunch at e
  dsimp only at e
  have h0 := virtRead_canon { s with submits := s.submits.filter fun x => !(x.1 = part && x.2.1 = ctx && x.2.2.1 = addr) } none ctx addr 8 h_s
  generalize virtRead { s with submits := s.submits.filter fun x => !(x.1 = part && x.2.1 = ctx && x.2.2.1 = addr) } none ctx addr 8 = a at h0 e
  split at e
  · injection e with e; subst e; exact h_s
  · split at e
    · simp [notEnabled] at e
    · split at e
      · exact submitWaits_canon _ _ _ _ h_s _ e
      · next hb _ =>
        have h1 := virtRead_canon a.1 none ctx (addr + 64) (4 * fld (BitVec.ofNat 512 (natOfBytes hb)) 5 4) h0
        generalize virtRead a.1 none ctx (addr + 64) (4 * fld (BitVec.ofNat 512 (natOfBytes hb)) 5 4) = b at h1 e
        split at e
        · exact submitWaits_canon _ _ _ _ h_s _ e
        · have h2 : memWf (if fld (BitVec.ofNat 512 (natOfBytes hb)) 415 368 = 0 then (b.1, Except.ok [])
              else virtRead b.1 none ctx (fld (BitVec.ofNat 512 (natOfBytes hb)) 415 368) 2).1.mem = true := by
            split
            · exact h1
            · exact virtRead_canon _ _ _ _ _ h1
          generalize (if fld (BitVec.ofNat 512 (natOfBytes hb)) 415 368 = 0 then (b.1, Except.ok [])
              else virtRead b.1 none ctx (fld (BitVec.ofNat 512 (natOfBytes hb)) 415 368) 2) = c at h2 e
          split at e
          all_goals
            split at e
            · injection e with e; subst e; exact h2
            · injection e with e; subst e; exact h2

theorem execGangPlacement_canon (lid : Nat) (s : State)  (h_s : memWf s.mem = true) :
    ∀ s', execGangPlacement lid s = .next s' → memWf s'.mem = true := by
  intro s' e
  unfold execGangPlacement at e
  try dsimp only at e
  repeat' split at e
  all_goals first | (simp [notEnabled] at e; done) | (injection e with e; subst e; simp (maxDischargeDepth := 60) +contextual [ite_canon, foldl_canon, foldlFst_canon, memWf_writeN, memWf_write, memWf_filter, memWf_del, notEnabled, State.modCore_canon, State.modLaunch_canon, notEnabled_canon, startTrain_canon, virtRead_canon, h_s])

theorem execUnitMigration_canon (train : Nat) (core : Nat) (quarter : Nat) (lane : Nat) (row : Nat) (s : State)  (h_s : memWf s.mem = true) :
    ∀ s', execUnitMigration train core quarter lane row s = .next s' → memWf s'.mem = true := by
  intro s' e
  unfold execUnitMigration at e
  try dsimp only at e
  repeat' split at e
  all_goals first | (simp [notEnabled] at e; done) | (injection e with e; subst e; simp (maxDischargeDepth := 60) +contextual [ite_canon, foldl_canon, foldlFst_canon, memWf_writeN, memWf_write, memWf_filter, memWf_del, notEnabled, State.modCore_canon, moveScratch_canon, moveTrain_canon, notEnabled_canon, settleCounts_canon, trace_canon, h_s])

theorem execTaskDispatch_canon (core : Nat) (lid : Nat) (s : State)  (h_s : memWf s.mem = true) :
    ∀ s', execTaskDispatch core lid s = .next s' → memWf s'.mem = true := by
  intro s' e
  unfold execTaskDispatch at e
  try dsimp only at e
  repeat' split at e
  all_goals first | (simp [notEnabled] at e; done) | (injection e with e; subst e; simp (maxDischargeDepth := 60) +contextual [ite_canon, foldl_canon, foldlFst_canon, memWf_writeN, memWf_write, memWf_filter, memWf_del, notEnabled, State.modCore_canon, launchFail_canon, notEnabled_canon, readClocks_canon, startTrain_canon, typeEntry_canon, h_s])

theorem execTrainRetire_canon (train : Nat) (s : State)  (h_s : memWf s.mem = true) :
    ∀ s', execTrainRetire train s = .next s' → memWf s'.mem = true := by
  intro s' e
  unfold execTrainRetire at e
  try dsimp only at e
  repeat' split at e
  all_goals first | (simp [notEnabled] at e; done) | (injection e with e; subst e; simp (maxDischargeDepth := 60) +contextual [*, ite_canon, foldl_canon, foldlFst_canon, memWf_writeN, memWf_write, memWf_filter, memWf_del, notEnabled, launchFail_canon, notEnabled_canon, removeTrain_canon, settleCounts_canon, successor_canon, h_s]) | (injection e with e; subst e; (simp (maxDischargeDepth := 60) +contextual [*, ite_canon, foldl_canon, foldlFst_canon, memWf_writeN, memWf_write, memWf_filter, memWf_del, notEnabled, launchFail_canon, notEnabled_canon, removeTrain_canon, settleCounts_canon, successor_canon, h_s])) | (injection e with e; subst e; repeat' first | assumption | (with_reducible refine foldl_canon _ (fun s x hs => ?_) ?_) | (with_reducible apply ite_canon) | (with_reducible apply memWf_writeN) | (with_reducible apply memWf_write) | (with_reducible apply memWf_filter) | (with_reducible apply memWf_del) | (with_reducible apply launchFail_canon) | (with_reducible apply notEnabled_canon) | (with_reducible apply removeTrain_canon) | (with_reducible apply settleCounts_canon) | (with_reducible apply successor_canon) | (with_reducible apply h_s) | split | (dsimp only); done) | (simp (maxDischargeDepth := 60) +contextual [ite_canon, foldl_canon, foldlFst_canon, memWf_writeN, memWf_write, memWf_filter, memWf_del, notEnabled, launchFail_canon, notEnabled_canon, removeTrain_canon, settleCounts_canon, successor_canon, h_s] at e; subst e; simp (maxDischargeDepth := 60) +contextual [ite_canon, foldl_canon, foldlFst_canon, memWf_writeN, memWf_write, memWf_filter, memWf_del, notEnabled, launchFail_canon, notEnabled_canon, removeTrain_canon, settleCounts_canon, successor_canon, h_s])

theorem execDomainSweep_canon (others : List (Bool × Nat × Nat)) (s : State)  (h_s : memWf s.mem = true) :
    ∀ s', execDomainSweep others s = .next s' → memWf s'.mem = true := by
  intro s' e
  unfold execDomainSweep at e
  try dsimp only at e
  repeat' split at e
  all_goals first | (simp [notEnabled] at e; done) | (injection e with e; subst e; simp (maxDischargeDepth := 60) +contextual [ite_canon, foldl_canon, foldlFst_canon, memWf_writeN, memWf_write, memWf_filter, memWf_del, notEnabled, cutSweeps_canon, notEnabled_canon, h_s])

theorem execTimeSliceExpiry_canon (core : Nat) (ctx : Nat) (s : State)  (h_s : memWf s.mem = true) :
    ∀ s', execTimeSliceExpiry core ctx s = .next s' → memWf s'.mem = true := by
  intro s' e
  unfold execTimeSliceExpiry at e
  try dsimp only at e
  repeat' split at e
  all_goals first | (simp [notEnabled] at e; done) | (injection e with e; subst e; simp (maxDischargeDepth := 60) +contextual [ite_canon, foldl_canon, foldlFst_canon, memWf_writeN, memWf_write, memWf_filter, memWf_del, notEnabled, State.modCore_canon, notEnabled_canon, h_s])

theorem execPartialEviction_canon (train : Nat) (save : Nat) (s : State)  (h_s : memWf s.mem = true) :
    ∀ s', execPartialEviction train save s = .next s' → memWf s'.mem = true := by
  intro s' e
  unfold execPartialEviction at e
  try dsimp only at e
  repeat' split at e
  all_goals first | (simp [notEnabled] at e; done) | (injection e with e; subst e; simp (maxDischargeDepth := 60) +contextual [ite_canon, foldl_canon, foldlFst_canon, memWf_writeN, memWf_write, memWf_filter, memWf_del, notEnabled, State.modCore_canon, State.modTrain_canon, evictTrain_canon, forceRelease_canon, notEnabled_canon, h_s])

theorem execTrainRestoration_canon (train : Nat) (s : State) (h_s : memWf s.mem = true) :
    ∀ s', execTrainRestoration train s = .next s' → memWf s'.mem = true := by
  intro s' e
  unfold execTrainRestoration at e
  generalize s.train train = x at e
  dsimp only at e
  rcases hx : x.evicted with _ | save
  · rw [hx] at e; simp [notEnabled] at e
  · rw [hx] at e
    dsimp only at e
    generalize fitTiles (residents s x.core) x.acc = o1 at e
    generalize restoreBase s train = o2 at e
    rcases o1 with _ | tile
    · simp [notEnabled] at e
    rcases o2 with _ | b
    · simp [notEnabled] at e
    dsimp only at e
    generalize (rectFree _ _ _ _ _ _ && _ && _) = c at e
    cases c
    · simp [notEnabled] at e
    · rw [if_pos rfl, Host.Outcome.next.injEq] at e
      subst e
      exact restoreTrain_canon _ _ _ _ _ _ h_s

end Sys2Proof.Machine
end

