-- ==== Sys2Proof/Laws/CanonEvDebug.lean ====
section
/-! SUPPORT. Memory stays canonical through every operation of `EvDebug`. -/

set_option linter.all false

namespace Sys2Proof.Machine
open Sys2Proof

theorem refuse_canon (s : State)  (h_s : memWf s.mem = true) :
    memWf (refuse s).mem = true := by
  unfold refuse
  simp (maxDischargeDepth := 60) +contextual [ite_canon, foldl_canon, foldlFst_canon, memWf_writeN, memWf_write, memWf_filter, memWf_del, notEnabled, h_s]

theorem haltThread_canon (s : State) (t : Nat)  (h_s : memWf s.mem = true) :
    memWf (haltThread s t).mem = true := by
  unfold haltThread
  simp (maxDischargeDepth := 60) +contextual [ite_canon, foldl_canon, foldlFst_canon, memWf_writeN, memWf_write, memWf_filter, memWf_del, notEnabled, dissolve_canon, h_s]

theorem bpAct_canon (s : State) (t : Nat) (n : Nat) (act : Nat)  (h_s : memWf s.mem = true) :
    memWf (bpAct s t n act).mem = true := by
  unfold bpAct
  simp (maxDischargeDepth := 60) +contextual [ite_canon, foldl_canon, foldlFst_canon, memWf_writeN, memWf_write, memWf_filter, memWf_del, notEnabled, haltThread_canon, raiseAsync_canon, traceThread_canon, h_s]

theorem asCut_canon (s : State) (k : Checkpoint) (h_k : memWf k.mem = true) : memWf (asCut s k).mem = true := h_k

theorem beginCut_canon (s : State) (n : Nat)  (h_s : memWf s.mem = true) :
    memWf (beginCut s n).mem = true := by
  unfold beginCut
  simp (maxDischargeDepth := 60) +contextual [ite_canon, foldl_canon, foldlFst_canon, memWf_writeN, memWf_write, memWf_filter, memWf_del, notEnabled, park_canon, h_s]

theorem endCut_canon (s : State) (n : Nat)  (h_s : memWf s.mem = true) :
    memWf (endCut s n).mem = true := by
  unfold endCut
  simp (maxDischargeDepth := 60) +contextual [ite_canon, foldl_canon, foldlFst_canon, memWf_writeN, memWf_write, memWf_filter, memWf_del, notEnabled, trace_canon, h_s]

theorem discardLines_canon (s : State) (p : Nat → Bool)  (h_s : memWf s.mem = true) :
    memWf (discardLines s p).mem = true := by
  unfold discardLines
  simp (maxDischargeDepth := 60) +contextual [ite_canon, foldl_canon, foldlFst_canon, memWf_writeN, memWf_write, memWf_filter, memWf_del, notEnabled, rdcDrop_canon, h_s]

theorem dropJob_canon (s : State)  (h_s : memWf s.mem = true) :
    memWf (dropJob s).mem = true := by
  unfold dropJob
  simp (maxDischargeDepth := 60) +contextual [ite_canon, foldl_canon, foldlFst_canon, memWf_writeN, memWf_write, memWf_filter, memWf_del, notEnabled, discardCommands_canon, h_s]

theorem replaceFrames_canon (m saved : Memory) (p : Nat → Bool) (h : memWf m = true) : memWf (replaceFrames m saved p) = true := by
  unfold replaceFrames
  exact memWf_foldl _ (fun m b hm => memWf_write _ _ hm) _ (memWf_filter _ h)
theorem restoreMem_canon (s : State) (saved : Memory) (mine : Nat → Bool) (h_s : memWf s.mem = true) :
    memWf (restoreMem s saved mine).mem = true :=
  discardLines_canon _ _ (replaceFrames_canon _ _ _ h_s)

theorem restoreCut_canon (s : State) (k : Checkpoint) (h_s : memWf s.mem = true) :
    memWf (restoreCut s k).mem = true := by
  unfold restoreCut
  dsimp only
  apply restoreMem_canon
  exact dropJob_canon s h_s

theorem execBreakpointMatch_canon (t : Nat) (part : Nat) (n : Nat) (s : State)  (h_s : memWf s.mem = true) :
    ∀ s', execBreakpointMatch t part n s = .next s' → memWf s'.mem = true := by
  intro s' e
  unfold execBreakpointMatch at e
  try dsimp only at e
  repeat' split at e
  all_goals first | (simp [notEnabled] at e; done) | (injection e with e; subst e; simp (maxDischargeDepth := 60) +contextual [ite_canon, foldl_canon, foldlFst_canon, memWf_writeN, memWf_write, memWf_filter, memWf_del, notEnabled, State.modThread_canon, bpAct_canon, notEnabled_canon, h_s])

theorem execTraceSample_canon (core : Nat) (quarter : Nat) (s : State)  (h_s : memWf s.mem = true) :
    ∀ s', execTraceSample core quarter s = .next s' → memWf s'.mem = true := by
  intro s' e
  unfold execTraceSample at e
  try dsimp only at e
  repeat' split at e
  all_goals first | (simp [notEnabled] at e; done) | (injection e with e; subst e; simp (maxDischargeDepth := 60) +contextual [ite_canon, foldl_canon, foldlFst_canon, memWf_writeN, memWf_write, memWf_filter, memWf_del, notEnabled, State.modCore_canon, notEnabled_canon, traceRecord_canon, h_s])

theorem execCheckpointCut_canon (n : Nat) (s : State)  (h_s : memWf s.mem = true) :
    ∀ s', execCheckpointCut n s = .next s' → memWf s'.mem = true := by
  intro s' e
  unfold execCheckpointCut at e
  try dsimp only at e
  repeat' split at e
  all_goals first | (simp [notEnabled] at e; done) | (injection e with e; subst e; simp (maxDischargeDepth := 60) +contextual [ite_canon, foldl_canon, foldlFst_canon, memWf_writeN, memWf_write, memWf_filter, memWf_del, notEnabled, beginCut_canon, endCut_canon, notEnabled_canon, h_s])

theorem execLogAreaThreshold_canon (die : Nat) (s : State)  (h_s : memWf s.mem = true) :
    ∀ s', execLogAreaThreshold die s = .next s' → memWf s'.mem = true := by
  intro s' e
  unfold execLogAreaThreshold at e
  try dsimp only at e
  repeat' split at e
  all_goals first | (simp [notEnabled] at e; done) | (injection e with e; subst e; simp (maxDischargeDepth := 60) +contextual [ite_canon, foldl_canon, foldlFst_canon, memWf_writeN, memWf_write, memWf_filter, memWf_del, notEnabled, beginCut_canon, notEnabled_canon, h_s])

theorem execReplayGateTimeout_canon (gate : Nat) (s : State)  (h_s : memWf s.mem = true) :
    ∀ s', execReplayGateTimeout gate s = .next s' → memWf s'.mem = true := by
  intro s' e
  unfold execReplayGateTimeout at e
  try dsimp only at e
  repeat' split at e
  all_goals first | (simp [notEnabled] at e; done) | (injection e with e; subst e; simp (maxDischargeDepth := 60) +contextual [ite_canon, foldl_canon, foldlFst_canon, memWf_writeN, memWf_write, memWf_filter, memWf_del, notEnabled, diverge_canon, gatesDone_canon, notEnabled_canon, h_s])

theorem execSetTraceRing_canon (part : Nat) (die : Nat) (base : Nat) (len : Nat) (s : State)  (h_s : memWf s.mem = true) :
    ∀ s', execSetTraceRing part die base len s = .next s' → memWf s'.mem = true := by
  intro s' e
  unfold execSetTraceRing at e
  try dsimp only at e
  repeat' split at e
  all_goals first | (simp [notEnabled] at e; done) | (injection e with e; subst e; simp (maxDischargeDepth := 60) +contextual [ite_canon, foldl_canon, foldlFst_canon, memWf_writeN, memWf_write, memWf_filter, memWf_del, notEnabled, notEnabled_canon, refuse_canon, traceFlush_canon, h_s])

theorem execSetSampling_canon (part : Nat) (die : Nat) (period : Nat) (s : State)  (h_s : memWf s.mem = true) :
    ∀ s', execSetSampling part die period s = .next s' → memWf s'.mem = true := by
  intro s' e
  unfold execSetSampling at e
  try dsimp only at e
  repeat' split at e
  all_goals first | (simp [notEnabled] at e; done) | (injection e with e; subst e; simp (maxDischargeDepth := 60) +contextual [ite_canon, foldl_canon, foldlFst_canon, memWf_writeN, memWf_write, memWf_filter, memWf_del, notEnabled, State.modDie_canon, notEnabled_canon, refuse_canon, h_s])

theorem execSetBreakpoint_canon (part : Nat) (n : Nat) (value : BitVec 128) (s : State)  (h_s : memWf s.mem = true) :
    ∀ s', execSetBreakpoint part n value s = .next s' → memWf s'.mem = true := by
  intro s' e
  unfold execSetBreakpoint at e
  try dsimp only at e
  repeat' split at e
  all_goals first | (simp [notEnabled] at e; done) | (injection e with e; subst e; simp (maxDischargeDepth := 60) +contextual [ite_canon, foldl_canon, foldlFst_canon, memWf_writeN, memWf_write, memWf_filter, memWf_del, notEnabled, notEnabled_canon, h_s])

theorem execHaltRequest_canon (part : Nat) (t : Nat) (s : State)  (h_s : memWf s.mem = true) :
    ∀ s', execHaltRequest part t s = .next s' → memWf s'.mem = true := by
  intro s' e
  unfold execHaltRequest at e
  try dsimp only at e
  repeat' split at e
  all_goals first | (simp [notEnabled] at e; done) | (injection e with e; subst e; simp (maxDischargeDepth := 60) +contextual [ite_canon, foldl_canon, foldlFst_canon, memWf_writeN, memWf_write, memWf_filter, memWf_del, notEnabled, haltThread_canon, notEnabled_canon, refuse_canon, h_s])

theorem execDebugResume_canon (part t : Nat) (s : State) (h_s : memWf s.mem = true) :
    ∀ s', execDebugResume part t s = .next s' → memWf s'.mem = true := by
  intro s' e
  unfold execDebugResume at e
  generalize (!liveThread s t || !(s.thread t).halted) = c at e
  cases c
  · rw [if_neg Bool.false_ne_true] at e
    generalize (!ownsCtx s part (s.ctxOf t)) = c at e
    cases c
    · rw [if_neg Bool.false_ne_true, Host.Outcome.next.injEq] at e
      subst e
      exact testGathers_canon _ _ (State.modThread_canon _ _ _ h_s)
    · rw [if_pos rfl, Host.Outcome.next.injEq] at e
      subst e
      exact refuse_canon _ h_s
  · simp [notEnabled] at e

theorem execSetCheckpointPeriod_canon (part : Nat) (ms : Nat) (s : State)  (h_s : memWf s.mem = true) :
    ∀ s', execSetCheckpointPeriod part ms s = .next s' → memWf s'.mem = true := by
  intro s' e
  unfold execSetCheckpointPeriod at e
  try dsimp only at e
  repeat' split at e
  all_goals first | (simp [notEnabled] at e; done) | (injection e with e; subst e; simp (maxDischargeDepth := 60) +contextual [ite_canon, foldl_canon, foldlFst_canon, memWf_writeN, memWf_write, memWf_filter, memWf_del, notEnabled, notEnabled_canon, refuse_canon, h_s])

theorem execReplay_canon (part : Nat) (n : Nat) (s : State)  (h_s : memWf s.mem = true) :
    ∀ s', execReplay part n s = .next s' → memWf s'.mem = true := by
  intro s' e
  unfold execReplay at e
  try dsimp only at e
  repeat' split at e
  all_goals first | (simp [notEnabled] at e; done) | (injection e with e; subst e; simp (maxDischargeDepth := 60) +contextual [ite_canon, foldl_canon, foldlFst_canon, memWf_writeN, memWf_write, memWf_filter, memWf_del, notEnabled, notEnabled_canon, refuse_canon, restoreCut_canon, h_s])

end Sys2Proof.Machine
end

