-- ==== Sys2Proof/Laws/CanonEvEngine.lean ====
section
/-! SUPPORT. Memory stays canonical through every operation of `EvEngine`. -/

set_option linter.all false

namespace Sys2Proof.Machine
open Sys2Proof

theorem translateEng_canon (s : State) (core : Nat) (ctx : Nat) (va : Nat) (acc : Acc)  (h_s : memWf s.mem = true) :
    memWf (translateEng s core ctx va acc).1.mem = true := by
  unfold translateEng
  try dsimp only
  repeat' split
  all_goals simp (maxDischargeDepth := 60) +contextual [ite_canon, foldl_canon, foldlFst_canon, memWf_writeN, memWf_write, memWf_filter, memWf_del, notEnabled, translateRetried_canon, h_s]

theorem engMissing_canon (s : State) (core : Nat) (ctx : Nat) (lid : Nat) (va : Nat) (write : Bool) (who : Nat × Nat)  (h_s : memWf s.mem = true) :
    memWf (engMissing s core ctx lid va write who).1.mem = true := by
  unfold engMissing
  simp (maxDischargeDepth := 60) +contextual [ite_canon, foldl_canon, foldlFst_canon, memWf_writeN, memWf_write, memWf_filter, memWf_del, notEnabled, metMissing_canon, h_s]

theorem engLines_canon (s : State) (core : Nat) (copy : Bool) (x0 : List (Nat × Nat)) (x1 : List Byte) (h_s : memWf s.mem = true) :
    memWf (engLines s core copy x0 x1).1.mem = true := by
  induction x0 generalizing s core copy x1
  all_goals
    unfold engLines
    try dsimp only
    repeat' split
    all_goals simp (maxDischargeDepth := 60) +contextual [*, ite_canon, foldl_canon, foldlFst_canon, memWf_writeN, memWf_write, memWf_filter, memWf_del, notEnabled, physRead_canon, h_s]

theorem engReadPage_canon (s : State) (core : Nat) (ctx : Nat) (lid : Nat) (copy : Bool) (who : Nat × Nat) (va : Nat) (n : Nat)  (h_s : memWf s.mem = true) :
    memWf (engReadPage s core ctx lid copy who va n).1.mem = true := by
  unfold engReadPage
  try dsimp only
  repeat' split
  all_goals simp (maxDischargeDepth := 60) +contextual [ite_canon, foldl_canon, foldlFst_canon, memWf_writeN, memWf_write, memWf_filter, memWf_del, notEnabled, engLines_canon, engMissing_canon, translateEng_canon, h_s]

theorem engReadGo_canon (s : State) (core : Nat) (ctx : Nat) (lid : Nat) (copy : Bool) (who : Nat × Nat) (x0 : List (Nat × Nat)) (x1 : List Byte) (h_s : memWf s.mem = true) :
    memWf (engReadGo s core ctx lid copy who x0 x1).1.mem = true := by
  induction x0 generalizing s core ctx lid copy who x1
  all_goals
    unfold engReadGo
    try dsimp only
    repeat' split
    all_goals simp (maxDischargeDepth := 60) +contextual [*, ite_canon, foldl_canon, foldlFst_canon, memWf_writeN, memWf_write, memWf_filter, memWf_del, notEnabled, engReadPage_canon, h_s]

theorem engRead_canon (s : State) (core : Nat) (ctx : Nat) (lid : Nat) (copy : Bool) (who : Nat × Nat) (va : Nat) (n : Nat)  (h_s : memWf s.mem = true) :
    memWf (engRead s core ctx lid copy who va n).1.mem = true := by
  unfold engRead
  simp (maxDischargeDepth := 60) +contextual [ite_canon, foldl_canon, foldlFst_canon, memWf_writeN, memWf_write, memWf_filter, memWf_del, notEnabled, engReadGo_canon, h_s]

theorem mxDrop_canon (s : State) (core : Nat) (id : Nat)  (h_s : memWf s.mem = true) :
    memWf (mxDrop s core id).mem = true := by
  unfold mxDrop
  simp (maxDischargeDepth := 60) +contextual [ite_canon, foldl_canon, foldlFst_canon, memWf_writeN, memWf_write, memWf_filter, memWf_del, notEnabled, State.modCore_canon, h_s]

theorem mxMod_canon (s : State) (core : Nat) (id : Nat) (f : MxCmd → MxCmd)  (h_s : memWf s.mem = true) :
    memWf (mxMod s core id f).mem = true := by
  unfold mxMod
  simp (maxDischargeDepth := 60) +contextual [ite_canon, foldl_canon, foldlFst_canon, memWf_writeN, memWf_write, memWf_filter, memWf_del, notEnabled, State.modCore_canon, h_s]

theorem mxFails_canon (s : State) (core : Nat) (m : MxCmd) (cause : Nat) (addr : DWord)  (h_s : memWf s.mem = true) :
    memWf (mxFails s core m cause addr).mem = true := by
  unfold mxFails
  simp (maxDischargeDepth := 60) +contextual [ite_canon, foldl_canon, foldlFst_canon, memWf_writeN, memWf_write, memWf_filter, memWf_del, notEnabled, dropCmds_canon, failOp_canon, mxDrop_canon, settleBatches_canon, h_s]

theorem mxEnter_canon (s : State) (core : Nat) (m : MxCmd)  (h_s : memWf s.mem = true) :
    memWf (mxEnter s core m).mem = true := by
  unfold mxEnter
  simp (maxDischargeDepth := 60) +contextual [ite_canon, foldl_canon, foldlFst_canon, memWf_writeN, memWf_write, memWf_filter, memWf_del, notEnabled, State.modCore_canon, mxMod_canon, resolveOp_canon, h_s]

theorem devRows_canon (s : State) (core : Nat) (ctx : Nat) (lid : Nat) (who : Nat × Nat) (base : Nat) (ld : Nat) (len : Nat) (x0 : Nat) (x1 : Nat) (x2 : List (List Byte)) (h_s : memWf s.mem = true) :
    memWf (devRows s core ctx lid who base ld len x0 x1 x2).1.mem = true := by
  induction x0 generalizing s core ctx lid who base ld len x1 x2
  all_goals
    unfold devRows
    try dsimp only
    repeat' split
    all_goals simp (maxDischargeDepth := 60) +contextual [*, ite_canon, foldl_canon, foldlFst_canon, memWf_writeN, memWf_write, memWf_filter, memWf_del, notEnabled, engRead_canon, h_s]

theorem mxOperands_canon (s : State) (core : Nat) (m : MxCmd)  (h_s : memWf s.mem = true) :
    memWf (mxOperands s core m).1.mem = true := by
  unfold mxOperands
  try dsimp only
  repeat' split
  all_goals simp (maxDischargeDepth := 60) +contextual [ite_canon, foldl_canon, foldlFst_canon, memWf_writeN, memWf_write, memWf_filter, memWf_del, notEnabled, devRows_canon, h_s]

theorem destTranslate_canon (s : State) (core : Nat) (ctx : Nat) (lid : Nat) (named : Nat) (id : Nat) (x0 : List Nat) (x1 : List (Nat × Nat)) (h_s : memWf s.mem = true) :
    memWf (destTranslate s core ctx lid named id x0 x1).1.mem = true := by
  induction x0 generalizing s core ctx lid named id x1
  all_goals
    unfold destTranslate
    try dsimp only
    repeat' split
    all_goals simp (maxDischargeDepth := 60) +contextual [*, ite_canon, foldl_canon, foldlFst_canon, memWf_writeN, memWf_write, memWf_filter, memWf_del, notEnabled, metMissing_canon, translateEng_canon, h_s]

theorem takeLines_canon (s : State) (core : Nat) (x0 : List Nat) (h_s : memWf s.mem = true) :
    ∀ s', takeLines s core x0 = some s' → memWf s'.mem = true := by
  induction x0 generalizing s with
  | nil => intro s' e; injection e with e; subst e; exact h_s
  | cons l r ih =>
    intro s' e
    rw [takeLines] at e
    split at e
    · simp at e
    · refine ih _ ?_ _ e
      split
      · exact h_s
      · exact takeLine_canon _ _ _ h_s

theorem cpMod_canon (s : State) (core : Nat) (id : Nat) (f : CpCmd → CpCmd)  (h_s : memWf s.mem = true) :
    memWf (cpMod s core id f).mem = true := by
  unfold cpMod
  simp (maxDischargeDepth := 60) +contextual [ite_canon, foldl_canon, foldlFst_canon, memWf_writeN, memWf_write, memWf_filter, memWf_del, notEnabled, State.modCore_canon, h_s]

theorem cpDrop_canon (s : State) (core : Nat) (id : Nat)  (h_s : memWf s.mem = true) :
    memWf (cpDrop s core id).mem = true := by
  unfold cpDrop
  simp (maxDischargeDepth := 60) +contextual [ite_canon, foldl_canon, foldlFst_canon, memWf_writeN, memWf_write, memWf_filter, memWf_del, notEnabled, State.modCore_canon, h_s]

theorem cpEnter_canon (s : State) (core : Nat) (m : CpCmd) (owned : List (Nat × Nat))  (h_s : memWf s.mem = true) :
    memWf (cpEnter s core m owned).mem = true := by
  unfold cpEnter
  simp (maxDischargeDepth := 60) +contextual [ite_canon, foldl_canon, foldlFst_canon, memWf_writeN, memWf_write, memWf_filter, memWf_del, notEnabled, State.modCore_canon, resolveOp_canon, h_s]

theorem cpSource_canon (s : State) (core : Nat) (m : CpCmd) (p : Nat)  (h_s : memWf s.mem = true) :
    memWf (cpSource s core m p).1.mem = true := by
  unfold cpSource
  try dsimp only
  repeat' split
  all_goals simp (maxDischargeDepth := 60) +contextual [ite_canon, foldl_canon, foldlFst_canon, memWf_writeN, memWf_write, memWf_filter, memWf_del, notEnabled, engRead_canon, h_s]

theorem cpGather_canon (s : State) (core : Nat) (m : CpCmd) (dst : Nat → Nat) (x0 : List Nat) (x1 : SMap Byte) (h_s : memWf s.mem = true) :
    memWf (cpGather s core m dst x0 x1).1.mem = true := by
  induction x0 generalizing s core m x1
  all_goals
    unfold cpGather
    try dsimp only
    repeat' split
    all_goals simp (maxDischargeDepth := 60) +contextual [*, ite_canon, foldl_canon, foldlFst_canon, memWf_writeN, memWf_write, memWf_filter, memWf_del, notEnabled, cpSource_canon, h_s]

theorem cpBytes_canon (s : State) (core : Nat) (m : CpCmd) (lines : List Nat)  (h_s : memWf s.mem = true) :
    memWf (cpBytes s core m lines).1.mem = true := by
  unfold cpBytes
  simp (maxDischargeDepth := 60) +contextual [ite_canon, foldl_canon, foldlFst_canon, memWf_writeN, memWf_write, memWf_filter, memWf_del, notEnabled, cpGather_canon, h_s]

theorem cpCounter_canon (s : State) (core : Nat) (m : CpCmd) (f : DWord → DWord)  (h_s : memWf s.mem = true) :
    memWf (cpCounter s core m f).1.mem = true := by
  unfold cpCounter
  try dsimp only
  repeat' split
  all_goals simp (maxDischargeDepth := 60) +contextual [ite_canon, foldl_canon, foldlFst_canon, memWf_writeN, memWf_write, memWf_filter, memWf_del, notEnabled, atomLogged_canon, engMissing_canon, physRead_canon, physWrite_canon, translateEng_canon, writeClocks_canon, h_s]

theorem cpRelease_canon (s : State) (core : Nat) (m : CpCmd) (cause : Nat)  (h_s : memWf s.mem = true) :
    memWf (cpRelease s core m cause).mem = true := by
  unfold cpRelease
  simp (maxDischargeDepth := 60) +contextual [ite_canon, foldl_canon, foldlFst_canon, memWf_writeN, memWf_write, memWf_filter, memWf_del, notEnabled, State.modCore_canon, cpDrop_canon, giveUp_canon, h_s]

theorem cpStop_canon (s : State) (core : Nat) (m : CpCmd)  (h_s : memWf s.mem = true) :
    memWf (cpStop s core m).1.mem = true := by
  unfold cpStop
  try dsimp only
  repeat' split
  all_goals simp (maxDischargeDepth := 60) +contextual [ite_canon, foldl_canon, foldlFst_canon, memWf_writeN, memWf_write, memWf_filter, memWf_del, notEnabled, cpBytes_canon, h_s]

theorem cpStopped_canon (s : State) (core : Nat) (m : CpCmd) (c : Nat) (a : Nat) (shown : Bool)  (h_s : memWf s.mem = true) :
    memWf (cpStopped s core m c a shown).mem = true := by
  unfold cpStopped
  simp (maxDischargeDepth := 60) +contextual [ite_canon, foldl_canon, foldlFst_canon, memWf_writeN, memWf_write, memWf_filter, memWf_del, notEnabled, cpRelease_canon, taskKill_canon, trace_canon, h_s]

theorem escArrive_canon (s : State) (t : Nat) (o : Op) (n : Nat)  (h_s : memWf s.mem = true) :
    memWf (escArrive s t o n).mem = true := by
  unfold escArrive
  try dsimp only
  split <;> simp (maxDischargeDepth := 60) +contextual [ite_canon, foldl_canon, foldlFst_canon, memWf_writeN, memWf_write, memWf_filter, memWf_del, notEnabled, failOp_canon, gatePass_canon, logEvent_canon, resolveOp_canon, streamMoves_canon, streamPut_canon, h_s]

theorem acceptCfg_canon (s : State) (t : Nat) (o : Op)  (h_s : memWf s.mem = true) :
    memWf (acceptCfg s t o).1.mem = true := by
  unfold acceptCfg
  try dsimp only
  repeat' split
  all_goals simp (maxDischargeDepth := 60) +contextual [ite_canon, foldl_canon, foldlFst_canon, memWf_writeN, memWf_write, memWf_filter, memWf_del, notEnabled, engRead_canon, failOp_canon, queuePut_canon, resolveOp_canon, settleCounts_canon, h_s]

theorem acceptIn_canon (s : State) (t : Nat) (o : Op)  (h_s : memWf s.mem = true) :
    memWf (acceptIn s t o).1.mem = true := by
  unfold acceptIn
  try dsimp only
  split <;> simp (maxDischargeDepth := 60) +contextual [ite_canon, foldl_canon, foldlFst_canon, memWf_writeN, memWf_write, memWf_filter, memWf_del, notEnabled, acceptToken_canon, failOp_canon, resolveOp_canon, h_s]

theorem acceptPlace_canon (s : State) (t : Nat) (a : Nat)  (h_s : memWf s.mem = true) :
    memWf (acceptPlace s t a).1.mem = true := by
  unfold acceptPlace
  try dsimp only
  repeat' split
  all_goals simp (maxDischargeDepth := 60) +contextual [ite_canon, foldl_canon, foldlFst_canon, memWf_writeN, memWf_write, memWf_filter, memWf_del, notEnabled, engMissing_canon, translateEng_canon, h_s]

theorem acceptDone_canon (s : State) (t : Nat) (o : Op) (h_s : memWf s.mem = true) :
    memWf (acceptDone s t o).1.mem = true := by
  unfold acceptDone
  dsimp only
  generalize natOfBytes o.value = e
  have h := acceptPlace_canon s t (e / 2 ^ 208 + 8 + 8 * (e / 2 ^ 48 % 8)) h_s
  generalize acceptPlace s t (e / 2 ^ 208 + 8 + 8 * (e / 2 ^ 48 % 8)) = a at h ⊢
  split
  · exact failOp_canon _ _ _ _ _ h
  · exact h
  · next pa _ =>
    have h2 := acceptPlace_canon a.1 t (e / 2 ^ 208) h
    generalize acceptPlace a.1 t (e / 2 ^ 208) = b at h2 ⊢
    split
    · exact failOp_canon _ _ _ _ _ h2
    · exact h2
    · next pb _ =>
      split
      · exact h2
      · have h3 := physRead_canon _ pb 8 (physWrite_canon b.1 (s.coreOf t) pa o.data h2)
        generalize physRead (physWrite b.1 (s.coreOf t) pa o.data) pb 8 = q at h3 ⊢
        have h4 := physWrite_canon q.1 (s.coreOf t) pb (bytesOfDWord (dwordOfBytes q.2 - 1)) h3
        generalize physWrite q.1 (s.coreOf t) pb (bytesOfDWord (dwordOfBytes q.2 - 1)) = w at h4 ⊢
        refine resolveOp_canon _ _ _ (atomLogged_canon _ _ _ _ ?_)
        split <;> exact h4

theorem readBack_canon (s : State) (x : XQueue) (ctx : Nat) (x0 : List Token) (x1 : List Token) (h_s : memWf s.mem = true) :
    memWf (readBack s x ctx x0 x1).1.mem = true := by
  induction x0 generalizing s x ctx x1
  all_goals
    unfold readBack
    try dsimp only
    repeat' split
    all_goals simp (maxDischargeDepth := 60) +contextual [*, ite_canon, foldl_canon, foldlFst_canon, memWf_writeN, memWf_write, memWf_filter, memWf_del, notEnabled, virtRead_canon, h_s]

theorem execScratchFillArrival_canon (core : Nat) (line : Nat) (s : State)  (h_s : memWf s.mem = true) :
    ∀ s', execScratchFillArrival core line s = .next s' → memWf s'.mem = true := by
  intro s' e
  unfold execScratchFillArrival at e
  try dsimp only at e
  repeat' split at e
  all_goals first | (simp [notEnabled] at e; done) | (injection e with e; subst e; simp (maxDischargeDepth := 60) +contextual [ite_canon, foldl_canon, foldlFst_canon, memWf_writeN, memWf_write, memWf_filter, memWf_del, notEnabled, State.modCore_canon, cpBytes_canon, notEnabled_canon, h_s])

theorem execEngineReadDone_canon (core : Nat) (line : Nat) (s : State)  (h_s : memWf s.mem = true) :
    ∀ s', execEngineReadDone core line s = .next s' → memWf s'.mem = true := by
  intro s' e
  unfold execEngineReadDone at e
  try dsimp only at e
  repeat' split at e
  all_goals first | (simp [notEnabled] at e; done) | (injection e with e; subst e; simp (maxDischargeDepth := 60) +contextual [ite_canon, foldl_canon, foldlFst_canon, memWf_writeN, memWf_write, memWf_filter, memWf_del, notEnabled, State.modCore_canon, cpMod_canon, mxMod_canon, notEnabled_canon, h_s])

theorem execFillFailure_canon (core : Nat) (line : Nat) (cause : Nat) (s : State)  (h_s : memWf s.mem = true) :
    ∀ s', execFillFailure core line cause s = .next s' → memWf s'.mem = true := by
  intro s' e
  unfold execFillFailure at e
  try dsimp only at e
  repeat' split at e
  all_goals first | (simp [notEnabled] at e; done) | (injection e with e; subst e; simp (maxDischargeDepth := 60) +contextual [ite_canon, foldl_canon, foldlFst_canon, memWf_writeN, memWf_write, memWf_filter, memWf_del, notEnabled, State.modCore_canon, cpBytes_canon, cpMod_canon, notEnabled_canon, h_s])

theorem storeOwned_canon (s : State) (core : Nat) (line : Nat) (m : CpCmd) (b : List (Nat × Byte))  (h_s : memWf s.mem = true) :
    memWf (storeOwned s core line m b).mem = true := by
  unfold storeOwned
  simp (maxDischargeDepth := 60) +contextual [ite_canon, foldl_canon, foldlFst_canon, memWf_writeN, memWf_write, memWf_filter, memWf_del, notEnabled, cpMod_canon, giveUp_canon, ownWrite_canon, h_s]

theorem edoneArrives_canon (core : Nat) (line : Nat) (s : State)  (h_s : memWf s.mem = true) :
    ∀ s', edoneArrives core line s = .next s' → memWf s'.mem = true := by
  intro s' e
  unfold edoneArrives at e
  try dsimp only at e
  repeat' split at e
  all_goals first | (simp [notEnabled] at e; done) | (injection e with e; subst e; simp (maxDischargeDepth := 60) +contextual [ite_canon, foldl_canon, foldlFst_canon, memWf_writeN, memWf_write, memWf_filter, memWf_del, notEnabled, dieLinkPut_canon, notEnabled_canon, takeMsg_canon, h_s])

theorem execEdone_canon (core line : Nat) (s : State) (h_s : memWf s.mem = true) :
    ∀ s', execEdone core line s = .next s' → memWf s'.mem = true := by
  intro s' e
  unfold execEdone at e
  generalize cpHead? (s.core core) = o at e
  rcases o with _ | m
  · exact edoneArrives_canon _ _ _ h_s _ e
  · dsimp only at e
    have h := cpBytes_canon s core m ((m.owned.filter fun l => l.1 = line).map (·.2)) h_s
    generalize (m.owned.filter fun l => l.1 = line).map (·.2) = vs at e h
    generalize cpBytes s core m vs = r at e h
    split at e
    · exact edoneArrives_canon _ _ _ h_s _ e
    · split at e
      · simp [notEnabled] at e
      · split at e
        · injection e with e; subst e
          exact storeOwned_canon _ _ _ _ _ h
        · injection e with e; subst e; exact h
        · simp [notEnabled] at e

theorem execMxAccept_canon (core : Nat) (s : State)  (h_s : memWf s.mem = true) :
    ∀ s', execMxAccept core s = .next s' → memWf s'.mem = true := by
  intro s' e
  unfold execMxAccept at e
  try dsimp only at e
  repeat' split at e
  all_goals first | (simp [notEnabled] at e; done) | (injection e with e; subst e; simp (maxDischargeDepth := 60) +contextual [ite_canon, foldl_canon, foldlFst_canon, memWf_writeN, memWf_write, memWf_filter, memWf_del, notEnabled, engRead_canon, mxEnter_canon, mxFails_canon, notEnabled_canon, h_s])

theorem execMxCommandDone_canon (core : Nat) (s : State)  (h_s : memWf s.mem = true) :
    ∀ s', execMxCommandDone core s = .next s' → memWf s'.mem = true := by
  intro s' e
  unfold execMxCommandDone at e
  try dsimp only at e
  repeat' split at e
  all_goals first | (simp [notEnabled] at e; done) | (injection e with e; subst e; simp (maxDischargeDepth := 60) +contextual [ite_canon, foldl_canon, foldlFst_canon, memWf_writeN, memWf_write, memWf_filter, memWf_del, notEnabled, State.modCore_canon, mxMod_canon, mxOperands_canon, notEnabled_canon, settleBatches_canon, h_s])

theorem execMxOperandFault_canon (core : Nat) (s : State)  (h_s : memWf s.mem = true) :
    ∀ s', execMxOperandFault core s = .next s' → memWf s'.mem = true := by
  intro s' e
  unfold execMxOperandFault at e
  try dsimp only at e
  repeat' split at e
  all_goals first | (simp [notEnabled] at e; done) | (injection e with e; subst e; simp (maxDischargeDepth := 60) +contextual [ite_canon, foldl_canon, foldlFst_canon, memWf_writeN, memWf_write, memWf_filter, memWf_del, notEnabled, mxOperands_canon, notEnabled_canon, taskKill_canon, h_s])

theorem cpFails_canon (s : State) (core : Nat) (m : CpCmd) (cause : Nat) (faddr : DWord)  (h_s : memWf s.mem = true) :
    memWf (cpFails s core m cause faddr).mem = true := by
  unfold cpFails
  simp (maxDischargeDepth := 60) +contextual [ite_canon, foldl_canon, foldlFst_canon, memWf_writeN, memWf_write, memWf_filter, memWf_del, notEnabled, cpDrop_canon, failOp_canon, h_s]

theorem cpTake_canon (s : State) (core : Nat) (m : CpCmd) (h_s : memWf s.mem = true) :
    ∀ s', cpTake s core m = .next s' → memWf s'.mem = true := by
  intro s' e
  unfold cpTake at e
  dsimp only at e
  split at e
  · injection e with e; subst e; exact cpFails_canon _ _ _ _ _ h_s
  · have h2 := destTranslate_canon s core (s.train m.train).ctx (s.train m.train).launch m.record.toNat m.id (destLines m) [] h_s
    generalize destTranslate s core (s.train m.train).ctx (s.train m.train).launch m.record.toNat m.id (destLines m) [] = q at h2 e
    split at e
    · injection e with e; subst e; exact cpFails_canon _ _ _ _ _ h2
    · injection e with e; subst e; exact h2
    · simp [notEnabled] at e
    · split at e
      · simp [notEnabled] at e
      · split at e
        · next e1 =>
          injection e with e; subst e
          exact cpEnter_canon _ _ _ _ (takeLines_canon _ _ _ h2 _ e1)
        · simp [notEnabled] at e

theorem execCpAccept_canon (core k : Nat) (s : State) (h_s : memWf s.mem = true) :
    ∀ s', execCpAccept core k s = .next s' → memWf s'.mem = true := by
  intro s' e
  unfold execCpAccept at e
  dsimp only at e
  split at e
  · simp [notEnabled] at e
  · next m _ =>
    split at e
    · simp [notEnabled] at e
    · have h := engRead_canon s core (s.train m.train).ctx (s.train m.train).launch true (metCommand m.id) m.record.toNat 64 h_s
      generalize engRead s core (s.train m.train).ctx (s.train m.train).launch true (metCommand m.id) m.record.toNat 64 = r at h e
      split at e
      · simp [notEnabled] at e
      · injection e with e; subst e; exact h
      · injection e with e; subst e; exact cpFails_canon _ _ _ _ _ h
      · exact cpTake_canon _ _ _ h _ e

theorem execCpCommandDone_canon (core : Nat) (s : State)  (h_s : memWf s.mem = true) :
    ∀ s', execCpCommandDone core s = .next s' → memWf s'.mem = true := by
  intro s' e
  unfold execCpCommandDone at e
  try dsimp only at e
  repeat' split at e
  all_goals first | (simp [notEnabled] at e; done) | (injection e with e; subst e; simp (maxDischargeDepth := 60) +contextual [ite_canon, foldl_canon, foldlFst_canon, memWf_writeN, memWf_write, memWf_filter, memWf_del, notEnabled, cpCounter_canon, cpDrop_canon, cpStopped_canon, notEnabled_canon, h_s])

theorem execCpFault_canon (core : Nat) (s : State)  (h_s : memWf s.mem = true) :
    ∀ s', execCpFault core s = .next s' → memWf s'.mem = true := by
  intro s' e
  unfold execCpFault at e
  try dsimp only at e
  repeat' split at e
  all_goals first | (simp [notEnabled] at e; done) | (injection e with e; subst e; simp (maxDischargeDepth := 60) +contextual [ite_canon, foldl_canon, foldlFst_canon, memWf_writeN, memWf_write, memWf_filter, memWf_del, notEnabled, cpCounter_canon, cpStop_canon, cpStopped_canon, notEnabled_canon, h_s])

theorem execEscapementArrival_canon (t : Nat) (seq : Nat) (s : State)  (h_s : memWf s.mem = true) :
    ∀ s', execEscapementArrival t seq s = .next s' → memWf s'.mem = true := by
  intro s' e
  unfold execEscapementArrival at e
  try dsimp only at e
  repeat' split at e
  all_goals first | (simp [notEnabled] at e; done) | (injection e with e; subst e; simp (maxDischargeDepth := 60) +contextual [ite_canon, foldl_canon, foldlFst_canon, memWf_writeN, memWf_write, memWf_filter, memWf_del, notEnabled, escArrive_canon, notEnabled_canon, h_s])

theorem execPushWatchdogExpiry_canon (t : Nat) (seq : Nat) (s : State)  (h_s : memWf s.mem = true) :
    ∀ s', execPushWatchdogExpiry t seq s = .next s' → memWf s'.mem = true := by
  intro s' e
  unfold execPushWatchdogExpiry at e
  try dsimp only at e
  repeat' split at e
  all_goals first | (simp [notEnabled] at e; done) | (injection e with e; subst e; simp (maxDischargeDepth := 60) +contextual [ite_canon, foldl_canon, foldlFst_canon, memWf_writeN, memWf_write, memWf_filter, memWf_del, notEnabled, failOp_canon, notEnabled_canon, h_s])

theorem execTokenAcceptance_canon (t : Nat) (seq : Nat) (s : State)  (h_s : memWf s.mem = true) :
    ∀ s', execTokenAcceptance t seq s = .next s' → memWf s'.mem = true := by
  intro s' e
  unfold execTokenAcceptance at e
  try dsimp only at e
  repeat' split at e
  all_goals first | (simp [notEnabled] at e; done) | (injection e with e; subst e; simp (maxDischargeDepth := 60) +contextual [ite_canon, foldl_canon, foldlFst_canon, memWf_writeN, memWf_write, memWf_filter, memWf_del, notEnabled, acceptCfg_canon, acceptDone_canon, acceptIn_canon, notEnabled_canon, h_s])

theorem execQueueFiring_canon (die : Nat) (s : State)  (h_s : memWf s.mem = true) :
    ∀ s', execQueueFiring die s = .next s' → memWf s'.mem = true := by
  intro s' e
  unfold execQueueFiring at e
  try dsimp only at e
  repeat' split at e
  all_goals first | (simp [notEnabled] at e; done) | (injection e with e; subst e; simp (maxDischargeDepth := 60) +contextual [ite_canon, foldl_canon, foldlFst_canon, memWf_writeN, memWf_write, memWf_filter, memWf_del, notEnabled, launchFail_canon, metMissing_canon, notEnabled_canon, placeTask_canon, queuePut_canon, readBack_canon, typeEntry_canon, h_s])

theorem forcedFiring_canon (die : Nat) (s : State) (h_s : memWf s.mem = true) :
    ∀ s', forcedFiring die s = .next s' → memWf s'.mem = true := by
  intro s' e
  unfold forcedFiring at e
  dsimp only at e
  split at e
  · next s1 e1 =>
    injection e with e; subst e
    exact State.modDie_canon _ _ _ (execQueueFiring_canon _ _ h_s _ e1)
  · injection e with e; subst e
    exact State.modDie_canon _ _ _ h_s

end Sys2Proof.Machine
end

