-- ==== Sys2Proof/Laws/CanonEvFabric.lean ====
section
/-! SUPPORT. Memory stays canonical through every operation of `EvFabric`. -/

set_option linter.all false

namespace Sys2Proof.Machine
open Sys2Proof

theorem remotePage_canon (s : State) (va : Nat) (acc : Acc)  (h_s : memWf s.mem = true) :
    memWf (remotePage s va acc).1.mem = true := by
  unfold remotePage
  try dsimp only
  repeat' split
  all_goals simp (maxDischargeDepth := 60) +contextual [ite_canon, foldl_canon, foldlFst_canon, memWf_writeN, memWf_write, memWf_filter, memWf_del, notEnabled, translateSettled_canon, walk_canon, h_s]

theorem remotePlace_canon (s : State) (va : Nat) (acc : Acc)  (h_s : memWf s.mem = true) :
    memWf (remotePlace s va acc).1.mem = true := by
  unfold remotePlace
  try dsimp only
  repeat' split
  all_goals simp (maxDischargeDepth := 60) +contextual [ite_canon, foldl_canon, foldlFst_canon, memWf_writeN, memWf_write, memWf_filter, memWf_del, notEnabled, remotePage_canon, h_s]

theorem outerLine_canon (s : State) (core : Option Nat) (line : Nat) (b : SMap Byte)  (h_s : memWf s.mem = true) :
    memWf (outerLine s core line b).mem = true := by
  unfold outerLine
  simp (maxDischargeDepth := 60) +contextual [ite_canon, foldl_canon, foldlFst_canon, memWf_writeN, memWf_write, memWf_filter, memWf_del, notEnabled, settleAll_canon, storeHome_canon, h_s]

theorem outerWrite_canon (s : State) (core : Option Nat) (pa : Nat) (bs : List Byte)  (h_s : memWf s.mem = true) :
    memWf (outerWrite s core pa bs).mem = true := by
  unfold outerWrite
  simp (maxDischargeDepth := 60) +contextual [ite_canon, foldl_canon, foldlFst_canon, memWf_writeN, memWf_write, memWf_filter, memWf_del, notEnabled, physWrite_canon, h_s]

theorem outerRead_canon (s : State) (core : Option Nat) (line : Nat) (units : List (Nat × List Byte))  (h_s : memWf s.mem = true) :
    memWf (outerRead s core line units).mem = true := by
  unfold outerRead
  try dsimp only
  split <;> simp (maxDischargeDepth := 60) +contextual [ite_canon, foldl_canon, foldlFst_canon, memWf_writeN, memWf_write, memWf_filter, memWf_del, notEnabled, raiseLt_canon, sawHandOvers_canon, h_s]

theorem performPair_canon (s : State) (core : Option Nat) (names : List (DWord × Nat)) (va : Nat) (aux : Nat) (data : List Byte) (f : DWord → DWord) (hands : Bool)  (h_s : memWf s.mem = true) :
    memWf (performPair s core names va aux data f hands).1.mem = true := by
  unfold performPair
  try dsimp only
  repeat' split
  all_goals simp (maxDischargeDepth := 60) +contextual [ite_canon, foldl_canon, foldlFst_canon, memWf_writeN, memWf_write, memWf_filter, memWf_del, notEnabled, namesLogged_canon, outerWrite_canon, physRead_canon, remotePlace_canon, h_s]

theorem performRemote_canon (s : State) (core : Option Nat) (names : List (DWord × Nat)) (src : Nat) (kind : ReqKind) (l : Accs) (aux : DWord)  (h_s : memWf s.mem = true) :
    memWf (performRemote s core names src kind l aux).1.mem = true := by
  unfold performRemote
  try dsimp only
  repeat' split
  all_goals simp (maxDischargeDepth := 60) +contextual [ite_canon, foldl_canon, foldlFst_canon, memWf_writeN, memWf_write, memWf_filter, memWf_del, notEnabled, State.fresh_canon, acceptToken_canon, namesLogged_canon, outerLine_canon, outerRead_canon, performPair_canon, remotePlace_canon, sawHandOver_canon, settleRead_canon, h_s]

theorem cacheReply_canon (s : State) (e : ReplyEntry)  (h_s : memWf s.mem = true) :
    memWf (cacheReply s e).mem = true := by
  unfold cacheReply
  try dsimp only
  split <;> simp (maxDischargeDepth := 60) +contextual [ite_canon, foldl_canon, foldlFst_canon, memWf_writeN, memWf_write, memWf_filter, memWf_del, notEnabled, h_s]

theorem freeReplies_canon (s : State) (r : FabReq)  (h_s : memWf s.mem = true) :
    memWf (freeReplies s r).mem = true := by
  unfold freeReplies
  simp (maxDischargeDepth := 60) +contextual [ite_canon, foldl_canon, foldlFst_canon, memWf_writeN, memWf_write, memWf_filter, memWf_del, notEnabled, h_s]

theorem countR_canon (s : State) (r : FabReq)  (h_s : memWf s.mem = true) :
    memWf (countR s r).mem = true := by
  unfold countR
  simp (maxDischargeDepth := 60) +contextual [ite_canon, foldl_canon, foldlFst_canon, memWf_writeN, memWf_write, memWf_filter, memWf_del, notEnabled, h_s]

theorem emit_canon (s : State) (o : Out)  (h_s : memWf s.mem = true) :
    memWf (emit s o).mem = true := by
  unfold emit
  simp (maxDischargeDepth := 60) +contextual [ite_canon, foldl_canon, foldlFst_canon, memWf_writeN, memWf_write, memWf_filter, memWf_del, notEnabled, h_s]

theorem pinLanes_canon (s : State)  (h_s : memWf s.mem = true) :
    memWf (pinLanes s).mem = true := by
  unfold pinLanes
  try dsimp only
  repeat' first | assumption | (with_reducible refine foldl_canon _ (fun s x hs => ?_) ?_) | (with_reducible apply ite_canon) | (with_reducible apply memWf_writeN) | (with_reducible apply memWf_write) | (with_reducible apply memWf_filter) | (with_reducible apply memWf_del) | (with_reducible apply h_s) | split | (dsimp only)
  all_goals (try simp (maxDischargeDepth := 60) +contextual [*, ite_canon, foldl_canon, foldlFst_canon, memWf_writeN, memWf_write, memWf_filter, memWf_del, notEnabled, h_s])

theorem freeLanes_canon (s : State)  (h_s : memWf s.mem = true) :
    memWf (freeLanes s).mem = true := by
  unfold freeLanes
  simp (maxDischargeDepth := 60) +contextual [ite_canon, foldl_canon, foldlFst_canon, memWf_writeN, memWf_write, memWf_filter, memWf_del, notEnabled, h_s]

theorem finishOut_canon (s : State) (rid : Nat)  (h_s : memWf s.mem = true) :
    memWf (finishOut s rid).mem = true := by
  unfold finishOut
  simp (maxDischargeDepth := 60) +contextual [ite_canon, foldl_canon, foldlFst_canon, memWf_writeN, memWf_write, memWf_filter, memWf_del, notEnabled, freeLanes_canon, h_s]

theorem writebackFails_canon (s : State) (d : Nat) (key : Nat) (m : BitVec 128) (data : List Byte) (addr : Nat)  (h_s : memWf s.mem = true) :
    memWf (writebackFails s d key m data addr).mem = true := by
  unfold writebackFails
  try dsimp only
  split <;> simp (maxDischargeDepth := 60) +contextual [ite_canon, foldl_canon, foldlFst_canon, memWf_writeN, memWf_write, memWf_filter, memWf_del, notEnabled, State.modDie_canon, rdcInstall_canon, rdcPut_canon, trace_canon, h_s]

theorem answerWriteback_canon (s : State) (r : OutReq) (m : BitVec 128) (a : FabAns)  (h_s : memWf s.mem = true) :
    memWf (answerWriteback s r m a).mem = true := by
  unfold answerWriteback
  try dsimp only
  repeat' split
  all_goals simp (maxDischargeDepth := 60) +contextual [ite_canon, foldl_canon, foldlFst_canon, memWf_writeN, memWf_write, memWf_filter, memWf_del, notEnabled, rdcDrop_canon, rdcPut_canon, writebackFails_canon, h_s]

theorem failRemote_canon (s : State) (t : Nat) (seq : Nat) (c : Nat) (addr : DWord)  (h_s : memWf s.mem = true) :
    memWf (failRemote s t seq c addr).mem = true := by
  unfold failRemote
  simp (maxDischargeDepth := 60) +contextual [ite_canon, foldl_canon, foldlFst_canon, memWf_writeN, memWf_write, memWf_filter, memWf_del, notEnabled, State.modThread_canon, failOp_canon, h_s]

theorem walkedOne_canon (a : FabAns) (s : State) (x : Nat × BitVec 16)  (h_s : memWf s.mem = true) :
    memWf (walkedOne a s x).mem = true := by
  unfold walkedOne
  try dsimp only
  repeat' split
  all_goals simp (maxDischargeDepth := 60) +contextual [ite_canon, foldl_canon, foldlFst_canon, memWf_writeN, memWf_write, memWf_filter, memWf_del, notEnabled, failRemote_canon, resolveOp_canon, h_s]

theorem answerAperture_canon (s : State) (t : Nat) (o : Op) (dst : Nat) (a : FabAns)  (h_s : memWf s.mem = true) :
    memWf (answerAperture s t o dst a).mem = true := by
  unfold answerAperture
  try dsimp only
  repeat' split
  all_goals simp (maxDischargeDepth := 60) +contextual [ite_canon, foldl_canon, foldlFst_canon, memWf_writeN, memWf_write, memWf_filter, memWf_del, notEnabled, State.modThread_canon, deliver_canon, failRemote_canon, resolveOp_canon, h_s]

theorem answerLane_canon (r : OutReq) (s : State) (x : (Nat × BitVec 16) × FabAns)  (h_s : memWf s.mem = true) :
    memWf (answerLane r s x).mem = true := by
  unfold answerLane
  try dsimp only
  repeat' split
  all_goals simp (maxDischargeDepth := 60) +contextual [ite_canon, foldl_canon, foldlFst_canon, memWf_writeN, memWf_write, memWf_filter, memWf_del, notEnabled, answerAperture_canon, deliver_canon, failRemote_canon, resolveOp_canon, h_s]

theorem answerLanes_canon (s : State) (r : OutReq) (a : FabAns)  (h_s : memWf s.mem = true) :
    memWf (answerLanes s r a).mem = true := by
  unfold answerLanes
  simp (maxDischargeDepth := 60) +contextual [ite_canon, foldl_canon, foldlFst_canon, memWf_writeN, memWf_write, memWf_filter, memWf_del, notEnabled, answerLane_canon, h_s]

theorem answerFill_canon (s : State) (r : OutReq) (a : FabAns)  (h_s : memWf s.mem = true) :
    memWf (answerFill s r a).mem = true := by
  unfold answerFill
  try dsimp only
  split <;> simp (maxDischargeDepth := 60) +contextual [ite_canon, foldl_canon, foldlFst_canon, memWf_writeN, memWf_write, memWf_filter, memWf_del, notEnabled, answerLanes_canon, rdcInstall_canon, h_s]

theorem hostLane_canon (d : Nat) (key : Nat) (b : List Byte) (s : State) (x : Nat × BitVec 16)  (h_s : memWf s.mem = true) :
    memWf (hostLane d key b s x).mem = true := by
  unfold hostLane
  try dsimp only
  repeat' split
  all_goals simp (maxDischargeDepth := 60) +contextual [ite_canon, foldl_canon, foldlFst_canon, memWf_writeN, memWf_write, memWf_filter, memWf_del, notEnabled, deliver_canon, resolveOp_canon, sendOut_canon, storeCopy_canon, h_s]

theorem answerHostLine_canon (s : State) (r : OutReq) (d : Nat) (key : Nat) (b : List Byte)  (h_s : memWf s.mem = true) :
    memWf (answerHostLine s r d key b).mem = true := by
  unfold answerHostLine
  simp (maxDischargeDepth := 60) +contextual [ite_canon, foldl_canon, foldlFst_canon, memWf_writeN, memWf_write, memWf_filter, memWf_del, notEnabled, hostLane_canon, hostTake_canon, rdcInstall_canon, h_s]

theorem answerHostAtomic_canon (s : State) (r : OutReq) (op : BitVec 4) (w64 : Bool) (b : List Byte) (h_s : memWf s.mem = true) :
    memWf (answerHostAtomic s r op w64 b).mem = true := by
  have h : memWf (hostTake s 0 (hostKey r.va) true).fresh.mem = true := State.fresh_canon _ (hostTake_canon _ _ _ _ h_s)
  unfold answerHostAtomic
  dsimp only
  generalize (hostTake s 0 (hostKey r.va) true).fresh = x at h ⊢
  refine answerLanes_canon _ _ _ (namesLogged_canon _ _ _ ?_)
  exact ite_canon (sendOut_canon _ _ h) (ite_canon (rdcInstall_canon _ _ _ _ h) (sendOut_canon _ _ (rdcInstall_canon _ _ _ _ h)))

theorem answerOut_canon (s : State) (rid : Nat) (r : OutReq) (a : FabAns) (h_s : memWf s.mem = true) :
    memWf (answerOut s rid r a).mem = true := by
  have h := finishOut_canon s rid h_s
  have hl := answerLanes_canon _ r a h
  unfold answerOut
  dsimp only
  generalize finishOut s rid = x at h hl ⊢
  apply pump_canon
  generalize answerLanes x r = f at hl ⊢
  rcases r.kind with _ | _ | _ | ⟨op, w64⟩ | m | _ | _ | _ <;> rcases a with b | b | b <;> first
    | exact hl
    | exact foldl_canon _ (fun s x hs => walkedOne_canon _ _ _ hs) (answerWriteback_canon _ _ _ _ h)
    | skip
  · dsimp only
    split
    · exact answerHostAtomic_canon _ _ _ _ _ h
    · exact hl
  · dsimp only
    split
    · exact answerHostLine_canon _ _ _ _ _ h
    · exact answerFill_canon _ _ _ h

theorem bindReads_canon (s : State) (rid : Nat) (r : OutReq)  (h_s : memWf s.mem = true) :
    memWf (bindReads s rid r).mem = true := by
  unfold bindReads
  simp (maxDischargeDepth := 60) +contextual [ite_canon, foldl_canon, foldlFst_canon, memWf_writeN, memWf_write, memWf_filter, memWf_del, notEnabled, State.modThread_canon, pump_canon, h_s]

theorem answerFlits_canon (s : State) (r : OutReq) (a : FabAns)  (h_s : memWf s.mem = true) :
    memWf (answerFlits s r a).mem = true := by
  unfold answerFlits
  simp (maxDischargeDepth := 60) +contextual [ite_canon, foldl_canon, foldlFst_canon, memWf_writeN, memWf_write, memWf_filter, memWf_del, notEnabled, receiveFlits_canon, h_s]

theorem rebindLane_canon (s : State) (lane : Nat)  (h_s : memWf s.mem = true) :
    memWf (rebindLane s lane).mem = true := by
  unfold rebindLane
  try dsimp only
  split <;> simp (maxDischargeDepth := 60) +contextual [ite_canon, foldl_canon, foldlFst_canon, memWf_writeN, memWf_write, memWf_filter, memWf_del, notEnabled, h_s]

theorem linkDown_canon (s : State) (a : Nat) (b : Nat)  (h_s : memWf s.mem = true) :
    memWf (linkDown s a b).mem = true := by
  unfold linkDown
  try dsimp only
  split <;> simp (maxDischargeDepth := 60) +contextual [ite_canon, foldl_canon, foldlFst_canon, memWf_writeN, memWf_write, memWf_filter, memWf_del, notEnabled, emit_canon, fabLinkPut_canon, pinLanes_canon, rebindLane_canon, sendHeld_canon, h_s]

theorem linkUp_canon (s : State) (a : Nat) (b : Nat)  (h_s : memWf s.mem = true) :
    memWf (linkUp s a b).mem = true := by
  unfold linkUp
  try dsimp only
  split <;> simp (maxDischargeDepth := 60) +contextual [ite_canon, foldl_canon, foldlFst_canon, memWf_writeN, memWf_write, memWf_filter, memWf_del, notEnabled, fabLinkPut_canon, pinLanes_canon, sendHeld_canon, h_s]

theorem inboundPieces_canon (s : State) (w : BitVec 128) (acc : Acc) (off : Nat) (len : Nat)  (h_s : memWf s.mem = true) :
    memWf (inboundPieces s w acc off len).1.mem = true := by
  unfold inboundPieces
  simp (maxDischargeDepth := 60) +contextual [ite_canon, foldl_canon, foldlFst_canon, memWf_writeN, memWf_write, memWf_filter, memWf_del, notEnabled, transPieces_canon, h_s]

theorem snoop_canon (name : String) (drops keeps : Bool) (line : Nat) (s : State) (h_s : memWf s.mem = true) :
    ∀ s', snoop name drops keeps line s = .next s' → memWf s'.mem = true := by
  intro s' e
  unfold snoop at e
  dsimp only at e
  split at e
  · simp [notEnabled] at e
  · split at e
    · injection e with e; subst e; exact emit_canon _ _ h_s
    · injection e with e; subst e
      refine emit_canon _ _ (foldl_canon _ (fun s x hs => ?_) h_s)
      split
      · exact rdcDrop_canon _ _ _ hs
      · exact rdcPut_canon _ _ _ _ hs

theorem reqDone_canon (s : State) (r : FabReq) (a : FabAns)  (h_s : memWf s.mem = true) :
    memWf (reqDone s r a).mem = true := by
  unfold reqDone
  simp (maxDischargeDepth := 60) +contextual [ite_canon, foldl_canon, foldlFst_canon, memWf_writeN, memWf_write, memWf_filter, memWf_del, notEnabled, cacheReply_canon, countR_canon, h_s]

theorem sendAnswer_canon (s : State) (r : FabReq) (type : FlitType) (bytes : List Byte) (o : Out)  (h_s : memWf s.mem = true) :
    memWf (sendAnswer s r type bytes o).mem = true := by
  unfold sendAnswer
  simp (maxDischargeDepth := 60) +contextual [ite_canon, foldl_canon, foldlFst_canon, memWf_writeN, memWf_write, memWf_filter, memWf_del, notEnabled, emit_canon, sendFlits_canon, h_s]

theorem answerTo_canon (s : State) (r : FabReq) (a : FabAns)  (h_s : memWf s.mem = true) :
    memWf (answerTo s r a).mem = true := by
  unfold answerTo
  simp (maxDischargeDepth := 60) +contextual [ite_canon, foldl_canon, foldlFst_canon, memWf_writeN, memWf_write, memWf_filter, memWf_del, notEnabled, sendAnswer_canon, h_s]

theorem reqArrives_canon (r : FabReq) (s : State)  (h_s : memWf s.mem = true) :
    ∀ s', reqArrives r s = .next s' → memWf s'.mem = true := by
  intro s' e
  unfold reqArrives at e
  try dsimp only at e
  repeat' split at e
  all_goals first | (simp [notEnabled] at e; done) | (injection e with e; subst e; simp (maxDischargeDepth := 60) +contextual [ite_canon, foldl_canon, foldlFst_canon, memWf_writeN, memWf_write, memWf_filter, memWf_del, notEnabled, answerTo_canon, countR_canon, freeReplies_canon, notEnabled_canon, performRemote_canon, receiveFlits_canon, reqDone_canon, sendAnswer_canon, h_s])

theorem refusedOut_canon (s : State) (rid : Nat) (r : OutReq)  (h_s : memWf s.mem = true) :
    memWf (refusedOut s rid r).mem = true := by
  unfold refusedOut
  simp (maxDischargeDepth := 60) +contextual [ite_canon, foldl_canon, foldlFst_canon, memWf_writeN, memWf_write, memWf_filter, memWf_del, notEnabled, answerOut_canon, finishOut_canon, sendOut_canon, h_s]

theorem reqLoops_canon (r : FabReq) (s : State)  (h_s : memWf s.mem = true) :
    ∀ s', reqLoops r s = .next s' → memWf s'.mem = true := by
  intro s' e
  unfold reqLoops at e
  try dsimp only at e
  repeat' split at e
  all_goals first | (simp [notEnabled] at e; done) | (injection e with e; subst e; simp (maxDischargeDepth := 60) +contextual [ite_canon, foldl_canon, foldlFst_canon, memWf_writeN, memWf_write, memWf_filter, memWf_del, notEnabled, answerOut_canon, countR_canon, notEnabled_canon, performRemote_canon, refusedOut_canon, reqDone_canon, h_s])

theorem execFabricRequest_canon (r : FabReq) (s : State) (h_s : memWf s.mem = true) :
    ∀ s', execFabricRequest r s = .next s' → memWf s'.mem = true := by
  intro s' e
  unfold execFabricRequest at e
  split at e
  · simp [notEnabled] at e
  · split at e
    · exact reqLoops_canon _ _ h_s _ e
    · split at e
      · simp [notEnabled] at e
      · exact reqArrives_canon _ _ h_s _ e

theorem execFabricReply_canon (rid : Nat) (ans : FabAns) (s : State)  (h_s : memWf s.mem = true) :
    ∀ s', execFabricReply rid ans s = .next s' → memWf s'.mem = true := by
  intro s' e
  unfold execFabricReply at e
  try dsimp only at e
  repeat' split at e
  all_goals first | (simp [notEnabled] at e; done) | (injection e with e; subst e; simp (maxDischargeDepth := 60) +contextual [ite_canon, foldl_canon, foldlFst_canon, memWf_writeN, memWf_write, memWf_filter, memWf_del, notEnabled, answerFlits_canon, answerOut_canon, bindReads_canon, notEnabled_canon, h_s])

theorem execFabricAcknowledgement_canon (rid : Nat) (ans : FabAns) (s : State)  (h_s : memWf s.mem = true) :
    ∀ s', execFabricAcknowledgement rid ans s = .next s' → memWf s'.mem = true := by
  intro s' e
  unfold execFabricAcknowledgement at e
  try dsimp only at e
  repeat' split at e
  all_goals first | (simp [notEnabled] at e; done) | (injection e with e; subst e; simp (maxDischargeDepth := 60) +contextual [ite_canon, foldl_canon, foldlFst_canon, memWf_writeN, memWf_write, memWf_filter, memWf_del, notEnabled, answerFlits_canon, answerOut_canon, notEnabled_canon, h_s])

theorem execNoreply_canon (rid : Nat) (s : State)  (h_s : memWf s.mem = true) :
    ∀ s', execNoreply rid s = .next s' → memWf s'.mem = true := by
  intro s' e
  unfold execNoreply at e
  try dsimp only at e
  repeat' split at e
  all_goals first | (simp [notEnabled] at e; done) | (injection e with e; subst e; simp (maxDischargeDepth := 60) +contextual [ite_canon, foldl_canon, foldlFst_canon, memWf_writeN, memWf_write, memWf_filter, memWf_del, notEnabled, answerFlits_canon, notEnabled_canon, refusedOut_canon, h_s])

theorem execIdleFlit_canon (port : Nat) (ack : Nat) (s : State)  (h_s : memWf s.mem = true) :
    ∀ s', execIdleFlit port ack s = .next s' → memWf s'.mem = true := by
  intro s' e
  unfold execIdleFlit at e
  try dsimp only at e
  repeat' split at e
  all_goals first | (simp [notEnabled] at e; done) | (injection e with e; subst e; simp (maxDischargeDepth := 60) +contextual [ite_canon, foldl_canon, foldlFst_canon, memWf_writeN, memWf_write, memWf_filter, memWf_del, notEnabled, fabLinkPut_canon, notEnabled_canon, h_s])

theorem execFlitCrcFailure_canon (port : LinkLane) (s : State)  (h_s : memWf s.mem = true) :
    ∀ s', execFlitCrcFailure port s = .next s' → memWf s'.mem = true := by
  intro s' e
  unfold execFlitCrcFailure at e
  try dsimp only at e
  repeat' split at e
  all_goals first | (simp [notEnabled] at e; done) | (injection e with e; subst e; simp (maxDischargeDepth := 60) +contextual [ite_canon, foldl_canon, foldlFst_canon, memWf_writeN, memWf_write, memWf_filter, memWf_del, notEnabled, emit_canon, fabLinkPut_canon, notEnabled_canon, h_s])

theorem execSerialLaneRetirement_canon (port : LinkLane) (s : State)  (h_s : memWf s.mem = true) :
    ∀ s', execSerialLaneRetirement port s = .next s' → memWf s'.mem = true := by
  intro s' e
  unfold execSerialLaneRetirement at e
  try dsimp only at e
  repeat' split at e
  all_goals first | (simp [notEnabled] at e; done) | (injection e with e; subst e; simp (maxDischargeDepth := 60) +contextual [ite_canon, foldl_canon, foldlFst_canon, memWf_writeN, memWf_write, memWf_filter, memWf_del, notEnabled, fabLinkPut_canon, linkDown_canon, notEnabled_canon, h_s])

theorem execLinkRetrainComplete_canon (port : Nat) (s : State)  (h_s : memWf s.mem = true) :
    ∀ s', execLinkRetrainComplete port s = .next s' → memWf s'.mem = true := by
  intro s' e
  unfold execLinkRetrainComplete at e
  try dsimp only at e
  repeat' split at e
  all_goals first | (simp [notEnabled] at e; done) | (injection e with e; subst e; simp (maxDischargeDepth := 60) +contextual [ite_canon, foldl_canon, foldlFst_canon, memWf_writeN, memWf_write, memWf_filter, memWf_del, notEnabled, fabLinkPut_canon, notEnabled_canon, sendHeld_canon, h_s])

theorem dropLink_canon (port : Nat) (s : State)  (h_s : memWf s.mem = true) :
    ∀ s', dropLink port s = .next s' → memWf s'.mem = true := by
  intro s' e
  unfold dropLink at e
  try dsimp only at e
  repeat' split at e
  all_goals first | (simp [notEnabled] at e; done) | (injection e with e; subst e; simp (maxDischargeDepth := 60) +contextual [ite_canon, foldl_canon, foldlFst_canon, memWf_writeN, memWf_write, memWf_filter, memWf_del, notEnabled, linkDown_canon, h_s])

theorem execLinkDown_canon (a : Nat) (b : Nat) (s : State)  (h_s : memWf s.mem = true) :
    ∀ s', execLinkDown a b s = .next s' → memWf s'.mem = true := by
  intro s' e
  unfold execLinkDown at e
  try dsimp only at e
  repeat' split at e
  all_goals first | (simp [notEnabled] at e; done) | (injection e with e; subst e; simp (maxDischargeDepth := 60) +contextual [ite_canon, foldl_canon, foldlFst_canon, memWf_writeN, memWf_write, memWf_filter, memWf_del, notEnabled, linkDown_canon, notEnabled_canon, h_s])

theorem execLinkUp_canon (a : Nat) (b : Nat) (s : State)  (h_s : memWf s.mem = true) :
    ∀ s', execLinkUp a b s = .next s' → memWf s'.mem = true := by
  intro s' e
  unfold execLinkUp at e
  try dsimp only at e
  repeat' split at e
  all_goals first | (simp [notEnabled] at e; done) | (injection e with e; subst e; simp (maxDischargeDepth := 60) +contextual [ite_canon, foldl_canon, foldlFst_canon, memWf_writeN, memWf_write, memWf_filter, memWf_del, notEnabled, linkUp_canon, notEnabled_canon, h_s])

theorem execRemoteGiveUp_canon (rid : Nat) (s : State)  (h_s : memWf s.mem = true) :
    ∀ s', execRemoteGiveUp rid s = .next s' → memWf s'.mem = true := by
  intro s' e
  unfold execRemoteGiveUp at e
  try dsimp only at e
  repeat' split at e
  all_goals first | (simp [notEnabled] at e; done) | (injection e with e; subst e; simp (maxDischargeDepth := 60) +contextual [ite_canon, foldl_canon, foldlFst_canon, memWf_writeN, memWf_write, memWf_filter, memWf_del, notEnabled, answerOut_canon, notEnabled_canon, h_s])

theorem execReplyCacheExpiry_canon (src : Nat) (tag : Nat) (s : State)  (h_s : memWf s.mem = true) :
    ∀ s', execReplyCacheExpiry src tag s = .next s' → memWf s'.mem = true := by
  intro s' e
  unfold execReplyCacheExpiry at e
  try dsimp only at e
  repeat' split at e
  all_goals first | (simp [notEnabled] at e; done) | (injection e with e; subst e; simp (maxDischargeDepth := 60) +contextual [ite_canon, foldl_canon, foldlFst_canon, memWf_writeN, memWf_write, memWf_filter, memWf_del, notEnabled, notEnabled_canon, h_s])

theorem execTimeFlit_canon (value : Nat) (delay : Nat) (s : State)  (h_s : memWf s.mem = true) :
    ∀ s', execTimeFlit value delay s = .next s' → memWf s'.mem = true := by
  intro s' e
  unfold execTimeFlit at e
  try dsimp only at e
  repeat' split at e
  all_goals first | (simp [notEnabled] at e; done) | (injection e with e; subst e; simp (maxDischargeDepth := 60) +contextual [ite_canon, foldl_canon, foldlFst_canon, memWf_writeN, memWf_write, memWf_filter, memWf_del, notEnabled, emit_canon, notEnabled_canon, sendHeld_canon, h_s])

theorem execTimeBroadcast_canon (s : State)  (h_s : memWf s.mem = true) :
    ∀ s', execTimeBroadcast s = .next s' → memWf s'.mem = true := by
  intro s' e
  unfold execTimeBroadcast at e
  try dsimp only at e
  repeat' split at e
  all_goals first | (simp [notEnabled] at e; done) | (injection e with e; subst e; simp (maxDischargeDepth := 60) +contextual [ite_canon, foldl_canon, foldlFst_canon, memWf_writeN, memWf_write, memWf_filter, memWf_del, notEnabled, emit_canon, notEnabled_canon, h_s])

theorem execTimeFlitTimeout_canon (s : State)  (h_s : memWf s.mem = true) :
    ∀ s', execTimeFlitTimeout s = .next s' → memWf s'.mem = true := by
  intro s' e
  unfold execTimeFlitTimeout at e
  try dsimp only at e
  repeat' split at e
  all_goals first | (simp [notEnabled] at e; done) | (injection e with e; subst e; simp (maxDischargeDepth := 60) +contextual [ite_canon, foldl_canon, foldlFst_canon, memWf_writeN, memWf_write, memWf_filter, memWf_del, notEnabled, notEnabled_canon, h_s])

theorem execMigrationForwardEnd_canon (page : Nat) (s : State)  (h_s : memWf s.mem = true) :
    ∀ s', execMigrationForwardEnd page s = .next s' → memWf s'.mem = true := by
  intro s' e
  unfold execMigrationForwardEnd at e
  try dsimp only at e
  repeat' split at e
  all_goals first | (simp [notEnabled] at e; done) | (injection e with e; subst e; simp (maxDischargeDepth := 60) +contextual [ite_canon, foldl_canon, foldlFst_canon, memWf_writeN, memWf_write, memWf_filter, memWf_del, notEnabled, notEnabled_canon, h_s])

theorem execWritebackFailure_canon (rid : Nat) (cause : Nat) (s : State)  (h_s : memWf s.mem = true) :
    ∀ s', execWritebackFailure rid cause s = .next s' → memWf s'.mem = true := by
  intro s' e
  unfold execWritebackFailure at e
  try dsimp only at e
  repeat' split at e
  all_goals first | (simp [notEnabled] at e; done) | (injection e with e; subst e; simp (maxDischargeDepth := 60) +contextual [ite_canon, foldl_canon, foldlFst_canon, memWf_writeN, memWf_write, memWf_filter, memWf_del, notEnabled, answerWriteback_canon, finishOut_canon, notEnabled_canon, pump_canon, h_s])

theorem execSnpdata_canon (line : Nat) (s : State) (h_s : memWf s.mem = true) :
    ∀ s', execSnpdata line s = .next s' → memWf s'.mem = true := snoop_canon _ _ _ _ _ h_s

theorem execSnpinv_canon (line : Nat) (s : State) (h_s : memWf s.mem = true) :
    ∀ s', execSnpinv line s = .next s' → memWf s'.mem = true := snoop_canon _ _ _ _ _ h_s

theorem execSnpcur_canon (line : Nat) (s : State) (h_s : memWf s.mem = true) :
    ∀ s', execSnpcur line s = .next s' → memWf s'.mem = true := snoop_canon _ _ _ _ _ h_s

theorem execCxlResponse_canon (rid : Nat) (ans : FabAns) (s : State)  (h_s : memWf s.mem = true) :
    ∀ s', execCxlResponse rid ans s = .next s' → memWf s'.mem = true := by
  intro s' e
  unfold execCxlResponse at e
  try dsimp only at e
  repeat' split at e
  all_goals first | (simp [notEnabled] at e; done) | (injection e with e; subst e; simp (maxDischargeDepth := 60) +contextual [ite_canon, foldl_canon, foldlFst_canon, memWf_writeN, memWf_write, memWf_filter, memWf_del, notEnabled, answerOut_canon, bindReads_canon, notEnabled_canon, h_s])

theorem execHostInboundRead_canon (off : Nat) (len : Nat) (s : State)  (h_s : memWf s.mem = true) :
    ∀ s', execHostInboundRead off len s = .next s' → memWf s'.mem = true := by
  intro s' e
  unfold execHostInboundRead at e
  try dsimp only at e
  repeat' split at e
  all_goals first | (simp [notEnabled] at e; done) | (injection e with e; subst e; simp (maxDischargeDepth := 60) +contextual [ite_canon, foldl_canon, foldlFst_canon, memWf_writeN, memWf_write, memWf_filter, memWf_del, notEnabled, emit_canon, inboundPieces_canon, notEnabled_canon, physRead_canon, h_s])

theorem execHostInboundWrite_canon (off : Nat) (bytes : List Byte) (s : State)  (h_s : memWf s.mem = true) :
    ∀ s', execHostInboundWrite off bytes s = .next s' → memWf s'.mem = true := by
  intro s' e
  unfold execHostInboundWrite at e
  try dsimp only at e
  repeat' split at e
  all_goals first | (simp [notEnabled] at e; done) | (injection e with e; subst e; simp (maxDischargeDepth := 60) +contextual [ite_canon, foldl_canon, foldlFst_canon, memWf_writeN, memWf_write, memWf_filter, memWf_del, notEnabled, emit_canon, inboundPieces_canon, notEnabled_canon, outerWrite_canon, h_s])

end Sys2Proof.Machine
end

