-- ==== Sys2Proof/Laws/CanonEvSystem.lean ====
section
/-! SUPPORT. Memory stays canonical through every operation of `EvSystem`. -/

set_option linter.all false

namespace Sys2Proof.Machine
open Sys2Proof

theorem booted_canon (s : State) (img : Firmware)  (h_s : memWf s.mem = true) :
    memWf (booted s img).mem = true := by
  unfold booted
  simp (maxDischargeDepth := 60) +contextual [ite_canon, foldl_canon, foldlFst_canon, memWf_writeN, memWf_write, memWf_filter, memWf_del, notEnabled, h_s]

theorem afterReset_canon (s : State)  (h_s : memWf s.mem = true) :
    memWf (afterReset s).mem = true := by
  unfold afterReset
  simp (maxDischargeDepth := 60) +contextual [ite_canon, foldl_canon, foldlFst_canon, memWf_writeN, memWf_write, memWf_filter, memWf_del, notEnabled, h_s]

theorem bringHome_canon (s : State) (pa : Nat) (len : Nat)  (h_s : memWf s.mem = true) :
    memWf (bringHome s pa len).mem = true := by
  unfold bringHome
  simp (maxDischargeDepth := 60) +contextual [ite_canon, foldl_canon, foldlFst_canon, memWf_writeN, memWf_write, memWf_filter, memWf_del, notEnabled, dropPlain_canon, l2Evict_canon, settleAll_canon, h_s]

theorem followRange_canon (s : State) (src : Nat) (dst : Nat) (len : Nat)  (h_s : memWf s.mem = true) :
    memWf (followRange s src dst len).mem = true := by
  unfold followRange
  simp (maxDischargeDepth := 60) +contextual [ite_canon, foldl_canon, foldlFst_canon, memWf_writeN, memWf_write, memWf_filter, memWf_del, notEnabled, h_s]

theorem regionLeaves_canon (s : State) (ctx : Nat) (l : List Nat) (h_s : memWf s.mem = true) :
    ∀ r, regionLeaves s ctx l = some r → memWf r.1.mem = true := by
  induction l generalizing s with
  | nil =>
    intro r e
    simp only [regionLeaves, Option.some.injEq] at e
    subst e
    exact h_s
  | cons p l ih =>
    intro r e
    have h := walk_canon s ctx (p * 2 ^ 16) .read h_s
    simp only [regionLeaves] at e
    split at e
    · split at e
      · simp at e
      · split at e
        · next e1 =>
          simp only [Option.some.injEq] at e
          subst e
          have h1 := ih _ h _ e1
          exact h1
        · simp at e
    · simp at e

theorem importFlush_canon (s : State) (home : Nat) (va : Nat) (len : Nat)  (h_s : memWf s.mem = true) :
    memWf (importFlush s home va len).mem = true := by
  unfold importFlush
  try dsimp only
  repeat' first | assumption | (with_reducible refine foldl_canon _ (fun s x hs => ?_) ?_) | (with_reducible apply ite_canon) | (with_reducible apply memWf_writeN) | (with_reducible apply memWf_write) | (with_reducible apply memWf_filter) | (with_reducible apply memWf_del) | (with_reducible apply rdcEvict_canon) | (with_reducible apply h_s) | split | (dsimp only)
  all_goals (try simp (maxDischargeDepth := 60) +contextual [*, ite_canon, foldl_canon, foldlFst_canon, memWf_writeN, memWf_write, memWf_filter, memWf_del, notEnabled, rdcEvict_canon, h_s])

theorem switchLeaf_canon (s : State) (ctx : Nat) (rm : Nat) (x : DWord × Nat × Nat × Nat × Nat)  (h_s : memWf s.mem = true) :
    memWf (switchLeaf s ctx rm x).mem = true := by
  unfold switchLeaf
  simp (maxDischargeDepth := 60) +contextual [ite_canon, foldl_canon, foldlFst_canon, memWf_writeN, memWf_write, memWf_filter, memWf_del, notEnabled, dropPlain_canon, physWrite_canon, settleAll_canon, shootdown_canon, h_s]

theorem execJunction105c_canon (die : Nat) (s : State)  (h_s : memWf s.mem = true) :
    ∀ s', execJunction105c die s = .next s' → memWf s'.mem = true := by
  intro s' e
  unfold execJunction105c at e
  try dsimp only at e
  repeat' split at e
  all_goals first | (simp [notEnabled] at e; done) | (injection e with e; subst e; simp (maxDischargeDepth := 60) +contextual [ite_canon, foldl_canon, foldlFst_canon, memWf_writeN, memWf_write, memWf_filter, memWf_del, notEnabled, State.modDie_canon, notEnabled_canon, h_s])

theorem execThermalRecovery_canon (die : Nat) (s : State)  (h_s : memWf s.mem = true) :
    ∀ s', execThermalRecovery die s = .next s' → memWf s'.mem = true := by
  intro s' e
  unfold execThermalRecovery at e
  try dsimp only at e
  repeat' split at e
  all_goals first | (simp [notEnabled] at e; done) | (injection e with e; subst e; simp (maxDischargeDepth := 60) +contextual [ite_canon, foldl_canon, foldlFst_canon, memWf_writeN, memWf_write, memWf_filter, memWf_del, notEnabled, State.modDie_canon, notEnabled_canon, h_s])

theorem execJunction115c_canon (die : Nat) (s : State)  (h_s : memWf s.mem = true) :
    ∀ s', execJunction115c die s = .next s' → memWf s'.mem = true := by
  intro s' e
  unfold execJunction115c at e
  try dsimp only at e
  repeat' split at e
  all_goals first | (simp [notEnabled] at e; done) | (injection e with e; subst e; simp (maxDischargeDepth := 60) +contextual [ite_canon, foldl_canon, foldlFst_canon, memWf_writeN, memWf_write, memWf_filter, memWf_del, notEnabled, deviceLevelFault_canon, notEnabled_canon, h_s])

theorem execDeviceReset_canon (img : Firmware) (s : State)  (h_s : memWf s.mem = true) :
    ∀ s', execDeviceReset img s = .next s' → memWf s'.mem = true := by
  intro s' e
  unfold execDeviceReset at e
  try dsimp only at e
  repeat' split at e
  all_goals first | (simp [notEnabled] at e; done) | (injection e with e; subst e; simp (maxDischargeDepth := 60) +contextual [ite_canon, foldl_canon, foldlFst_canon, memWf_writeN, memWf_write, memWf_filter, memWf_del, notEnabled, afterReset_canon, booted_canon, h_s])

theorem execNewFirmwareImage_canon (img : Firmware) (s : State)  (h_s : memWf s.mem = true) :
    ∀ s', execNewFirmwareImage img s = .next s' → memWf s'.mem = true := by
  intro s' e
  unfold execNewFirmwareImage at e
  try dsimp only at e
  repeat' split at e
  all_goals first | (simp [notEnabled] at e; done) | (injection e with e; subst e; simp (maxDischargeDepth := 60) +contextual [ite_canon, foldl_canon, foldlFst_canon, memWf_writeN, memWf_write, memWf_filter, memWf_del, notEnabled, booted_canon, notEnabled_canon, h_s])

theorem execSetLease_canon (part : Nat) (die : Nat) (value : Nat) (s : State)  (h_s : memWf s.mem = true) :
    ∀ s', execSetLease part die value s = .next s' → memWf s'.mem = true := by
  intro s' e
  unfold execSetLease at e
  try dsimp only at e
  repeat' split at e
  all_goals first | (simp [notEnabled] at e; done) | (injection e with e; subst e; simp (maxDischargeDepth := 60) +contextual [ite_canon, foldl_canon, foldlFst_canon, memWf_writeN, memWf_write, memWf_filter, memWf_del, notEnabled, State.modDie_canon, notEnabled_canon, refuse_canon, h_s])

theorem readDie_canon (part : Nat) (die : Nat) (line : Option Nat) (s : State)  (h_s : memWf s.mem = true) :
    ∀ s', readDie part die line s = .next s' → memWf s'.mem = true := by
  intro s' e
  unfold readDie at e
  try dsimp only at e
  repeat' split at e
  all_goals first | (simp [notEnabled] at e; done) | (injection e with e; subst e; simp (maxDischargeDepth := 60) +contextual [ite_canon, foldl_canon, foldlFst_canon, memWf_writeN, memWf_write, memWf_filter, memWf_del, notEnabled, notEnabled_canon, refuse_canon, h_s])

theorem execReadCounters_canon (part : Nat) (what : Readout) (s : State) (h_s : memWf s.mem = true) :
    ∀ s', execReadCounters part what s = .next s' → memWf s'.mem = true := by
  intro s' e
  unfold execReadCounters at e
  split at e
  · split at e
    · simp [notEnabled] at e
    · split at e
      · injection e with e; subst e; exact refuse_canon _ h_s
      · injection e with e; subst e; exact h_s
  · split at e
    · simp [notEnabled] at e
    · injection e with e; subst e
      exact ite_canon h_s (refuse_canon _ h_s)
  · exact readDie_canon _ _ _ _ h_s _ e

theorem execSetHostWindow_canon (part : Nat) (ctx : Nat) (i : Nat) (value : BitVec 128) (s : State)  (h_s : memWf s.mem = true) :
    ∀ s', execSetHostWindow part ctx i value s = .next s' → memWf s'.mem = true := by
  intro s' e
  unfold execSetHostWindow at e
  try dsimp only at e
  repeat' split at e
  all_goals first | (simp [notEnabled] at e; done) | (injection e with e; subst e; simp (maxDischargeDepth := 60) +contextual [ite_canon, foldl_canon, foldlFst_canon, memWf_writeN, memWf_write, memWf_filter, memWf_del, notEnabled, notEnabled_canon, refuse_canon, h_s])

theorem execSetInboundWindow_canon (part : Nat) (i : Nat) (value : BitVec 128) (s : State)  (h_s : memWf s.mem = true) :
    ∀ s', execSetInboundWindow part i value s = .next s' → memWf s'.mem = true := by
  intro s' e
  unfold execSetInboundWindow at e
  try dsimp only at e
  repeat' split at e
  all_goals first | (simp [notEnabled] at e; done) | (injection e with e; subst e; simp (maxDischargeDepth := 60) +contextual [ite_canon, foldl_canon, foldlFst_canon, memWf_writeN, memWf_write, memWf_filter, memWf_del, notEnabled, notEnabled_canon, refuse_canon, h_s])

theorem forwardsDrop_canon (s : State) (pa : Nat) (len : Nat)  (h_s : memWf s.mem = true) :
    memWf (forwardsDrop s pa len).mem = true := by
  unfold forwardsDrop
  simp (maxDischargeDepth := 60) +contextual [ite_canon, foldl_canon, foldlFst_canon, memWf_writeN, memWf_write, memWf_filter, memWf_del, notEnabled, h_s]

theorem copyRange_canon (m : Memory) (a b n : Nat) (h : memWf m = true) : memWf (copyRange m a b n) = true := by
  unfold copyRange
  exact memWf_foldl _ (fun m b hm => memWf_write _ _ hm) _ (memWf_filter _ h)
theorem movePage_canon (s : State) (part ctx home frame entry src dst len : Nat) (e : DWord) (h_s : memWf s.mem = true) :
    memWf (movePage s part ctx home frame entry src dst len e).mem = true := by
  have h := discardLines_canon _ (fun l => decide (dst ≤ l * 128) && decide (l * 128 < dst + len)) (bringHome_canon s src len h_s)
  unfold movePage
  dsimp only
  generalize discardLines (bringHome s src len) (fun l => decide (dst ≤ l * 128) && decide (l * 128 < dst + len)) = x at h ⊢
  refine physWrite_canon _ _ _ _ ?_
  exact followRange_canon { x with mem := copyRange x.mem src dst len } src dst len (copyRange_canon _ _ _ _ h)

theorem execPageMigration_canon (part ctx page home frame : Nat) (s : State) (h_s : memWf s.mem = true) :
    ∀ s', execPageMigration part ctx page home frame s = .next s' → memWf s'.mem = true := by
  intro s' e
  have h := walk_canon s ctx (page * 2 ^ 16) .read h_s
  unfold execPageMigration at e
  dsimp only at e
  generalize walk s ctx (page * 2 ^ 16) .read = r at h e
  split at e
  · injection e with e; subst e
    exact refuse_canon _ h_s
  · split at e
    · next e0 entry big _ =>
      generalize (if big = true then 2 ^ 21 else 2 ^ 16) = len at e
      split at e
      · injection e with e; subst e
        exact refuse_canon _ h_s
      · split at e
        · simp [notEnabled] at e
        · injection e with e
          subst e
          exact forwardsDrop_canon _ (home * 2 ^ 32 + frame * 2 ^ 16) len (shootdown_canon _ _ _ _ _ (movePage_canon _ _ _ _ _ _ _ _ _ _ h))
    · simp [notEnabled] at e

theorem execRegionModeChange_canon (part ctx page count : Nat) (mode : RegionMode) (s : State) (h_s : memWf s.mem = true) :
    ∀ s', execRegionModeChange part ctx page count mode s = .next s' → memWf s'.mem = true := by
  intro s' e
  unfold execRegionModeChange at e
  dsimp only at e
  split at e
  · injection e with e; subst e
    exact refuse_canon _ h_s
  · split at e
    · simp [notEnabled] at e
    · split at e
      · split at e
        · injection e with e; subst e; exact h_s
        · split at e
          · simp [notEnabled] at e
          · injection e with e; subst e
            exact ite_canon (importFlush_canon _ _ _ _ h_s) (importFlush_canon _ _ _ _ h_s)
      · split at e
        · next e1 =>
          split at e
          · simp [notEnabled] at e
          · injection e with e; subst e
            exact foldl_canon _ (fun s x hs => switchLeaf_canon _ _ _ _ hs) (regionLeaves_canon _ _ _ h_s _ e1)
        · simp [notEnabled] at e

theorem execOwnerTagChange_canon (part : Nat) (home : Nat) (frame : Nat) (ctx : Nat) (s : State)  (h_s : memWf s.mem = true) :
    ∀ s', execOwnerTagChange part home frame ctx s = .next s' → memWf s'.mem = true := by
  intro s' e
  unfold execOwnerTagChange at e
  try dsimp only at e
  repeat' split at e
  all_goals first | (simp [notEnabled] at e; done) | (injection e with e; subst e; simp (maxDischargeDepth := 60) +contextual [ite_canon, foldl_canon, foldlFst_canon, memWf_writeN, memWf_write, memWf_filter, memWf_del, notEnabled, discardLines_canon, forwardsDrop_canon, notEnabled_canon, refuse_canon, h_s])

theorem execAttestationReport_canon (part : Nat) (nonce : BitVec 256) (s : State)  (h_s : memWf s.mem = true) :
    ∀ s', execAttestationReport part nonce s = .next s' → memWf s'.mem = true := by
  intro s' e
  unfold execAttestationReport at e
  try dsimp only at e
  repeat' split at e
  all_goals first | (simp [notEnabled] at e; done) | (injection e with e; subst e; simp (maxDischargeDepth := 60) +contextual [ite_canon, foldl_canon, foldlFst_canon, memWf_writeN, memWf_write, memWf_filter, memWf_del, notEnabled, refuse_canon, h_s])

theorem execRegisterWrite_canon (r : SysReg) (value : DWord) (s : State)  (h_s : memWf s.mem = true) :
    ∀ s', execRegisterWrite r value s = .next s' → memWf s'.mem = true := by
  intro s' e
  unfold execRegisterWrite at e
  try dsimp only at e
  repeat' split at e
  all_goals first | (simp [notEnabled] at e; done) | (injection e with e; subst e; simp (maxDischargeDepth := 60) +contextual [ite_canon, foldl_canon, foldlFst_canon, memWf_writeN, memWf_write, memWf_filter, memWf_del, notEnabled, State.modCore_canon, State.modThread_canon, notEnabled_canon, overflow_canon, refuse_canon, h_s])

end Sys2Proof.Machine
end

