-- ==== Sys2Proof/Laws/CanonLoadStore.lean ====
section
/-! SUPPORT. Memory stays canonical through every operation of `LoadStore`. -/

set_option linter.all false

namespace Sys2Proof.Machine
open Sys2Proof

theorem execLd_canon (o : BitVec 4) (w : BitVec 3) (p : BitVec 3) (a : BitVec 6) (d : BitVec 6) (sm : BitVec 1) (s : State)  (h_s : memWf s.mem = true) :
    ∀ s', execLd o w p a d sm s = .next s' → memWf s'.mem = true := by
  unfold execLd
  exact issueAccess_canon _ _ _ h_s (fun g s t hs => by first | exact memBody_canon _ _ _ _ _ _ _ hs | exact atomBody_canon _ _ _ _ _ _ hs | exact stfBody_canon _ _ _ _ _ _ _ _ hs)

theorem execLdSx_canon (o : BitVec 4) (w : BitVec 3) (p : BitVec 3) (a : BitVec 6) (d : BitVec 6) (sm : BitVec 1) (s : State)  (h_s : memWf s.mem = true) :
    ∀ s', execLdSx o w p a d sm s = .next s' → memWf s'.mem = true := by
  unfold execLdSx
  exact issueAccess_canon _ _ _ h_s (fun g s t hs => by first | exact memBody_canon _ _ _ _ _ _ _ hs | exact atomBody_canon _ _ _ _ _ _ hs | exact stfBody_canon _ _ _ _ _ _ _ _ hs)

theorem execSt_canon (o : BitVec 4) (w : BitVec 3) (p : BitVec 3) (a : BitVec 6) (d : BitVec 6) (sm : BitVec 1) (s : State)  (h_s : memWf s.mem = true) :
    ∀ s', execSt o w p a d sm s = .next s' → memWf s'.mem = true := by
  unfold execSt
  exact issueAccess_canon _ _ _ h_s (fun g s t hs => by first | exact memBody_canon _ _ _ _ _ _ _ hs | exact atomBody_canon _ _ _ _ _ _ hs | exact stfBody_canon _ _ _ _ _ _ _ _ hs)

theorem execLdS_canon (o : BitVec 4) (w : BitVec 3) (p : BitVec 3) (a : BitVec 6) (d : BitVec 6) (sm : BitVec 1) (s : State)  (h_s : memWf s.mem = true) :
    ∀ s', execLdS o w p a d sm s = .next s' → memWf s'.mem = true := by
  unfold execLdS
  exact issueAccess_canon _ _ _ h_s (fun g s t hs => by first | exact memBody_canon _ _ _ _ _ _ _ hs | exact atomBody_canon _ _ _ _ _ _ hs | exact stfBody_canon _ _ _ _ _ _ _ _ hs)

theorem execLdSxS_canon (o : BitVec 4) (w : BitVec 3) (p : BitVec 3) (a : BitVec 6) (d : BitVec 6) (sm : BitVec 1) (s : State)  (h_s : memWf s.mem = true) :
    ∀ s', execLdSxS o w p a d sm s = .next s' → memWf s'.mem = true := by
  unfold execLdSxS
  exact issueAccess_canon _ _ _ h_s (fun g s t hs => by first | exact memBody_canon _ _ _ _ _ _ _ hs | exact atomBody_canon _ _ _ _ _ _ hs | exact stfBody_canon _ _ _ _ _ _ _ _ hs)

theorem execStS_canon (o : BitVec 4) (w : BitVec 3) (p : BitVec 3) (a : BitVec 6) (d : BitVec 6) (sm : BitVec 1) (s : State)  (h_s : memWf s.mem = true) :
    ∀ s', execStS o w p a d sm s = .next s' → memWf s'.mem = true := by
  unfold execStS
  exact issueAccess_canon _ _ _ h_s (fun g s t hs => by first | exact memBody_canon _ _ _ _ _ _ _ hs | exact atomBody_canon _ _ _ _ _ _ hs | exact stfBody_canon _ _ _ _ _ _ _ _ hs)

end Sys2Proof.Machine
end

