-- ==== Sys2Proof/Laws/Issue.lean ====
section
/-! SUPPORT. What the issue of an instruction can do (R171, R183, R184, R188): the checks in the terms of `MayIssue`, a bundle of
threads, a fixed-latency effect and a result on its way. -/

namespace Sys2Proof.Machine
open Sys2Proof

theorem beyond_false (th : Thread) (n r : Nat) : beyond th.helper.isSome n r = false ↔ regExists th n r := by
  unfold beyond regExists
  cases th.helper.isSome
  · simp
  · simp; omega

theorem boundCheck_none (th : Thread) (n : Nat) (i : Instr) : boundCheck th n i = none ↔
    (∀ r ∈ (operands i).rd ++ (operands i).wr, regExists th n r) ∧ (th.helper.isSome = true → helperMay i) := by
  have hb : ((operands i).rd ++ (operands i).wr).any (beyond th.helper.isSome n) = false ↔
      ∀ r ∈ (operands i).rd ++ (operands i).wr, regExists th n r := by
    rw [List.any_eq_false]
    exact forall₂_congr fun r _ => by rw [← beyond_false, Bool.not_eq_true]
  rw [← hb]
  unfold boundCheck helperMay
  dsimp only
  generalize ((operands i).rd ++ (operands i).wr).any (beyond th.helper.isSome n) = c
  cases c
  · simp only [Bool.false_eq_true, if_false, true_and]
    cases th.helper.isSome
    · simp
    · simp only [if_true, forall_true_left]
      split
      · simp [not_or]
      · simp [not_or]
  · simp

theorem passMarker_pendG (i : Instr) (th : Thread) (k : Nat) : (passMarker i th).pendG.getLsbD k = meetsG th i k := by
  unfold passMarker meetsG
  cases (operands i).mark <;> simp [clearPending]
theorem passMarker_pendQ (i : Instr) (th : Thread) (k : Nat) : (passMarker i th).pendQ.getLsbD k = meetsQ th i k := by
  unfold passMarker meetsQ
  cases (operands i).mark <;> simp [clearPending]

theorem checkIssue_run_iff (th : Thread) (n : Nat) (i : Instr) : checkIssue th n i = .run ↔ MayIssue th n i := by
  have hp : checkIssue th n i = if (operands i).mark && outstanding th then .wait .results else
      match boundCheck (passMarker i th) n i with
      | some c => .trap c
      | none =>
        if (passMarker i th).pendQ.getLsbD ((operands i).guard.extractLsb' 1 3).toNat then .trap 2
        else if !guardHolds (passMarker i th) (operands i).guard then .skip
        else match pendingCheck (passMarker i th) (operands i) with
          | some c => .trap c
          | none => if (operands i).failable && windowFull (passMarker i th) then .wait .window else .run := rfl
  have hh : (passMarker i th).helper = th.helper := by unfold passMarker; split <;> rfl
  have hq : (passMarker i th).q = th.q := by unfold passMarker; split <;> rfl
  have hw : unresolved (passMarker i th) = unresolved th := by unfold passMarker; split <;> rfl
  have hbc : boundCheck (passMarker i th) n i = boundCheck th n i := by unfold boundCheck; rw [hh]
  have hg : guardHolds (passMarker i th) = guardHolds th := by unfold guardHolds getQ; rw [hq]
  have hpc : pendingCheck (passMarker i th) (operands i) = none ↔
      (∀ r ∈ (operands i).rd ++ (operands i).wr, meetsG th i r = false) ∧ ∀ q ∈ (operands i).prd ++ (operands i).pwr, meetsQ th i q = false := by
    unfold pendingCheck
    simp only [passMarker_pendG, passMarker_pendQ]
    split
    next h =>
      simp only [Bool.or_eq_true, List.any_eq_true] at h
      simp only [reduceCtorEq, false_iff, List.mem_append]
      rintro ⟨h1, h2⟩
      rcases h with ⟨r, hr, e⟩ | ⟨r, hr, e⟩
      · simp [h1 r (.inl hr)] at e
      · simp [h2 r (.inl hr)] at e
    next h =>
      simp only [Bool.or_eq_true, not_or, List.any_eq_true, not_exists, not_and, Bool.not_eq_true] at h
      split
      next h' =>
        simp only [Bool.or_eq_true, List.any_eq_true] at h'
        simp only [reduceCtorEq, false_iff, List.mem_append]
        rintro ⟨h1, h2⟩
        rcases h' with ⟨r, hr, e⟩ | ⟨r, hr, e⟩
        · simp [h1 r (.inr hr)] at e
        · simp [h2 r (.inr hr)] at e
      next h' =>
        simp only [Bool.or_eq_true, not_or, List.any_eq_true, not_exists, not_and, Bool.not_eq_true] at h'
        simp only [true_iff, List.mem_append]
        exact ⟨fun r hr => hr.elim (h.1 r) (h'.1 r), fun r hr => hr.elim (h.2 r) (h'.2 r)⟩
  rw [hp, hbc, hg, passMarker_pendQ]
  constructor
  · intro e
    split at e
    · simp at e
    next h1 =>
    split at e
    · simp at e
    next h2 =>
    split at e
    · simp at e
    next h3 =>
    split at e
    · simp at e
    next h4 =>
    split at e
    · simp at e
    next h5 =>
    split at e
    · simp at e
    next h6 =>
    rw [boundCheck_none] at h2
    rw [hpc] at h5
    exact {
      waits := fun hm => by simpa [hm] using h1
      bound := h2.1
      helper := h2.2
      guardReady := by simpa using h3
      guard := by simpa using h4
      regs := h5.1
      preds := h5.2
      window := fun hf => by simpa [hf, windowFull, hw] using h6 }
  · rintro ⟨h1, h2, h3, h4, h5, h6, h7, h8⟩
    rw [if_neg (by simpa using h1), (boundCheck_none th n i).2 ⟨h2, h3⟩]
    dsimp only
    rw [if_neg (by rw [h4]; decide), if_neg (by rw [h5]; decide), hpc.2 ⟨h6, h7⟩]
    dsimp only
    rw [if_neg (by simpa [windowFull, hw] using h8)]

/-! A bundle. -/

/-- A key deleted after it was put in. -/
theorem mapDel_ins {α : Type} (m : SMap α) (i : Nat) (x : α) : mapDel (mapIns m i x) i = mapDel m i := by
  induction m with
  | nil => simp [mapIns, mapDel]
  | cons p m ih =>
    simp only [mapIns]
    split
    · simp [mapDel]
    · simp only [mapDel, ih]
/-- The second of two values put at one key stands. -/
theorem mapSet_mapSet {α : Type} (m : SMap α) (i : Nat) (x y : α) : mapSet (mapSet m i x) i y = mapSet m i y := by
  unfold mapSet
  rw [mapDel_ins]
  congr 1
  induction m with
  | nil => rfl
  | cons p m ih => by_cases h : p.1 = i <;> simp [mapDel, h, ih]
/-- Two changes of one thread are one. -/
theorem State.modThread_modThread (s : State) (t : Nat) (f g : Thread → Thread) :
    (s.modThread t f).modThread t g = s.modThread t fun th => g (f th) := by
  unfold State.modThread State.setThread State.thread
  rw [mapGetD_set, if_pos rfl]
  simp only [mapSet_mapSet]

/-- A bundle of one thread issues. -/
theorem issueEach_alone (i : Instr) (body : State → Nat → State) (s : State) (t : Nat) (h : s.bundle = [t]) :
    issueEach i body s = .next { issueOne i body s t with bundle := [] } := by
  unfold issueEach
  rw [h]
  rfl
/-- A thread that may issue runs the body past its marker. -/
theorem issueOne_run (i : Instr) (body : State → Nat → State) (s : State) (t : Nat)
    (h : MayIssue (s.thread t) (s.trainOf t).regs i) : issueOne i body s t = body (s.modThread t (passMarker i)) t := by
  unfold issueOne
  rw [(checkIssue_run_iff _ _ _).2 h]
/-- One thread that may issue. -/
theorem issueEach_run (i : Instr) (body : State → Nat → State) (s : State) (t : Nat) (h : Alone s t i) :
    issueEach i body s = .next { body (s.modThread t (passMarker i)) t with bundle := [] } := by
  rw [issueEach_alone i body s t h.1, issueOne_run i body s t h.2]

/-- Threads changed one after the other, each once, by functions of themselves. -/
theorem foldl_modThread (g : State → Nat → State) (f : Thread → Thread) (l : List Nat) :
    ∀ (s : State), l.Nodup → (∀ t ∈ l, ∀ s' : State, s'.thread t = s.thread t → s'.trains = s.trains → g s' t = s'.modThread t f) →
      (l.foldl g s) = { s with threads := (l.foldl g s).threads } ∧
        (∀ u ∈ l, (l.foldl g s).thread u = f (s.thread u)) ∧ ∀ u, u ∉ l → (l.foldl g s).thread u = s.thread u := by
  induction l with
  | nil => exact fun s _ _ => ⟨rfl, by simp, by simp⟩
  | cons t l ih =>
    intro s hn hg
    have e := hg t (by simp) s rfl rfl
    have hn' := List.nodup_cons.1 hn
    have k := ih (g s t) hn'.2 (fun u hu s' h1 h2 => by
      have hne : u ≠ t := fun c => hn'.1 (c ▸ hu)
      refine hg u (by simp [hu]) s' ?_ ?_
      · rw [h1, e, State.thread_modThread, if_neg hne]
      · rw [h2, e]; rfl)
    obtain ⟨k1, k2, k3⟩ := k
    rw [List.foldl_cons]
    refine ⟨?_, ?_, ?_⟩
    · conv_lhs => rw [k1]
      rw [e]
      rfl
    · intro u hu
      rcases List.mem_cons.1 hu with c | c
      · rw [c, k3 t hn'.1, e, State.thread_modThread, if_pos rfl]
      · have hne : u ≠ t := fun d => hn'.1 (d ▸ c)
        rw [k2 u c, e, State.thread_modThread, if_neg hne]
    · intro u hu
      have h2 := List.not_mem_of_not_mem_cons hu
      have hne : u ≠ t := List.ne_of_not_mem_cons hu
      rw [k3 u h2, e, State.thread_modThread, if_neg hne]

/-- A change of threads by functions of themselves alone, over a bundle that may issue. -/
theorem issueEach_threads (i : Instr) (body : State → Nat → State) (f : Thread → Thread) (s : State) (h : Ready s i)
    (hb : ∀ (s' : State) (t : Nat), body s' t = s'.modThread t f) :
    ∃ t, issueEach i body s = .next t ∧ OnlyThreads s t ∧ EachThread s t fun th th' => th' = f (passMarker i th) := by
  have k := foldl_modThread (issueOne i body) (fun th => f (passMarker i th)) s.bundle s h.1 (fun t ht s' h1 h2 => by
    have hm := h.2 t ht
    rw [issueOne_run i body s' t (by unfold State.trainOf State.train at *; rw [h1, h2]; exact hm), hb]
    exact State.modThread_modThread _ _ _ _)
  obtain ⟨k1, k2, k3⟩ := k
  refine ⟨_, rfl, ⟨?_, ?_⟩, ⟨k2, k3⟩⟩
  · rw [k1]
  · intro a
    rw [k1]

/-- A fixed-latency instruction on the thread alone. -/
theorem issueEach_fixed (i : Instr) (f : Thread → Thread) (s : State) (h : Ready s i) :
    ∃ t, issueEach i (fixedBody i f) s = .next t ∧ OnlyThreads s t ∧ EachThread s t fun th th' => th' = past i (f (passMarker i th)) :=
  issueEach_threads i (fixedBody i f) (fun th => past i (f th)) s h fun _ _ => rfl
/-- A variable-latency instruction. -/
theorem issueEach_variable (i : Instr) (f : Thread → Result) (s : State) (h : Ready s i) :
    ∃ t, issueEach i (variableBody i f) s = .next t ∧ OnlyThreads s t ∧
      EachThread s t fun th th' => th' = past i (putResult (passMarker i th) (f (passMarker i th))) :=
  issueEach_threads i (variableBody i f) (fun th => past i (putResult th (f th))) s h fun _ _ => rfl

/-! What a thread is after its instruction. -/

/-- The marker passed: what changes. -/
theorem passMarker_eq (i : Instr) (th : Thread) :
    passMarker i th = { th with pendG := (issued i th th.pc).pendG, pendQ := (issued i th th.pc).pendQ } := by
  unfold passMarker issued clearPending
  split <;> simp [*]
theorem getG_passMarker (i : Instr) (th : Thread) (r : Nat) : getG (passMarker i th) r = getG th r := by rw [passMarker_eq]; rfl
theorem getX_passMarker (i : Instr) (th : Thread) (r : Nat) : getX (passMarker i th) r = getX th r := by rw [passMarker_eq]; rfl
theorem getQ_passMarker (i : Instr) (th : Thread) (q : Nat) : getQ (passMarker i th) q = getQ th q := by rw [passMarker_eq]; rfl
/-- A predicate after one is written. -/
theorem getQ_setQ (th : Thread) (i j : Nat) (v : Bool) (hi : i < 8) :
    getQ (setQ th i v) j = (decide (j = 0) || if j = i then v else getQ th j) := by
  unfold getQ setQ
  by_cases h : i = 0
  · subst h
    by_cases hj : j = 0 <;> simp [hj]
  · rw [if_neg h]
    by_cases hj : j = 0
    · simp [hj]
    · by_cases e : j = i
      · subst e
        cases v <;> simp [hj, hi]
      · by_cases hji : j < i
        · cases v
          · simp only [hj, e, hji, Bool.false_eq_true, if_false, BitVec.getLsbD_and, BitVec.getLsbD_not, BitVec.getLsbD_shiftLeft]
            simp only [decide_false, decide_true, Bool.not_true, Bool.and_false, Bool.false_and, Bool.not_false, Bool.and_true, Bool.false_or]
            by_cases hq : j < 8
            · simp [hq]
            · simp [BitVec.getLsbD_of_ge _ _ (Nat.le_of_not_lt hq)]
          · simp [hj, e, hji, BitVec.getLsbD_shiftLeft]
        · have : j - i ≠ 0 := by omega
          cases v
          · by_cases hq : j < 8
            · simp [hj, e, this, hq]
            · simp [hj, e, BitVec.getLsbD_of_ge _ _ (Nat.le_of_not_lt hq)]
          · simp [hj, e, this, BitVec.getLsbD_shiftLeft]
/-- A thread past its instruction that has written registers, predicates and flags. -/
theorem completed_of (i : Instr) (th x : Thread) (regs : List (Nat × Word)) (preds : List (Nat × Bool)) (flags : Word)
    (hx : x = { passMarker i th with g := x.g, q := x.q, fstat := x.fstat, flagsNow := x.flagsNow })
    (h1 : ∀ r, getG x r = mapGetD regs r (getG th r))
    (h2 : ∀ q, getQ x q = (decide (q = 0) || mapGetD preds q (getQ th q)))
    (h3 : x.fstat = th.fstat ||| flags) (h5 : x.flagsNow = th.flagsNow ||| flags) : Completed i th (past i x) (nextPc i th) regs preds flags := by
  refine ⟨h1, h2, h3, h5, ?_⟩
  rw [hx, passMarker_eq]
  rfl
/-- The registers after one is written, as a map laid over the others. -/
theorem getG_setG_map (th : Thread) (d r : Nat) (v : Word) : getG (setG th d v) r = mapGetD [(d, v)] r (getG th r) := by
  rw [getG_setG]
  unfold mapGetD
  simp only [mapGet?]
  by_cases h : r = d
  · rw [if_pos h, if_pos h.symm, Option.getD_some]
  · rw [if_neg h, if_neg (Ne.symm h), Option.getD_none]
/-- The registers after a pair is written. -/
theorem getG_setX_map (th : Thread) (d r : Nat) (v : DWord) :
    getG (setX th d v) r = mapGetD [(d, v.setWidth 32), (d + 1, v.extractLsb' 32 32)] r (getG th r) := by
  unfold setX mapGetD
  rw [getG_setG, getG_setG]
  simp only [mapGet?]
  by_cases h : r = d + 1
  · rw [if_pos h, if_neg (by omega), if_pos h.symm, Option.getD_some]
  · by_cases e : r = d
    · rw [if_neg h, if_pos e, if_pos e.symm, Option.getD_some]
    · rw [if_neg h, if_neg e, if_neg (Ne.symm e), if_neg (Ne.symm h), Option.getD_none]
/-- Predicates that nothing has written. -/
theorem getQ_same (th x : Thread) (h : x.q = th.q) (q : Nat) :
    getQ x q = (decide (q = 0) || mapGetD ([] : List (Nat × Bool)) q (getQ th q)) := by
  unfold getQ mapGetD mapGet?
  rw [h]
  by_cases e : q = 0 <;> simp [e]
/-- One word written at issue, with flags. -/
theorem completed_word (i : Instr) (th : Thread) (d : Nat) (v flags : Word) :
    Completed i th (past i (orFlags (setG (passMarker i th) d v) flags)) (nextPc i th) [(d, v)] [] flags := by
  refine completed_of i th (orFlags (setG (passMarker i th) d v) flags) _ _ _ rfl (fun r => ?_) (fun q => ?_) ?_ ?_
  · rw [← getG_passMarker i th r]
    exact getG_setG_map _ _ _ _
  · exact getQ_same th _ (by rw [passMarker_eq]; rfl) q
  · rw [passMarker_eq]
    rfl
  · rw [passMarker_eq]
    rfl
/-- A pair written at issue, with flags. -/
theorem completed_pair (i : Instr) (th : Thread) (d : Nat) (v : DWord) (flags : Word) :
    Completed i th (past i (orFlags (setX (passMarker i th) d v) flags)) (nextPc i th)
      [(d, v.setWidth 32), (d + 1, v.extractLsb' 32 32)] [] flags := by
  refine completed_of i th (orFlags (setX (passMarker i th) d v) flags) _ _ _ (by unfold orFlags setX setG; rfl) (fun r => ?_) (fun q => ?_) ?_ ?_
  · rw [← getG_passMarker i th r]
    exact getG_setX_map _ _ _ _
  · exact getQ_same th _ (by rw [passMarker_eq]; rfl) q
  · rw [passMarker_eq]
    rfl
  · rw [passMarker_eq]
    rfl
theorem orFlags_zero (th : Thread) : orFlags th 0 = th := by unfold orFlags; simp

/-- A fixed-latency word result in every thread of the bundle. -/
theorem fixed_word (i : Instr) (g : Thread → Thread) (f : Thread → List (Nat × Word)) (e : Thread → Word) (s : State) (hr : Ready s i)
    (h : ∀ th, ∃ d v, g (passMarker i th) = orFlags (setG (passMarker i th) d v) (e th) ∧ f th = [(d, v)]) :
    ∃ t, issueEach i (fixedBody i g) s = .next t ∧ OnlyThreads s t ∧
      EachThread s t fun th th' => Completed i th th' (nextPc i th) (f th) [] (e th) := by
  obtain ⟨t, h1, h2, h3, h4⟩ := issueEach_fixed i g s hr
  refine ⟨t, h1, h2, ⟨fun u hu => ?_, h4⟩⟩
  obtain ⟨d, v, e1, e2⟩ := h (s.thread u)
  rw [h3 u hu, e1, e2]
  exact completed_word _ _ _ _ _
/-- A fixed-latency pair result in every thread of the bundle. -/
theorem fixed_pair (i : Instr) (g : Thread → Thread) (f : Thread → List (Nat × Word)) (s : State) (hr : Ready s i)
    (h : ∀ th, ∃ d v, g (passMarker i th) = setX (passMarker i th) d v ∧ f th = [(d, v.setWidth 32), (d + 1, v.extractLsb' 32 32)]) :
    ∃ t, issueEach i (fixedBody i g) s = .next t ∧ OnlyThreads s t ∧
      EachThread s t fun th th' => Completed i th th' (nextPc i th) (f th) [] 0 := by
  obtain ⟨t, h1, h2, h3, h4⟩ := issueEach_fixed i g s hr
  refine ⟨t, h1, h2, ⟨fun u hu => ?_, h4⟩⟩
  obtain ⟨d, v, e1, e2⟩ := h (s.thread u)
  rw [h3 u hu, e1, e2, ← orFlags_zero (setX _ _ _)]
  exact completed_pair _ _ _ _ _

end Sys2Proof.Machine
end

