-- ==== Sys2Proof/Tests/Slice0.lean ====
section
/-! SUPPORT. Tests: ill-formed instructions that the check refuses, words written out from the encoding tables, single steps on small
states, and for every statement with hypotheses a state and operands that meet them. -/

namespace Sys2Proof.Tests
open Sys2Proof Sys2Proof.Machine Sys2Proof.Claims
set_option Elab.async false

/-! Small states. -/

/-- A train of eight threads with 64 registers on core 0. -/
def tr0 : Train := { regs := 64, kregs := 32, acc := 16, masks := [(0, 255)], slen := 0x300000 }
/-- A running launch of context 0 with one role. -/
def la0 : Launch :=
  { ctx := 0, part := 0, header := 0, roles := [0], state := .running, nextGang := 1, tasks := 0, rings := [], submitted := 0, wall := 0, exec := 0,
    wait := 0, fsvc := 0, queue := 0, entry := 0, order := 0 }
/-- One thread, which issues. -/
def one (th : Thread) : State :=
  { threads := [(0, th)], trains := [(0, tr0)], launches := [(0, la0)], bundle := [0], nextThread := 1, nextTrain := 1, nextLaunch := 1 }
/-- A thread with some registers. -/
def rg (l : List (Nat × Word)) : Thread := { g := l }

theorem alone {s : State} {t : Nat} {i : Instr} (hb : s.bundle = [t]) (h : checkIssue (s.thread t) (s.trainOf t).regs i = .run) : Alone s t i :=
  ⟨hb, (checkIssue_run_iff _ _ _).mp h⟩
theorem ready {s : State} {t : Nat} {i : Instr} (hb : s.bundle = [t]) (h : checkIssue (s.thread t) (s.trainOf t).regs i = .run) : Ready s i := by
  refine ⟨by rw [hb]; simp, ?_⟩
  intro u hu
  rw [hb] at hu
  rw [List.mem_singleton.mp hu]
  exact (checkIssue_run_iff _ _ _).mp h

/-! Ill-formed terms, one for each check of `Instr.check`, and words that the decoder refuses. -/

theorem test_ill_formed_fields :
    (Instr.movFormH 0 0 0).check = some .zeroHalfword ∧ (Instr.add 1 2 3 4 0).check = some .guardNever ∧ (Instr.pget 1 4 0).check = some .guardNever ∧
    (Instr.mov 0 2 3 4 0).check = some .movSource ∧ (Instr.add64 0 2 4 7 0).check = some .oddPair ∧ (Instr.add64 0 2 5 6 0).check = some .oddPair ∧
    (Instr.add64 0 3 4 6 0).check = some .oddPair ∧ (Instr.addw 0 3 5 6 0).check = some .oddPair ∧ (Instr.mulw 0 3 5 7 0).check = some .oddPair ∧
    (Instr.icmp 0 2 3 6 1 0).check = some .condition ∧ (Instr.ucmp 0 2 3 7 1 0).check = some .condition ∧ (Instr.fcmpF32 0 2 3 7 1 0).check = some .condition ∧
    (Instr.fcmpF64 0 3 2 1 1 0).check = some .oddPair ∧ (Instr.ffmaF64 3 2 4 6 0).check = some .oddPair ∧ (Instr.cvtF32F64 3 2 0).check = some .oddPair ∧
    (Instr.cvtF64F32 2 3 0).check = some .oddPair ∧ (Instr.frcpF64 2 3 0).check = some .oddPair ∧ (Instr.fdivF64 3 2 4 0).check = some .oddPair ∧
    (Instr.lswap 12 1 2 3 0).check = some .maskRange ∧ (Instr.ballot 0 1 3 0).check = some .oddPair ∧ (Instr.redFopF32 0 3 2 4 0).check = some .operation ∧
    (Instr.redFopF64 0 1 3 4 0).check = some .oddPair ∧ (Instr.br 5 1 0 0).check = some .callSpelling ∧ (Instr.jr 3 0).check = some .oddPair ∧
    (Instr.jalr 2 3 0).check = some .oddPair ∧ (Instr.join 12 0).check = some .maskRange ∧ (Instr.mrd 12 2 0).check = some .maskRange ∧
    (Instr.hzwait 17 0).check = some .immediateRange := by decide +kernel
theorem test_ill_formed_memory :
    (Instr.ld 0 2 5 2 4 0).check = some .space ∧ (Instr.ld 0 6 1 2 4 0).check = some .width ∧ (Instr.ld 0 2 1 3 4 0).check = some .oddPair ∧
    (Instr.ld 0 3 1 2 5 0).check = some .misalignedSpan ∧ (Instr.ldSx 0 2 1 2 4 0).check = some .width ∧ (Instr.st 0 4 1 2 6 0).check = some .misalignedSpan ∧
    (Instr.stS 0 5 1 2 4 0).check = some .misalignedSpan ∧ (Instr.atomAdd 0 3 2 4 6 0).check = some .space ∧ (Instr.atomAdd 0 0 2 5 6 0).check = some .oddPair ∧
    (Instr.atomCas 1 0 3 4 6 0).check = some .oddPair ∧ (Instr.atomCas 1 0 2 4 7 0).check = some .oddPair ∧ (Instr.stf 0 3 2 4 0).check = some .oddPair ∧
    (Instr.stf 1 2 4 5 0).check = some .oddPair ∧ (Instr.rflushDev 2 3 0).check = some .oddPair ∧ (Instr.prsTest 3 2 0).check = some .oddPair := by decide +kernel
theorem test_ill_formed_units :
    (Instr.barTrain 12 0).check = some .maskRange ∧ (Instr.mxOp 3 0).check = some .oddPair ∧ (Instr.mxWait 9 0).check = some .immediateRange ∧
    (Instr.mxRd 16 2 3 0).check = some .tileRange ∧ (Instr.mxRd64 3 2 4 0).check = some .oddPair ∧ (Instr.mxZero 16 0).check = some .tileRange ∧
    (Instr.cpTileLd 2 4 5 0).check = some .oddPair ∧ (Instr.rnext 3 0).check = some .oddPair ∧ (Instr.rjoinAdd 16 2 0).check = some .helperRegister ∧
    (Instr.rjoinFaddF64 3 2 0).check = some .oddPair ∧ (Instr.recruit 0 3 2 1 0).check = some .oddPair ∧ (Instr.escOpen 8 0).check = some .streamRange ∧
    (Instr.escIn 6 4 1 0 0).check = some .misalignedSpan ∧ (Instr.escNext 0 3 0).check = some .oddPair ∧ (Instr.xqCfg 3 0).check = some .oddPair ∧
    (Instr.xqIn 12 4 0).check = some .misalignedSpan ∧ (Instr.tkHand 3 0).check = some .oddPair ∧ (Instr.krd 32 4 0).check = some .uniformRange ∧
    (Instr.rgSend 2 4 0).check = some .ringRange ∧ (Instr.rgRecv 0 3 0).check = some .oddPair ∧ (Instr.srd 9 4 0).check = some .selector ∧
    (Instr.srd 8 5 0).check = some .oddPair ∧ (Instr.csrr 1 4 0).check = some .controlRegister ∧ (Instr.csrw 4 6 0).check = some .controlRegister := by
  decide +kernel

/-! Words laid out field by field from the encoding tables (opcode table, Tables 7-1 to 7-10): one for each constructor, its fields at values
that differ from one another, the switch marker set. -/

theorem test_decode_1 :
    decodeTableWord 16 0xB242 = some (.movFormH 22 9 1) ∧
    decodeTableWord 16 0xB246 = some (.addFormH 22 9 1) ∧
    decodeTableWord 16 0xB24A = some (.subFormH 22 9 1) ∧
    decodeTableWord 16 0xB24E = some (.andFormH 22 9 1) ∧
    decodeTableWord 16 0xB252 = some (.orFormH 22 9 1) ∧
    decodeTableWord 16 0xB256 = some (.xorFormH 22 9 1) ∧
    decodeTableWord 16 0xB25A = some (.shlFormH 22 9 1) ∧
    decodeTableWord 16 0xB25E = some (.shrFormH 22 9 1) ∧
    decodeTableWord 16 0xAA62 = some (.addiFormH 21 9 1) ∧
    decodeTableWord 16 0xB266 = some (.mulFormH 22 9 1) ∧
    decodeTableWord 16 0xB26A = some (.faddF32FormH 22 9 1) ∧
    decodeTableWord 16 0xB26E = some (.fsubF32FormH 22 9 1) ∧
    decodeTableWord 16 0xB272 = some (.fmulF32FormH 22 9 1) ∧
    decodeTableWord 16 0xB276 = some (.fmaxF32FormH 22 9 1) ∧
    decodeTableWord 16 0xB27A = some (.fminF32FormH 22 9 1) ∧
    decodeTableWord 16 0xAA7E = some (.moviFormH 21 9 1) ∧
    decodeTableWord 32 0x70C14603 = some (.add 7 24 10 12 1) ∧
    decodeTableWord 32 0x72C14603 = some (.sub 7 24 10 12 1) ∧
    decodeTableWord 32 0x74C14603 = some (.mul 7 24 10 12 1) ∧
    decodeTableWord 32 0x76C14603 = some (.mulhi 7 24 10 12 1) ∧
    decodeTableWord 32 0x78C14603 = some (.mulhu 7 24 10 12 1) ∧
    decodeTableWord 32 0x7AC14603 = some (.and 7 24 10 12 1) := by
  decide +kernel
theorem test_decode_2 :
    decodeTableWord 32 0x7CC14603 = some (.or 7 24 10 12 1) ∧
    decodeTableWord 32 0x7EC14603 = some (.xor 7 24 10 12 1) ∧
    decodeTableWord 32 0x70C14607 = some (.shl 7 24 10 12 1) ∧
    decodeTableWord 32 0x72C14607 = some (.shr 7 24 10 12 1) ∧
    decodeTableWord 32 0x74C14607 = some (.sar 7 24 10 12 1) ∧
    decodeTableWord 32 0x76C14607 = some (.min 7 24 10 12 1) ∧
    decodeTableWord 32 0x78C14607 = some (.max 7 24 10 12 1) ∧
    decodeTableWord 32 0x7AC14607 = some (.minu 7 24 10 12 1) ∧
    decodeTableWord 32 0x7CC14607 = some (.maxu 7 24 10 12 1) ∧
    decodeTableWord 32 0x7EC18607 = some (.mov 7 24 12 12 1) ∧
    decodeTableWord 32 0x70C1460B = some (.add64 7 24 10 12 1) ∧
    decodeTableWord 32 0x72C1460B = some (.sub64 7 24 10 12 1) ∧
    decodeTableWord 32 0x74C1460B = some (.addw 7 24 10 12 1) ∧
    decodeTableWord 32 0x76C1460B = some (.adduw 7 24 10 12 1) ∧
    decodeTableWord 32 0x78C1460B = some (.shl64 7 24 10 12 1) ∧
    decodeTableWord 32 0x7AC1460B = some (.shr64 7 24 10 12 1) ∧
    decodeTableWord 32 0x7CC1460B = some (.sar64 7 24 10 12 1) ∧
    decodeTableWord 32 0x7EC1460B = some (.mulw 7 24 10 12 1) ∧
    decodeTableWord 32 0x91A1460F = some (.addi 4660 10 12 1) ∧
    decodeTableWord 32 0x91A14613 = some (.andi 4660 10 12 1) ∧
    decodeTableWord 32 0x00014617 = some (.clz 10 12 1) ∧
    decodeTableWord 32 0x02014617 = some (.ctz 10 12 1) := by
  decide +kernel
theorem test_decode_3 :
    decodeTableWord 32 0x04014617 = some (.popc 10 12 1) ∧
    decodeTableWord 32 0x06014617 = some (.brev 10 12 1) ∧
    decodeTableWord 32 0x08014617 = some (.sext8 10 12 1) ∧
    decodeTableWord 32 0x0A014617 = some (.sext16 10 12 1) ∧
    decodeTableWord 32 0x10C14617 = some (.addsat 24 10 12 1) ∧
    decodeTableWord 32 0x12C14617 = some (.subsat 24 10 12 1) ∧
    decodeTableWord 32 0x14C14617 = some (.addsatu 24 10 12 1) ∧
    decodeTableWord 32 0x16C14617 = some (.subsatu 24 10 12 1) ∧
    decodeTableWord 32 0x18C14617 = some (.rol 24 10 12 1) ∧
    decodeTableWord 32 0x1AC14617 = some (.bfx 24 10 12 1) ∧
    decodeTableWord 32 0x1357861B = some (.liLo 39612 12 1) ∧
    decodeTableWord 32 0x9357861B = some (.liHi 39612 12 1) ∧
    decodeTableWord 32 0x70C14E9F = some (.icmp 7 24 10 3 5 1) ∧
    decodeTableWord 32 0x72C14E9F = some (.ucmp 7 24 10 3 5 1) ∧
    decodeTableWord 32 0x74C14E9F = some (.fcmpF32 7 24 10 3 5 1) ∧
    decodeTableWord 32 0x76C14E9F = some (.fcmpF64 7 24 10 3 5 1) ∧
    decodeTableWord 32 0x7818C29F = some (.pand 7 3 6 5 1) ∧
    decodeTableWord 32 0x7818C69F = some (.por 7 3 6 5 1) ∧
    decodeTableWord 32 0x7818CA9F = some (.pxor 7 3 6 5 1) ∧
    decodeTableWord 32 0x7818CE9F = some (.pandn 7 3 6 5 1) ∧
    decodeTableWord 32 0x7800D29F = some (.pnot 7 6 5 1) ∧
    decodeTableWord 32 0x7800D69F = some (.pmov 7 6 5 1) := by
  decide +kernel
theorem test_decode_4 :
    decodeTableWord 32 0x7A00061F = some (.pget 7 12 1) ∧
    decodeTableWord 32 0x7C01401F = some (.pset 7 10 1) ∧
    decodeTableWord 32 0x70C14623 = some (.faddF32 7 24 10 12 1) ∧
    decodeTableWord 32 0x72C14623 = some (.fsubF32 7 24 10 12 1) ∧
    decodeTableWord 32 0x74C14623 = some (.fmulF32 7 24 10 12 1) ∧
    decodeTableWord 32 0x76C14623 = some (.fminF32 7 24 10 12 1) ∧
    decodeTableWord 32 0x78C14623 = some (.fmaxF32 7 24 10 12 1) ∧
    decodeTableWord 32 0x7AC14623 = some (.faddRzF32 7 24 10 12 1) ∧
    decodeTableWord 32 0x7CC14623 = some (.fmulRzF32 7 24 10 12 1) ∧
    decodeTableWord 32 0x7EC14623 = some (.fsgnjF32 7 24 10 12 1) ∧
    decodeTableWord 32 0x70C14627 = some (.faddF64 7 24 10 12 1) ∧
    decodeTableWord 32 0x72C14627 = some (.fsubF64 7 24 10 12 1) ∧
    decodeTableWord 32 0x74C14627 = some (.fmulF64 7 24 10 12 1) ∧
    decodeTableWord 32 0x76C14627 = some (.fminF64 7 24 10 12 1) ∧
    decodeTableWord 32 0x78C14627 = some (.fmaxF64 7 24 10 12 1) ∧
    decodeTableWord 32 0x7AC14627 = some (.faddRzF64 7 24 10 12 1) ∧
    decodeTableWord 32 0x7CC14627 = some (.fmulRzF64 7 24 10 12 1) ∧
    decodeTableWord 32 0x7EC14627 = some (.fsgnjF64 7 24 10 12 1) ∧
    decodeTableWord 32 0x70C1462B = some (.faddF16x2 7 24 10 12 1) ∧
    decodeTableWord 32 0x72C1462B = some (.fmulF16x2 7 24 10 12 1) ∧
    decodeTableWord 32 0x74C1462B = some (.ffmaF16x2 7 24 10 12 1) ∧
    decodeTableWord 32 0x76C1462B = some (.fmaxF16x2 7 24 10 12 1) := by
  decide +kernel
theorem test_decode_5 :
    decodeTableWord 32 0x78C1462B = some (.faddBf16x2 7 24 10 12 1) ∧
    decodeTableWord 32 0x7AC1462B = some (.fmulBf16x2 7 24 10 12 1) ∧
    decodeTableWord 32 0x7CC1462B = some (.ffmaBf16x2 7 24 10 12 1) ∧
    decodeTableWord 32 0x7EC1462B = some (.fmaxBf16x2 7 24 10 12 1) ∧
    decodeTableWord 32 0x44C1462F = some (.ffmaF32 34 24 10 12 1) ∧
    decodeTableWord 32 0xC4C1462F = some (.ffmaF64 34 24 10 12 1) ∧
    decodeTableWord 32 0x00014633 = some (.cvtF32F64 10 12 1) ∧
    decodeTableWord 32 0x02014633 = some (.cvtRzF32F64 10 12 1) ∧
    decodeTableWord 32 0x04014633 = some (.cvtF64F32 10 12 1) ∧
    decodeTableWord 32 0x06014633 = some (.cvtF32S32 10 12 1) ∧
    decodeTableWord 32 0x08014633 = some (.cvtF32Uns32 10 12 1) ∧
    decodeTableWord 32 0x0A014633 = some (.cvtS32F32 10 12 1) ∧
    decodeTableWord 32 0x0C014633 = some (.cvtRzS32F32 10 12 1) ∧
    decodeTableWord 32 0x0E014633 = some (.cvtF64S32 10 12 1) ∧
    decodeTableWord 32 0x10014633 = some (.cvtS32F64 10 12 1) ∧
    decodeTableWord 32 0x12014633 = some (.cvtRzS32F64 10 12 1) ∧
    decodeTableWord 32 0x14C14633 = some (.cvtF16x2F32 24 10 12 1) ∧
    decodeTableWord 32 0x16C14633 = some (.cvtBf16x2F32 24 10 12 1) ∧
    decodeTableWord 32 0x18C14633 = some (.cvtRzBf16x2F32 24 10 12 1) ∧
    decodeTableWord 32 0x1A094633 = some (.cvtF32F16 1 10 12 1) ∧
    decodeTableWord 32 0x1C094633 = some (.cvtF32Bf16 1 10 12 1) ∧
    decodeTableWord 32 0x20114633 = some (.d8Pack 2 10 12 1) := by
  decide +kernel
theorem test_decode_6 :
    decodeTableWord 32 0x22114633 = some (.d8Unpack 2 10 12 1) ∧
    decodeTableWord 32 0x24114633 = some (.cvtS8F32 2 10 12 1) ∧
    decodeTableWord 32 0x26114633 = some (.cvtF32S8 2 10 12 1) ∧
    decodeTableWord 32 0x00014637 = some (.fsint 10 12 1) ∧
    decodeTableWord 32 0x02014637 = some (.fcost 10 12 1) ∧
    decodeTableWord 32 0x04014637 = some (.fexp2 10 12 1) ∧
    decodeTableWord 32 0x06014637 = some (.flog2 10 12 1) ∧
    decodeTableWord 32 0x08014637 = some (.frcp 10 12 1) ∧
    decodeTableWord 32 0x0A014637 = some (.frsq 10 12 1) ∧
    decodeTableWord 32 0x0C014637 = some (.fsqrt 10 12 1) ∧
    decodeTableWord 32 0x0EC14637 = some (.fdiv 24 10 12 1) ∧
    decodeTableWord 32 0x10014637 = some (.frcpF64 10 12 1) ∧
    decodeTableWord 32 0x12014637 = some (.fsqrtF64 10 12 1) ∧
    decodeTableWord 32 0x14C14637 = some (.fdivF64 24 10 12 1) ∧
    decodeTableWord 32 0x1639463B = some (.lswap 11 7 10 12 1) ∧
    decodeTableWord 32 0x36C1463B = some (.shfl 11 24 10 12 1) ∧
    decodeTableWord 32 0x5639463B = some (.bcast 11 7 10 12 1) ∧
    decodeTableWord 32 0x7600C63B = some (.ballot 11 6 12 1) ∧
    decodeTableWord 32 0x9629463B = some (.redOp 11 5 10 12 1) ∧
    decodeTableWord 32 0xB611463B = some (.redFopF32 11 2 10 12 1) ∧
    decodeTableWord 32 0xD601463B = some (.scanAdd 11 10 12 1) ∧
    decodeTableWord 32 0xF611463B = some (.redFopF64 11 2 10 12 1) := by
  decide +kernel
theorem test_decode_7 :
    decodeTableWord 32 0x91A2B6BF = some (.br 1193046 1 5 1) ∧
    decodeTableWord 32 0x91A2B43F = some (.call 1193046 1) ∧
    decodeTableWord 32 0x00000043 = some (.exit 1) ∧
    decodeTableWord 32 0x02014043 = some (.jr 10 1) ∧
    decodeTableWord 32 0x04014643 = some (.jalr 10 12 1) ∧
    decodeTableWord 32 0x06014043 = some (.ret 10 1) ∧
    decodeTableWord 32 0x08000043 = some (.land 1) ∧
    decodeTableWord 32 0x000005C7 = some (.join 11 1) ∧
    decodeTableWord 32 0x020004C7 = some (.leave 9 1) ∧
    decodeTableWord 32 0x04000547 = some (.waitm 10 1) ∧
    decodeTableWord 32 0x06014647 = some (.mrd 10 12 1) ∧
    decodeTableWord 32 0x10000647 = some (.hzrd 12 1) ∧
    decodeTableWord 32 0x12020047 = some (.hzwait 16 1) ∧
    decodeTableWord 32 0x1555E6C7 = some (.hzbr 175053 1) ∧
    decodeTableWord 32 0x1755E6C7 = some (.hzbrn 175053 1) ∧
    decodeTableWord 32 0x18000047 = some (.hzreplay 1) ∧
    decodeTableWord 32 0x5099464B = some (.ld 5 2 3 10 12 1) ∧
    decodeTableWord 32 0x5259464B = some (.ldSx 5 1 3 10 12 1) ∧
    decodeTableWord 32 0x5099464F = some (.st 5 2 3 10 12 1) ∧
    decodeTableWord 32 0x50994653 = some (.ldS 5 2 3 10 12 1) ∧
    decodeTableWord 32 0x52594653 = some (.ldSxS 5 1 3 10 12 1) ∧
    decodeTableWord 32 0x50994657 = some (.stS 5 2 3 10 12 1) := by
  decide +kernel
theorem test_decode_8 :
    decodeTableWord 32 0xA0C1465B = some (.atomAdd 1 1 24 10 12 1) ∧
    decodeTableWord 32 0xA2C1465B = some (.atomMin 1 1 24 10 12 1) ∧
    decodeTableWord 32 0xA4C1465B = some (.atomMax 1 1 24 10 12 1) ∧
    decodeTableWord 32 0xA6C1465B = some (.atomMinu 1 1 24 10 12 1) ∧
    decodeTableWord 32 0xA8C1465B = some (.atomMaxu 1 1 24 10 12 1) ∧
    decodeTableWord 32 0xAAC1465B = some (.atomAnd 1 1 24 10 12 1) ∧
    decodeTableWord 32 0xACC1465B = some (.atomOr 1 1 24 10 12 1) ∧
    decodeTableWord 32 0xAEC1465B = some (.atomXor 1 1 24 10 12 1) ∧
    decodeTableWord 32 0xB0C1465B = some (.atomExch 1 1 24 10 12 1) ∧
    decodeTableWord 32 0xB2C1465B = some (.atomCas 1 1 24 10 12 1) ∧
    decodeTableWord 32 0xB4C1465B = some (.atomFadd 1 1 24 10 12 1) ∧
    decodeTableWord 32 0xB6C1465B = some (.atomFaddRa 1 1 24 10 12 1) ∧
    decodeTableWord 32 0xB8C1465B = some (.atomFmin 1 1 24 10 12 1) ∧
    decodeTableWord 32 0xBAC1465B = some (.atomFmax 1 1 24 10 12 1) ∧
    decodeTableWord 32 0xBCC1465B = some (.stf 1 24 10 12 1) ∧
    decodeTableWord 32 0x0000005F = some (.phaseTrain 1) ∧
    decodeTableWord 32 0x0200005F = some (.phaseMovement 1) ∧
    decodeTableWord 32 0x0400005F = some (.phaseCalibre 1) ∧
    decodeTableWord 32 0x0600005F = some (.phaseDevice 1) ∧
    decodeTableWord 32 0x0800005F = some (.phaseDomain 1) ∧
    decodeTableWord 32 0x1000005F = some (.fenceTrain 1) ∧
    decodeTableWord 32 0x1200005F = some (.fenceMovement 1) := by
  decide +kernel
theorem test_decode_9 :
    decodeTableWord 32 0x1400005F = some (.fenceCalibre 1) ∧
    decodeTableWord 32 0x1600005F = some (.fenceDevice 1) ∧
    decodeTableWord 32 0x1800005F = some (.fenceDomain 1) ∧
    decodeTableWord 32 0x200002DF = some (.barTrain 5 1) ∧
    decodeTableWord 32 0x2249405F = some (.barMovement 9 10 1) ∧
    decodeTableWord 32 0x2449405F = some (.barCalibre 9 10 1) ∧
    decodeTableWord 32 0x2649405F = some (.barDevice 9 10 1) ∧
    decodeTableWord 32 0x30C1405F = some (.rflushDev 24 10 1) ∧
    decodeTableWord 32 0x32C1405F = some (.rflushRem 24 10 1) ∧
    decodeTableWord 32 0x34C1405F = some (.rflushHost 24 10 1) ∧
    decodeTableWord 32 0x38C1405F = some (.rinvalDev 24 10 1) ∧
    decodeTableWord 32 0x3AC1405F = some (.rinvalRem 24 10 1) ∧
    decodeTableWord 32 0x3CC1405F = some (.rinvalHost 24 10 1) ∧
    decodeTableWord 32 0x40C1405F = some (.prsWait 24 10 1) ∧
    decodeTableWord 32 0x420142DF = some (.prsTest 10 5 1) ∧
    decodeTableWord 32 0x00014063 = some (.mxOp 10 1) ∧
    decodeTableWord 32 0x02000663 = some (.mxCommit 12 1) ∧
    decodeTableWord 32 0x04010063 = some (.mxWait 8 1) ∧
    decodeTableWord 32 0x06714663 = some (.mxRd 14 10 12 1) ∧
    decodeTableWord 32 0x08C14763 = some (.mxWr 24 10 14 1) ∧
    decodeTableWord 32 0x0A714663 = some (.mxRd64 14 10 12 1) ∧
    decodeTableWord 32 0x0CC14763 = some (.mxWr64 24 10 14 1) := by
  decide +kernel
theorem test_decode_10 :
    decodeTableWord 32 0x0E000763 = some (.mxZero 14 1) ∧
    decodeTableWord 32 0x00C14667 = some (.cpTileLd 24 10 12 1) ∧
    decodeTableWord 32 0x02C14667 = some (.cpTileSt 24 10 12 1) ∧
    decodeTableWord 32 0x0000066B = some (.rnext 12 1) ∧
    decodeTableWord 32 0x0200006B = some (.rleave 1) ∧
    decodeTableWord 32 0x0400006B = some (.rjoin 1) ∧
    decodeTableWord 32 0x1070066B = some (.rjoinAdd 14 12 1) ∧
    decodeTableWord 32 0x1270066B = some (.rjoinMin 14 12 1) ∧
    decodeTableWord 32 0x1470066B = some (.rjoinMax 14 12 1) ∧
    decodeTableWord 32 0x1670066B = some (.rjoinMinu 14 12 1) ∧
    decodeTableWord 32 0x1870066B = some (.rjoinMaxu 14 12 1) ∧
    decodeTableWord 32 0x1A70066B = some (.rjoinAnd 14 12 1) ∧
    decodeTableWord 32 0x1C70066B = some (.rjoinOr 14 12 1) ∧
    decodeTableWord 32 0x1E70066B = some (.rjoinXor 14 12 1) ∧
    decodeTableWord 32 0x2070066B = some (.rjoinFaddF32 14 12 1) ∧
    decodeTableWord 32 0x2270066B = some (.rjoinFminF32 14 12 1) ∧
    decodeTableWord 32 0x2470066B = some (.rjoinFmaxF32 14 12 1) ∧
    decodeTableWord 32 0x2670066B = some (.rjoinFaddF64 14 12 1) ∧
    decodeTableWord 32 0x2870066B = some (.rjoinFminF64 14 12 1) ∧
    decodeTableWord 32 0x2A70066B = some (.rjoinFmaxF64 14 12 1) ∧
    decodeTableWord 32 0xC4C1466B = some (.recruit 34 24 10 12 1) ∧
    decodeTableWord 32 0x0000036F = some (.escOpen 6 1) := by
  decide +kernel
theorem test_decode_11 :
    decodeTableWord 32 0x02C152EF = some (.escIn 24 10 4 5 1) ∧
    decodeTableWord 32 0x040001EF = some (.escEnd 3 1) ∧
    decodeTableWord 32 0x0600E66F = some (.escNext 7 12 1) ∧
    decodeTableWord 32 0x08C0A06F = some (.escDone 24 5 1) ∧
    decodeTableWord 32 0x1001406F = some (.xqCfg 10 1) ∧
    decodeTableWord 32 0x12C1406F = some (.xqIn 24 10 1) ∧
    decodeTableWord 32 0x1401466F = some (.xqTake 10 12 1) ∧
    decodeTableWord 32 0x16C1406F = some (.xqDone 24 10 1) ∧
    decodeTableWord 32 0x00C14073 = some (.tkSpawn 24 10 1) ∧
    decodeTableWord 32 0x02014073 = some (.tkHand 10 1) ∧
    decodeTableWord 32 0x04014673 = some (.krd 10 12 1) ∧
    decodeTableWord 32 0x100141F3 = some (.rgSend 10 3 1) ∧
    decodeTableWord 32 0x12006673 = some (.rgRecv 3 12 1) ∧
    decodeTableWord 32 0x14000173 = some (.rgEos 2 1) ∧
    decodeTableWord 32 0x20000673 = some (.phEnd 12 1) ∧
    decodeTableWord 32 0x00010677 = some (.srd 8 12 1) ∧
    decodeTableWord 32 0x0200E677 = some (.csrr 7 12 1) ∧
    decodeTableWord 32 0x04C08077 = some (.csrw 24 4 1) ∧
    decodeTableWord 32 0x06C10077 = some (.csrs 24 8 1) ∧
    decodeTableWord 32 0x08C04077 = some (.csrc 24 2 1) ∧
    decodeTableWord 32 0x10000077 = some (.eret 1) ∧
    decodeTableWord 32 0x12014077 = some (.brk 10 1) := by
  decide +kernel

/-! Witnesses: arithmetic, predicates and floating point. -/

theorem test_wit_integer_word : ∃ f, wordOf (.add 0 1 2 3 0) = some f ∧ Ready (one {}) (.add 0 1 2 3 0) :=
  ⟨_, rfl, ready rfl (by decide)⟩
theorem test_wit_integer_pair : ∃ f, Claims.pairOf (.add64 0 2 4 62 0) = some f ∧ Ready (one {}) (.add64 0 2 4 62 0) :=
  ⟨_, rfl, ready rfl (by decide)⟩
theorem test_wit_integer_bits : ∃ f, bitsOf (.clz 1 63 0) = some f ∧ Ready (one {}) (.clz 1 63 0) := ⟨_, rfl, ready rfl (by decide)⟩
theorem test_wit_saturating : ∃ d x lo hi, clampOf (.addsat 1 2 3 0) = some (d, x, lo, hi) ∧ Ready (one {}) (.addsat 1 2 3 0) :=
  ⟨_, _, _, _, rfl, ready rfl (by decide)⟩
theorem test_wit_predicate : ∃ f, predOf (.icmp 0 1 2 0 0 0) = some f ∧ Ready (one {}) (.icmp 0 1 2 0 0 0) := ⟨_, rfl, ready rfl (by decide)⟩
theorem test_wit_pget : Ready (one {}) (.pget 0 1 0) := ready rfl (by decide)
theorem test_wit_pset : Ready (one {}) (.pset 0 1 0) := ready rfl (by decide)
theorem test_wit_float : ∃ f, fpOf (.faddF32 0 1 2 3 0) = some f ∧ Ready (one {}) (.faddF32 0 1 2 3 0) := ⟨_, rfl, ready rfl (by decide)⟩
theorem test_wit_float_sent : ∃ f, fpSentOf (.faddF64 0 2 4 6 0) = some f ∧ Ready (one {}) (.faddF64 0 2 4 6 0) :=
  ⟨_, rfl, ready rfl (by decide)⟩
theorem test_wit_conversion : ∃ f, convertOf (.fsqrt 1 2 0) = some f ∧ Ready (one {}) (.fsqrt 1 2 0) := ⟨_, rfl, ready rfl (by decide)⟩
theorem test_wit_rounding : fp32 ∈ formats ∧ (packFV fp32 false (.fin false 1 3)).2 &&& 4 = 0 ∧ (packFV fp32 false (.fin false 1 3)).1 = 0x3EAAAAAB := by
  decide
theorem test_wit_nan : codeNaN fp32 (fAdd fp32 false 0x7F800000 0xFF800000).1 = true := by decide

/-! Witnesses: the step, encodings and issue. -/

/-- From reset, the word of `leave m3` placed. -/
def sp : State := State.reset.withFetchWord 32 0x020001C5
theorem test_wit_step_decoded : sp.deviceFault = false ∧ sp.recovery = false ∧ (nextAct sp).2 = some (.issue 0 0) ∧
    formBundle (beginStep sp) 0 0 = [0] ∧ MayTakeTurn (beginStep sp) 0 0 :=
  ⟨by decide, by decide, by decide, by decide, by decide, by decide, by decide⟩
theorem test_wit_step_decoded_bytes :
    let b := beginStep sp
    let r := fetchAt b 0 0 (b.ctxOf 0) (b.launchOf 0) (b.thread 0).pc.toNat [0]
    r.2 = .ok [0xC5, 0x01, 0x00, 0x02] ∧ decodeBytes [0xC5, 0x01, 0x00, 0x02] = .ok (.leave 3 0, 4, []) ∧ holdAtIssue r.1 (.leave 3 0) 0 = none := by decide
theorem test_wit_step_undecoded :
    let s := State.reset.withFetchWord 16 0
    let b := beginStep s
    s.deviceFault = false ∧ s.recovery = false ∧ (nextAct s).2 = some (.issue 0 0) ∧ issueStopped (beginStep s) 0 = false ∧
      formBundle (beginStep s) 0 0 = [0] ∧ (match (fetchAt b 0 0 (b.ctxOf 0) (b.launchOf 0) (b.thread 0).pc.toNat [0]).2 with
        | .ok bytes => (match decodeBytes bytes with
          | .ok _ => false
          | .error _ => true)
        | _ => false) = true := by decide
theorem test_wit_step_fetch_fault :
    let s := State.modCore sp 0 fun k => { k with qtlb := [], tlb := [{ ctx := 0, page := 1, leaf := 0x4000000100000041, big := false, entry := 0 }] }
    let b := beginStep s
    s.deviceFault = false ∧ s.recovery = false ∧ (nextAct s).2 = some (.issue 0 0) ∧ issueStopped (beginStep s) 0 = false ∧
      formBundle (beginStep s) 0 0 = [0] ∧ (match (fetchAt b 0 0 (b.ctxOf 0) (b.launchOf 0) (b.thread 0).pc.toNat [0]).2 with
        | .fault _ _ => true
        | _ => false) = true := by decide
theorem test_wit_step_event :
    let s : State := { agenda := [{ dt := 1, act := .event .timeBroadcast }] }
    s.deviceFault = false ∧ s.recovery = false ∧ (nextAct s).2 = some (.event .timeBroadcast) ∧ Instr.length .timeBroadcast = 0 := by decide
theorem test_wit_step_idle : State.reset.deviceFault = false ∧ State.reset.recovery = false ∧ (nextAct State.reset).2 = none := by decide
theorem test_wit_device_fault : (nextAct { State.reset with deviceFault := true }).2 = none ∧ (nextAct { State.reset with recovery := true }).2 = none := by decide
theorem test_wit_placed : decodeTableWord 16 0x10C4 = some (.addFormH 2 3 0) ∧ decodeTableWord 32 0x020001C5 = some (.leave 3 0) := by decide
theorem test_wit_encode : Instr.length (.add 3 4 5 6 1) ≠ 0 ∧ Instr.check (.add 3 4 5 6 1) = none := by decide
theorem test_wit_decode : decodeBytes [0xC5, 0x01, 0x00, 0x02, 7] = .ok (.leave 3 0, 4, [7]) := by decide
theorem test_wit_reserved : (0x0000007B : BitVec 32).extractLsb' 2 5 = 0x1E ∧ (0x0000007F : BitVec 32).extractLsb' 2 5 = 0x1F ∧
    (0x7B : Byte).getLsbD 0 = true := by decide
theorem test_wit_inv : Machine.Inv sp ∧ (match step sp with
    | .next _ => true
    | _ => false) = true := ⟨by unfold Machine.Inv; decide, by decide⟩

/-- A result on its way to g1, which is pending. -/
def thP : Thread := { pendG := 2, pendQ := 2, results := [{ regs := [(1, 5)], preds := [], flags := 0 }] }
theorem test_wit_marked_waits : (operands (.add 0 1 2 3 1)).mark = true ∧ outstanding ((one thP).thread 0) = true := by decide
/-- Sixteen unresolved operations. -/
def thW : Thread := { seq := 16, ops := (List.range 16).map fun n => { seq := BitVec.ofNat 16 n, kind := 1, pc := 0, insn := .land 0, addr := 0, data := [] } }
theorem beforeGuard {th : Thread} {n : Nat} {i : Instr} (h1 : (!(operands i).mark || !outstanding th) = true)
    (h2 : boundCheck th n i = none) : BeforeGuard th n i :=
  ⟨by intro h; simpa [h] using h1, ((boundCheck_none th n i).mp h2).1, ((boundCheck_none th n i).mp h2).2⟩
theorem test_wit_full_window : (operands (.ld 0 2 1 4 6 0)).failable = true ∧ 16 ≤ unresolved ((one thW).thread 0) ∧
    BeforeGuard thW 64 (.ld 0 2 1 4 6 0) := ⟨by decide, by decide, beforeGuard (by decide) (by decide)⟩
theorem test_wit_full_window_operands : meetsQ thW (.ld 0 2 1 4 6 0) 0 = false ∧ guardHolds thW (operands (.ld 0 2 1 4 6 0)).guard = true ∧
    (∀ r ∈ (operands (.ld 0 2 1 4 6 0)).rd ++ (operands (.ld 0 2 1 4 6 0)).wr, meetsG thW (.ld 0 2 1 4 6 0) r = false) ∧
    (∀ q ∈ (operands (.ld 0 2 1 4 6 0)).prd ++ (operands (.ld 0 2 1 4 6 0)).pwr, meetsQ thW (.ld 0 2 1 4 6 0) q = false) := by decide
/-- A train of 32 registers. -/
def one32 : State := { one {} with trains := [(0, { tr0 with regs := 32 })] }
theorem test_wit_register_bound : takesTraps (one32.thread 0) ∧
    ¬∀ r ∈ (operands (.add 0 1 2 40 0)).rd ++ (operands (.add 0 1 2 40 0)).wr, regExists (one32.thread 0) (one32.trainOf 0).regs r := by
  unfold takesTraps regExists; decide
/-- A helper of thread 1. -/
def thH : Thread := { helper := some (1, 0) }
theorem test_wit_helper_barred : (∀ r ∈ (operands (.eret 0)).rd ++ (operands (.eret 0)).wr, regExists thH 64 r) ∧ ¬helperMay (.eret 0) ∧ takesTraps thH := by
  unfold takesTraps regExists helperMay; decide
theorem test_wit_premature_guard : BeforeGuard thP 64 (.add 3 4 5 6 0) ∧ meetsQ thP (.add 3 4 5 6 0) 1 = true ∧
    ((operands (.add 3 4 5 6 0)).guard.extractLsb' 1 3).toNat = 1 := ⟨beforeGuard (by decide) (by decide), by decide, by decide⟩
theorem test_wit_premature_read : BeforeGuard thP 64 (.add 0 1 5 6 0) ∧ meetsQ thP (.add 0 1 5 6 0) 0 = false ∧
    guardHolds thP (operands (.add 0 1 5 6 0)).guard = true ∧ ∃ r ∈ (operands (.add 0 1 5 6 0)).rd, meetsG thP (.add 0 1 5 6 0) r = true :=
  ⟨beforeGuard (by decide) (by decide), by decide, by decide, by decide⟩
theorem test_wit_premature_write : BeforeGuard thP 64 (.add 0 4 5 1 0) ∧ (∀ r ∈ (operands (.add 0 4 5 1 0)).rd, meetsG thP (.add 0 4 5 1 0) r = false) ∧
    ∃ r ∈ (operands (.add 0 4 5 1 0)).wr, meetsG thP (.add 0 4 5 1 0) r = true := ⟨beforeGuard (by decide) (by decide), by decide, by decide⟩
theorem test_wit_false_guard : BeforeGuard ({} : Thread) 64 (.add 2 4 5 1 0) ∧ meetsQ {} (.add 2 4 5 1 0) 1 = false ∧
    guardHolds {} (operands (.add 2 4 5 1 0)).guard = false := ⟨beforeGuard (by decide) (by decide), by decide, by decide⟩

/-! Witnesses: control flow. -/

theorem test_wit_branch : ∃ f, branchOf (.br 4 0 0 0) = some f ∧ Ready (one {}) (.br 4 0 0 0) := ⟨_, rfl, ready rfl (by decide)⟩
theorem test_wit_jump : ∃ f, jumpOf (.jr 4 0) = some (4, true, f) ∧ Alone (one (rg [(4, 0x2000)])) 0 (.jr 4 0) ∧ landChecked (one (rg [(4, 0x2000)])) 0 = false ∧
    ux (rg [(4, 0x2000)]) (4 : BitVec 6) < 2 ^ 48 ∧ ux (rg [(4, 0x2000)]) (4 : BitVec 6) % 2 = 0 :=
  ⟨_, rfl, alone rfl (by decide), by decide +kernel, by decide, by decide⟩
theorem test_wit_jump_traps : Alone (one (rg [(4, 1), (5, 0x10000)])) 0 (.jr 4 0) ∧ takesTraps (rg [(4, 1), (5, 0x10000)]) ∧
    2 ^ 48 ≤ ux (rg [(4, 1), (5, 0x10000)]) (4 : BitVec 6) ∧ Alone (one (rg [(4, 1)])) 0 (.jr 4 0) ∧ ux (rg [(4, 1)]) (4 : BitVec 6) % 2 = 1 :=
  ⟨alone rfl (by decide), Or.inr rfl, by decide, alone rfl (by decide), by decide⟩
/-- A thread at the page of `sp` in a launch with landing checks, whose x4 names an address of that page. -/
def spLand (a : Word) : State :=
  { sp with threads := [(0, { pc := 0x10000, g := [(4, a)] })], launches := [(0, { la0 with header := 1 })], bundle := [0],
            mem := memWriteN [] 0x10100 [0x41, 0, 0, 0x08] }
theorem test_wit_landing :
    let s := spLand 0x10100
    let r := fetch32 s (s.coreOf 0) (s.trainOf 0).quarter (s.ctxOf 0) (s.launchOf 0) 0x10100 0
    Alone s 0 (.jr 4 0) ∧ landChecked s 0 = true ∧ r.2 = .ok [0x41, 0, 0, 0x08] ∧ takesTraps (r.1.thread 0) :=
  ⟨alone rfl (by decide +kernel), by decide +kernel, by decide +kernel, by unfold takesTraps; decide +kernel⟩
theorem test_wit_landing_fails :
    let s := spLand 0x10200
    let r := fetch32 s (s.coreOf 0) (s.trainOf 0).quarter (s.ctxOf 0) (s.launchOf 0) 0x10200 0
    Alone s 0 (.jr 4 0) ∧ landChecked s 0 = true ∧ r.2 = .ok [0, 0, 0, 0] ∧ takesTraps (r.1.thread 0) :=
  ⟨alone rfl (by decide +kernel), by decide +kernel, by decide +kernel, by unfold takesTraps; decide +kernel⟩
theorem test_wit_masks : Alone (one {}) 0 (.join 3 0) ∧ Alone (one {}) 0 (.leave 0 0) ∧ Ready (one {}) (.mrd 0 4 0) :=
  ⟨alone rfl (by decide), alone rfl (by decide), ready rfl (by decide)⟩
theorem test_wit_horizon : Ready (one {}) (.hzrd 4 0) ∧ (∃ f, horizonOf (.hzwait 0 0) = some f) ∧ Alone (one {}) 0 (.hzwait 0 0) :=
  ⟨ready rfl (by decide), ⟨_, rfl⟩, alone rfl (by decide)⟩
/-- Two threads of one train, one of them at its instruction. -/
def two (th v : Thread) : State := { one th with threads := [(0, th), (1, v)], nextThread := 2 }
theorem test_wit_gather_waits : gathersOn (.waitm 0 0) = some 0 ∧ Alone (two {} { tidx := 1 }) 0 (.waitm 0 0) ∧
    (maskReg (two {} { tidx := 1 }) 0 0).getLsbD 0 = true ∧ memberOf (two {} { tidx := 1 }) 0 0 1 ∧
    ¬waitsAt ((two {} { tidx := 1 }).thread 1) 0 0 :=
  ⟨rfl, alone rfl (by decide), by decide, ⟨⟨(1, { tidx := 1 }), by decide, by decide⟩, by decide⟩, by unfold waitsAt; decide⟩
theorem test_wit_gather_traps : gathersOn (.waitm 1 0) = some 1 ∧ Alone (one {}) 0 (.waitm 1 0) ∧ takesTraps ({} : Thread) ∧
    (maskReg (one {}) 0 1).getLsbD 0 = false := ⟨rfl, alone rfl (by decide), Or.inr rfl, by decide⟩
theorem test_wit_gather_completes :
    let v : Thread := { tidx := 1, park := .gather 0 }
    Alone (two {} v) 0 (.waitm 0 0) ∧ memberOf (two {} v) 0 0 0 ∧ memberOf (two {} v) 0 0 1 ∧ waitsAt v 0 0 :=
  ⟨alone rfl (by decide), ⟨⟨(0, {}), by decide, by decide⟩, by decide⟩,
    ⟨⟨(1, { tidx := 1, park := .gather 0 }), by decide, by decide⟩, by decide⟩, by unfold waitsAt; decide⟩
/-- Two gathered threads that issue together. -/
def pairG : State := { two { stage := 1 } { tidx := 1, stage := 1 } with bundle := [0, 1] }
theorem test_wit_cross : (∃ f, crossOf (.ballot 0 1 4 0) = some f) ∧ (∀ t ∈ pairG.bundle, checkIssue (pairG.thread t) (pairG.trainOf t).regs (.ballot 0 1 4 0) = .run) ∧
    (∀ t ∈ pairG.bundle, checkIssue (pairG.thread t) (pairG.trainOf t).regs (.waitm 0 0) = .run) ∧
    (∀ t ∈ pairG.bundle, (pairG.thread t).stage = 1) ∧
    (∀ t ∈ pairG.bundle, ((groupIn pairG t).map (·.tidx)).Pairwise (· < ·) ∧ (groupIn pairG t).length ≤ 64 ∧ ∀ v ∈ groupIn pairG t, v.tidx < 64) :=
  ⟨⟨_, rfl⟩, by decide, by decide, by decide, by decide⟩
theorem test_wit_exit : Alone (one {}) 0 (.exit 0) ∧ outstanding ({} : Thread) = false ∧ ({} : Thread).hm = false ∧ ({} : Thread).bank = none ∧
    openOps (one {}) 0 = 0 ∧ (∀ o ∈ ({} : Thread).ops, o.performed = true) ∧ (∀ e ∈ ({} : Thread).ws, e.handler = true) ∧ ({} : Thread).bnd = none :=
  ⟨alone rfl (by decide), by decide⟩

/-! Witnesses: memory. -/

/-- A thread whose x4 names an address. -/
def at4 (a : Word) : Thread := rg [(4, a), (6, 77)]
theorem inScr {s : State} {t a n : Nat} (h : a < 2 ^ 22 ∧ (s.trainOf t).sbase ≤ a ∧ a + n ≤ (s.trainOf t).sbase + (s.trainOf t).slen) : inScratch s t a n := h
theorem presentAt {s : State} {t a n : Nat} (l : Nat) (h1 : a / 128 = l) (h2 : (a + n - 1) / 128 = l)
    (h3 : (scrGet (s.core (s.coreOf t)) l).present = true) : linesPresent s t a n := by
  intro k h h'
  have : k = l := by omega
  subst this
  exact h3
theorem unpinnedAt {s : State} {t a n : Nat} (l : Nat) (h1 : a / 128 = l) (h2 : (a + n - 1) / 128 = l)
    (h4 : (scrGet (s.core (s.coreOf t)) l).early = 0 ∧ (scrGet (s.core (s.coreOf t)) l).late = 0) : linesUnpinned s t a n := by
  intro k h h'
  have : k = l := by omega
  subst this
  exact h4
theorem test_wit_scratch_load : ∃ m, accessOf (.ld 1 2 0 4 6 0) = some m ∧ m.space = 0 ∧ m.kind = 0x11 ∧ Alone (one (at4 0x1000)) 0 (.ld 1 2 0 4 6 0) ∧
    inScratch (one (at4 0x1000)) 0 (m.addr (at4 0x1000)) m.size ∧ m.addr (at4 0x1000) % m.size = 0 ∧
    linesPresent (one (at4 0x1000)) 0 (m.addr (at4 0x1000)) m.size :=
  ⟨_, rfl, by decide, by decide, alone rfl (by decide), inScr (by decide), by decide, presentAt 32 (by decide) (by decide) (by decide)⟩
theorem test_wit_scratch_store : ∃ m, accessOf (.st 1 2 0 4 6 0) = some m ∧ m.space = 0 ∧ m.kind = 0x22 ∧ Alone (one (at4 0x1000)) 0 (.st 1 2 0 4 6 0) ∧
    inScratch (one (at4 0x1000)) 0 (m.addr (at4 0x1000)) m.size ∧ m.addr (at4 0x1000) % m.size = 0 ∧
    linesPresent (one (at4 0x1000)) 0 (m.addr (at4 0x1000)) m.size ∧ linesUnpinned (one (at4 0x1000)) 0 (m.addr (at4 0x1000)) m.size ∧
    readsBound (at4 0x1000) :=
  ⟨_, rfl, by decide, by decide, alone rfl (by decide), inScr (by decide), by decide, presentAt 32 (by decide) (by decide) (by decide),
    unpinnedAt 32 (by decide) (by decide) (by decide), by unfold readsBound; decide⟩
theorem test_wit_scratch_bounds : ∃ m, accessOf (.ld 0 2 0 4 6 0) = some m ∧ Alone (one (at4 0x300000)) 0 (.ld 0 2 0 4 6 0) ∧
    ¬inScratch (one (at4 0x300000)) 0 (m.addr (at4 0x300000)) m.size ∧ takesTraps (at4 0x300000) ∧
    ¬inScratch (one (at4 0x2FFFFE)) 0 (m.addr (at4 0x2FFFFE)) m.size ∧ inScratch (one (at4 0x2FFFFC)) 0 (m.addr (at4 0x2FFFFC)) m.size :=
  ⟨_, rfl, alone rfl (by decide), by unfold inScratch; decide, Or.inr rfl, by unfold inScratch; decide, inScr (by decide)⟩
theorem test_wit_scratch_misaligned : ∃ m, accessOf (.ld 0 2 0 4 6 0) = some m ∧ Alone (one (at4 2)) 0 (.ld 0 2 0 4 6 0) ∧
    inScratch (one (at4 2)) 0 (m.addr (at4 2)) m.size ∧ m.addr (at4 2) % m.size ≠ 0 ∧ takesTraps (at4 2) :=
  ⟨_, rfl, alone rfl (by decide), inScr (by decide), by decide, Or.inr rfl⟩
/-- Line 0 absent, and line 1 pinned. -/
def absent : State := { one (at4 0) with cores := [(0, { lines := [(0, { present := false }), (1, { early := 1 })] })] }
theorem test_wit_scratch_absent : ∃ m, accessOf (.ld 0 2 0 4 6 0) = some m ∧ Alone absent 0 (.ld 0 2 0 4 6 0) ∧ inScratch absent 0 (m.addr (at4 0)) m.size ∧
    m.addr (at4 0) % m.size = 0 ∧ ¬linesPresent absent 0 (m.addr (at4 0)) m.size :=
  ⟨_, rfl, alone rfl (by decide), inScr (by decide), by decide, fun h => absurd (h 0 (by decide) (by decide)) (by decide)⟩
/-- A thread whose load is still open, at an instruction of another address. -/
def openRead (a : Word) : Thread :=
  { at4 a with ops := [{ seq := 0, kind := 0x11, pc := 0, insn := .ldS 0 2 1 4 6 0, addr := 0x20000, data := [] }], seq := 1 }
theorem test_wit_scratch_store_waits : ∃ m, accessOf (.st 1 2 0 4 6 0) = some m ∧ m.kind = 0x22 ∧
    Alone { absent with threads := [(0, at4 128)] } 0 (.st 1 2 0 4 6 0) ∧ linesPresent absent 0 (m.addr (at4 128)) m.size ∧
    ¬linesUnpinned absent 0 (m.addr (at4 128)) m.size ∧ Alone (one (openRead 0x1000)) 0 (.st 1 2 0 4 6 0) ∧
    linesUnpinned (one (openRead 0x1000)) 0 (m.addr (openRead 0x1000)) m.size ∧ ¬readsBound (openRead 0x1000) :=
  ⟨_, rfl, by decide, alone rfl (by decide), presentAt 1 (by decide) (by decide) (by decide),
    fun h => absurd (h 1 (by decide) (by decide)).1 (by decide), alone rfl (by decide), unpinnedAt 32 (by decide) (by decide) (by decide),
    by unfold readsBound; decide⟩
theorem test_wit_address_layout : ∃ m, accessOf (.ld 0 2 1 4 6 0) = some m ∧ 1 ≤ m.space ∧ m.space ≤ 4 ∧
    Alone (one (rg [(5, 0x10000)])) 0 (.ld 0 2 1 4 6 0) ∧ ¬layoutOk m.space (m.addr (rg [(5, 0x10000)])) ∧
    flagAddr (.ld 0 2 1 4 6 0) (rg [(5, 0x10000)]) = none ∧ layoutOk m.space (m.addr (rg [(4, 1)])) ∧ m.addr (rg [(4, 1)]) % m.size ≠ 0 :=
  ⟨_, rfl, by decide, by decide, alone rfl (by decide), by unfold layoutOk; decide, rfl, by unfold layoutOk; decide, by decide⟩
theorem test_wit_flag_store : ∃ m, accessOf (.stf 0 8 4 6 0) = some m ∧ Alone (one (rg [(5, 0x10000)])) 0 (.stf 0 8 4 6 0) ∧
    (ux (rg [(5, 0x10000)]) (8 : BitVec 6)).toNat / 2 ^ 48 ≠ m.addr (rg [(5, 0x10000)]) / 2 ^ 48 ∧
    layoutOk 2 (m.addr (rg [(8, 4)])) ∧ layoutOk 2 (ux (rg [(8, 4)]) (8 : BitVec 6)).toNat ∧
    (ux (rg [(8, 4)]) (8 : BitVec 6)).toNat / 2 ^ 48 = m.addr (rg [(8, 4)]) / 2 ^ 48 ∧ (ux (rg [(8, 4)]) (8 : BitVec 6)).toNat % 8 ≠ 0 :=
  ⟨_, rfl, alone rfl (by decide), by decide, by unfold layoutOk; decide, by unfold layoutOk; decide, by decide, by decide⟩
theorem test_wit_miss : ∃ m, accessOf (.ld 0 2 1 4 6 0) = some m ∧ m.space = 1 ∧ Alone (one (at4 0x20000)) 0 (.ld 0 2 1 4 6 0) ∧
    layoutOk 1 (m.addr (at4 0x20000)) ∧ m.addr (at4 0x20000) % m.size = 0 ∧ tlbFind ((one (at4 0x20000)).core 0) 0 0 (m.addr (at4 0x20000)) = none ∧
    seqFree (at4 0x20000) ∧ ((one (at4 0x20000)).core 0).misses.length < 128 :=
  ⟨_, rfl, by decide, alone rfl (by decide), by unfold layoutOk; decide, by decide, by decide, by unfold seqFree; decide, by decide⟩
theorem test_wit_misses_full :
    let s : State := { one (at4 0x20000) with cores := [(0, { misses := List.replicate 128 { ctx := 0, page := 9, write := false } })] }
    Alone s 0 (.ld 0 2 1 4 6 0) ∧ 128 ≤ (s.core 0).misses.length ∧ missOf (s.core 0) 0 0x20000 = none :=
  ⟨alone rfl (by decide), by decide +kernel, by decide +kernel⟩
/-- The translation of page 2 to frame 2 of channel 0: SHARED, writable, accessed and dirty. -/
def e2 : TlbEntry := { ctx := 0, page := 2, leaf := 0x80000002000000D1, big := false, entry := 0 }
/-- A thread whose core's caches hold that translation. -/
def dv (th : Thread) : State := { one th with cores := [(0, { tlb := [e2] })], frames := [(2, { part := 0, ctx := 0 })] }
theorem cached (a : Acc) (h : a = .read ∨ a = .write) : Cached (dv (at4 0x20000)) 0 0x20000 a e2 := by
  rcases h with h | h <;> subst h <;>
    exact ⟨by decide, by decide, by decide, by decide, by decide, by decide, by decide⟩
theorem test_wit_device_access : ∃ m, accessOf (.ld 0 2 1 4 6 0) = some m ∧ m.space = 1 ∧ m.kind ≠ 0x20 ∧ Alone (dv (at4 0x20000)) 0 (.ld 0 2 1 4 6 0) ∧
    layoutOk 1 (m.addr (at4 0x20000)) ∧ m.addr (at4 0x20000) % m.size = 0 ∧ Cached (dv (at4 0x20000)) 0 (m.addr (at4 0x20000)) (accessAcc m) e2 ∧
    seqFree (at4 0x20000) :=
  ⟨_, rfl, by decide, by decide, alone rfl (by decide), by unfold layoutOk; decide, by decide, cached _ (Or.inl rfl), by unfold seqFree; decide⟩
theorem test_wit_device_strong_store : ∃ m, accessOf (.stS 0 2 1 4 6 0) = some m ∧ m.kind = 0x21 ∧ Alone (dv (at4 0x20000)) 0 (.stS 0 2 1 4 6 0) ∧
    Cached (dv (at4 0x20000)) 0 (m.addr (at4 0x20000)) (accessAcc m) e2 := ⟨_, rfl, by decide, alone rfl (by decide), cached _ (Or.inr rfl)⟩
theorem test_wit_device_atomic : ∃ m, accessOf (.atomAdd 0 0 6 4 8 0) = some m ∧ m.kind = 0x30 ∧ Alone (dv (at4 0x20000)) 0 (.atomAdd 0 0 6 4 8 0) ∧
    Cached (dv (at4 0x20000)) 0 (m.addr (at4 0x20000)) (accessAcc m) e2 := ⟨_, rfl, by decide, alone rfl (by decide), cached _ (Or.inr rfl)⟩
theorem test_wit_weak_store : ∃ m, accessOf (.st 0 2 1 4 6 0) = some m ∧ m.space = 1 ∧ m.kind = 0x20 ∧ Alone (dv (at4 0x20000)) 0 (.st 0 2 1 4 6 0) ∧
    Cached (dv (at4 0x20000)) 0 (m.addr (at4 0x20000)) .write e2 ∧ wsInL1 (dv (at4 0x20000)) 0 < 512 :=
  ⟨_, rfl, by decide, by decide, alone rfl (by decide), cached _ (Or.inr rfl), by decide⟩
/-- A thread whose x4 names byte 0x100 of another device. -/
def rm : State := { one (rg [(4, 0x100), (5, 0x10000)]) with members := [0, 1, 2] }
theorem test_wit_outside : ∃ m, accessOf (.ldS 0 2 2 4 6 0) = some m ∧ m.space = 2 ∧ m.kind = 0x11 ∧ Alone rm 0 (.ldS 0 2 2 4 6 0) ∧ layoutOk 2 (m.addr (rm.thread 0)) ∧
    m.addr (rm.thread 0) % m.size = 0 ∧ m.addr (rm.thread 0) / 2 ^ 48 < 384 ∧ rm.members.contains (m.addr (rm.thread 0) / 2 ^ 48) = true ∧
    (rm.thread 0).ops = [] ∧ flagAddr (.ldS 0 2 2 4 6 0) (rm.thread 0) = none :=
  ⟨_, rfl, by decide, by decide, alone rfl (by decide), by unfold layoutOk; decide, by decide, by decide, by decide, by decide, rfl⟩
theorem test_wit_outside_refused : ∃ m, accessOf (.ldS 0 2 4 4 6 0) = some m ∧ m.space = 4 ∧ Alone rm 0 (.ldS 0 2 4 4 6 0) ∧ layoutOk 4 (m.addr (rm.thread 0)) ∧
    m.addr (rm.thread 0) % m.size = 0 ∧ hostWindow? rm 0 (m.addr (rm.thread 0)) m.size = none :=
  ⟨_, rfl, by decide, alone rfl (by decide), by unfold layoutOk; decide, by decide, by decide⟩
theorem test_wit_remote_key : mapGet? (rm.die (rm.dieOf 0)).rdc (remoteKey 1 0x100) = none := by decide

/-! Witnesses: phases, barriers, ranges and engines. -/

/-- An operation that is not performed, and a write-set entry. -/
def opLive : Op := { seq := 0, kind := 0x21, pc := 0, insn := .land 0, addr := 0, data := [], phase := .resolved }
def thOp : Thread := { ops := [opLive], seq := 1, hz := 1 }
def thWs : Thread := { ws := [{ line := 0x400, handler := false, bytes := [(0, 1)], cls := 2 }] }
theorem test_wit_phase : phaseOf (.phaseCalibre 0) = some 2 ∧ Alone (one {}) 0 (.phaseCalibre 0) ∧ noBoundary {} ∧ quiet (one {}) 0 ∧ nothingToPublish {} :=
  ⟨rfl, alone rfl (by decide), rfl, ⟨by decide, by decide⟩, by unfold nothingToPublish; decide⟩
theorem test_wit_phase_waits : Alone (one thOp) 0 (.phaseDomain 0) ∧ ¬quiet (one thOp) 0 ∧ Alone (one thWs) 0 (.phaseTrain 0) ∧ quiet (one thWs) 0 ∧
    ¬nothingToPublish thWs ∧ noBoundary thOp ∧ noBoundary thWs :=
  ⟨alone rfl (by decide), by unfold quiet; decide, alone rfl (by decide), ⟨by decide, by decide⟩, by unfold nothingToPublish; decide, rfl, rfl⟩
theorem test_wit_fence : fenceOf (.fenceDevice 0) = some false ∧ Alone (one thOp) 0 (.fenceDevice 0) ∧
    (¬∀ o ∈ thOp.ops, o.performed = true ∨ o.kind ∈ [0x10, 0x20, 0x40, 0x41]) ∧ Alone (one {}) 0 (.fenceDevice 0) :=
  ⟨rfl, alone rfl (by decide), by decide, alone rfl (by decide)⟩
theorem test_wit_bar_train : (∀ t ∈ pairG.bundle, checkIssue (pairG.thread t) (pairG.trainOf t).regs (.barTrain 0 0) = .run) ∧
    (∀ t ∈ pairG.bundle, (pairG.thread t).stage = 1) ∧ Alone (one {}) 0 (.barTrain 1 0) ∧ (maskReg (one {}) 0 1).getLsbD 0 = false :=
  ⟨by decide, by decide, alone rfl (by decide), by decide⟩
theorem test_wit_bar_train_arrives : Alone (two {} { tidx := 1 }) 0 (.barTrain 0 0) ∧ (maskReg (two {} { tidx := 1 }) 0 0).getLsbD 0 = true ∧
    quiet (two {} { tidx := 1 }) 0 ∧ memberOf (two {} { tidx := 1 }) 0 0 1 ∧ ¬waitsAt ((two {} { tidx := 1 }).thread 1) 0 0 :=
  ⟨alone rfl (by decide), by decide, ⟨by decide, by decide⟩, ⟨⟨(1, { tidx := 1 }), by decide, by decide⟩, by decide⟩, by unfold waitsAt; decide⟩
theorem test_wit_barrier : barrierOf (.barMovement 3 4 0) = some (1, 3, 4) ∧ Alone (one (at4 16384)) 0 (.barMovement 3 4 0) ∧
    0 < u (at4 16384) (4 : BitVec 6) ∧ u (at4 16384) (4 : BitVec 6) ≤ groupCapacity 1 ∧ quiet (one (at4 16384)) 0 ∧ Alone (one (at4 1)) 0 (.barMovement 3 4 0) ∧
    0 < u (at4 1) (4 : BitVec 6) ∧ quiet (one (at4 1)) 0 :=
  ⟨rfl, alone rfl (by decide), by decide, by decide, ⟨by decide, by decide⟩, alone rfl (by decide), by decide, ⟨by decide, by decide⟩⟩
theorem test_wit_barrier_checks : Alone (one (at4 0)) 0 (.barMovement 3 4 0) ∧ u (at4 0) (4 : BitVec 6) = 0 ∧ takesTraps (at4 0) ∧
    Alone (one (at4 16385)) 0 (.barMovement 3 4 0) ∧ groupCapacity 1 < u (at4 16385) (4 : BitVec 6) ∧
    Alone (one { at4 1 with stage := 3, park := .barrier 0 }) 0 (.barMovement 3 4 0) :=
  ⟨alone rfl (by decide), by decide, Or.inr rfl, alone rfl (by decide), by decide, alone rfl (by decide)⟩
theorem test_wit_range : ∃ m, rangeOf (.rflushDev 6 4 0) = some m ∧ Alone (one (at4 0x20000)) 0 (.rflushDev 6 4 0) ∧ layoutOk m.space (m.addr (at4 0x20000)) ∧
    ¬layoutOk m.space (m.addr (rg [(5, 0x10000)])) := ⟨_, rfl, alone rfl (by decide), by unfold layoutOk; decide, by unfold layoutOk; decide⟩
theorem test_wit_presence : Alone (one (at4 0)) 0 (.prsWait 6 4 0) ∧ inScratch (one (at4 0)) 0 0 77 ∧ linesPresent (one (at4 0)) 0 0 77 ∧
    Alone absent 0 (.prsWait 6 4 0) ∧ inScratch absent 0 0 77 ∧ ¬linesPresent absent 0 0 77 ∧ Alone (one (at4 0x300000)) 0 (.prsTest 4 1 0) ∧
    ¬inScratch (one (at4 0x300000)) 0 0x300000 1 ∧ Alone (one (at4 0)) 0 (.prsTest 4 1 0) ∧ inScratch (one (at4 0)) 0 0 1 :=
  ⟨alone rfl (by decide), inScr (by decide), presentAt 0 (by decide) (by decide) (by decide), alone rfl (by decide), inScr (by decide),
    fun h => absurd (h 0 (by decide) (by decide)) (by decide), alone rfl (by decide), by unfold inScratch; decide, alone rfl (by decide), inScr (by decide)⟩
theorem rolesAll {s : State} {t k : Nat} (h : (match s.launch? (s.launchOf t) with
    | some l => l.noRoles || (s.trainOf t).task.isSome || decide ((s.trainOf t).kind = k)
    | none => true) = true) : roleFits s t k := by
  intro l hl
  rw [hl] at h
  simp only [Bool.or_eq_true, decide_eq_true_eq] at h
  rcases h with (h | h) | h
  · exact Or.inl h
  · exact Or.inr (Or.inl (by intro hn; rw [hn] at h; cases h))
  · exact Or.inr (Or.inr h)
theorem elected {s : State} {i : Instr} {e : Nat} (hb : s.bundle = [e]) (h : checkIssue (s.thread e) (s.trainOf e).regs i = .run) : Elected s i e := by
  refine ⟨ready hb h, by rw [hb]; exact List.mem_singleton.mpr rfl, ?_⟩
  intro v hv hn
  rw [hb] at hv
  exact absurd (List.mem_singleton.mp hv) hn
/-- A train of a matrix role and one of a copy role. -/
def mxTrain (k : Nat) (th : Thread) : State := { one th with trains := [(0, { tr0 with kind := k })] }
theorem test_wit_commands : ∃ m, commandOf (.mxOp 4 0) = some (2, m) ∧ Elected (mxTrain 2 (at4 0x20000)) (.mxOp 4 0) 0 ∧ roleFits (mxTrain 2 (at4 0x20000)) 0 2 ∧
    unresolved (at4 0x20000) < 16 ∧ commandFails (.mxOp 4 0) m (at4 0x20000) = none ∧ commandFails (.mxOp 4 0) m (at4 0x20020) = some 4 ∧
    commandFails (.mxOp 4 0) m (rg [(5, 0x10000)]) = some 6 :=
  ⟨_, rfl, elected rfl (by decide), rolesAll (by decide +kernel), by decide, by decide, by decide, by decide⟩
theorem test_wit_copies : ∃ m, commandOf (.cpTileLd 10 4 8 0) = some (1, m) ∧ Elected (mxTrain 1 (at4 0x20000)) (.cpTileLd 10 4 8 0) 0 ∧
    roleFits (mxTrain 1 (at4 0x20000)) 0 1 ∧ commandFails (.cpTileLd 10 4 8 0) m (at4 0x20000) = none :=
  ⟨_, rfl, elected rfl (by decide), rolesAll (by decide +kernel), by decide⟩
/-- A train of no engine role in a launch with two roles. -/
def noRole (th : Thread) : State := { one th with launches := [(0, { la0 with roles := [0, 0] })], trains := [(0, { tr0 with kind := 3 })] }
theorem rolesNone {s : State} {t k : Nat} (l : Launch) (h : s.launch? (s.launchOf t) = some l) (h1 : l.noRoles = false)
    (h2 : (s.trainOf t).task = none) (h3 : (s.trainOf t).kind ≠ k) : ¬roleFits s t k := by
  intro hr
  rcases hr l h with h | h | h
  · rw [h1] at h; cases h
  · exact h h2
  · exact h3 h
theorem test_wit_role_traps : Alone (noRole (at4 0x20000)) 0 (.mxOp 4 0) ∧ takesTraps (at4 0x20000) ∧ ¬roleFits (noRole (at4 0x20000)) 0 2 ∧
    ¬roleFits (noRole (at4 0x20000)) 0 1 :=
  ⟨alone rfl (by decide), Or.inr rfl, rolesNone _ rfl (by decide +kernel) (by decide) (by decide), rolesNone _ rfl (by decide +kernel) (by decide) (by decide)⟩
theorem test_wit_command_window : Alone (mxTrain 2 { thW with g := [(4, 0x20000)] }) 0 (.mxZero 0 0) ∧ roleFits (mxTrain 2 thW) 0 2 ∧ 16 ≤ unresolved thW :=
  ⟨alone rfl (by decide), rolesAll (by decide +kernel), by decide⟩
theorem test_wit_commit : Elected (mxTrain 2 {}) (.mxCommit 4 0) 0 ∧ roleFits (mxTrain 2 {}) 0 2 ∧ commitsOpen (mxTrain 2 {}) 0 < 8 ∧
    (let s : State := { mxTrain 2 {} with trains := [(0, { tr0 with kind := 2, committed := List.replicate 8 { number := 0, cmds := [5] } })] }
     Elected s (.mxCommit 4 0) 0 ∧ roleFits s 0 2 ∧ 8 ≤ commitsOpen s 0) :=
  ⟨elected rfl (by decide), rolesAll (by decide +kernel), by decide, elected rfl (by decide), rolesAll (by decide +kernel), by decide⟩
theorem test_wit_batch_wait : Alone (mxTrain 2 {}) 0 (.mxWait 0 0) ∧ roleFits (mxTrain 2 {}) 0 2 := ⟨alone rfl (by decide), rolesAll (by decide +kernel)⟩
theorem tileReady {s : State} {t : Nat} {l : List Nat} {x : Nat} {w : Bool} (h1 : roleFits s t 2) (h2 : ∀ k ∈ l, k < (s.trainOf t).acc)
    (h3 : (s.core (s.coreOf t)).mxq = []) (h4 : x < 4096) : TileReady s t l x w :=
  ⟨h1, h2, (by intro ⟨m, hm, _⟩; rw [h3] at hm; cases hm), (by intro k _ ⟨m, hm, _⟩; rw [h3] at hm; cases hm), h4⟩
theorem test_wit_tiles : Alone (mxTrain 2 (at4 4095)) 0 (.mxRd 15 4 6 0) ∧ TileReady (mxTrain 2 (at4 4095)) 0 [15] (bits (at4 4095) (4 : BitVec 6)) false ∧
    Alone (mxTrain 2 (at4 4095)) 0 (.mxWr 6 4 15 0) ∧ TileReady (mxTrain 2 (at4 4095)) 0 [15] (bits (at4 4095) (4 : BitVec 6)) true ∧
    Alone (mxTrain 2 (at4 4095)) 0 (.mxRd64 14 4 6 0) ∧ TileReady (mxTrain 2 (at4 4095)) 0 [14, 15] (bits (at4 4095) (4 : BitVec 6)) false ∧
    Alone (mxTrain 2 (at4 4095)) 0 (.mxWr64 6 4 14 0) ∧ Elected (mxTrain 2 {}) (.mxZero 15 0) 0 ∧ TileReady (mxTrain 2 {}) 0 [15] 0 true :=
  ⟨alone rfl (by decide), tileReady (rolesAll (by decide +kernel)) (by decide) rfl (by decide), alone rfl (by decide),
    tileReady (rolesAll (by decide +kernel)) (by decide) rfl (by decide), alone rfl (by decide),
    tileReady (rolesAll (by decide +kernel)) (by decide) rfl (by decide), alone rfl (by decide), elected rfl (by decide),
    tileReady (rolesAll (by decide +kernel)) (by decide) rfl (by decide)⟩
/-- A matrix command of the train at the head of the core's queue. -/
def mx0 : MxCmd := { id := 0, train := 0, thread := 0, seq := 0, block := 0 }
def mxBusy (a : Bool) : State := { mxTrain 2 (at4 4096) with cores := [(0, { mxq := [{ mx0 with accepted := a }] })] }
theorem test_wit_tile_checks : Alone (mxTrain 2 (at4 4096)) 0 (.mxRd 16 4 6 0) ∧ ((mxTrain 2 (at4 4096)).trainOf 0).acc ≤ 16 := ⟨alone rfl (by decide), by decide⟩
theorem test_wit_tile_waits : Alone (mxBusy false) 0 (.mxRd 0 4 6 0) ∧ roleFits (mxBusy false) 0 2 ∧ opAwaited (mxBusy false) 0 :=
  ⟨alone rfl (by decide), rolesAll (by decide +kernel), ⟨mx0, List.mem_cons_self .., rfl, rfl⟩⟩
theorem test_wit_tile_busy : Alone (mxBusy true) 0 (.mxWr 6 4 0 0) ∧ (∃ k ∈ [0], tileNamed (mxBusy true) 0 k true) ∧ ¬opAwaited (mxBusy true) 0 :=
  ⟨alone rfl (by decide), ⟨0, by decide, { mx0 with accepted := true }, List.mem_cons_self .., rfl, rfl, Or.inl (by decide +kernel)⟩, by
    rintro ⟨m, hm, -, h⟩
    have : m = { mx0 with accepted := true } := List.mem_singleton.mp hm
    rw [this] at h
    cases h⟩
theorem test_wit_tile_index : Alone (mxTrain 2 (at4 4096)) 0 (.mxRd 0 4 6 0) ∧ 4096 ≤ bits (at4 4096) (4 : BitVec 6) ∧ ¬opAwaited (mxTrain 2 (at4 4096)) 0 :=
  ⟨alone rfl (by decide), by decide, by rintro ⟨m, hm, _⟩; cases hm⟩

/-! Witnesses: helpers. -/

/-- A recruiter: 8 helpers asked for, 100 iterations, the target 0x10000 in x8. -/
def thR : Thread := rg [(4, 100), (6, 8), (8, 0x10000)]
theorem test_wit_recruit : Alone (one thR) 0 (.recruit 15 8 4 6 0) ∧ outstanding thR = false ∧ thR.bank = none ∧ thR.returns = [] ∧
    u thR (4 : BitVec 6) ≤ 0x7FFFFFFF ∧ ux thR (8 : BitVec 6) < 2 ^ 48 ∧ ux thR (8 : BitVec 6) % 2 = 0 ∧ landChecked (one thR) 0 = false ∧
    0 < (one thR).nextThread ∧ recruitCode (one thR) 0 100 = 0 ∧ recruitCount (one thR) 0 8 100 16 = 7 :=
  ⟨alone rfl (by decide), by decide, rfl, rfl, by decide, by decide, by decide, by decide +kernel, by decide, by decide +kernel, by decide +kernel⟩
/-- A recruitment of two helpers, one of them live. -/
def bk : Bank := { n := 2, live := [1], regs := [(0, 4)], flags := 0, forced := false, charged := [] }
theorem test_wit_recruit_traps : Alone (one { thR with bank := some bk }) 0 (.recruit 15 8 4 6 0) ∧ ({ thR with bank := some bk } : Thread).bank ≠ none ∧
    Alone (one (rg [(9, 0x10000)])) 0 (.recruit 15 8 4 6 0) ∧ 2 ^ 48 ≤ ux (rg [(9, 0x10000)]) (8 : BitVec 6) ∧
    Alone (one (rg [(8, 1)])) 0 (.recruit 15 8 4 6 0) ∧ ux (rg [(8, 1)]) (8 : BitVec 6) % 2 = 1 :=
  ⟨alone rfl (by decide), by decide, alone rfl (by decide), by decide, alone rfl (by decide), by decide⟩
/-- A recruiter, thread 1, and its helper, thread 0, which issues. -/
def hp (h : Thread) (b : Bank) : State := { two { h with helper := some (1, 0) } { bank := some b, armed := true, endIter := 9, chunk := 4 } with bundle := [0] }
def bk0 : Bank := { bk with n := 1, live := [0] }
theorem test_wit_claim : Alone (one {}) 0 (.rnext 4 0) ∧ ({} : Thread).helper = none := ⟨alone rfl (by decide), rfl⟩
theorem test_wit_helper_claim : Alone (hp {} bk0) 0 (.rnext 48 0) ∧ ((hp {} bk0).thread 0).helper = some (1, 0) ∧ unresolved ((hp {} bk0).thread 0) = 0 ∧
    releasedOf (hp {} bk0) 1 = false ∧ Alone (hp {} { bk0 with forced := true }) 0 (.rnext 48 0) ∧ releasedOf (hp {} { bk0 with forced := true }) 1 = true ∧
    Alone (hp { seq := 1 } bk0) 0 (.rnext 48 0) ∧ unresolved ((hp { seq := 1 } bk0).thread 0) ≠ 0 :=
  ⟨alone rfl (by decide), by decide, by decide, by decide, alone rfl (by decide), by decide, alone rfl (by decide), by decide⟩
theorem test_wit_helper_leaves : Alone (hp {} bk0) 0 (.rleave 0) ∧ ((hp {} bk0).thread 1).bank = some bk0 ∧ noBoundary ((hp {} bk0).thread 0) ∧ quiet (hp {} bk0) 0 ∧
    nothingToPublish ((hp {} bk0).thread 0) ∧ ((hp {} bk0).thread 0).results = [] ∧ Alone (one {}) 0 (.rleave 0) ∧ ({} : Thread).helper = none :=
  ⟨alone rfl (by decide), by decide, rfl, ⟨by decide, by decide⟩, by unfold nothingToPublish; decide, by decide, alone rfl (by decide), rfl⟩
theorem test_wit_join : (∃ f, joinOf (.rjoinAdd 49 4 0) = some (false, f)) ∧ Alone (one { bank := some bk }) 0 (.rjoinAdd 49 4 0) ∧ bk.live ≠ [] ∧
    Alone (one { bank := some { bk with live := [] } }) 0 (.rjoinAdd 49 4 0) ∧ Alone (one {}) 0 (.rjoin 0) :=
  ⟨⟨_, rfl⟩, alone rfl (by decide), by decide, alone rfl (by decide), alone rfl (by decide)⟩

/-! Witnesses: streams, queues, tasks and rings. -/

/-- A launch that holds stream 0, with its task types at 0x20000. -/
def laE : Launch := { la0 with header := BitVec.ofNat 512 (0x20000 * 2 ^ 368 + 2 ^ 232 + 15 * 2 ^ 224) }
def es (th : Thread) (x : Stream) : State := { dv th with launches := [(0, laE)], dies := [(0, { streams := [(0, x)] })] }
theorem allotted {s : State} {t n : Nat} (l : Launch) (h : s.launch? (s.launchOf t) = some l) (h2 : l.header.getLsbD (232 + n) = true) :
    streamAllotted s t n := ⟨l, h, h2⟩
theorem test_wit_marks : Alone (es {} {}) 0 (.escOpen 0 0) ∧ streamAllotted (es {} {}) 0 0 ∧ Alone (one {}) 0 (.escOpen 0 0) ∧ ¬streamAllotted (one {}) 0 0 :=
  ⟨alone rfl (by decide), allotted laE rfl (by decide +kernel), alone rfl (by decide), by
    rintro ⟨l, hl, h⟩
    have : la0 = l := Option.some.inj hl
    rw [← this] at h
    exact absurd h (by decide +kernel)⟩
theorem test_wit_push : Alone (es (at4 9) {}) 0 (.escIn 6 4 1 0 0) ∧ ¬pushWrong (at4 9) 6 1 ∧ streamAllotted (es (at4 9) {}) 0 0 ∧ boundaryFree (es (at4 9) {}) 0 ∧
    roomFor (streamOf (es (at4 9) {}) 0 0) 1 ∧ pushWrong (rg [(6, 0x1000000)]) 6 1 ∧
    ¬roomFor (streamOf (es (at4 9) { reserved := 1024 }) 0 0) 1 ∧ Alone (es (at4 9) { reserved := 1024 }) 0 (.escIn 6 4 1 0 0) :=
  ⟨alone rfl (by decide), by unfold pushWrong; decide, allotted laE rfl (by decide +kernel), ⟨rfl, ⟨by decide, by decide⟩, by unfold nothingToPublish; decide⟩,
    by unfold roomFor; decide, by unfold pushWrong; decide, by unfold roomFor; decide, alone rfl (by decide)⟩
/-- A released constraint. -/
def con (g : Bool) : Constraint := { slot := 3, handle := 77, bodies := [1, 2], given := g }
theorem test_wit_next : Alone (es {} { st := .open', released := [con false] }) 0 (.escNext 0 6 0) ∧ streamAllotted (es {} { st := .open', released := [con false] }) 0 0 ∧
    (es {} { st := .open', released := [con false] }).replaying = false ∧ (es {} { st := .open', released := [con false] }).gates = [] ∧
    ([con false].find? fun c => !c.given) = some (con false) ∧ Alone (es {} { st := .drained }) 0 (.escNext 0 6 0) ∧
    Alone (es {} { st := .open', released := [con true] }) 0 (.escNext 0 6 0) :=
  ⟨alone rfl (by decide), allotted laE rfl (by decide +kernel), rfl, rfl, by decide, alone rfl (by decide), alone rfl (by decide)⟩
theorem test_wit_done : Alone (es (rg [(6, 3)]) { st := .open', released := [con true] }) 0 (.escDone 6 0 0) ∧
    (∃ c ∈ [con true], c.slot = bits (rg [(6, 3)]) (6 : BitVec 6) ∧ c.given = true) ∧ boundaryFree (es (rg [(6, 3)]) { st := .open', released := [con true] }) 0 ∧
    (¬∃ c ∈ [con false], c.slot = bits (rg [(6, 3)]) (6 : BitVec 6) ∧ c.given = true) :=
  ⟨alone rfl (by decide), by decide, ⟨rfl, ⟨by decide, by decide⟩, by unfold nothingToPublish; decide⟩, by decide⟩
theorem test_wit_queue_config : Alone (one (at4 0x20000)) 0 (.xqCfg 4 0) := alone rfl (by decide)
theorem test_wit_token_push : Alone (one {}) 0 (.xqIn 8 4 0) ∧ boundaryFree (one {}) 0 ∧ pushFields 0 {} 8 ∧ ¬pushFields 0x1000 {} 8 ∧ pushDevice 0 = Config.deviceId :=
  ⟨alone rfl (by decide), ⟨rfl, ⟨by decide, by decide⟩, by unfold nothingToPublish; decide⟩, by unfold pushFields; decide, by unfold pushFields; decide, rfl⟩
/-- A push to another device, a member of the job or not. -/
def otherDevice : Nat := if Config.deviceId = 1 then 2 else 1
theorem other_ne : otherDevice ≠ Config.deviceId := by unfold otherDevice; split <;> omega
theorem other_lt : otherDevice < 384 := by unfold otherDevice; split <;> omega
/-- A push's selector that names a device. -/
def selTo (d : Nat) : Word := BitVec.ofNat 32 (2 ^ 31 + d * 2 ^ 16)
theorem test_wit_token_push_device : pushDevice (selTo otherDevice).toNat = otherDevice ∧ pushFields (selTo otherDevice).toNat {} 8 := by
  unfold otherDevice; split <;> exact ⟨by decide, by unfold pushFields; decide⟩
theorem test_wit_token_done : Alone (one (at4 0)) 0 (.xqDone 6 4 0) ∧ inScratch (one (at4 0)) 0 0 32 ∧ boundaryFree (one (at4 0)) 0 ∧
    linesPresent (one (at4 0)) 0 0 32 ∧ ¬inScratch (one (at4 0x2FFFF0)) 0 0x2FFFF0 32 ∧ inScratch (one (at4 0x10)) 0 0x10 32 ∧ 0x10 % 32 ≠ 0 :=
  ⟨alone rfl (by decide), inScr (by decide), ⟨rfl, ⟨by decide, by decide⟩, by unfold nothingToPublish; decide⟩,
    presentAt 0 (by decide) (by decide) (by decide), by unfold inScratch; decide, inScr (by decide), by decide⟩
/-- A token, and a train whose task its firing made. -/
def tok : Token := { words := [1, 2, 3, 4, 5, 6, 7, 8], src := 0, at' := 0, spilled := false }
def fired (taken : Bool) : State :=
  { one (at4 0) with queues := [(9, { fired := [(0, ([tok], 5))] })]
                     trains := [(0, { tr0 with task := some { record := 0, number := 0, fired := some (9, 0), taken := taken } })] }
theorem test_wit_take : Elected (fired false) (.xqTake 4 6 0) 0 ∧ firingOf (fired false) 0 = some (9, 0, false) ∧ inScratch (fired false) 0 0 32 ∧
    (∀ n, entriesWritten (fired false) 0 ≤ n → n < 1 → linesPresent (fired false) 0 (0 + 32 * n) 32 ∧ linesUnpinned (fired false) 0 (0 + 32 * n) 32) ∧
    ¬linesPresent { fired false with cores := absent.cores } 0 0 32 ∧ Elected (fired true) (.xqTake 4 6 0) 0 ∧ firingOf (fired true) 0 = some (9, 0, true) ∧
    Elected (one (at4 0)) (.xqTake 4 6 0) 0 ∧ firingOf (one (at4 0)) 0 = none :=
  ⟨elected rfl (by decide), by decide +kernel, inScr (by decide), (by
    intro n _ h
    rw [show n = 0 by omega]
    exact ⟨presentAt 0 (by decide) (by decide) (by decide), unpinnedAt 0 (by decide) (by decide) (by decide)⟩),
    fun h => absurd (h 0 (by decide) (by decide)) (by decide), elected rfl (by decide),
    by decide +kernel, elected rfl (by decide), by decide +kernel⟩
/-- Tables of context 0 at 0x100000 with a root, and a leaf for page 2 (frame 2). -/
def tables (leaf : Nat) : Memory :=
  [(0x100000, 0x101001), (0x101000, 0x102001), (0x102000, 0x103001), (0x103010, leaf)].foldl (fun m p => memWriteN m p.1 (bytesOfNat 8 p.2)) []
def withTables (s : State) : State := { s with ctxs := [(0, { root := 0x100001 })], mem := tables 0x80000002000000D1 }
/-- A thread of a launch whose type 0 has an entry, in a train of a task or of a gang. -/
def sp0 (k : Option Task) : State :=
  let s := withTables (es (rg [(4, 0), (6, 0xFFFFFFFF)]) {})
  { s with mem := memWriteN s.mem 0x20000 [0, 0, 1, 0, 0, 0, 1, 0], trains := [(0, { tr0 with task := k })] }
def tk0 : Task := { record := 0, number := 0 }
theorem test_wit_spawn :
    let s := sp0 none
    let p := (boundaryStep (s.modThread 0 (passMarker (.tkSpawn 6 4 0))) 0 3).1
    let y := typeEntry p 0 0 0
    Alone s 0 (.tkSpawn 6 4 0) ∧ boundaryFree s 0 ∧ inScratch s 0 0 64 ∧ linesPresent s 0 0 64 ∧
      y.2 = (.ok, BitVec.ofNat 128 0x1000000010000) ∧ recordBad 0 (BitVec.ofNat 128 0x1000000010000) = false ∧ y.1.launch? 0 = some laE ∧
      spawnTarget p 0 0xFFFFFFFF = some 0 ∧ (mapGetD (y.1.core 0).taskq (y.1.launchOf 0) []).length < 1024 ∧ y.1.launchOf 0 = 0 :=
  ⟨alone rfl (by decide), ⟨rfl, ⟨by decide, by decide⟩, by unfold nothingToPublish; decide⟩, inScr (by decide),
    presentAt 0 (by decide) (by decide) (by decide), by decide +kernel, by decide +kernel, by decide +kernel, by decide +kernel,
    by decide +kernel, by decide +kernel⟩
theorem test_wit_hand :
    let s := sp0 (some tk0)
    let p := (boundaryStep (s.modThread 0 (passMarker (.tkHand 4 0))) 0 3).1
    let y := typeEntry p 0 0 0
    Alone s 0 (.tkHand 4 0) ∧ (s.trainOf 0).task ≠ none ∧ boundaryFree s 0 ∧ y.2 = (.ok, BitVec.ofNat 128 0x1000000010000) ∧
      y.1.launch? 0 = some laE ∧ rangeQuiet (y.1.core 0) 0 128 = true ∧ y.1.trains = s.trains ∧ (y.1.thread 0).train = (s.thread 0).train ∧
      Alone (sp0 none) 0 (.tkHand 4 0) :=
  ⟨alone rfl (by decide), by decide +kernel, ⟨rfl, ⟨by decide, by decide⟩, by unfold nothingToPublish; decide⟩, by decide +kernel, by decide +kernel,
    by decide +kernel, by decide +kernel, by decide +kernel, alone rfl (by decide)⟩
theorem test_wit_uniform : Alone (one {}) 0 (.krd 31 6 0) ∧ (31 : BitVec 6).toNat < ((one {}).trainOf 0).kregs ∧ Alone (one {}) 0 (.krd 32 6 0) ∧
    ((one {}).trainOf 0).kregs ≤ (32 : BitVec 6).toNat := ⟨alone rfl (by decide), by decide, alone rfl (by decide), by decide⟩
/-- A ring 0 of the gang with one slot. -/
def ri (l : List (Word × Nat × Bool)) : Machine.Ring := { nprod := 1, depth := 1, data := l, sent := 3, taken := 3, producers := [], ended := [] }
def rs (x : Machine.Ring) : State := { one {} with launches := [(0, { la0 with rings := [(0, x)] })] }
theorem test_wit_ring : Elected (rs (ri [])) (.rgSend 4 0 0) 0 ∧ RingIs (rs (ri [])) 0 0 { la0 with rings := [(0, ri [])] } (ri []) ∧
    ¬outOfProtocol (ri []) 0 ∧ (∀ v ∈ (rs (ri [])).bundle, boundaryFree (rs (ri [])) v) ∧ (ri []).data.length < (ri []).depth ∧
    (ri [(5, 0, false)]).depth ≤ (ri [(5, 0, false)]).data.length ∧ Elected (rs (ri [(5, 0, false)])) (.rgSend 4 0 0) 0 := by
  refine ⟨elected rfl (by decide), ⟨rfl, rfl, rfl⟩, by unfold outOfProtocol; decide, ?_, by decide, by decide, elected rfl (by decide)⟩
  intro v hv
  rw [show v = 0 from List.mem_singleton.mp hv]
  exact ⟨rfl, ⟨by decide, by decide⟩, by unfold nothingToPublish; decide⟩
theorem test_wit_ring_recv : Elected (rs (ri [(5, 0, false)])) (.rgRecv 0 6 0) 0 ∧ Elected (rs (ri [])) (.rgRecv 0 6 0) 0 ∧
    ringEnded (rs (ri [])) tr0 0 = false ∧ ringEnded (rs { ri [] with producers := [0], ended := [0] }) tr0 0 = true ∧
    Elected (rs (ri [])) (.rgEos 0 0) 0 := ⟨elected rfl (by decide), elected rfl (by decide), by decide +kernel, by decide +kernel, elected rfl (by decide)⟩
theorem test_wit_ring_traps : Alone (rs { ri [] with producers := [0], ended := [0] }) 0 (.rgSend 4 0 0) ∧ outOfProtocol { ri [] with producers := [0], ended := [0] } 0 ∧
    Alone (one {}) 0 (.rgRecv 0 6 0) ∧ (∀ l x, ¬RingIs (one {}) 0 0 l x) ∧ takesTraps ({} : Thread) :=
  ⟨alone rfl (by decide), Or.inl (by decide), alone rfl (by decide), (by
    rintro l x ⟨h1, -, h3⟩
    have : la0 = l := Option.some.inj h1
    rw [← this] at h3
    cases h3), Or.inr rfl⟩
theorem test_wit_phase_end : Alone (one { stage := 2 }) 0 (.phEnd 6 0) ∧ Alone (one {}) 0 (.phEnd 6 0) ∧ boundaryFree (one {}) 0 :=
  ⟨alone rfl (by decide), alone rfl (by decide), ⟨rfl, ⟨by decide, by decide⟩, by unfold nothingToPublish; decide⟩⟩

/-! Witnesses: system instructions. -/

theorem test_wit_special : Ready (one {}) (.srd 8 4 0) ∧ (8 : BitVec 6).toNat ≤ 8 ∧ (selected (one {}) {} 4 8).isSome = true :=
  ⟨ready rfl (by decide), by decide, rfl⟩
theorem test_wit_control : Alone (one {}) 0 (.csrr 8 4 0) ∧ controlReg (one {}) 0 8 = some 2048 ∧ controlWrite (.csrs 4 8 0) ≠ none ∧
    Alone (one {}) 0 (.csrs 4 8 0) ∧ withControl {} 8 5 ≠ none := ⟨alone rfl (by decide), by decide, by decide, alone rfl (by decide), by decide⟩
theorem test_wit_breakpoint : Alone (one {}) 0 (.brk 5 0) ∧ takesTraps ({} : Thread) ∧ Alone (one { hm := true }) 0 (.brk 5 0) :=
  ⟨alone rfl (by decide), Or.inr rfl, alone rfl (by decide)⟩
/-- A thread in handler mode with its trap area on page 2. -/
def hm2 (th : Thread) : State := withTables (dv { th with hm := true, tarea := 0x20000, tvec := 0x10000 })
theorem test_wit_return : Alone (one {}) 0 (.eret 0) ∧ Alone (one { hm := true, results := [{ regs := [], preds := [], flags := 0 }] }) 0 (.eret 0) ∧
    Alone (hm2 {}) 0 (.eret 0) ∧ (readArea (hm2 {}) 0 16 1).2.1 = .ok ∧ Alone (hm2 { tpend := 0x50 }) 0 (.eret 0) ∧ lowestHeld { tpend := 0x50 } 4 ∧
    (checkArea (hm2 { tpend := 0x50 }) 0).2 = .ok :=
  ⟨alone rfl (by decide), alone rfl (by decide), alone rfl (by decide +kernel), by decide +kernel, alone rfl (by decide +kernel), by unfold lowestHeld; decide,
    by decide +kernel⟩
theorem test_wit_replay_return : Alone (one {}) 0 (.hzreplay 0) ∧ Alone (hm2 {}) 0 (.hzreplay 0) ∧ Alone (hm2 { tpend := 0x50 }) 0 (.hzreplay 0) ∧
    (let r := readArea (hm2 {}) 0 0 136
     r.2.1 = .ok ∧ replayList ((hm2 {}).thread 0) 64 r.2.2 = []) :=
  ⟨alone rfl (by decide), alone rfl (by decide +kernel), alone rfl (by decide +kernel), by decide +kernel⟩

/-! Witnesses: events of threads. -/

def resL (l : Bool) : Result := { regs := [(1, 5)], preds := [(2, true)], flags := 0, load := l }
theorem test_wit_result_arrivals : liveThread (one { results := [resL true] }) 0 = true ∧ standsAt { results := [resL true] } 0 [] (resL true) [] ∧
    liveThread (one { results := [resL false] }) 0 = true ∧ standsAt { results := [resL false] } 0 [] (resL false) [] :=
  ⟨by decide, ⟨rfl, rfl, by decide, by decide⟩, by decide, ⟨rfl, rfl, by decide, by decide⟩⟩
/-- A device load ready to be served, and an atomic whose value is back. -/
def opLd : Op := { seq := 0, kind := 0x11, pc := 0, insn := .ldS 0 2 1 4 6 0, addr := 0x20000, data := [], pa := 0x20000 }
def opAt : Op :=
  { seq := 0, kind := 0x30, pc := 0, insn := .atomAdd 0 0 6 4 8 0, addr := 0x20000, data := [], pa := 0x20000, phase := .sent, value := [1, 2, 3, 4] }
theorem test_wit_operation_arrivals : (∃ m, accessOf opLd.insn = some m ∧ m.space = 1 ∧ m.kind = opLd.kind ∧ m.size = 4) ∧
    liveThread (dv { ops := [opLd], seq := 1 }) 0 = true ∧ opOf? { ops := [opLd], seq := 1 } 0 = some opLd ∧ mayPerform { ops := [opLd], seq := 1 } opLd = true ∧
    (let r := performLoad (dv { ops := [opLd], seq := 1 }) 0 opLd (.op 0 0)
     r.2 = some [0, 0, 0, 0] ∧ opOf? (r.1.thread 0) 0 = some opLd) ∧
    (∃ m, accessOf opAt.insn = some m ∧ m.kind = 0x30 ∧ opAt.value.length = m.size) ∧ opOf? { ops := [opAt], seq := 1 } 0 = some opAt :=
  ⟨⟨_, rfl, by decide, by decide, by decide⟩, by decide, by decide, by decide, by decide +kernel, ⟨_, rfl, by decide, by decide⟩, by decide⟩
/-- An operation that waits on page 2, whose translation is in memory (`v`) or not. -/
def opWk : Op := { opLd with phase := .walk }
def wk (v : Bool) : State :=
  let s := if v then withTables (one { ops := [opWk], seq := 1 }) else one { ops := [opWk], seq := 1 }
  { s with cores := [(0, { misses := [{ ctx := 0, page := 2, write := false }] })], frames := [(2, { part := 0, ctx := 0 })] }
theorem test_wit_walk : (∃ m ∈ ((wk true).core 0).misses, m.ctx = 0 ∧ m.page = 2 ∧ m.faulted = false) ∧ joined? (wk true) 0 0 2 = [(0, 0)] ∧
    opOf? ((wk true).thread 0) 0 = some opWk ∧ (translateNow (wk false) 0 0 0 0x20000 .read).2 = .missing ∧
    (match (translateNow (wk true) 0 0 0 0x20000 .read).2 with
      | .ok _ _ _ _ => true
      | _ => false) = true ∧ (match (translateNow { wk true with frames := [] } 0 0 0 0x20000 .read).2 with
      | .fail _ _ => true
      | _ => false) = true := by decide +kernel
/-- A core stalled for a fault of page 9 of context 1. -/
def flt : State := { one {} with cores := [(0, { misses := [{ ctx := 1, page := 9, write := false, faulted := true }], stall := some (1, 0) })] }
theorem test_wit_fault_serviced : (∃ m ∈ (flt.core 0).misses, m.faulted = true) ∧ ((flt.core 0).misses.filter fun x => x.faulted) =
      [{ ctx := 1, page := 9, write := false, faulted := true }] ∧ joined? flt 0 1 9 = [] := by decide +kernel
theorem test_wit_shootdown : shootAcks (wk true) 0 0 0x10000 [0] = true ∧ shootAcks (dv { ops := [{ opLd with phase := .ready }], seq := 1 }) 0 0x20000 0x10000 [0] = false := by
  decide +kernel
/-- A strong load of core 0 that waits at page 2, which is private to core 5. -/
def cls2 : State := { wk true with mem := tables 0x02800002000000D1 }
theorem test_wit_classifier : (match (walk cls2 0 0x20000 .read).2 with
    | .leaf e _ big => decide (e.extractLsb' 62 2 ≠ 2 ∧ e.getLsbD 11 = false ∧ conflictWaits cls2 0 2 e big = true)
    | _ => false) = true := by decide +kernel
/-- A range flush that may start. -/
def opRf (i : Instr) : Op := { seq := 0, kind := 0x40, pc := 0, insn := i, addr := 0x20000, data := [128, 0, 0, 0] }
def rf (i : Instr) : State := withTables (dv { ops := [opRf i], seq := 1 })
theorem test_wit_range_walk : (∃ m, rangeOf (.rflushRem 6 4 0) = some m ∧ m.kind = 0x40 ∧ m.space ≠ 1) ∧ opOf? ((rf (.rflushRem 6 4 0)).thread 0) 0 = some (opRf (.rflushRem 6 4 0)) ∧
    olderOps 0 ((rf (.rflushRem 6 4 0)).thread 0).ops = [] ∧ (∀ r ∈ (rf (.rflushRem 6 4 0)).out, (0, 0) ∉ r.2.who) :=
  ⟨⟨_, rfl, by decide, by decide⟩, by decide +kernel, by decide +kernel, by decide +kernel⟩
theorem test_wit_range_walk_device :
    let o := opRf (.rflushDev 6 4 0)
    let go := fun (s : State) => (transPieces s (some 0) 0 .read (pagePieces o.addr.toNat (o.addr.toNat + natOfBytes o.data) 65538) []).2
    (match go (rf (.rflushDev 6 4 0)) with
      | .ok _ => true
      | _ => false) = true ∧ boundaryEntries ((rf (.rflushDev 6 4 0)).thread 0) = [] ∧ (match go (one { ops := [o], seq := 1 }) with
      | .error (_, .missing) => true
      | _ => false) = true ∧ (match go { rf (.rflushDev 6 4 0) with frames := [] } with
      | .error (_, .fail _ _) => true
      | _ => false) = true := by decide +kernel
theorem test_wit_rebase : 2 ^ 62 ≤ ({ one {} with dpc := 2 ^ 62 } : State).dpc ∧ (one {}).clk % 1024 = 0 := by decide
/-- A strong store to be performed, and a boundary with an entry to publish. -/
def opSt : Op := { seq := 0, kind := 0x21, pc := 0, insn := .stS 0 2 1 4 6 0, addr := 0x20000, data := [1, 2, 3, 4], pa := 0x20000, phase := .resolved }
theorem test_wit_acknowledged : (strongStores { ops := [opSt], seq := 1 })[0]? = some 0 ∧ opOf? { ops := [opSt], seq := 1 } 0 = some opSt ∧
    mayPerform { ops := [opSt], seq := 1 } opSt = true ∧
    (storeStrong (dv { ops := [opSt], seq := 1 }) 0 0x400 opSt.cls 0 2 (opSt.data.zipIdx.map fun p => (p.2, p.1)) (.op 0 0)).2.isSome = true ∧
    storeLanes (dv { ops := [opSt], seq := 1 }) 0 opSt = [(0, opSt)] := by decide +kernel
def bn : Boundary := { scope := 2, tmax := 0, pc := 0 }
theorem test_wit_boundary_steps : strongStores { thWs with bnd := some bn } = [] ∧ boundaryEntries { bnd := some bn } = [] ∧
    (boundaryEntries { thWs with bnd := some bn })[0]?.isSome = true ∧ (publish (dv { thWs with bnd := some bn }) 0 0x400 2 0 2 [(0, 1)] (.boundary 0)).2.isSome = true ∧
    (boundaryEntries { thWs with bnd := some bn, ws := thWs.ws.map fun e => { e with bytes := [] } })[0]?.isSome = true := by
  decide +kernel
theorem test_wit_overflow : (({ one {} with cores := [(0, { overflowFull := true })] } : State).core 0).overflowFull = true := by decide
/-- One atomic of one lane at its home. -/
def aq : AtomReq := { thread := 0, seq := 0, group := 0, pa := 0x20000, op := 0, w64 := false, b := 1, cmp := 0, lane := 0 }
def sAt : State := { dv { ops := [{ opAt with value := [] }], seq := 1 } with atoms := [aq] }
theorem test_wit_atomics : ∃ g, (atomGroups sAt.atoms)[0]? = some g ∧ servedLanes sAt g ≠ [] ∧ atomsMay sAt (servedLanes sAt g) = true ∧
    (ensureHomeWrite (settlePlain sAt g.2 true) g.2 (.atoms g.1)).2 = true := ⟨(0, 0x400), by decide +kernel⟩
/-- A thread that awaits a trap. -/
def tr4 : TrapReq := { cause := 4, pc := 0x10000, rpc := 0x10000, faddr := 2 }
theorem test_wit_trap_delivery :
    let s : State := withTables (dv { trap := some tr4, tarea := 0x20000, tvec := 0x10000 })
    liveThread s 0 = true ∧ (s.thread 0).helper = none ∧ (s.thread 0).halted = false ∧ (s.thread 0).hm = false ∧ (s.thread 0).results = [] ∧
      (s.thread 0).trap = some tr4 ∧ window (s.thread 0).ops = [] ∧ (checkArea s 0).2 = .ok ∧
      (takeTrap (cancelUnits (checkArea s 0).1 0) 0 (headerRecord (s.thread 0) tr4 0xFFFF) id).2 = true ∧
      (checkArea (one { trap := some tr4 }) 0).2 = .bad ∧
      (checkArea { one { trap := some tr4, tarea := 0x20000, tvec := 0x10000 } with ctxs := [] } 0).2 = .wait := by decide +kernel
theorem test_wit_record : tr4.cause < 32 ∧ (0xFFFF : Nat) < 2 ^ 16 := by decide
theorem test_wit_helper_fails : ((hp { trap := some tr4 } bk0).thread 0).helper = some (1, 0) ∧ ((hp { trap := some tr4 } bk0).thread 0).trap = some tr4 ∧
    ((hp { trap := some tr4 } bk0).thread 0).halted = false ∧ window ((hp { trap := some tr4 } bk0).thread 0).ops = [] ∧
    ((hp { trap := some tr4 } bk0).thread 1).bank = some bk0 ∧ ((hp { trap := some tr4 } bk0).thread 1).hm = false := by decide
theorem test_wit_watchdog :
    let s : State := { one { park := .gather 0, wdog := 1 } with clk := 1024 }
    liveThread s 0 = true ∧ watchCounts (s.thread 0).park = true ∧ waitDone s 0 = false ∧ (s.thread 0).wdog ≠ 0 ∧
      (s.thread 0).since + (s.thread 0).wdog.toNat * 1024 ≤ s.clk ∧ (s.thread 0).trap = none := by decide
theorem test_wit_starved : liveThread (one { w := 512, late := true }) 0 = true ∧ runnable (one { w := 512, late := true }) 0 = true ∧
    ((one { w := 512, late := true }).thread 0).late = true ∧ 512 ≤ ((one { w := 512, late := true }).thread 0).w ∧
    0 ∉ mapGetD ((one { w := 512, late := true }).core 0).starved 0 [] := by decide +kernel

/-! Witnesses: messages between the dies. -/

theorem oldest {s : State} {src dst : Nat} {k : MsgKind} {m : Msg} {r : List Msg} (h : (dieLink s src dst).fifo = m :: r)
    (hk : m.kind = k) (hr : linkHeld (dieLink s src dst) = false) (ha : m.again = false := by rfl) :
    Oldest s (dieLinkPut s src dst { dieLink s src dst with fifo := r }) src dst k m :=
  ⟨hk, ⟨r, h, rfl⟩, hr, ha⟩
/-- A message about line 0x400, whose home is die 0, from one die to another, and the home's entry. -/
def lk (src dst : Nat) (m : Msg) (e : DirEntry) : State := dieLinkPut { one {} with dies := [(0, { dir := [(0x400, e)] })] } src dst { fifo := [m] }
def mg (k : MsgKind) : Msg := { kind := k, line := 0x400 }
theorem test_wit_message : messageOf (.gets 1 0) = some (.getS, 1, 0) ∧ ∃ p, Oldest (lk 1 0 (mg .getS) {}) p 1 0 .getS (mg .getS) :=
  ⟨rfl, _, oldest (r := []) (by decide) rfl (by decide)⟩
theorem test_wit_request_waits : (∃ p, Oldest (lk 1 0 (mg .getS) { eo := true }) p 1 0 .getS (mg .getS)) ∧
    (dirGet (lk 1 0 (mg .getS) { eo := true }) 0x400).eo = true ∧ requestOf (.gets 1 0) = some (.getS, 1, 0) :=
  ⟨⟨_, oldest (r := []) (by decide) rfl (by decide)⟩, by decide, rfl⟩
theorem test_wit_read_request : (∃ p, Oldest (lk 1 0 (mg .getS) { st := .m, own := 2, hold := 4 }) p 1 0 .getS (mg .getS)) ∧
    (mapGet? ((lk 1 0 (mg .getS) { st := .m, own := 2, hold := 4 }).die (homeDie 0x400)).dir 0x400).isSome = true ∧
    dirGet (lk 1 0 (mg .getS) { st := .m, own := 2, hold := 4 }) 0x400 = { st := .m, own := 2, hold := 4 } ∧
    (∃ p, Oldest (lk 1 0 (mg .getS) { st := .s, hold := 4 }) p 1 0 .getS (mg .getS)) ∧ (dirGet (lk 1 0 (mg .getS) { st := .s, hold := 4 }) 0x400).st = .s :=
  ⟨⟨_, oldest (r := []) (by decide) rfl (by decide)⟩, by decide, by decide, ⟨_, oldest (r := []) (by decide) rfl (by decide)⟩, by decide⟩
theorem test_wit_write_request : (∃ p, Oldest (lk 1 0 (mg .getX) { st := .m, own := 2, hold := 4 }) p 1 0 .getX (mg .getX)) ∧
    dirGet (lk 1 0 (mg .getX) { st := .m, own := 2, hold := 4 }) 0x400 = { st := .m, own := 2, hold := 4 } ∧
    (∃ p, Oldest (lk 1 0 (mg .upg) { st := .s, hold := 2 }) p 1 0 .upg (mg .upg)) ∧
    (∀ d < 4, (dirGet (lk 1 0 (mg .upg) { st := .s, hold := 2 }) 0x400).hold.getLsbD d = true → d = 1) :=
  ⟨⟨_, oldest (r := []) (by decide) rfl (by decide)⟩, by decide, ⟨_, oldest (r := []) (by decide) rfl (by decide)⟩, by decide⟩
theorem test_wit_forward_close :
    let e : DirEntry := { st := .m, own := 2, hold := 4, trans := some (.fwd 1 true), await := [2] }
    (∃ p, Oldest (lk 2 0 (mg .fAck) e) p 2 0 .fAck (mg .fAck)) ∧ dirGet (lk 2 0 (mg .fAck) e) 0x400 = e :=
  ⟨⟨_, oldest (r := []) (by decide) rfl (by decide)⟩, by decide⟩
theorem test_wit_answers :
    let e : DirEntry := { st := .s, hold := 6, trans := some (.grantM 3 false), await := [1, 2] }
    (∃ p, Oldest (lk 1 0 (mg .iAck) e) p 1 0 .iAck (mg .iAck)) ∧ ((dirGet (lk 1 0 (mg .iAck) e) 0x400).await.filter (· != 1)) ≠ [] ∧
      answerOf (.iack 1 0) = some (.iAck, 1, 0) := ⟨⟨_, oldest (r := []) (by decide) rfl (by decide)⟩, by decide, rfl⟩
theorem test_wit_eviction : (∃ p, Oldest (lk 1 0 (mg .wb) { st := .m, own := 1, hold := 2 }) p 1 0 .wb (mg .wb)) ∧
    (∃ p, Oldest (lk 1 0 (mg .evict) { st := .e, own := 1, hold := 2 }) p 1 0 .evict (mg .evict)) ∧
    dirGet (lk 1 0 (mg .wb) { st := .m, own := 1, hold := 2 }) 0x400 = { st := .m, own := 1, hold := 2 } :=
  ⟨⟨_, oldest (r := []) (by decide) rfl (by decide)⟩, ⟨_, oldest (r := []) (by decide) rfl (by decide)⟩, by decide⟩
theorem test_wit_claim_granted : (∃ p, Oldest (lk 1 0 (mg .claim) { st := .p, hold := 6 }) p 1 0 .claim (mg .claim)) ∧
    (let s := lk 1 0 (mg .claim) { st := .p, hold := 6 }
     dirGet s 0x400 = { st := .p, hold := 6 } ∧ ∀ d < 4, d ≠ 1 →
      ((if (mg .claim).write then mapGetD (privGet s 0x400).access d 0 else mapGetD (privGet s 0x400).write d 0) &&& (mg .claim).mask) = 0) :=
  ⟨⟨_, oldest (r := []) (by decide) rfl (by decide)⟩, by decide⟩
/-- Die 1 with a copy of the line. -/
def cp1 : RdcLine := { st := .m, data := [1], wts := 2, rts := 3, dirty := 1 }
def held (src : Nat) (m : Msg) : State := dieLinkPut { one {} with dies := [(1, { rdc := [(0x400, cp1)], rdcLru := [0x400] })] } src 1 { fifo := [m] }
theorem test_wit_copy_messages : rdcGet? (held 0 (mg .fwdS)) 1 0x400 = some cp1 ∧
    (∃ p, Oldest (held 0 { mg .fwdS with die := 2 }) p 0 1 .fwdS { mg .fwdS with die := 2 }) ∧ (2 : Nat) ≠ homeDie 0x400 ∧
    (∃ p, Oldest (held 0 { mg .fwdX with die := 2 }) p 0 1 .fwdX { mg .fwdX with die := 2 }) ∧
    (∃ p, Oldest (held 0 (mg .inv)) p 0 1 .inv (mg .inv)) ∧ (∃ p, Oldest (held 0 (mg .recallS)) p 0 1 .recallS (mg .recallS)) ∧
    (∃ p, Oldest (held 0 (mg .recallI)) p 0 1 .recallI (mg .recallI)) ∧ (∃ p, Oldest (held 0 (mg .merge)) p 0 1 .merge (mg .merge)) :=
  ⟨by decide, ⟨_, oldest (r := []) (by decide) rfl (by decide)⟩, by decide, ⟨_, oldest (r := []) (by decide) rfl (by decide)⟩,
    ⟨_, oldest (r := []) (by decide) rfl (by decide)⟩, ⟨_, oldest (r := []) (by decide) rfl (by decide)⟩,
    ⟨_, oldest (r := []) (by decide) rfl (by decide)⟩, ⟨_, oldest (r := []) (by decide) rfl (by decide)⟩⟩
theorem test_wit_missing_copies : rdcGet? (lk 0 1 (mg .recallS) {}) 1 0x400 = none ∧ mapGet? ((lk 0 1 (mg .recallS) {}).die 1).evicting 0x400 = none ∧
    (∃ p, Oldest (lk 0 1 (mg .recallS) {}) p 0 1 .recallS (mg .recallS)) ∧ (∃ p, Oldest (lk 0 1 (mg .recallI) {}) p 0 1 .recallI (mg .recallI)) ∧
    (∃ p, Oldest (lk 0 1 (mg .merge) {}) p 0 1 .merge (mg .merge)) :=
  ⟨by decide, by decide, ⟨_, oldest (r := []) (by decide) rfl (by decide)⟩, ⟨_, oldest (r := []) (by decide) rfl (by decide)⟩,
    ⟨_, oldest (r := []) (by decide) rfl (by decide)⟩⟩
theorem test_wit_grants :
    let d : Msg := { mg .data with data := [7], grant := some .m }
    let f : Msg := { mg .fData with grant := some .m }
    (∃ p, Oldest (lk 0 1 d {}) p 0 1 .data d) ∧ ((((lk 0 1 d {}).die 1).rdcLru).filter fun k => k % 8192 = 0x400 % 8192).length < 16 ∧
      (∃ p, Oldest (held 0 f) p 0 1 .fData f) ∧ rdcGet? (held 0 f) 1 0x400 = some cp1 ∧
      (∃ p, Oldest (held 0 (mg .wbAck)) p 0 1 .wbAck (mg .wbAck)) ∧ (∃ p, Oldest (held 0 (mg .claimOK)) p 0 1 .claimOK (mg .claimOK)) :=
  ⟨⟨_, oldest (r := []) (by decide) rfl (by decide)⟩, by decide, ⟨_, oldest (r := []) (by decide) rfl (by decide)⟩, by decide,
    ⟨_, oldest (r := []) (by decide) rfl (by decide)⟩, ⟨_, oldest (r := []) (by decide) rfl (by decide)⟩⟩
theorem test_wit_die_links : (dieLink (lk 1 0 (mg .getS) {}) 1 0).fifo ≠ [] ∧ (dieLink (one {}) 0 1).spares ≠ 0 ∧
    (dieLink (dieLinkPut (one {}) 0 1 { spares := 0, retraining := true }) 0 1).spares = 0 ∧
    (dieLink (dieLinkPut (one {}) 0 1 { spares := 0, retraining := true }) 0 1).retraining = true := by decide

/-! Witnesses: the fabric and the host. -/

/-- A tagged request of another device, and one without a tag, of a page that others may reach. -/
def rq (k : ReqKind) : FabReq := { src := otherDevice, tag := 3, issue := 7, kind := k, va := 0x20000, len := 4, data := if k = .store then [1, 2, 3, 4] else [], aux := 0 }
def rmt : State := { withTables (dv {}) with mem := tables 0x80000002000002D1, members := [0, 1, 2] }
theorem test_wit_request_served : reqFits .store (reqAccs (rq .store)) 0 = true ∧ reqFits .load (reqAccs (rq .load)) 0 = true ∧
    (performRemote rmt none (srcNames (rq .load)) otherDevice .load (reqAccs (rq .load)) 0).2.isSome = true ∧
    (performRemote rmt none (srcNames (rq .store)) otherDevice .store (reqAccs (rq .store)) 0).2.isSome = true ∧
    tagged .load = false ∧ tagged .store = true ∧ firstOfLane rmt (rq .store) = none ∧ laneOld rmt (rq .store) = false := by decide +kernel
theorem test_wit_request_behind : (∃ x, firstOfLane { rmt with arrivals := [rq .load] } (rq .store) = some x ∧ x ≠ rq .store) ∧
    rq .store ∉ ({ rmt with arrivals := [rq .load] } : State).arrivals := ⟨⟨rq .load, by simp [firstOfLane, rq], by simp [rq]⟩, by simp [rq]⟩
theorem test_wit_request_frozen : firstOfLane { rmt with mem := tables 0x8000000200000AD1 } (rq .load) = none ∧
    (performRemote { rmt with mem := tables 0x8000000200000AD1 } none (srcNames (rq .load)) otherDevice .load (reqAccs (rq .load)) 0).2 = none := by
  decide +kernel
/-- A store of this device to itself that waits on its lane. -/
def loopOut : OutReq :=
  { who := [], dst := Config.deviceId, lane := laneOf 0x20000, tag := 3, issue := 7, kind := .store, va := 0x20000, len := 4, data := [1, 2, 3, 4], aux := 0
    copies := 1, host := false }
def loopS : State := { rmt with out := [(5, loopOut)], dt := 7 }
def loopReq : FabReq := { rq .store with src := Config.deviceId }
theorem test_wit_request_loops : (loopS.out.find? fun p => p.2.host = false && decide (p.2.dst = loopReq.src) && decide (p.2.lane = laneOf loopReq.va) &&
      decide (0 < p.2.copies)) = some (5, loopOut) ∧ sameReq loopReq loopOut = true ∧ reqRefused loopS loopReq = false ∧
    (performRemote loopS (loopOut.who.head?.map fun x => loopS.coreOf x.1) (whoNames loopS loopOut) Config.deviceId .store (reqAccs loopReq) 0).2.isSome = true :=
  ⟨by simp [loopS, loopOut, loopReq, rq], by decide +kernel, by simp [reqRefused, loopS, loopReq, rmt, withTables, dv, one, mapGet?, ageOf, rq],
    (by
      have h : (performRemote loopS none [] 0 .store [(0x20000, 4, [1, 2, 3, 4])] 0).2.isSome = true := by decide +kernel
      exact h)⟩
theorem test_wit_request_source : otherDevice < 384 ∧ otherDevice ≠ Config.deviceId := ⟨other_lt, other_ne⟩
theorem test_wit_request_again : ([{ src := otherDevice, tag := 3, issue := 7, ans := .ok [] }] : List ReplyEntry).find?
    (fun e => e.src = otherDevice && e.tag = 3) = some { src := otherDevice, tag := 3, issue := 7, ans := .ok [] } ∧
    (∃ f, mapGet? [(otherDevice, 9)] otherDevice = some f ∧ 7 ≤ f) := ⟨by simp, 9, by simp [mapGet?], by decide⟩
/-- A request of this device for a remote load, to another device. -/
def opRm : Op := { seq := 0, kind := 0x11, pc := 0, insn := .ldS 0 2 2 4 6 0, addr := 0, data := [], phase := .sent }
def oq (k : ReqKind) (c : Nat) (h : Bool) : OutReq :=
  { who := [(0, 0)], dst := otherDevice, lane := 0, tag := 3, issue := 0, kind := k, va := 0x100, len := 4, data := [], aux := 0, copies := c, host := h }
def outs (k : ReqKind) (c : Nat) (h : Bool) : State := { one { ops := [opRm], seq := 1 } with out := [(5, oq k c h)], clk := 125000 }
theorem outstanding_of (k : ReqKind) (c : Nat) (h : Bool) (hk : ∀ m, k ≠ .masked m) : Outstanding (outs k c h) 5 (oq k c h) 0 0 opRm :=
  ⟨rfl, rfl, rfl, by rfl, by decide, hk⟩
theorem test_wit_answers_delivered : Outstanding (outs .load 1 false) 5 (oq .load 1 false) 0 0 opRm ∧ ansFits (oq .load 1 false) (.ok [1, 2, 3, 4]) = true ∧
    ansFits (oq .load 1 false) (.fail 6) = true ∧ ansFits (oq .store 1 false) (.ok []) = true ∧ Outstanding (outs .store 1 false) 5 (oq .store 1 false) 0 0 opRm ∧
    (oq .load 1 false).dst ≠ Config.deviceId ∧ (∃ m, accessOf opRm.insn = some m ∧ m.size = 4 ∧ m.dests ≠ []) ∧ (oq .load 1 true).host = true :=
  ⟨outstanding_of _ _ _ (by intro m h; cases h), by rfl, by rfl, by rfl, outstanding_of _ _ _ (by intro m h; cases h), other_ne, ⟨_, rfl, by decide, by decide⟩, rfl⟩
theorem test_wit_given_up : Outstanding (outs .store 1 false) 5 (oq .store 1 false) 0 0 opRm ∧ tagged .store = true ∧
    Outstanding (outs .store 2 false) 5 (oq .store 2 false) 0 0 opRm ∧ (oq .store 2 false).left + 125000 ≤ (outs .store 2 false).clk :=
  ⟨outstanding_of _ _ _ (by intro m h; cases h), rfl, outstanding_of _ _ _ (by intro m h; cases h), by decide +kernel⟩
theorem test_wit_writeback :
    let r : OutReq := { oq (.masked 1) 1 false with who := [], line := some (0, 9) }
    let s : State := { one {} with out := [(5, r)], dies := [(0, { rdc := [(9, { cp1 with leaving := true, dirty := 0 })] })] }
    mapGet? s.out 5 = some r ∧ r.kind = .masked 1 ∧ r.who = [] ∧ r.line = some (0, 9) ∧ (rdcGet? s 0 9).isSome = true ∧ 0 < r.copies :=
  ⟨rfl, rfl, rfl, rfl, by rfl, by decide⟩
theorem test_wit_fabric_links : (fabLink (one {}) 3).up = true ∧ 8 ≤ mapGetD (fabLink { one {} with fabLinks := [(3, { replays := [(1, 8)] })] } 3).replays 1 0 ∧
    (fabLink { one {} with fabLinks := [(3, { retired := [0], replays := [(1, 8)] })] } 3).retired.length < 2 ∧
    2 ≤ (fabLink { one {} with fabLinks := [(3, { retired := [0, 2], replays := [(1, 8)] })] } 3).retired.length ∧
    (fabLink { one {} with fabLinks := [(3, { retraining := true })] } 3).retraining = true := by decide
theorem test_wit_link_states : (0 : Nat) / 24 = 1 / 24 ∧ linkKey 0 1 ∉ (one {}).down ∧ linkKey 0 1 ∈ ({ one {} with down := [1] } : State).down := by decide
theorem test_wit_domain_time : ({ one {} with clk := 25000000 } : State).lastTime + 25000000 ≤ ({ one {} with clk := 25000000 } : State).clk ∧
    (one {}).clk % 250000 = 0 ∧ (one {}).injectStopped = false := by decide
theorem test_wit_expiry : (∃ e ∈ ([{ src := 1, tag := 2, issue := 0, ans := .ok [] }] : List ReplyEntry), e.src = 1 ∧ e.tag = 2 ∧ e.issue + 60000 ≤ 60000) ∧
    ∃ f ∈ ([{ ctx := 0, page := 2, since := 0 }] : List Forward), f.page = 2 ∧ f.since + 25000 ≤ 25000 := by decide
theorem test_wit_snoops : snoopOf (.snpinv 5) = some (5, true) ∧ (∀ p ∈ (one {}).dies, mapGet? p.2.rdc (2 ^ 60 + 5) = none) ∧
    (let s : State := { one {} with dies := [(1, { rdc := [(2 ^ 60 + 5, cp1)] })] }
     (s.dies.find? fun p => (mapGet? p.2.rdc (2 ^ 60 + 5)).isSome) = some (1, { rdc := [(2 ^ 60 + 5, cp1)] })) := ⟨rfl, by decide, by decide⟩
/-- Inbound window 0, open to reads and writes of context 0 from address 0 on. -/
def inb : State := { rmt with mem := tables 0x80000002000001D1, inbound := [(0, 7)] }
theorem test_wit_host_access : (mapGetD inb.inbound 0 0).getLsbD 0 = true ∧ (mapGetD inb.inbound 0 0).getLsbD 1 = true ∧
    (inboundPieces inb 7 .read 0x20000 4).2 = .ok [(0x20000, 4)] ∧ piecesWait (inboundPieces inb 7 .read 0x20000 4).1 [(0x20000, 4)] false = false ∧
    (inboundPieces inb 7 .write 0x20000 4).2 = .ok [(0x20000, 4)] ∧ piecesWait (inboundPieces inb 7 .write 0x20000 4).1 [(0x20000, 4)] true = false ∧
    (mapGetD rmt.inbound 0 0).getLsbD 0 = false := by decide +kernel

/-! Witnesses: the steps of the engines. -/

/-- Whether an outcome is bytes of a length, a result, or a failure. -/
def lenIs {ε α : Type} (n : Nat) : Except ε (List α) → Bool
  | .ok b => b.length = n
  | .error _ => false
def okE {ε α : Type} : Except ε α → Bool
  | .ok _ => true
  | .error _ => false
def failR : EngRes → Bool
  | .fail _ _ => true
  | _ => false
def failE {α : Type} : Except EngRes α → Bool
  | .error x => failR x
  | .ok _ => false
/-- A shape of four bytes at 0x20000, and an integer block of one element with eight products. -/
def shp : Nat := 0x20000 + 2 ^ 50 + 256 * 2 ^ 128 + 3 * 2 ^ 448
def pbN (asrc : Nat) : Nat := 1 + asrc * 2 ^ 6 + 2 ^ 32 + 2 ^ 40 + 8 * 2 ^ 48 + 128 * 2 ^ 128
/-- A copy command of the train, a load that has line 0 to fill. -/
def cp0 : CpCmd :=
  { id := 0, train := 0, thread := 0, seq := 0, store := false, record := 0x20000, coords := [0, 0, 0, 0, 0, 0], counter := 0, accepted := true
    shape := BitVec.ofNat 512 shp, fills := [0] }
def cpS (m : CpCmd) : State := { withTables (dv {}) with cores := [(0, { cpq := [m] })] }
theorem test_wit_fill : cpHead? ((cpS cp0).core 0) = some cp0 ∧ cp0.stop = none ∧ 0 ∈ cp0.fills ∧ (scrGet ((cpS cp0).core 0) 0).early = 0 ∧
    lenIs 4 (cpBytes (cpS cp0) 0 cp0 [0]).2 = true ∧ failE (cpBytes { cpS cp0 with frames := [] } 0 cp0 [0]).2 = true := by decide +kernel
theorem test_wit_engine_read : mxHead? (({ one {} with cores := [(0, { mxq := [{ mx0 with accepted := true, pins := [2] }], lines := [(1, { early := 1 })] })] } : State).core 0) =
      some { mx0 with accepted := true, pins := [2] } ∧ 2 * 1 ∈ [2] ∧
    (∀ y, mxHead? ((cpS { cp0 with pins := [2] }).core 0) = some y → 2 * 1 ∉ y.pins) ∧
    cpHead? ((cpS { cp0 with pins := [2] }).core 0) = some { cp0 with pins := [2] } :=
  ⟨by decide +kernel, by decide, (by intro y h; cases h), by decide +kernel⟩
def cpW : CpCmd := { cp0 with store := true, fills := [], owned := [(0x400, 0x400)] }
theorem test_wit_owned_written : cpHead? ((cpS cpW).core 0) = some cpW ∧ cpW.stop = none ∧ (0x400, 0x400) ∈ cpW.owned ∧ readsLeft cpW [0x400] = false ∧
    lenIs 4 (cpBytes (cpS cpW) 0 cpW [0x400]).2 = true := by decide +kernel
/-- A matrix command that waits for acceptance, its block at 0x20000. -/
def mxS (asrc : Nat) : State :=
  let s := withTables (dv { ops := [{ opLd with kind := 0x51, phase := .unitWait }], seq := 1 })
  { s with cores := [(0, { slotQ := 4, mxq := [{ mx0 with block := 0x20000 }] })], mem := memWriteN s.mem 0x20000 (bytesOfNat 64 (pbN asrc)) }
theorem test_wit_matrix_acceptance : (((mxS 0).core 0).mxq.find? fun x => !x.accepted) = some { mx0 with block := 0x20000 } ∧
    (((mxS 0).core 0).mxq.filter fun x => x.accepted && !x.done).length < 32 ∧ commandMay ((mxS 0).thread 0) 0 = true ∧ clockIssued (mxS 0) 0 = true ∧
    (let r := engRead (mxS 0) 0 0 0 false (metCommand 0) 0x20000 64
     r.2 = .ok (bytesOfNat 64 (pbN 0)) ∧ scalesComing r.1 0 (BitVec.ofNat 512 (pbN 0)) = false ∧ pinsFull (r.1.core 0) (mxLines (BitVec.ofNat 512 (pbN 0))) = false) ∧
    mxBad tr0 (BitVec.ofNat 512 (pbN 0)) = false ∧ mxBad tr0 (BitVec.ofNat 512 (pbN 3)) = true ∧
    failR (engRead { mxS 0 with frames := [] } 0 0 0 false (metCommand 0) 0x20000 64).2 = true := by decide +kernel
theorem test_wit_matrix_completion :
    let s := fun (asrc : Nat) => ({ mxS asrc with cores := [(0, { mxq := [{ mx0 with accepted := true, pb := BitVec.ofNat 512 (pbN asrc) }] })], frames := [] } : State)
    let m := fun (asrc : Nat) => ({ mx0 with accepted := true, pb := BitVec.ofNat 512 (pbN asrc) } : MxCmd)
    mxHead? ((s 0).core 0) = some (m 0) ∧ okE (mxOperands (s 0) 0 (m 0)).2 = true ∧ mxHead? ((s 1).core 0) = some (m 1) ∧ failE (mxOperands { s 1 with ctxs := [(0, { root := 5 })] } 0 (m 1)).2 = true ∧
      (let l : MxCmd := { m 0 with lost := some (5, 0) }
       ([l].find? fun y => y.accepted && !y.done && y.lost.isSome) = some l) := by decide +kernel
theorem test_wit_integer_product : let pb : BitVec 512 := BitVec.ofNat 512 (pbN 0)
    (pb.extractLsb' 0 4).toNat = 1 ∧ (pb.extractLsb' 32 7).toNat = 1 ∧ (pb.extractLsb' 40 8).toNat = 1 ∧ (pb.extractLsb' 48 9).toNat = 8 := by decide +kernel
/-- A copy command that waits for acceptance: a load, and a store to line 0x400. -/
def cpA (st : Bool) : State :=
  let s := withTables (dv { ops := [{ opLd with kind := 0x50, phase := .unitWait }], seq := 1 })
  { s with cores := [(0, { slotQ := 4, cpq := [{ cp0 with store := st, accepted := false, shape := 0, fills := [] }] })], mem := memWriteN s.mem 0x20000 (bytesOfNat 64 shp) }
theorem test_wit_copy_acceptance : (((cpA false).core 0).cpq.filter fun x => !x.accepted)[0]? = some { cp0 with accepted := false, shape := 0, fills := [] } ∧
    commandMay ((cpA false).thread 0) 0 = true ∧ clockIssued (cpA false) 0 = true ∧ (engRead (cpA false) 0 0 0 true (metCommand 0) 0x20000 64).2 = .ok (bytesOfNat 64 shp) ∧ cpBad tr0 cp0 = false ∧
    cpBad tr0 { cp0 with shape := 0 } = true ∧ (boxLines cp0).any (fun l => (scrGet ((cpA false).core 0) l).fill.isSome) = false ∧
    (destTranslate (cpA true) 0 0 0 0 0 (destLines { cp0 with store := true }) []).2 = .ok [(0x400, 0x400)] ∧
    failE (destTranslate { cpA true with frames := [] } 0 0 0 0 0 (destLines { cp0 with store := true }) []).2 = true := by decide +kernel
theorem test_wit_copy_completion : cpHead? ((cpS { cp0 with fills := [] }).core 0) = some { cp0 with fills := [] } ∧
    (cpCounter (cpS { cp0 with fills := [] }) 0 { cp0 with fills := [] } (· + 1)).2 = .ok [] ∧
    cpHead? ((cpS { cp0 with stop := some (6, 0), counter := 0x20000 }).core 0) = some { cp0 with stop := some (6, 0), counter := 0x20000 } ∧
    (cpCounter (cpS cp0) 0 { cp0 with stop := some (6, 0), counter := 0x20000 } fun v => (v ||| 0x8000000000000000) + 1).2 = .ok [] := by decide +kernel
/-- An open of stream 0 on its way, and a replayed push that waits for room. -/
def opEs : Op := { seq := 0, kind := 0x60, pc := 0, insn := .escOpen 0 0, addr := 0, data := [], phase := .unitWait }
theorem test_wit_escapement : let s := fun (x : Stream) => es { ops := [opEs], seq := 1 } x
    opOf? ((s {}).thread 0) 0 = some opEs ∧ escStream opEs.insn = some 0 ∧ liveThread (s {}) 0 = true ∧ commandMay ((s {}).thread 0) 0 = true ∧
      escFirst (s {}) 0 opEs = true ∧ (s {}).replaying = false ∧ (Stream.arrive {} opEs.insn opEs.data 0).isSome = true ∧
      (Stream.arrive { st := .ended } opEs.insn opEs.data 0) = none := by decide +kernel
theorem test_wit_push_expiry : let o : Op := { opEs with phase := .roomWait }
    opOf? { ops := [o], seq := 1, wdog := 1 } 0 = some o ∧ o.since + (1 : Word).toNat * 1024 ≤ 1024 := by decide
/-- A push on its way to queue 0. -/
def opTk : Op := { seq := 0, kind := 0x61, pc := 0, insn := .xqIn 8 4 0, addr := 0, data := List.replicate 36 0, phase := .unitWait }
theorem test_wit_token_accepted : opOf? { ops := [opTk], seq := 1 } 0 = some opTk ∧ liveThread (one { ops := [opTk], seq := 1 }) 0 = true ∧
    commandMay { ops := [opTk], seq := 1 } 0 = true ∧ (wordOfBytes opTk.data).toNat % 4096 = 0 ∧ (BitVec.ofNat 256 (2 ^ 13)).getLsbD 13 = true ∧
    ({} : XQueue).cfg.getLsbD 13 = false := by decide +kernel
/-- A queue with a token, which fires at one. -/
def xq1 : XQueue := { cfg := BitVec.ofNat 256 (2 ^ 13 + 2 ^ 128 + 2 ^ 144), tokens := [tok] }
def qf : State := { sp0 none with queues := [(9, xq1)] }
theorem test_wit_fire : fireQueue qf 0 = some (9, xq1) ∧ qf.launch? 0 = some laE ∧
    (typeEntry qf 0 0 (recType (fireRecord laE xq1 9 0 1))).2 = (.ok, BitVec.ofNat 128 0x1000000010000) ∧
    recordBad (fireRecord laE xq1 9 0 1) (BitVec.ofNat 128 0x1000000010000) = false := by decide +kernel

/-! Witnesses: launches and scheduling. -/

/-- A role of one train of eight threads with eight registers, whose threads start at 0x10000; a header with one gang of it on die 0. -/
def role0 : BitVec 256 := BitVec.ofNat 256 (8 * 2 ^ 160 + 8 * 2 ^ 184 + 2 ^ 192 + 0x10000 * 2 ^ 208)
def hdr : BitVec 512 := BitVec.ofNat 512 (2 ^ 4 + 2 ^ 224 + 2 ^ 304)
/-- A launch block at 0x20000 in memory, and a partition 0 with every die. -/
def blk (h : Nat) : State :=
  let s := withTables (dv {})
  { s with parts := [(0, 15)], mem := memWriteN (memWriteN s.mem 0x20000 (bytesOfNat 64 h)) 0x20040 (bytesOfNat 32 role0.toNat) }
theorem test_wit_submit :
    let code := fun (h : Nat) =>
      let s := blk h
      let a := virtRead s none 0 0x20000 8
      let b := virtRead a.1 none 0 0x20040 (4 * (BitVec.ofNat 512 h |>.extractLsb' 4 2).toNat)
      (a.2.toOption, b.2.toOption, b.2.toOption.map fun rb => blockCode (BitVec.ofNat 512 h) ((List.range (BitVec.ofNat 512 h |>.extractLsb' 4 2).toNat).map
        fun i => BitVec.ofNat 256 (littleEndian ((rb.drop (32 * i)).take 32))) (mapGetD s.parts 0 0) 0)
    (code hdr.toNat).1 = some (bytesOfNat 64 hdr.toNat) ∧ (code hdr.toNat).2.2 = some 0 ∧ (code 0).1 = some (bytesOfNat 64 0) ∧ (code 0).2.2 = some 2 ∧
      ((blk 0).ctx 0).part = 0 ∧ ((blk 0).ctx 0).part ≠ 1 ∧ 0x20000 % 64 = 0 ∧ ((hdr).extractLsb' 368 48).toNat = 0 := by decide +kernel
/-- A queued launch with a gang to place, on a device with no train. -/
def laQ : Launch := { la0 with header := hdr, roles := [role0], state := .queued, nextGang := 0 }
def q0 : State := { State.reset with launches := [(0, laQ)], nextLaunch := 1 }
theorem test_wit_placement : q0.launch? 0 = some laQ ∧ launchLive laQ = true ∧ laQ.nextGang < laQ.ngang ∧ launchHeld q0 0 laQ = false ∧ q0.cutDue = none ∧
    okE (gangTable q0 laQ).2 = true ∧ ((launchCores laQ).find? fun c => (fitGang q0 laQ 0 c 0).isSome) = some 0 ∧ (fitGang q0 laQ 0 0 0).isSome = true ∧
    (fitGang q0 laQ 0 0 4).isSome = true := by decide +kernel
/-- A queue with a task, of a type with eight threads and registers or of one with none. -/
def td (t : Nat) : State :=
  let s := { withTables (dv {}) with launches := [(0, laE)], threads := [], trains := [], bundle := [] }
  { s with cores := [(0, { taskq := [(0, [tk0])] })], mem := memWriteN s.mem 0x20000 (bytesOfNat 16 t) }
def tyGood : Nat := 0x1000000010000 + 8 * 2 ^ 104 + 8 * 2 ^ 96
theorem test_wit_dispatch :
    let e := typeEntry (td tyGood) 0 0 (recType tk0.record)
    let x : Shape := { width := 8, regs := 8, kregs := 0, acc := 0 }
    (td tyGood).launch? 0 = some laE ∧ (td tyGood).cutDue = none ∧ mapGetD ((td tyGood).core 0).taskq 0 [] = [tk0] ∧ e.2 = (.ok, BitVec.ofNat 128 tyGood) ∧
      (BitVec.ofNat 128 tyGood).getLsbD 48 = true ∧ ((BitVec.ofNat 128 tyGood).extractLsb' 49 31).toNat = 0 ∧ x.ok = true ∧
      (fitTrain [] false x { launch := 0, ctx := 0, core := 0, task := some tk0, number := BitVec.ofNat 32 0x80000000 }).isSome = true ∧
      (fitTrain (residents e.1 0) (someEvicted e.1 0) x { launch := 0, ctx := 0, core := 0, task := some tk0, number := BitVec.ofNat 32 0x80000000 }).isSome = true ∧
      fitScratch (scratchHeld e.1 0) 0 = some 0 ∧ (typeEntry (td 0x1000000010000) 0 0 0).2 = (.ok, BitVec.ofNat 128 0x1000000010000) ∧
      ({ width := 0, regs := 0, kregs := 0, acc := 0 } : Shape).ok = false := by decide +kernel
/-- A train that is over, with no successor, or with a counter that cannot be reached. -/
def ret (succ : Nat) : State := { State.reset with trains := [(0, { tr0 with slen := 1024, task := some { tk0 with record := BitVec.ofNat 512 (succ * 2 ^ 256) } })], launches := [(0, la0)] }
theorem test_wit_retire_rest : (mapGet? (ret 0).trains 0).isSome = true ∧ ((ret 0).train 0).evicted = none ∧ (∀ p ∈ (ret 0).threads, p.2.train = 0 → p.2.exited = true) ∧
    enginesIdle (ret 0) 0 = true ∧ ((ret 0).train 0).open' = [] ∧ rangeQuiet ((ret 0).core ((ret 0).train 0).core) ((ret 0).train 0).sbase ((ret 0).train 0).slen = true := by
  decide +kernel
theorem test_wit_retire : MayRetire (ret 0) 0 :=
  ⟨test_wit_retire_rest.1, test_wit_retire_rest.2.1, test_wit_retire_rest.2.2.1, test_wit_retire_rest.2.2.2.1, test_wit_retire_rest.2.2.2.2.2⟩
def retF : State := { withTables (ret 0x20000) with frames := [] }
theorem test_wit_retire_fails : (mapGet? retF.trains 0).isSome = true ∧ enginesIdle retF 0 = true ∧
    rangeQuiet (retF.core 0) (retF.train 0).sbase (retF.train 0).slen = true ∧ (retF.train 0).evicted = none ∧ retF.threads = [] ∧
    (match (successor retF 0 0x20000).2 with
      | .failed _ => true
      | _ => false) = true := by decide +kernel
/-- A still task train, and a gang that waits for its die. -/
def mig : State :=
  { State.reset with
    trains := (0, { tr0 with slen := 1024, task := some tk0, acc := 4, tile := 12, lane := 8 }) ::
      (List.range 24).map fun c => (c + 1, { tr0 with core := c, acc := 12, slen := 0 })
    launches := [(0, la0), (1, { laQ with order := 1, roles := [role0 + BitVec.ofNat 256 (8 * 2 ^ 168)] })] }
theorem test_wit_migration : (mapGet? mig.trains 0).isSome = true ∧ rectFree (residents mig 1) 0 0 64 8 8 = true ∧
    quarterTakes (residents mig 1) (someEvicted mig 1) 0 8 0 = true ∧ unitOf mig 0 = [0] ∧ unitMoves mig [0] = true ∧ gangWaits mig 0 0 = true ∧
    fitTiles (residents mig 1) 4 = some 12 ∧ fitScratch (scratchHeld mig 1) 1 = some 0 := by decide +kernel
theorem test_wit_sweep : ([] : List (Bool × Nat × Nat)).length = (State.reset.members.filter (· != Config.deviceId)).length ∧ quiescent State.reset = true ∧
    quiescent (one {}) = false ∧ (one {}).members = State.reset.members := ⟨by simp [State.reset], by decide +kernel, by decide +kernel, rfl⟩
/-- A core with a train of context 0 while a gang of context 1 waits, before and after the pre-emption. -/
def sl (x : Train) (p : Option Nat) : State :=
  { State.reset with
    trains := [(0, x)]
    launches := [(0, la0), (1, { laQ with ctx := 1, roles := [role0 + BitVec.ofNat 256 (8 * 2 ^ 168)] })]
    cores := [(0, { preempt := p, slices := [(0, 5000000)] })] }
theorem test_wit_slice : (∃ t ∈ residents (sl tr0 none) 0, t.ctx = 0) ∧ ((sl tr0 none).ctx 0).slice ≤ mapGetD ((sl tr0 none).core 0).slices 0 0 ∧
    otherWaits (sl tr0 none) 0 0 = true := by decide +kernel
theorem test_wit_evict : let t : Train := { tr0 with stopped := true }
    (mapGet? (sl t (some 0)).trains 0).isSome = true ∧ ((sl t (some 0)).core 0).preempt = some 0 ∧ enginesIdle (sl t (some 0)) 0 = true ∧
      (sl t (some 0)).membersOf 0 = [] ∧ wsInArea (sl t (some 0)) 0 ≤ areaRoom ((sl t (some 0)).core 0) ∧
      (∀ p ∈ (sl t (some 0)).trains, p.1 ≤ 0) ∧ ((sl tr0 (some 0)).train 0).stopped = false ∧ moreNeeded (sl tr0 (some 0)) 0 0 = true := by decide +kernel
theorem test_wit_restore : let s := sl { tr0 with evicted := some 0x40000 } none
    fitTiles (residents s 0) 16 = some 0 ∧ restoreBase s 0 = some 0 ∧ rectFree (residents s 0) 0 0 64 0 8 = true ∧
      quarterTakes (residents s 0) true 0 8 0 = true ∧ (s.core 0).preempt ≠ some 0 := by decide +kernel

/-! Witnesses: debug, trace and replay. -/

/-- A thread at the PC of breakpoint 0 of its partition, with SKIP and ACT. -/
def bpv (skip act : Nat) : BitVec 128 := BitVec.ofNat 128 (0x10000 + 0xFFFF * 2 ^ 48 + 2 ^ 64 + act * 2 ^ 80 + skip * 2 ^ 96)
def bp (skip act : Nat) : State := { one { pc := 0x10000 } with breakpoints := [(0, bpv skip act)] }
theorem test_wit_breakpoint_match : liveThread (bp 0 0) 0 = true ∧ ((bp 0 0).thread 0).halted = false ∧ ((bp 0 0).thread 0).trap = none ∧ OwnsCtx (bp 0 0) 0 0 ∧
    ((bp 0 0).thread 0).passed.getLsbD 0 = false ∧ (bpv 0 0).getLsbD 64 = true ∧ (bpv 0 0).extractLsb' 0 48 = 0x10000 ∧ (bpv 0 0).extractLsb' 48 16 = 0xFFFF ∧
    ((bpv 3 0).extractLsb' 96 32).toNat = 3 ∧ (∀ a < 3, ((bpv 0 a).extractLsb' 96 32).toNat = 0 ∧ ((bpv 0 a).extractLsb' 80 2).toNat = a ∧ (bpv 0 a).getLsbD 64 = true) ∧
    takesTraps ((bp 0 0).thread 0) := by
  refine ⟨by decide, by decide, by decide, rfl, by decide, by decide, by decide, by decide, by decide, by decide, Or.inr rfl⟩
/-- A sample due, of a quarter that forms no bundle. -/
def sm0 : Nat × List Byte := (0, List.replicate 32 0)
/-- A die that samples, with room in its ring. -/
def sam : State := { State.modCore sp 0 fun k => { k with samples := [(0, sm0)] } with dies := [(0, { sper := 1024, traceLen := 65536 })] }
theorem test_wit_sample : (∃ t b, formBundle sam 0 0 = t :: b) ∧ issueStopped sam 0 = false ∧ (sam.die 0).sper ≠ 0 ∧ sam.clk % (sam.die 0).sper = 0 ∧
    (sam.die 0).traceHead + 32 ≤ (sam.die 0).traceLen := ⟨⟨0, [], by decide +kernel⟩, by decide +kernel, by decide +kernel, by decide +kernel, by decide +kernel⟩
theorem test_wit_cut_due : let s : State := { State.reset with ckptOn := true, ckptPeriod := 1, dt := 1000000 }
    s.cutDue = none ∧ (∀ k ∈ s.ckpts, k.number < 1) ∧ 0 < 1 ∧ 1 * s.ckptPeriod * 1000000 ≤ s.dt := by decide +kernel
theorem logLength_of (l : List (BitVec 128)) : logLength { log := [(0, l)], logging := true } = l.length := by simp [logLength]
theorem test_wit_log_area : 7 * Config.logChunks ≤ 8 * logLength { log := [(0, List.replicate Config.logChunks 0)], logging := true } := by
  rw [logLength_of, List.length_replicate]; omega
theorem test_wit_drained : cutDrained { State.reset with cutDue := some 1 } = true := by decide +kernel
/-- An empty checkpoint. -/
def ck : Checkpoint :=
  { number := 1, mem := [], threads := [], trains := [], queues := [], scratch := [], acc := [], tasks := [], streams := [], launches := [], barriers := [],
    frames := [], ctx := {}, crcs := [], log := [], replayable := true }
theorem test_wit_replay : OwnsCtx { State.reset with ckpts := [ck] } 0 0 ∧ ([ck].find? fun k => k.number = 1) = some ck ∧
    placesFree { State.reset with ckpts := [ck] } ck = true ∧ ¬OwnsCtx { State.reset with ckpts := [ck] } 1 0 :=
  ⟨rfl, by decide, by decide +kernel, by unfold OwnsCtx; decide⟩
/-- An order gate whose head is another requester's. -/
def gt : State := { sAt with replaying := true, gates := [(0, [5])], clk := 2 ^ 20 }
theorem test_wit_gate : mapGetD gt.gates 0 [] ≠ [] ∧ heldAt gt 0 ≠ [] ∧ mapGetD gt.gateSince 0 0 + 2 ^ 20 ≤ gt.clk := by decide +kernel
theorem test_wit_owner : Owns (blk 0) 0 3 ∧ ¬Owns (blk 0) 1 3 ∧ ¬Owns (blk 0) 0 4 ∧ framesOf (blk 0) 0 0x20000 0x10000 = true ∧ 0x20000 % 2 ^ 16 = 0 := by
  refine ⟨⟨by decide, by decide +kernel⟩, fun h => ?_, fun h => absurd h.1 (by decide), by decide +kernel, by decide⟩
  exact absurd h.2 (by decide +kernel)
theorem test_wit_debug : liveThread (one { halted := true }) 0 = true ∧ ((one { halted := true }).thread 0).halted = true ∧ liveThread (one {}) 0 = true ∧
    ((one {}).thread 0).halted = false ∧ OwnsCtx (one {}) 0 ((one {}).ctxOf 0) ∧ ¬OwnsCtx (one {}) 1 ((one {}).ctxOf 0) :=
  ⟨by decide, by decide, by decide, by decide, rfl, by unfold OwnsCtx; decide⟩
theorem test_wit_breakpoint_value : (bpv 3 2).extractLsb' 82 14 = 0 ∧ (bpv 3 2).extractLsb' 65 15 = 0 ∧ (bpv 3 2).extractLsb' 80 2 ≠ 3 := by decide +kernel

/-! Witnesses: the system. -/

theorem test_wit_thermal : (State.reset.die 0).throttled = false ∧ (({ State.reset with dies := [(3, { throttled := true })] } : State).die 3).throttled = true := by decide
/-- An image whose signature verifies, and one whose signature does not. -/
def img (b : Bool) : Firmware := { version := Config.fusedVersion, image := [7], signatureOk := b }
theorem test_wit_image : ((img true).signatureOk = true ∧ Config.fusedVersion ≤ (img true).version) ∧ ¬((img false).signatureOk = true ∧ Config.fusedVersion ≤ (img false).version) :=
  ⟨⟨rfl, Nat.le_refl _⟩, fun h => by cases h.1⟩
theorem test_wit_windows : let v : BitVec 128 := 7
    v.extractLsb' 24 56 = 0 ∧ v.extractLsb' 3 13 = 0 ∧ v.extractLsb' 80 34 = 0 ∧ (v.extractLsb' 16 8).toNat = 0 ∧ windowTaken (blk 0) 0 0 = false ∧
      windowTaken { blk 0 with inbound := [(0, 1)] } 1 0 = true ∧ OwnsCtx (blk 0) 0 0 ∧ (7 : BitVec 128).extractLsb' 4 20 = 0 ∧ (7 : BitVec 128).extractLsb' 104 24 = 0 :=
  ⟨by decide, by decide, by decide, by decide, by decide +kernel, by decide +kernel, rfl, by decide, by decide⟩
theorem test_wit_report : (mapGet? (blk 0).parts 0).isSome = true ∧ (mapGet? (blk 0).parts 1).isNone = true := by decide +kernel
theorem test_wit_frame_owner : framesOf (blk 0) 0 (2 * 2 ^ 16) (2 ^ 16) = true ∧ rangeBusy (blk 0) (2 * 2 ^ 16) (2 ^ 16) = false ∧
    framesOf { blk 0 with ctxs := [(1, { part := 1 })], frames := [(2, { part := 1, ctx := 1 })] } 0 (2 * 2 ^ 16) (2 ^ 16) = false := by decide +kernel
theorem test_wit_page_moves : (match (walk (blk 0) 0 0x20000 .read).2 with
      | .leaf e _ big => decide (e.getLsbD 11 = false ∧ leafPa e big 0 = 0x20000 ∧ big = false)
      | _ => false) = true ∧ framesOf (blk 0) 0 0x30000 0x10000 = true ∧ rangeBusy (walk (blk 0) 0 0x20000 .read).1 0x20000 0x10000 = false ∧
    (match regionLeaves (blk 0) 0 [2] with
      | some (p, [x]) => decide (rangeBusy p x.2.2.1 x.2.2.2.1 = false)
      | _ => false) = true := by decide +kernel

/-! Witnesses: for each step without an encoding, a state at which it completes. -/

theorem test_wit_thread_steps :
    threadHappens (.starvedListJoin 0) (one { w := 512, late := true }) ∧
    threadHappens (.loadResultArrival 0 0) (dv { ops := [opLd], seq := 1 }) ∧
    threadHappens (.variableLatencyResultArrival 0 0) (one { results := [resL false] }) ∧
    threadHappens (.translationWalkComplete 0 0 2) (wk true) ∧ threadHappens (.serviceableFaultServiced 0 none) flt ∧
    threadHappens (.translationShootdown 0 0 0x10000 [0]) (wk true) ∧ threadHappens (.rebase) { one {} with dpc := 2 ^ 62 } ∧
    threadHappens (.ltTick 0) { one {} with clk := 1024 } ∧
    threadHappens (.overflowAreaServiced 0 none) { one {} with cores := [(0, { overflowFull := true })] } ∧
    threadHappens (.rangeWalkStart 0 0) (rf (.rflushRem 6 4 0)) ∧ threadHappens (.serviceTrainAtomic 0) sAt ∧
    threadHappens (.atomicReplyArrival 0 0) (dv { ops := [opAt], seq := 1 }) ∧
    threadHappens (.performedAcknowledgement 0 0) (dv { ops := [opSt], seq := 1 }) ∧
    threadHappens (.performedAcknowledgement 0 0) (dv { bnd := some bn }) ∧ threadHappens (.illegalInstruction) (one {}) := by
  refine ⟨?_, ⟨by decide, by decide, opLd, by decide, by decide, by decide, rfl, by decide +kernel⟩, ⟨by decide, resL false, [], [], ?_, rfl, rfl⟩, ?_, ?_, ?_, ?_, ?_, ?_,
    ⟨opRf (.rflushRem 6 4 0), _, by decide +kernel, rfl, rfl, rfl, by decide +kernel, by decide⟩, ⟨(0, 0x400), by decide +kernel⟩,
    ⟨opAt, by decide, by decide, by decide, by decide⟩, Or.inl ⟨0, opSt, by decide, by decide, by decide +kernel⟩,
    Or.inr ⟨by decide, by decide, bn, rfl, rfl⟩, ?_⟩
  · unfold threadHappens; decide +kernel
  · exact ⟨rfl, rfl, by decide, by decide⟩
  all_goals unfold threadHappens; decide +kernel
theorem test_wit_thread_traps :
    threadHappens (.trapDelivery 0) (withTables (dv { trap := some tr4, tarea := 0x20000, tvec := 0x10000 })) ∧
    threadHappens (.helperFailure 0) (hp { trap := some tr4 } bk0) ∧
    threadHappens (.watchdogExpiry 0) { one { park := .gather 0, wdog := 1 } with clk := 1024 } ∧ threadHappens (.classifierRun 0 2) cls2 := by
  refine ⟨?_, ?_, ?_, 0x02800002000000D1, false, ⟨0x103010, by decide +kernel⟩, by decide +kernel⟩
  all_goals unfold threadHappens; decide +kernel
/-- Every kind of message at the head of a link. -/
theorem test_wit_at_head (k : MsgKind) : atHead (lk 1 0 (mg k) {}) 1 0 k := ⟨by cases k <;> decide, mg k, [], by cases k <;> decide, rfl⟩
theorem test_wit_coherence_steps : coherenceHappens (.edone 0 0x400) (cpS cpW) ∧ coherenceHappens (.dieLinkCrcFailure 1 ⟨0, 5⟩) (lk 1 0 (mg .getS) {}) ∧
    coherenceHappens (.dieLinkLaneFailure 1 ⟨0, 5⟩) (dieLinkPut (one {}) 1 0 { replays := [(5, 8)] }) ∧
    coherenceHappens (.dieLinkRetrainComplete 1 0) (dieLinkPut (one {}) 1 0 { retraining := true }) ∧ coherenceHappens (.patrolScrub { line := 5 }) (one {}) := by
  refine ⟨⟨cpW, 0x400, by decide +kernel, rfl, by decide, by decide, ?_⟩, ?_, ?_, ?_, ?_⟩
  · have h : lenIs 4 (cpBytes (cpS cpW) 0 cpW ((cpW.owned.filter fun l => l.1 = 0x400).map (·.2))).2 = true := by decide +kernel
    revert h
    cases (cpBytes (cpS cpW) 0 cpW ((cpW.owned.filter fun l => l.1 = 0x400).map (·.2))).2 with
    | ok b => exact fun _ => ⟨b, rfl⟩
    | error e => exact fun h => nomatch h
  all_goals unfold coherenceHappens; decide +kernel
/-- No link of a device whose links are as at reset holds its traffic. -/
theorem port_free {s : State} (h : s.fabLinks = []) (p : Option Nat) : portHeld s p = false := by
  cases p with
  | none => rfl
  | some p => simp [portHeld, fabLink, mapGetD, mapGet?, h, FabLink.held]
/-- A flit sent and not acknowledged. -/
def fl0 : Flit := { type := .idle, lane := 0, dest := 0, src := 0, lsn := 0, ack := 0xFFFF, payload := List.replicate 40 0 }
theorem test_wit_fabric_steps :
    fabricHappens (.fabricRequest (rq .load)) rmt ∧ fabricHappens (.fabricReply 5 (.ok [1, 2, 3, 4])) (outs .load 1 false) ∧
    fabricHappens (.fabricAcknowledgement 5 (.ok [])) (outs .store 1 false) ∧ fabricHappens (.noreply 5) (outs .store 1 false) ∧
    fabricHappens (.remoteGiveUp 5) (outs .store 1 false) ∧ fabricHappens (.idleFlit 3 0) { one {} with fabLinks := [(3, {})] } ∧
    fabricHappens (.flitCrcFailure ⟨3, 1⟩) { one {} with fabLinks := [(3, { buffer := [fl0] })] } ∧
    fabricHappens (.serialLaneRetirement ⟨3, 1⟩) { one {} with fabLinks := [(3, { replays := [(1, 8)] })] } ∧
    fabricHappens (.linkRetrainComplete 3) { one {} with fabLinks := [(3, { retraining := true })] } ∧ fabricHappens (.linkDown 0 1) (one {}) ∧
    fabricHappens (.linkUp 0 1) { one {} with down := [1] } ∧ (Config.deviceId ≠ 0 → fabricHappens (.timeFlit 0 0) (one {})) ∧
    (Config.deviceId = 0 → fabricHappens .timeBroadcast (one {})) ∧
    (Config.deviceId ≠ 0 → fabricHappens .timeFlitTimeout { one {} with clk := 25000000 }) ∧
    fabricHappens (.replyCacheExpiry 1 2) { one {} with replies := [{ src := 1, tag := 2, issue := 0, ans := .ok [] }], dt := 60000 } ∧
    fabricHappens (.migrationForwardEnd 2) { one {} with forwards := [{ ctx := 0, page := 2, since := 0 }], clk := 25000 } ∧
    fabricHappens (.writebackFailure 5 6) { one {} with out := [(5, { oq (.masked 1) 1 false with who := [], line := some (0, 9) })] } ∧
    fabricHappens (.snpdata 5) (one {}) ∧ fabricHappens (.snpinv 5) (one {}) ∧ fabricHappens (.snpcur 5) (one {}) ∧
    fabricHappens (.cxlResponse 5 (.ok [1, 2, 3, 4])) (outs .load 1 true) ∧ fabricHappens (.hostInboundRead 0x20000 4) inb ∧
    fabricHappens (.hostInboundWrite 0x20000 [1, 2, 3, 4]) inb :=
  ⟨⟨by decide +kernel, other_lt, other_ne, rfl, port_free rfl _, by simp [firstOfLane, rmt, withTables, dv, one]⟩,
    ⟨oq .load 1 false, rfl, rfl, other_ne, by decide +kernel, port_free rfl _, rfl, by rfl⟩,
    ⟨oq .store 1 false, rfl, rfl, other_ne, by decide +kernel, port_free rfl _, rfl, by rfl⟩,
    ⟨oq .store 1 false, rfl, rfl, other_ne, by decide +kernel, rfl, port_free rfl _⟩,
    ⟨oq .store 1 false, rfl, rfl, by decide +kernel⟩, by unfold fabricHappens; decide, by unfold fabricHappens; decide, by unfold fabricHappens; decide,
    by unfold fabricHappens; decide, by unfold fabricHappens; decide, by unfold fabricHappens; decide, id, fun h => ⟨h, by decide⟩,
    fun h => ⟨h, by decide, by decide⟩, by unfold fabricHappens; decide, by unfold fabricHappens; decide,
    ⟨Or.inr rfl, { oq (.masked 1) 1 false with who := [], line := some (0, 9) }, 1, rfl, rfl, rfl, rfl, Or.inr (by decide +kernel)⟩,
    by unfold fabricHappens; decide, by unfold fabricHappens; decide, by unfold fabricHappens; decide,
    ⟨oq .load 1 true, rfl, rfl, by rfl, fun _ _ h => nomatch h⟩, ⟨0x20000, by decide +kernel⟩, ⟨0x20000, by decide +kernel⟩⟩
theorem okOf {ε α : Type} {x : Except ε α} (h : okE x = true) : ∃ b, x = .ok b := by
  cases x with
  | ok b => exact ⟨b, rfl⟩
  | error e => cases h
theorem test_wit_engine_steps :
    engineHappens (.engineReadDone 0 1) { one {} with cores := [(0, { mxq := [{ mx0 with accepted := true, pins := [2] }], lines := [(1, { early := 1 })] })] } ∧
    engineHappens (.mxAccept 0) { mxS 0 with cores := [(0, { slotQ := 4, mxq := [{ mx0 with block := 0x20000, sampled := true }] })] } ∧
    engineHappens (.mxOperandFault 0) { one {} with cores := [(0, { mxq := [{ mx0 with accepted := true, lost := some (5, 0) }] })] } ∧
    engineHappens (.cpCommandDone 0) (cpS { cp0 with fills := [] }) ∧ engineHappens (.cpFault 0) (cpS { cp0 with stop := some (6, 0) }) ∧
    engineHappens (.escapementArrival 0 0) (es { ops := [opEs], seq := 1 } {}) ∧
    engineHappens (.pushWatchdogExpiry 0 0) { one { ops := [{ opEs with phase := .roomWait }], seq := 1, wdog := 1 } with clk := 1024 } ∧
    engineHappens (.tokenAcceptance 0 0) (one { ops := [opTk], seq := 1 }) :=
  ⟨⟨{ mx0 with accepted := true, pins := [2] }, by decide +kernel, rfl, by decide⟩,
    ⟨{ mx0 with block := 0x20000, sampled := true }, by decide +kernel⟩, by unfold engineHappens; decide +kernel,
    ⟨{ cp0 with fills := [] }, by decide +kernel⟩, ⟨{ cp0 with stop := some (6, 0) }, by decide +kernel⟩, ⟨opEs, 0, by decide +kernel⟩,
    ⟨{ opEs with phase := .roomWait }, by decide +kernel⟩, ⟨opTk, 8, 4, 0, by decide +kernel⟩⟩
theorem test_wit_engine_fills : engineHappens (.scratchFillArrival 0 0) (cpS cp0) ∧
    (∃ x, engineHappens (.fillFailure 0 0 x) { cpS cp0 with frames := [] }) := by
  have h : okE (cpBytes (cpS cp0) 0 cp0 [0]).2 = true := by decide +kernel
  have g : failE (cpBytes { cpS cp0 with frames := [] } 0 cp0 [0]).2 = true := by decide +kernel
  obtain ⟨b, hb⟩ := okOf h
  refine ⟨⟨cp0, b, by decide +kernel, rfl, by decide, by decide +kernel, hb⟩, ?_⟩
  revert g
  cases e : (cpBytes { cpS cp0 with frames := [] } 0 cp0 [0]).2 with
  | ok b => exact fun h => nomatch h
  | error r =>
    cases r with
    | fail x f => exact fun _ => ⟨x, cp0, f, by decide +kernel, rfl, by decide, e⟩
    | _ => exact fun h => nomatch h
/-- A matrix command that runs, all its lines read. -/
def mxR : MxCmd := { mx0 with accepted := true, pb := BitVec.ofNat 512 (pbN 0) }
def mxRun : State := { mxS 0 with cores := [(0, { mxq := [mxR] })], frames := [] }
theorem test_wit_matrix_done : engineHappens (.mxCommandDone 0) mxRun := by
  have h : okE (mxOperands mxRun 0 mxR).2 = true := by decide +kernel
  obtain ⟨x, hx⟩ := okOf h
  exact ⟨mxR, x, by decide +kernel, rfl, rfl, hx⟩
theorem test_wit_copy_accepted : engineHappens (.cpAccept 0 0) (cpA false) :=
  ⟨{ cp0 with accepted := false, shape := 0, fills := [] }, bytesOfNat 64 shp, by decide +kernel, by decide +kernel, by decide +kernel, by decide +kernel,
    by decide +kernel, by decide +kernel, by decide +kernel, [], by decide +kernel⟩
theorem test_wit_queue_fires : engineHappens (.queueFiring 0) qf :=
  ⟨9, xq1, laE, BitVec.ofNat 128 0x1000000010000, by decide +kernel, by decide +kernel, by decide +kernel, by decide +kernel, by decide +kernel⟩
theorem test_wit_launch_steps :
    launchHappens (.gangPlacement 0) q0 ∧
    launchHappens (.unitMigration 0 1 0 0 0) { mig with trains := mig.trains.map fun p => (p.1, if p.1 = 0 then p.2 else { p.2 with lane := 8 }) } ∧
    launchHappens (.taskDispatch 0 0) (td tyGood) ∧ launchHappens (.domainSweep []) State.reset ∧
    launchHappens (.timeSliceExpiry 0 0) (sl tr0 none) ∧ launchHappens (.partialEviction 0 0x40000) (sl tr0 (some 0)) ∧
    launchHappens (.trainRestoration 0) (sl { tr0 with evicted := some 0x40000 } none) := by
  refine ⟨⟨laQ, [], 0, by decide +kernel⟩, ?_, ⟨laE, tk0, [], BitVec.ofNat 128 tyGood, by decide +kernel⟩, by simp [launchHappens, State.reset], ?_,
    ⟨by decide +kernel, by decide +kernel, by decide, Or.inl ⟨by decide +kernel, by decide +kernel, by decide +kernel, by decide +kernel⟩⟩,
    ⟨0x40000, by decide +kernel⟩⟩
  all_goals unfold launchHappens; decide +kernel
theorem test_wit_gang_train_retires : launchHappens (.trainRetire 0) { ret 0 with trains := [(0, { tr0 with slen := 1024 })] } :=
  ⟨⟨by decide +kernel, by decide +kernel, by decide +kernel, by decide +kernel, by decide +kernel⟩, by decide +kernel⟩
theorem test_wit_submitted : launchHappens (.submitLaunch 0 0 0x20000) (blk hdr.toNat) :=
  ⟨rfl, by decide, bytesOfNat 64 hdr.toNat, bytesOfNat 32 role0.toNat, by decide +kernel, by decide +kernel⟩
theorem test_wit_debug_steps :
    systemHappens (.breakpointMatch 0 0 0) (bp 0 0) ∧ systemHappens (.traceSample 0 0) sam ∧
    systemHappens (.checkpointCut 1) { State.reset with ckptOn := true, ckptPeriod := 1, dt := 1000000 } ∧
    systemHappens (.logAreaThreshold 0) { State.reset with dies := [(0, { log := [(0, List.replicate Config.logChunks 0)], logging := true })] } ∧
    systemHappens (.replayGateTimeout 0) gt ∧ systemHappens (.haltRequest 0 0) (one {}) ∧ systemHappens (.debugResume 0 0) (one { halted := true }) ∧
    systemHappens (.setBreakpoint 0 0 (bpv 3 2)) (one {}) ∧ systemHappens (.setCheckpointPeriod 0 1) (one {}) ∧
    systemHappens (.replay 0 1) { State.reset with ckpts := [ck] } := by
  refine ⟨?_, ?_, ?_, ⟨rfl, rfl, test_wit_log_area⟩, ?_, ⟨by decide, by decide, rfl⟩, ⟨by decide, by decide, rfl⟩, ?_, ⟨rfl, by decide, by decide⟩,
    ⟨rfl, ck, by decide +kernel⟩⟩
  · exact ⟨by decide, by decide, by decide, by decide, rfl, by decide, by decide, by decide, by decide⟩
  all_goals unfold systemHappens; decide +kernel
theorem test_wit_system_steps :
    systemHappens (.junction105c 0) State.reset ∧ systemHappens (.thermalRecovery 3) { State.reset with dies := [(3, { throttled := true })] } ∧
    systemHappens (.junction115c 0) State.reset ∧ systemHappens (.deviceReset (img true)) State.reset ∧
    systemHappens (.newFirmwareImage (img true)) { State.reset with recovery := true } ∧ systemHappens (.setLease 0 3 1) (blk 0) ∧
    systemHappens (.readCounters 0 { die := 3 }) (blk 0) ∧ systemHappens (.setTraceRing 0 3 0x20000 0x10000) (blk 0) ∧
    systemHappens (.setSampling 0 3 1024) (blk 0) ∧ systemHappens (.setHostWindow 0 0 0 7) (blk 0) ∧ systemHappens (.setInboundWindow 0 0 7) (blk 0) ∧
    systemHappens (.attestationReport 0 0) (blk 0) ∧ systemHappens (.registerWrite (.root 0) 5) (blk 0) := by
  refine ⟨?_, ?_, ?_, trivial, ?_, ?_, ?_, ?_, ?_, ?_, ?_, ?_, Or.inl ⟨0, Or.inl rfl⟩⟩
  all_goals simp only [systemHappens, Owns, OwnsCtx]
  all_goals decide +kernel
theorem test_wit_page_steps : systemHappens (.ownerTagChange 0 0 2 0) (blk 0) ∧ systemHappens (.pageMigration 0 0 2 0 3) { blk 0 with frames := [(3, { part := 0, ctx := 0 })] } ∧
    systemHappens (.regionModeChange 0 0 2 1 { rm := 0, home := Config.deviceId }) (blk 0) := by
  refine ⟨⟨rfl, by decide +kernel⟩, ⟨0x80000002000000D1, false, ⟨0x103010, by decide +kernel⟩, rfl, by decide +kernel⟩, rfl, by decide, by decide, rfl, ?_⟩
  have h : (match regionLeaves (blk 0) 0 ((List.range 1).map (2 + ·)) with
      | some (p, l) => decide (∀ x ∈ l, rangeBusy p x.2.2.1 x.2.2.2.1 = false)
      | none => false) = true := by decide +kernel
  revert h
  cases e : regionLeaves (blk 0) 0 ((List.range 1).map (2 + ·)) with
  | none => exact fun h => nomatch h
  | some x => exact fun h => ⟨x.1, x.2, rfl, of_decide_eq_true h⟩

/-! The further clauses of statements with several. -/

def resG : Result := { resL true with group := 5 }
theorem test_wit_group_arrives : liveThread (one { results := [resG] }) 0 = true ∧
    standsAt ((one { results := [resG] }).thread 0) 0 [] resG [] ∧ resG.load = true ∧ resG.group ≠ 0 ∧
    firstOf 5 ((one { results := [resG] }).thread 0) [] resG [] := by
  refine ⟨by decide, ⟨rfl, by decide, by decide, by decide⟩, rfl, by decide, rfl, rfl, rfl, fun x hx => nomatch hx⟩
theorem test_wit_message_again :
    let s := dieLinkPut (one {}) 1 0 { fifo := [{ mg .getS with again := true }], last := some (mg .getS, { mg .data with die := 1 }) }
    (dieLink s 1 0).fifo = [{ mg .getS with again := true }] ∧ (dieLink s 1 0).last = some (mg .getS, { mg .data with die := 1 }) ∧
      (dieLink s 1 0).retraining = false := by decide +kernel
/-- A message behind an access of a core that waits at its line. -/
def behindCore : State :=
  { lk 1 0 (mg .getS) { waiting := [.op 0 0] } with threads := [(0, { ops := [{ opLd with phase := .ready }], seq := 1 })] }
theorem test_wit_behind_core : (∃ p, Oldest behindCore p 1 0 .getS (mg .getS)) ∧ (dirGet behindCore 0x400).waiting = [.op 0 0] ∧
    waiterLive behindCore 0x400 (.op 0 0) = true := ⟨⟨_, oldest (r := []) (by decide) rfl (by decide)⟩, by decide +kernel, by decide +kernel⟩
theorem test_wit_fault_other : 96 ≤ 96 ∧ (flt.core 0).misses.filter (·.faulted) = [{ ctx := 1, page := 9, write := false, faulted := true }] ∧
    joined? flt 0 1 9 = [] := by decide +kernel
theorem test_wit_patrol : tierExists (one {}) (.registers 0) = true ∧
    tierExists { one {} with cores := [(0, { l1 := [(7, { leased := true, data := [], wts := 0, rts := 0, dirty := false })] })] } (.l1 0 7) = true := by
  decide +kernel
theorem test_wit_helper_watchdog :
    let th : Thread := { helper := some (1, 0), park := .scratch 0 4 false, wdog := 1 }
    let s : State := { two th {} with clk := 1024, cores := [(0, { lines := [(0, { present := false })] })] }
    liveThread s 0 = true ∧ watchCounts (s.thread 0).park = true ∧ waitDone s 0 = false ∧ (s.thread 0).helper = some (1, 0) ∧
      (s.thread 0).since + (s.thread 0).wdog.toNat * 1024 ≤ s.clk := by decide +kernel
theorem test_wit_hand_waits :
    let s := { one {} with trains := [(0, { tr0 with slen := 1024, task := some tk0 })], cores := [(0, { lines := [(0, { early := 1 })] })] }
    (s.trainOf 0).task ≠ none ∧ rangeQuiet (s.core 0) (s.trainOf 0).sbase (s.trainOf 0).slen = false := by decide +kernel
theorem test_wit_fired_already : ({ State.reset with dies := [(0, { firedAt := 1 })] }.die 0).firedAt = State.reset.clk + 1 := by decide
theorem test_wit_import_mode : importBusy (blk 0) otherDevice (2 * 2 ^ 16) 65536 = false ∧ otherDevice ≠ Config.deviceId ∧ otherDevice < 384 := by
  exact ⟨rfl, other_ne, other_lt⟩
theorem test_wit_edone_arrives :
    let m : Msg := { kind := .eDone, line := 0x2000000 * 24, die := 0 }
    (∃ p, Oldest (dieLinkPut (one {}) 0 1 { fifo := [m] }) p (dieOfCore 0) (homeDie m.line) .eDone m) ∧ dieOfCore 0 ≠ homeDie m.line :=
  ⟨⟨_, oldest (r := []) (by decide) rfl (by decide)⟩, by decide⟩

/-! Witnesses: what a step does next, where bytes stand, the last arrival, records and reads by system software. -/

theorem test_wit_step_due :
    (nextAct { State.reset with clk := 1024 }).2 = some (.rise 0) ∧
    (nextAct ({ one { w := 512, late := true } with cores := [(0, { slotQ := 4 })] } : State)).2 = some (.join 0) ∧
    (nextAct { State.reset with cores := [(0, { samples := [(0, sm0)] })] }).2 = some (.sample 0 0) ∧
    (nextAct { State.reset with dpc := 2 ^ 62 }).2 = some .rebase ∧
    (nextAct { State.reset with
        clk := 25001
        cores := (List.range 96).map fun c => (c, { ticks := 24 })
        fabLinks := [(3, { retraining := true })] }).2 = some (.dropLink 3) := by decide +kernel
/-- A queue to fire on a device with no thread. -/
def qd : State := { qf with threads := [], bundle := [], queues := [(9, { xq1 with tokens := xq1.tokens.map fun k => { k with at' := 0 } })], clk := 0 }
theorem test_wit_step_fires : qd.deviceFault = false ∧ qd.recovery = false ∧ (nextAct qd).2 = some (.fire 0) := by decide +kernel
/-- The thread of `sp` at a line that an engine owns, alone, and with a thread at another PC. -/
def own1 : State := State.modDie sp 0 fun d => { d with dir := [(0x200, { eo := true })] }
def own2 : State :=
  { own1 with threads := own1.threads ++ [(1, { train := 0, pc := 0x10080, tidx := 1, lane := 1 })], mem := memWriteN own1.mem 0x10080 [0xC5, 0x01, 0x00, 0x02] }
theorem test_wit_step_stall :
    (let b := beginStep own1
     let r := fetchAt b 0 0 (b.ctxOf 0) (b.launchOf 0) (b.thread 0).pc.toNat [0]
     formBundle b 0 0 = [0] ∧ r.2 = .stall ∧ issueStopped r.1 0 = false ∧ formBundleBut r.1 0 0 [0, 0] = []) ∧
    (let s := State.modCore sp 0 fun k => { k with qtlb := [], tlb := [] }
     let b := beginStep s
     let r := fetchAt b 0 0 (b.ctxOf 0) (b.launchOf 0) (b.thread 0).pc.toNat [0]
     formBundle b 0 0 = [0] ∧ r.2 = .stall ∧ issueStopped r.1 0 = true) := by decide +kernel
theorem test_wit_step_other :
    let b := beginStep own2
    let r := fetchAt b 0 0 (b.ctxOf 0) (b.launchOf 0) (b.thread 0).pc.toNat [0]
    let r' := fetchAt r.1 0 0 (r.1.ctxOf 1) (r.1.launchOf 1) (r.1.thread 1).pc.toNat [1]
    formBundle b 0 0 = [0] ∧ r.2 = .stall ∧ issueStopped r.1 0 = false ∧
      ([0] ++ (quarterReady r.1 0 0).filter fun v => (b.thread v).pc = (b.thread 0).pc && b.ctxOf v = b.ctxOf 0) = [0, 0] ∧
      formBundleBut r.1 0 0 [0, 0] = [1] ∧ r'.2 = .ok [0xC5, 0x01, 0x00, 0x02] ∧ decodeBytes [0xC5, 0x01, 0x00, 0x02] = .ok (.leave 3 0, 4, []) ∧
      holdAtIssue r'.1 (.leave 3 0) 1 = none := by decide +kernel

/-- A line of which nothing is cached but at its home stands there alone. -/
theorem atHome {s : State} {line : Nat} (h1 : dirGet s line = {}) (h2 : s.links = []) (h3 : ∀ p ∈ s.dies, rdcGet? s p.1 line = none)
    (h4 : ∀ p ∈ s.cores, mapGet? p.2.l1 line = none) (h5 : mapGet? (s.die (homeDie line)).l2 line = none)
    (h6 : ((s.die (homeDie line)).l2.filter fun p => p.1 % 16384 = line % 16384).length < 24) : AtHome s line where
  free := h1
  quiet := by rw [h2]; intro l h; cases h
  noRdc := h3
  noPlain := by intro p hp x hx; rw [h4 p hp] at hx; cases hx
  stands := by rw [h5]; exact h6
theorem test_wit_bytes_stand : AtHome (dv { ops := [opLd], seq := 1 }) (opLd.pa / 128) ∧ opLd.pa % 128 + accessLen opLd.insn ≤ 128 ∧
    (viewOf ((dv { ops := [opLd], seq := 1 }).thread 0) opLd).ws = [] ∧ homeDie (opLd.pa / 128) = dieOfCore ((dv {}).coreOf 0) ∧
    (0x20000 : Nat) / 128 = opLd.pa / 128 ∧ (2 : Nat) ≠ 0 ∧ (0x20000 : Nat) % 128 + [(1 : Byte), 2, 3, 4].length ≤ 128 ∧
    (([(0, 1), (5, 2)] : SMap Byte).map (·.1)).Nodup ∧ ∀ x ∈ ([(0, 1), (5, 2)] : SMap Byte), x.1 < 128 :=
  ⟨atHome (by decide +kernel) rfl (by decide +kernel) (by decide +kernel) (by decide +kernel) (by decide +kernel), by decide +kernel, by decide +kernel,
    by decide +kernel, by decide +kernel, by decide, by decide, by decide, by decide⟩
theorem test_wit_atomics_at_home : ∃ g, (atomGroups sAt.atoms)[0]? = some g ∧ AtHome sAt g.2 ∧ servedLanes sAt g = [aq] ∧ aq.op ≠ 11 ∧ aq.pa % 4 = 0 ∧
    ∃ o, opOf? (sAt.thread aq.thread) aq.seq.toNat = some o ∧ mayPerform (sAt.thread aq.thread) o = true :=
  ⟨(0, 0x400), by decide +kernel, atHome (by decide +kernel) rfl (by decide +kernel) (by decide +kernel) (by decide +kernel) (by decide +kernel), by decide +kernel,
    by decide, by decide, { opAt with value := [] }, by decide +kernel, by decide +kernel⟩
theorem test_wit_host_at_home : AtHome (inboundPieces inb 7 .write 0x20000 4).1 (0x20000 / 128) ∧ AtHome (inboundPieces inb 7 .read 0x20000 4).1 (0x20000 / 128) ∧
    0x20000 % 128 + 4 ≤ 128 := by
  refine ⟨atHome ?_ ?_ ?_ ?_ ?_ ?_, atHome ?_ ?_ ?_ ?_ ?_ ?_, by decide⟩ <;> decide +kernel
/-- Line 0x400 of another die's channel, owned by a command of core 0. -/
def farLine : Nat := 24 * 2 ^ 25
theorem test_wit_owned_homes : homeDie 0x400 = dieOfCore 0 ∧ homeDie farLine ≠ dieOfCore 0 ∧ homeDie farLine < 4 := by decide

theorem test_wit_bar_train_last : let v : Thread := { tidx := 1, park := .gather 0 }
    Alone (two {} v) 0 (.barTrain 0 0) ∧ memberOf (two {} v) 0 0 0 ∧ memberOf (two {} v) 0 0 1 ∧ waitsAt v 0 0 ∧ noBoundary {} ∧ quiet (two {} v) 0 ∧
      nothingToPublish ({} : Thread) ∧ threadFree (two {} v) 0 = true ∧ threadFree (two {} v) 1 = true :=
  ⟨alone rfl (by decide), ⟨⟨(0, {}), by decide, by decide⟩, by decide⟩, ⟨⟨(1, { tidx := 1, park := .gather 0 }), by decide, by decide⟩, by decide⟩,
    by unfold waitsAt; decide, rfl, ⟨by decide, by decide⟩, by unfold nothingToPublish; decide, by decide, by decide⟩
theorem test_wit_ring_wrong : Elected (rs { ri [] with producers := [0], ended := [0] }) (.rgSend 4 0 0) 0 ∧
    ringWrong (.rgSend 4 0 0) (rs { ri [] with producers := [0], ended := [0] }) 0 0 ∧ Elected (one {}) (.rgRecv 0 6 0) 0 ∧ ringWrong (.rgRecv 0 6 0) (one {}) 0 0 ∧
    (0 : BitVec 512).extractLsb' (252 + 16 * 0) 4 = 0 ∧ mapGet? (gangRings 0 0 []) 0 = none ∧ (mapGet? (gangRings (1 <<< 252 : BitVec 512) 0 []) 0).isSome = true :=
  ⟨elected rfl (by decide), Or.inl ⟨⟨0, 0, rfl, Or.inl ⟨4, rfl⟩⟩, Or.inr ⟨_, _, ⟨rfl, rfl, rfl⟩, Or.inl (by decide)⟩⟩, elected rfl (by decide),
    Or.inr ⟨⟨0, 6, 0, rfl, rfl⟩, by
      rintro ⟨l, x, h1, -, h3⟩
      have : la0 = l := Option.some.inj h1
      rw [← this] at h3
      cases h3⟩, by decide +kernel, by decide +kernel, by decide +kernel⟩
theorem test_wit_take_waits : readsOpen ((fired false).thread 0) = false ∧ readsOpen ({ ops := [opLd], seq := 1 } : Thread) = true := by decide +kernel

theorem test_wit_sampled : (issueQuarter { sam with bundle := [] } 0 0).1.bundle = [0] ∧ (sam.die (0 / 24)).sper ≠ 0 ∧ sam.clk % (sam.die (0 / 24)).sper = 0 ∧
    mapGet? (sam.core 0).samples 0 = some sm0 ∧ (sam.die 0).traceLen ≠ 0 := by decide +kernel
/-- A die with a record of this clock, and with records dropped before. -/
def tp (drop len : Nat) : Die := { traceBase := 0x20000, traceLen := len, traceDrop := drop, tracePend := [(0, List.replicate 32 1)] }
theorem test_wit_records : (tp 0 65536).tracePend ≠ [] ∧ (∀ p ∈ (tp 0 65536).tracePend, p.2.length = 32) ∧ (tp 0 65536).traceDrop = 0 ∧
    (tp 0 65536).traceHead + ((tp 0 65536).tracePend.flatMap (·.2)).length ≤ (tp 0 65536).traceLen ∧
    (tp 3 65536).traceDrop ≠ 0 ∧ (tp 3 65536).traceHead + 64 ≤ (tp 3 65536).traceLen ∧ (tp 0 16).traceLen < (tp 0 16).traceHead + 32 ∧
    ([(3, [1])] : List (Nat × List Byte)).Pairwise (fun x y => x.1 ≤ y.1) := by decide +kernel
theorem test_wit_cut_sweep : let s : State := { State.reset with cutDue := some 1 }
    s.cutDue.isSome = true ∧ ([] : List (Bool × Nat × Nat)).length = (s.members.filter (· ≠ Config.deviceId)).length ∧ cutDrained s = true ∧
      cutDrained { one {} with cutDue := some 1, threads := [(0, { ops := [opRm], seq := 1 })] } = false ∧ s.cutSweep ≠ some (0, 0) ∧
      ({ s with cutSweep := some (0, 0) } : State).cutSweep = some (0, 0) ∧ cutDrained { s with cutSwept := true } = true := by
  refine ⟨rfl, by simp [State.reset], ?_, ?_, ?_, rfl, ?_⟩ <;> decide +kernel
theorem test_wit_declined : let s : State := { one {} with cores := [(0, { declined := [((0, 5), metArea 3)] })] }
    ((0, 5), metArea 3) ∈ (s.core 0).declined ∧ ((0, 5), metArea 2) ∉ (s.core 0).declined ∧ 2 ^ 16 < (metArea 3).2 := by decide +kernel
theorem test_wit_reads : let s : State := { one { halted := true, g := [(1, 3)] } with parts := [(0, 15)] }
    Owns s 0 3 ∧ liveThread s 0 = true ∧ (s.thread 0).halted = true ∧ OwnsCtx s 0 (s.ctxOf 0) ∧ ¬OwnsCtx s 1 (s.ctxOf 0) ∧ s.launch? 0 = some la0 ∧ la0.part = 0 ∧
      (8 : Nat) ≤ 9 ∧ 2 * (9 - 8) + 1 < regsOf s 0 :=
  ⟨⟨by decide, by decide +kernel⟩, by decide, by decide, rfl, by unfold OwnsCtx; decide, rfl, rfl, by decide, by decide⟩
theorem test_wit_image_parts : ∀ x ∈ (img true).systems, x.1 ≠ 3 := by decide

/-! The digests (R409, R421): the first values of the published examples. -/

theorem test_crc32c : (crc32c ("123456789".toList.map fun c => BitVec.ofNat 8 c.toNat)) = 0xE3069283 := by decide +kernel
theorem test_sha256 : (sha256 [0x61, 0x62, 0x63]) =
    0xAD1500F261FF10B49C7A1796A36103B02322AE5DDE404141EACF018FBF1678BA := by decide +kernel

/-! Single steps, and the worked examples of the spec. -/

/-- A register after one instruction of one thread with some registers; the flags after it; the values and flags of the results that it
sends. -/
def runG (i : Instr) (l : List (Nat × Word)) (r : Nat) : Option Word := match exec i (one (rg l)) with
  | .next s => some (getG (s.thread 0) r)
  | _ => none
def runF (i : Instr) (l : List (Nat × Word)) : Option Word := match exec i (one (rg l)) with
  | .next s => some (s.thread 0).fstat
  | _ => none
def sent (i : Instr) (l : List (Nat × Word)) : Option (List (List (Nat × Word) × Word)) := match exec i (one (rg l)) with
  | .next s => some ((s.thread 0).results.map fun r => (r.regs, r.flags))
  | _ => none
/-- The cause with which it traps. -/
def causeOf (i : Instr) (s : State) : Option Nat := match exec i s with
  | .next s => (s.thread 0).trap.map (·.cause)
  | _ => none

-- Hand calculation from Tables 10-1 to 10-4.
theorem test_add_wraps : runG (.add 0 6 5 4 0) [(5, 0xFFFFFFFF), (6, 2)] 4 = some 1 := by decide +kernel
theorem test_sub_order : runG (.sub 0 6 5 4 0) [(5, 3), (6, 5)] 4 = some 0xFFFFFFFE := by decide +kernel
theorem test_mulhi_signed : runG (.mulhi 0 6 5 4 0) [(5, 0xFFFFFFFF), (6, 2)] 4 = some 0xFFFFFFFF ∧
    runG (.mulhu 0 6 5 4 0) [(5, 0xFFFFFFFF), (6, 2)] 4 = some 1 := by decide +kernel
theorem test_shl_full_width : runG (.shl 0 6 5 4 0) [(5, 1), (6, 32)] 4 = some 0 := by decide +kernel
theorem test_sar_full_width : runG (.sar 0 6 5 4 0) [(5, 0x80000000), (6, 40)] 4 = some 0xFFFFFFFF := by decide +kernel
theorem test_min_signs : runG (.min 0 6 5 4 0) [(5, 0xFFFFFFFF), (6, 1)] 4 = some 0xFFFFFFFF ∧
    runG (.minu 0 6 5 4 0) [(5, 0xFFFFFFFF), (6, 1)] 4 = some 1 := by decide +kernel
theorem test_add64_carries : runG (.add64 0 6 4 4 0) [(4, 0xFFFFFFFF), (5, 0), (6, 1), (7, 0)] 5 = some 1 := by decide +kernel
theorem test_addw_extends : runG (.addw 0 6 4 4 0) [(4, 0), (5, 1), (6, 0xFFFFFFFF)] 5 = some 0 ∧
    runG (.adduw 0 6 4 4 0) [(4, 0), (5, 1), (6, 0xFFFFFFFF)] 5 = some 1 := by decide +kernel
theorem test_addi_sign : runG (.addi 0x1FFF 5 4 0) [(5, 5)] 4 = some 4 := by decide +kernel
theorem test_li_hi_keeps : runG (.liHi 0xABCD 4 0) [(4, 0x12345678)] 4 = some 0xABCD5678 := by decide +kernel
theorem test_clz_zero : runG (.clz 5 4 0) [(5, 0)] 4 = some 32 := by decide +kernel
theorem test_addsat_clamps : runG (.addsat 6 5 4 0) [(5, 0x7FFFFFFF), (6, 1)] 4 = some 0x7FFFFFFF ∧
    runF (.addsat 6 5 4 0) [(5, 0x7FFFFFFF), (6, 1)] = some 32 := by decide +kernel
theorem test_form_h_reads_d : runG (.subFormH 5 4 0) [(4, 7), (5, 3)] 4 = some 4 := by decide +kernel
-- The source is also the destination, and the guard is false.
theorem test_false_guard : runG (.add 2 4 4 4 0) [(4, 9)] 4 = some 9 := by decide +kernel

-- R221's and R268's example: four values packed.
theorem test_d8_pack : sent (.d8Pack 0 5 4 0) [(4, 0), (5, 0x4048F5C3)] = some [([(4, 0x68)], 16)] ∧
    sent (.d8Pack 1 5 4 0) [(4, 0x68), (5, 0xB9D1B717)] = some [([(4, 0x9568)], 16)] := by decide +kernel
theorem test_d8_pack_saturates : sent (.d8Pack 3 5 4 0) [(4, 0x609568), (5, 0x4EEE6B28)] = some [([(4, 0x1609568)], 48)] ∧
    sent (.d8Pack 2 5 4 0) [(4, 0x9568), (5, 0x3F800000)] = some [([(4, 0x609568)], 0)] := by decide +kernel
theorem test_d8_tie : sent (.d8Pack 0 5 4 0) [(4, 0), (5, 0x3F920000)] = some [([(4, 0x60)], 16)] := by decide +kernel
theorem test_d8_unpack : sent (.d8Unpack 0 5 4 0) [(5, 0x68)] = some [([(4, 0x40500000)], 0)] := by decide +kernel
-- R270's example: three arguments of `fsint`.
theorem test_fsint_quarter : sent (.fsint 5 4 0) [(5, 0x3FA00000)] = some [([(4, 0x3F800000)], 0)] ∧
    sent (.fsint 5 4 0) [(5, 0x4B800001)] = some [([(4, 0)], 0)] := by decide +kernel
theorem test_fsint_small : sent (.fsint 5 4 0) [(5, 0x40400001)] = some [([(4, 0x35C90FDB)], 16)] := by decide +kernel
-- Table 10-17: the reduction of five members, and what the members that leave out thread 6 receive.
def red5 (l : List Nat) : State :=
  { one {} with
    trains := [(0, { tr0 with masks := [(0, 255), (1, 0x6D)] })], bundle := l
    threads := (List.range 8).map fun i => (i, { rg [(9, if i = 0 then 0x3F800000 else if i = 1 ∨ i = 4 ∨ i = 7 then 0x42C80000 else 0x33800000)] with
      tidx := i, lane := i, stage := if l.contains i then 1 else 0 }) }
def redResults (l : List Nat) : Option (List (List (List (Nat × Word) × Word))) := match exec (.redFopF32 1 0 9 8 1) (red5 l) with
  | .next s => some (s.threads.map fun p => p.2.results.map fun r => (r.regs, r.flags))
  | _ => none
theorem test_reduction_tree : redResults [0, 2, 3, 5, 6] = some [[([(8, 0x3F800002)], 16)], [], [([(8, 0x3F800002)], 16)], [([(8, 0x3F800002)], 16)], [],
    [([(8, 0x3F800002)], 16)], [([(8, 0x3F800002)], 16)], []] := by decide +kernel
theorem test_reduction_left : (redTree fp32 0 [0x3F800000, 0x33800000, 0x33800000, 0x33800000]).1 = 0x3F800001 := by decide +kernel
-- Table 8-5 and the example after it: an FP16 and a D8 element.
theorem test_matrix_fp16 :
    let h : List (List Byte) := List.replicate 8 [0x00, 0x38]
    mxOut (BitVec.ofNat 512 (2 + 16)) [] [] 0 0 (some 0x4B800000) h h = (0x4B800000, 16) := by decide +kernel
theorem test_matrix_d8 :
    mxOut (0 : BitVec 512) [2, 0, 0, 0, 0, 0, 0, 0] [0, 0, 0, 0, 0, 0, 0, 0] 0 0 none (List.replicate 64 [0x60]) (List.replicate 64 [0x68]) =
      (0x46242000, 0) := by decide +kernel
-- The example of R339: seven constraints, three batches.
def pushed : Option Stream := [[1, 2], [2, 3], [4, 5], [1, 6], [3, 7], [8], [6, 9]].foldl (fun (x : Option Stream) b =>
  x.bind fun y => y.arrive (.escIn 8 4 (BitVec.ofNat 3 b.length) 2 0) (bytesOfNat 4 0 ++ b.flatMap (bytesOfNat 4)) 0) (some { st := .open' })
theorem test_batches_open : pushed.map (fun x => (x.openBatch.map (·.slot), x.wait.map (·.slot))) = some ([0, 2, 5], [1, 3, 4, 6]) := by decide +kernel
theorem test_batches_closed : (pushed.bind fun x => x.arrive (.escEnd 2 0) [] 0).map (fun x => (x.released.map (·.slot), x.closed.map fun b => b.map (·.slot))) =
    some ([0, 2, 5], [[1, 3], [4, 6]]) := by decide +kernel

-- Rule of a trap: an odd target (R231), a misaligned scratch access (R275), an undecodable instruction (R188), privilege (R324).
theorem test_odd_target : causeOf (.jr 4 0) (one (at4 0x10001)) = some 4 := by decide +kernel
theorem test_scratch_misaligned : causeOf (.ld 0 2 0 4 6 0) (one (at4 2)) = some 4 := by decide +kernel
theorem test_illegal : causeOf .illegalInstruction (one {}) = some 1 := by decide +kernel
theorem test_breakpoint_cause : causeOf (.brk 5 0) (one {}) = some 17 := by decide +kernel
-- An older load still under way does not find the bytes of a younger weak store; the thread's write set holds them (R81, R119).
theorem test_older_load_sees_before :
    let th := { at4 0x20000 with ops := [{ opLd with kind := 0x10, insn := .ld 0 2 1 4 5 0 }], seq := 1 }
    (match exec (.st 0 2 1 4 6 0) (dv th) with
      | .next s => (opOf? (s.thread 0) 0).map (·.seen) == some (some []) && ownByte (s.thread 0) 0x20000 == some 77
      | _ => false) = true := by decide +kernel
-- Writes of system registers (R420, R404, log entry 17).
theorem test_wit_registers : (3 : Nat) < 384 ∧ (∀ m ∈ rm.members, m < 384) ∧ (2 : Nat) < 256 ∧ (7 : Nat) < 8 := by decide
theorem test_aperture_word :
    (match exec (.registerWrite (.aperture 2 1) 5) State.reset with
      | .next s => mapGet? s.apertures 2 == some (5#512 <<< 64)
      | _ => false) = true := by decide +kernel
theorem test_halted_register :
    (match exec (.registerWrite (.thread 0 0 9) 0x0000000800000007) (one { g := [(1, 3)], halted := true }) with
      | .next s => [0, 1, 2, 3].map (getG (s.thread 0)) == [0, 3, 7, 8]
      | _ => false) = true := by decide +kernel

end Sys2Proof.Tests
end

section
/-! SUPPORT. What the issue of an instruction leaves: a thread at any PC, a result on its way, a precise trap raised (R171, R182, R183, R369). -/

namespace Sys2Proof.Machine
open Sys2Proof Sys2Proof.Claims

/-! Threads that issue and change alone. -/

/-- A thread that issues alone, where its body changes that thread and nothing else. -/
theorem issueEach_alone_modThread {i : Instr} {body : State → Nat → State} {f : Thread → Thread} {post : Thread → Thread → Prop}
    {s : State} {t : Nat} (h : Alone s t i) (hb : body (s.modThread t (passMarker i)) t = s.modThread t f)
    (hp : post (s.thread t) (f (s.thread t))) :
    ∃ s', issueEach i body s = .next s' ∧ OnlyThreads s s' ∧ EachThread s s' post := by
  refine ⟨_, issueEach_run i body s t h, ?_⟩
  rw [hb]
  refine ⟨⟨rfl, fun _ => rfl⟩, fun u hu => ?_, fun u hu => ?_⟩
  · obtain rfl : u = t := by simpa [h.1] using hu
    change post _ ((s.modThread u f).thread u)
    rwa [State.thread_modThread, if_pos rfl]
  · have hne : u ≠ t := by simpa [h.1] using hu
    change (s.modThread t f).thread u = _
    rw [State.thread_modThread, if_neg hne]

/-- A bundle whose threads may issue, where the body changes each thread by a function of itself. -/
theorem issueEach_ready_modThread {i : Instr} {body : State → Nat → State} {f : Thread → Thread} {post : Thread → Thread → Prop}
    {s : State} (h : Ready s i) (hb : ∀ (s' : State) (t : Nat), body s' t = s'.modThread t f) (hp : ∀ th, post th (f (passMarker i th))) :
    ∃ s', issueEach i body s = .next s' ∧ OnlyThreads s s' ∧ EachThread s s' post := by
  obtain ⟨s', h1, h2, h3, h4⟩ := issueEach_threads i body f s h hb
  exact ⟨s', h1, h2, fun u hu => h3 u hu ▸ hp _, h4⟩

/-! A thread past its instruction, at any PC. -/

theorem pcAfter_passMarker (i : Instr) (th : Thread) : pcAfter (passMarker i th) i = nextPc i th := by rw [passMarker_eq]; rfl
theorem pc_passMarker (i : Instr) (th : Thread) : (passMarker i th).pc = th.pc := by rw [passMarker_eq]

/-- `completed_of` at a PC of the instruction's own. -/
theorem completed_goTo {i : Instr} {th x : Thread} {regs : List (Nat × Word)} (pc : Addr)
    (hx : x = { passMarker i th with g := x.g }) (hr : ∀ r, getG x r = mapGetD regs r (getG th r)) :
    Completed i th (goTo x pc) pc regs [] 0 := by
  rw [passMarker_eq] at hx
  refine ⟨hr, getQ_same th _ ?_, ?_, ?_, ?_⟩
  all_goals
    rw [hx]
    simp [goTo, issued]

/-- A thread that has written nothing and stands at a new PC. -/
theorem completed_goTo_passMarker (i : Instr) (th : Thread) (pc : Addr) : Completed i th (goTo (passMarker i th) pc) pc [] [] 0 :=
  completed_goTo pc rfl (getG_passMarker i th)
theorem completed_past_passMarker (i : Instr) (th : Thread) : Completed i th (past i (passMarker i th)) (nextPc i th) [] [] 0 := by
  rw [past, pcAfter_passMarker]
  exact completed_goTo_passMarker i th _
/-- A thread that has written a pair and stands at a new PC. -/
theorem completed_goTo_setX (i : Instr) (th : Thread) (d : Nat) (v : DWord) (pc : Addr) :
    Completed i th (goTo (setX (passMarker i th) d v) pc) pc [(d, v.setWidth 32), (d + 1, v.extractLsb' 32 32)] [] 0 :=
  completed_goTo pc rfl fun r => by rw [getG_setX_map, getG_passMarker]

/-- A thread that issues alone and goes on to a PC, with nothing written. -/
theorem issueEach_alone_goTo {i : Instr} {body : State → Nat → State} {pc : Thread → Addr} {s : State} {t : Nat} (h : Alone s t i)
    (hb : body (s.modThread t (passMarker i)) t = (s.modThread t (passMarker i)).modThread t fun th => goTo th (pc th))
    (hpc : ∀ th, pc (passMarker i th) = pc th) :
    ∃ s', issueEach i body s = .next s' ∧ OnlyThreads s s' ∧ EachThread s s' fun th th' => Completed i th th' (pc th) [] [] 0 := by
  refine issueEach_alone_modThread h (hb.trans (State.modThread_modThread _ _ _ _)) ?_
  rw [hpc]
  exact completed_goTo_passMarker i _ _

/-! A result on its way (R182 to R184). -/

theorem getLsbD_one_shiftLeft {n : Nat} (i k : Nat) (hk : k < n) : (1#n <<< i).getLsbD k = (i == k) := by
  rw [BitVec.getLsbD_shiftLeft]
  rcases Nat.lt_trichotomy k i with h | h | h
  · simp [h, Nat.ne_of_gt h]
  · subst h
    have hn : 0 < n := by omega
    simp [hk, hn]
  · have : k - i ≠ 0 := by omega
    simp [this, Nat.ne_of_lt h]
/-- A pending register: it was pending, or the result names it. -/
theorem pendGs_pendG (l : List Nat) (th : Thread) (k : Nat) (hk : k < 64) :
    (pendGs th l).pendG.getLsbD k = (th.pendG.getLsbD k || l.contains k) := by
  change (l.foldl _ th.pendG).getLsbD k = _
  generalize th.pendG = p
  induction l generalizing p with
  | nil => simp
  | cons i l ih => rw [List.foldl_cons, ih, BitVec.getLsbD_or, getLsbD_one_shiftLeft i k hk, List.contains_cons, Bool.or_assoc, Bool.beq_comm]
/-- A pending predicate: it was pending, or it is not q0 and the result names it. -/
theorem pendQs_pendQ (l : List Nat) (th : Thread) (k : Nat) (hk : k < 8) :
    (pendQs th l).pendQ.getLsbD k = (th.pendQ.getLsbD k || (decide (k ≠ 0) && l.contains k)) := by
  change (l.foldl _ th.pendQ).getLsbD k = _
  generalize th.pendQ = p
  induction l generalizing p with
  | nil => simp
  | cons i l ih =>
    rw [List.foldl_cons, ih, List.contains_cons]
    split
    next h =>
      subst h
      by_cases hk0 : k = 0
      · simp [hk0]
      · rw [beq_eq_false_iff_ne.2 hk0, Bool.false_or]
    next h =>
      rw [BitVec.getLsbD_or, getLsbD_one_shiftLeft i k hk]
      by_cases hk0 : k = 0
      · simp [hk0, h]
      · rw [Bool.beq_comm (a := i)]
        simp only [hk0, ne_eq, not_false_eq_true, decide_true, Bool.true_and, Bool.or_assoc]
/-- A variable-latency instruction has sent its result. -/
theorem sent_past_putResult (i : Instr) (th : Thread) (r : Result) : Sent i th (past i (putResult (passMarker i th) r)) r := by
  refine ⟨fun k hk => ?_, fun k hk => ?_, ?_⟩
  · have hp : (passMarker i th).pendG = (issued i th th.pc).pendG := by rw [passMarker_eq]
    rw [← hp]
    exact pendGs_pendG _ _ k hk
  · have hp : (passMarker i th).pendQ = (issued i th th.pc).pendQ := by rw [passMarker_eq]
    rw [← hp]
    exact pendQs_pendQ _ _ k hk
  · rw [passMarker_eq]
    rfl

/-! What a trap leaves of the state (R178, R181, R367). -/

/-- Threads whose gathering begins anew. -/
def gatherAnew (l : List Nat) (s : State) : State := l.foldl (fun s u => s.modThread u fun th => { th with stage := 0 }) s
theorem gatherAnew_rest (l : List Nat) (s : State) : gatherAnew l s = { s with threads := (gatherAnew l s).threads } := by
  unfold gatherAnew
  induction l generalizing s with
  | nil => rfl
  | cons u l ih => rw [List.foldl_cons, ih]; rfl
theorem gatherAnew_mem (l : List Nat) (s : State) : (gatherAnew l s).mem = s.mem := by rw [gatherAnew_rest]
theorem gatherAnew_scratch (l : List Nat) (s : State) (c : Nat) : ((gatherAnew l s).core c).scratch = (s.core c).scratch := by
  rw [gatherAnew_rest]
  rfl
theorem gatherAnew_thread (l : List Nat) (s : State) (v : Nat) :
    (gatherAnew l s).thread v = s.thread v ∨ (gatherAnew l s).thread v = { s.thread v with stage := 0 } := by
  unfold gatherAnew
  induction l generalizing s with
  | nil => exact .inl rfl
  | cons u l ih =>
    rw [List.foldl_cons]
    have hu := State.thread_modThread s u v fun th => { th with stage := 0 }
    by_cases h : v = u
    · subst h
      rw [if_pos rfl] at hu
      have := ih (s.modThread v fun th => { th with stage := 0 })
      rw [hu] at this
      exact .inr (this.elim id id)
    · rw [if_neg h] at hu
      rw [← hu]
      exact ih _
theorem dissolve_thread (s : State) (t v : Nat) :
    (dissolve s t).thread v = s.thread v ∨ (dissolve s t).thread v = { s.thread v with stage := 0 } := by
  unfold dissolve
  split
  · exact gatherAnew_thread _ s v
  · exact .inl rfl
theorem dissolve_sameBytes (s : State) (t : Nat) : SameBytes s (dissolve s t) := by
  unfold dissolve
  split
  · refine ⟨fun a => congrArg (memRead · a) (gatherAnew_mem _ s), fun d a => ?_⟩
    rw [State.core_modCore]
    split
    next h => subst h; exact congrArg (memRead · a) (gatherAnew_scratch _ s _)
    next => exact congrArg (memRead · a) (gatherAnew_scratch _ s _)
  · exact ⟨fun _ => rfl, fun _ _ => rfl⟩
theorem withdraw_thread (s : State) (t v : Nat) :
    (withdraw s t).thread v = s.thread v ∨ (withdraw s t).thread v = { s.thread v with stage := 0 } := dissolve_thread s t v
theorem withdraw_sameBytes (s : State) (t : Nat) : SameBytes s (withdraw s t) := dissolve_sameBytes s t

/-- A precise trap that does not overflow (R330, R369, R370). -/
theorem raise_eq {s : State} {t : Nat} (c : Nat) (fa : DWord) (h : takesTraps (s.thread t)) :
    raise s t c fa = (withdraw s t).modThread t fun th =>
      { th with trap := some { cause := c, pc := th.pc, rpc := (s.thread t).pc, faddr := fa }, park := .none, bnd := none, stage := 0 } := by
  refine if_neg ?_
  rcases h with h | h
  · simp [Option.isNone_eq_false_iff.2 h]
  · simp [h]
/-- What is left of a thread whose marker has passed already. -/
theorem issued_of_passMarker {i : Instr} {th : Thread} (hm : passMarker i th = th) (pc : Addr) :
    issued i th pc = { th with pc := pc, park := .none, bnd := none, stage := 0, passed := 0 } := by
  by_cases h : (operands i).mark = true
  · rw [passMarker, if_pos h] at hm
    have hg : th.pendG = 0 := (congrArg Thread.pendG hm).symm
    have hq : th.pendQ = 0 := (congrArg Thread.pendQ hm).symm
    simp only [issued, if_pos h, hg, hq]
  · simp only [issued, if_neg h]
/-- A precise trap raised at an instruction whose marker has passed. -/
theorem raise_trapped {i : Instr} {s : State} {t : Nat} (c : Nat) (fa : DWord) (h : takesTraps (s.thread t))
    (hm : passMarker i (s.thread t) = s.thread t) :
    Trapped i s { raise s t c fa with bundle := [] } t c fa (s.thread t).pc := by
  have ht : ∀ v, (raise s t c fa).thread v = _ := fun v => by rw [raise_eq c fa h, State.thread_modThread]
  have hb : SameBytes s (raise s t c fa) := by rw [raise_eq c fa h]; exact withdraw_sameBytes s t
  generalize raise s t c fa = s1 at ht hb ⊢
  refine ⟨(ht t).trans ?_, fun v hv => ?_, hb⟩
  · rw [if_pos rfl, issued_of_passMarker hm]
    rcases withdraw_thread s t t with e | e <;> rw [e]
  · have hv' := ht v
    rw [if_neg hv] at hv'
    have := withdraw_thread s t v
    rwa [← hv'] at this

theorem passMarker_passMarker (i : Instr) (th : Thread) : passMarker i (passMarker i th) = passMarker i th := by
  unfold passMarker clearPending
  split <;> rfl
theorem takesTraps_passMarker {i : Instr} {th : Thread} (h : takesTraps th) : takesTraps (passMarker i th) := by
  rw [passMarker_eq]; exact h
/-- A thread's marker passed before its trap leaves what the trap says of the thread. -/
theorem Trapped.of_passMarker {i : Instr} {s s' : State} {t c : Nat} {fa : DWord} {rpc : Addr}
    (h : Trapped i (s.modThread t (passMarker i)) s' t c fa rpc) : Trapped i s s' t c fa rpc := by
  obtain ⟨ht, ho, hb⟩ := h
  refine ⟨?_, fun v hv => ?_, hb⟩
  · rw [ht, State.thread_modThread, if_pos rfl, passMarker_eq]
    unfold issued
    split <;> simp
  · have := ho v hv
    rwa [State.thread_modThread, if_neg hv] at this

/-- A thread that issues alone and raises a precise trap. -/
theorem issueEach_alone_raise {i : Instr} {body : State → Nat → State} {s : State} {t c : Nat} {fa : DWord} (h : Alone s t i)
    (ht : takesTraps (s.thread t)) (hb : body (s.modThread t (passMarker i)) t = raise (s.modThread t (passMarker i)) t c fa) :
    ∃ s', issueEach i body s = .next s' ∧ Trapped i s s' t c fa (s.thread t).pc := by
  have hp : (s.modThread t (passMarker i)).thread t = passMarker i (s.thread t) := by rw [State.thread_modThread, if_pos rfl]
  have h1 := raise_trapped (i := i) (s := s.modThread t (passMarker i)) (t := t) c fa
    (by rw [hp]; exact takesTraps_passMarker ht) (by rw [hp, passMarker_passMarker])
  rw [hp, pc_passMarker] at h1
  refine ⟨_, issueEach_run i body s t h, ?_⟩
  rw [hb]
  exact Trapped.of_passMarker h1

end Sys2Proof.Machine
end

section
/-! SUPPORT. What the memory system leaves of the threads: the coherence of lines, walks and fetches keep them, but for a classifier run,
which keeps their pending bits (R23, R183). One lemma for each operation, in the order of the model. -/

namespace Sys2Proof.Machine
open Sys2Proof

/-- A loop over steps that keep the threads. -/
@[simp] theorem foldl_threads {α : Type} {g : State → α → State} (hg : ∀ s a, (g s a).threads = s.threads) (l : List α) (s : State) :
    (l.foldl g s).threads = s.threads := by
  induction l generalizing s with
  | nil => rfl
  | cons a l ih => rw [List.foldl_cons, ih, hg]

/-! The ports and the L2 (R54, R72, R145). -/

@[simp] theorem sendFlits_threads (s : State) (port : Option Nat) (type : FlitType) (dest lane : Nat) (bytes : List Byte) :
    (sendFlits s port type dest lane bytes).threads = s.threads := rfl
@[simp] theorem State.fresh_threads (s : State) : (State.fresh s).threads = s.threads := rfl
@[simp] theorem l2Evict_threads (s : State) (h line : Nat) : (l2Evict s h line).threads = s.threads := by
  unfold l2Evict
  (repeat' split) <;> simp
@[simp] theorem l2Room_threads (s : State) (h line : Nat) : (l2Room s h line).threads = s.threads := by
  unfold l2Room
  dsimp only
  split <;> simp
@[simp] theorem l2Fill_threads (s : State) (line : Nat) : (l2Fill s line).threads = s.threads := by
  unfold l2Fill
  dsimp only
  split <;> simp
@[simp] theorem l2Put_threads (s : State) (line : Nat) (x : L2Line) : (l2Put s line x).threads = s.threads := by simp [l2Put]

/-! Links between dies and the directory (R85, R88, R97). -/

@[simp] theorem sendMsg_threads (s : State) (src dst : Nat) (m : Msg) : (sendMsg s src dst m).threads = s.threads := rfl
@[simp] theorem sendAll_threads (s : State) (src : Nat) (m : Msg) (l : List Nat) : (sendAll s src m l).threads = s.threads := by
  induction l generalizing s with
  | nil => rfl
  | cons d l ih =>
    rw [sendAll, ih, sendMsg_threads]
@[simp] theorem dirSet_threads (s : State) (line : Nat) (e : DirEntry) : (dirSet s line e).threads = s.threads := rfl
@[simp] theorem dirPut_threads (s : State) (line : Nat) (e : DirEntry) : (dirPut s line e).threads = s.threads := rfl

/-! Remote-data caches (R54, R89, R103). -/

@[simp] theorem rdcPut_threads (s : State) (d key : Nat) (x : RdcLine) : (rdcPut s d key x).threads = s.threads := rfl
@[simp] theorem rdcDrop_threads (s : State) (d key : Nat) : (rdcDrop s d key).threads = s.threads := rfl
@[simp] theorem dropElsewhere_threads (s : State) (d key : Nat) : (dropElsewhere s d key).threads = s.threads :=
  foldl_threads (fun s e => rdcDrop_threads s e key) _ s
@[simp] theorem pushOut_threads (s : State) (r : OutReq) : (pushOut s r).threads = s.threads := rfl
@[simp] theorem sendRequest_threads (s : State) (go : Bool) (r : OutReq) : (sendRequest s go r).threads = s.threads := rfl
@[simp] theorem sendOut_threads (s : State) (r : OutReq) : (sendOut s r).threads = s.threads := by
  unfold sendOut
  dsimp only
  (repeat' split) <;> simp
@[simp] theorem plainHome_threads (s : State) (line : Nat) (data : List Byte) : (plainHome s line data).threads = s.threads := by simp [plainHome]
@[simp] theorem evictNotice_threads (s : State) (d key : Nat) (x : RdcLine) (k : MsgKind) :
    (evictNotice s d key x k).threads = s.threads := rfl
@[simp] theorem rdcEvict_threads (s : State) (d key : Nat) (x : RdcLine) : (rdcEvict s d key x).threads = s.threads := by
  unfold rdcEvict
  (repeat' split) <;> simp
@[simp] theorem rdcWaits_threads (s : State) (d key : Nat) (x : RdcLine) : (rdcWaits s d key x).threads = s.threads := rfl
@[simp] theorem rdcEnter_threads (s : State) (d key : Nat) (x : RdcLine) : (rdcEnter s d key x).threads = s.threads := by
  unfold rdcEnter
  split <;> simp
@[simp] theorem rdcInstall_threads (s : State) (d key : Nat) (x : RdcLine) : (rdcInstall s d key x).threads = s.threads := by
  unfold rdcInstall
  (repeat' split) <;> simp
@[simp] theorem rdcUsed_threads (s : State) (d key : Nat) : (rdcUsed s d key).threads = s.threads := by
  unfold rdcUsed
  (repeat' split) <;> simp

/-! Transactions of the directory (R86, R90, R94, R96). -/

@[simp] theorem privFree_threads (s : State) (line : Nat) : (privFree s line).threads = s.threads := rfl
@[simp] theorem mergeHome_threads (s : State) (line : Nat) : (mergeHome s line).threads = s.threads := by
  unfold mergeHome
  dsimp only
  (repeat' split) <;> simp
@[simp] theorem grantData_threads (s : State) (line d : Nat) (g : RdcSt) (withData : Bool) (rts : Nat) :
    (grantData s line d g withData rts).threads = s.threads := by simp [grantData]
@[simp] theorem closeTrans_threads (s : State) (line : Nat) : (closeTrans s line).threads = s.threads := by
  unfold closeTrans
  dsimp only
  (repeat' split) <;> simp
@[simp] theorem openTrans_threads (s : State) (line : Nat) (t : Trans) (await : List Nat) :
    (openTrans s line t await).threads = s.threads := by
  unfold openTrans
  split <;> simp
@[simp] theorem collapse_threads (s : State) (line : Nat) : (collapse s line).threads = s.threads := by
  unfold collapse
  dsimp only
  split <;> simp
@[simp] theorem recallShared_threads (s : State) (line : Nat) : (recallShared s line).threads = s.threads := by simp [recallShared]
@[simp] theorem filterRoom_threads (s : State) (line : Nat) : (filterRoom s line).1.threads = s.threads := by
  unfold filterRoom
  dsimp only
  (repeat' split) <;> simp

/-! Requests at the home (Table 3-5). -/

@[simp] theorem privPut_threads (s : State) (line : Nat) (p : PrivEntry) : (privPut s line p).threads = s.threads := rfl
@[simp] theorem requeue_threads (s : State) (line : Nat) (m : Msg) : (requeue s line m).threads = s.threads := rfl
@[simp] theorem homeGetS_threads (s : State) (line d lt : Nat) : (homeGetS s line d lt).threads = s.threads := by
  unfold homeGetS
  dsimp only
  split <;> simp
@[simp] theorem enterPriv_threads (s : State) (line d : Nat) (m : BitVec 128) : (enterPriv s line d m).threads = s.threads := by simp [enterPriv]
@[simp] theorem homeGetX_threads (s : State) (line d lt : Nat) (m : BitVec 128) (upg : Bool) :
    (homeGetX s line d lt m upg).threads = s.threads := by
  unfold homeGetX
  dsimp only
  (repeat' split) <;> simp
@[simp] theorem homeClaim_threads (s : State) (line d lt : Nat) (m : BitVec 128) (write : Bool) :
    (homeClaim s line d lt m write).threads = s.threads := by
  unfold homeClaim
  dsimp only
  (repeat' split) <;> simp
@[simp] theorem l2Times_threads (s : State) (line wts rts : Nat) : (l2Times s line wts rts).threads = s.threads := by simp [l2Times]
@[simp] theorem homeEvict_threads (s : State) (m : Msg) : (homeEvict s m).threads = s.threads := by
  unfold homeEvict
  dsimp only
  (repeat' split) <;> simp
@[simp] theorem homeRequest_threads (s : State) (m : Msg) : (homeRequest s m).threads = s.threads := by
  unfold homeRequest
  split <;> simp
@[simp] theorem drain_threads (s : State) (line : Nat) (n : Nat) : (drain s line n).threads = s.threads := by
  induction n generalizing s with
  | zero => rfl
  | succ n ih =>
    unfold drain
    dsimp only
    (repeat' split) <;> simp [ih]
@[simp] theorem drainAll_threads (s : State) (line : Nat) : (drainAll s line).threads = s.threads := by simp [drainAll]
@[simp] theorem arriveRequest_threads (s : State) (m : Msg) : (arriveRequest s m).threads = s.threads := by
  unfold arriveRequest
  dsimp only
  split <;> simp
@[simp] theorem goOn_threads (s : State) (line : Nat) : (goOn s line).threads = s.threads := by simp [goOn]
@[simp] theorem answer_threads (s : State) (line d : Nat) : (answer s line d).threads = s.threads := by
  unfold answer
  dsimp only
  split <;> simp

/-! Messages at their receivers (Tables 3-4 and 3-5). -/

@[simp] theorem recvFwdS_threads (s : State) (d : Nat) (m : Msg) : (recvFwdS s d m).threads = s.threads := by
  unfold recvFwdS
  (repeat' split) <;> simp
@[simp] theorem recvFwdX_threads (s : State) (d : Nat) (m : Msg) : (recvFwdX s d m).threads = s.threads := by
  unfold recvFwdX
  (repeat' split) <;> simp
@[simp] theorem recvFAck_threads (s : State) (m : Msg) : (recvFAck s m).threads = s.threads := by
  unfold recvFAck
  dsimp only
  (repeat' split) <;> simp
@[simp] theorem recvInv_threads (s : State) (d : Nat) (m : Msg) : (recvInv s d m).threads = s.threads := by
  unfold recvInv
  (repeat' split) <;> simp
@[simp] theorem recvRecall_threads (s : State) (d : Nat) (m : Msg) (drop : Bool) : (recvRecall s d m drop).threads = s.threads := by
  unfold recvRecall
  (repeat' split) <;> simp
@[simp] theorem recvRData_threads (s : State) (d : Nat) (m : Msg) : (recvRData s d m).threads = s.threads := by
  unfold recvRData
  split <;> simp
@[simp] theorem recvMerge_threads (s : State) (d : Nat) (m : Msg) : (recvMerge s d m).threads = s.threads := by
  unfold recvMerge
  (repeat' split) <;> simp
@[simp] theorem recvMData_threads (s : State) (d : Nat) (m : Msg) : (recvMData s d m).threads = s.threads := by
  unfold recvMData
  split <;> simp
@[simp] theorem copyMsg_threads (s : State) (d : Nat) (m : Msg) : (copyMsg s d m).threads = s.threads := by
  unfold copyMsg
  split <;> simp
@[simp] theorem arriveCopy_threads (s : State) (src d : Nat) (m : Msg) : (arriveCopy s src d m).threads = s.threads := by
  unfold arriveCopy
  split <;> simp
@[simp] theorem recvData_threads (s : State) (d : Nat) (m : Msg) : (recvData s d m).threads = s.threads := by
  unfold recvData
  dsimp only
  (repeat' split) <;> simp
@[simp] theorem disown_threads (s : State) (line : Nat) : (disown s line).threads = s.threads := by simp [disown]
@[simp] theorem handleMsg_threads (s : State) (src dst : Nat) (m : Msg) : (handleMsg s src dst m).threads = s.threads := by
  unfold handleMsg
  split <;> simp
@[simp] theorem dieLinkPut_threads (s : State) (src dst : Nat) (l : DieLink) : (dieLinkPut s src dst l).threads = s.threads := rfl
@[simp] theorem takeMsg_threads (s : State) (src dst : Nat) (m : Msg) : (takeMsg s src dst m).threads = s.threads := by
  unfold takeMsg
  dsimp only
  (repeat' split) <;> simp

/-! Settlement, and the bytes that stand (R74, R76). -/

@[simp] theorem deliverAll_threads (s : State) (line : Nat) (n : Nat) : (deliverAll s line n).threads = s.threads := by
  induction n generalizing s with
  | zero => rfl
  | succ n ih =>
    unfold deliverAll
    split <;> simp [ih]
@[simp] theorem settleGo_threads (s : State) (line : Nat) (write : Bool) (n : Nat) : (settleGo s line write n).threads = s.threads := by
  induction n generalizing s with
  | zero => rfl
  | succ n ih =>
    unfold settleGo
    dsimp only
    (repeat' split) <;> simp [ih]
@[simp] theorem settle_threads (s : State) (line : Nat) (write : Bool) : (settle s line write).threads = s.threads := by simp [settle]
@[simp] theorem l1Update_threads (s : State) (c line : Nat) (data : List Byte) (t : Nat) :
    (l1Update s c line data t).threads = s.threads := by
  unfold l1Update
  (repeat' split) <;> simp
@[simp] theorem storeHome_threads (s : State) (c line : Nat) (b : SMap Byte) : (storeHome s c line b).1.threads = s.threads := by simp [storeHome]
@[simp] theorem l1Drop_threads (s : State) (c line : Nat) : (l1Drop s c line).threads = s.threads := by
  unfold l1Drop
  (repeat' split) <;> simp
@[simp] theorem settlePlain_threads (s : State) (line : Nat) (write : Bool) : (settlePlain s line write).threads = s.threads := by
  unfold settlePlain
  dsimp only
  rw [foldl_threads, foldl_threads]
  all_goals
    intro s p
    repeat' split
    all_goals simp
@[simp] theorem settleAll_threads (s : State) (line : Nat) (write : Bool) : (settleAll s line write).threads = s.threads := by simp [settleAll]
@[simp] theorem loopFlush_threads (s : State) (pa len : Nat) : (loopFlush s pa len).threads = s.threads := by
  unfold loopFlush
  refine foldl_threads (fun s x => ?_) _ _
  dsimp only
  split <;> simp
@[simp] theorem settleRead_threads (s : State) (line : Nat) : (settleRead s line).1.threads = s.threads := by simp [settleRead]
@[simp] theorem physReadGo_threads (s : State) (pa : Nat) (n : Nat) (b : List Byte) : (physReadGo s pa n b).1.threads = s.threads := by
  induction n generalizing s pa b with
  | zero => rfl
  | succ n ih =>
    unfold physReadGo
    split <;> simp [ih]
@[simp] theorem physRead_threads (s : State) (pa n : Nat) : (physRead s pa n).1.threads = s.threads := by simp [physRead]
@[simp] theorem physWriteGo_threads (s : State) (c pa : Nat) (bs : List Byte) (n : Nat) :
    (physWriteGo s c pa bs n).threads = s.threads := by
  induction n generalizing s pa bs with
  | zero => rfl
  | succ n ih =>
    unfold physWriteGo
    split <;> simp [ih]
@[simp] theorem physWrite_threads (s : State) (c pa : Nat) (bs : List Byte) : (physWrite s c pa bs).threads = s.threads := by simp [physWrite]

/-! Walks and translations (R14 to R25). -/

@[simp] theorem walkFrom_threads (s : State) (ctx va : Nat) (acc : Acc) (n level base : Nat) (l : List WalkEntry) :
    (walkFrom s ctx va acc n level base l).1.threads = s.threads := by
  induction n generalizing s level base l with
  | zero => rfl
  | succ n ih =>
    unfold walkFrom
    dsimp only
    (repeat' split) <;> simp [ih]
@[simp] theorem walkAll_threads (s : State) (ctx va : Nat) (acc : Acc) : (walkAll s ctx va acc).1.threads = s.threads := by
  unfold walkAll
  dsimp only
  (repeat' split) <;> simp
@[simp] theorem walk_threads (s : State) (ctx va : Nat) (acc : Acc) : (walk s ctx va acc).1.threads = s.threads := by simp [walk]
@[simp] theorem walkPut_threads (s : State) (d : Nat) (x : WalkEntry) : (walkPut s d x).threads = s.threads := by
  unfold walkPut
  dsimp only
  split <;> simp
@[simp] theorem walkCached_threads (s : State) (d ctx va : Nat) (acc : Acc) : (walkCached s d ctx va acc).1.threads = s.threads := by
  unfold walkCached
  (repeat' split) <;> simp
@[simp] theorem useLeaf_threads (s : State) (core : Option Nat) (ctx va : Nat) (acc : Acc) (leaf : DWord) (entry : Nat) (big : Bool) :
    (useLeaf s core ctx va acc leaf entry big).1.threads = s.threads := by
  unfold useLeaf
  dsimp only
  (repeat' split) <;> simp only [physRead_threads, physWrite_threads]
@[simp] theorem translateWalk_threads (s : State) (core : Option Nat) (ctx va : Nat) (acc : Acc) :
    (translateWalk s core ctx va acc).1.threads = s.threads := by
  unfold translateWalk
  dsimp only
  (repeat' split) <;> simp
@[simp] theorem qtlbPut_threads (s : State) (c q : Nat) (x : TlbEntry) (va : Nat) : (qtlbPut s c q x va).threads = s.threads := by
  unfold qtlbPut
  dsimp only
  (repeat' split) <;> simp
@[simp] theorem tlbPut_threads (s : State) (c q ctx va : Nat) (leaf : DWord) (entry : Nat) (big : Bool) :
    (tlbPut s c q ctx va leaf entry big).threads = s.threads := by
  unfold tlbPut
  dsimp only
  split <;> simp
@[simp] theorem translateCached_threads (s : State) (c q ctx va : Nat) (acc : Acc) :
    (translateCached s c q ctx va acc).1.threads = s.threads := by
  unfold translateCached
  dsimp only
  (repeat' split) <;> simp
@[simp] theorem translateNow_threads (s : State) (c q ctx va : Nat) (acc : Acc) :
    (translateNow s c q ctx va acc).1.threads = s.threads := by
  unfold translateNow
  dsimp only
  (repeat' split) <;> simp
@[simp] theorem shootCore_threads (s : State) (ctx lo len c : Nat) : (shootCore s ctx lo len c).threads = s.threads := by simp [shootCore]
@[simp] theorem walksDrop_threads (s : State) (ctx lo len : Nat) : (walksDrop s ctx lo len).threads = s.threads := rfl
@[simp] theorem shootdown_threads (s : State) (ctx lo len : Nat) (cores : List Nat) :
    (shootdown s ctx lo len cores).threads = s.threads := by simp [shootdown]
@[simp] theorem dropPlain_threads (s : State) (pa len : Nat) : (dropPlain s pa len).threads = s.threads := by simp [dropPlain]

/-! Pending bits (R183). -/

/-- No thread's pending bits have changed. -/
def KeepsPending (s s' : State) : Prop :=
  ∀ t, (s'.thread t).pendG = (s.thread t).pendG ∧ (s'.thread t).pendQ = (s.thread t).pendQ

theorem KeepsPending.trans {s s' s'' : State} (h : KeepsPending s s') (h' : KeepsPending s' s'') : KeepsPending s s'' :=
  fun t => ⟨(h' t).1.trans (h t).1, (h' t).2.trans (h t).2⟩
theorem keepsPending_of_threads {s s' : State} (h : s'.threads = s.threads) : KeepsPending s s' := by
  intro t
  unfold State.thread
  rw [h]
  exact ⟨rfl, rfl⟩
theorem reclassify_keepsPending (s : State) (pa len : Nat) : KeepsPending s (reclassify s pa len) := by
  intro t
  unfold reclassify State.thread mapGetD
  rw [mapGet?_each]
  cases mapGet? s.threads t <;> exact ⟨rfl, rfl⟩
/-- A classifier run tells the threads that a page is SHARED now, and leaves their pending bits. -/
theorem classifierRun_keepsPending (s : State) (ctx va : Nat) : KeepsPending s (classifierRun s ctx va) := by
  unfold classifierRun
  dsimp only
  split
  next e entry big _ =>
    generalize (if big then 2 ^ 21 else 2 ^ 16) = len
    have h1 : KeepsPending s (dropPlain (walk s ctx va .read).1 (leafPa e big 0) len) :=
      keepsPending_of_threads (by rw [dropPlain_threads, walk_threads])
    have h2 := h1.trans (reclassify_keepsPending _ (leafPa e big 0) len)
    exact h2.trans (keepsPending_of_threads (by rw [shootdown_threads, physWrite_threads]))
  next => exact keepsPending_of_threads (walk_threads _ _ _ _)
theorem translateRetried_keepsPending (s : State) (c q ctx va : Nat) (acc : Acc) : KeepsPending s (translateRetried s c q ctx va acc).1 := by
  have h := keepsPending_of_threads (translateNow_threads s c q ctx va acc)
  unfold translateRetried
  dsimp only
  split
  · exact (h.trans (classifierRun_keepsPending _ _ _)).trans (keepsPending_of_threads (translateNow_threads _ _ _ _ _ _))
  · exact h

/-! Fetch (R8, R425). -/

@[simp] theorem icacheFill_threads (s : State) (c line ctx page : Nat) : (icacheFill s c line ctx page).threads = s.threads := by
  unfold icacheFill
  dsimp only
  (repeat' split) <;> simp
/-- A halfword that a fetch gives: what its translation and its instruction cache did left the pending bits. -/
theorem fetchHalf_ok_keepsPending {s : State} {c q ctx lid va : Nat} {who : List Nat} {land : Option Nat} {b : List Byte}
    (h : (fetchHalf s c q ctx lid va who land).2 = .ok b) : KeepsPending s (fetchHalf s c q ctx lid va who land).1 := by
  have hr := translateRetried_keepsPending s c q ctx va .fetch
  unfold fetchHalf at h ⊢
  generalize translateRetried s c q ctx va .fetch = r at hr h ⊢
  rcases r with ⟨s1, r⟩
  cases r with
  | ok pa leaf entry big =>
    dsimp only
    split
    · exact hr
    · exact hr.trans (keepsPending_of_threads (icacheFill_threads _ _ _ _ _))
  | missing =>
    cases land with
    | none => cases h
    | some t => 
      dsimp only at h
      split at h <;> cases h
  | frozen => exact hr
  | conflict => exact hr
  | miss => exact hr
  | fail cause faddr => exact hr
theorem fetch32_ok_keepsPending {s : State} {c q ctx lid va t : Nat} {bs : List Byte} (h : (fetch32 s c q ctx lid va t).2 = .ok bs) :
    KeepsPending s (fetch32 s c q ctx lid va t).1 := by
  unfold fetch32 at h ⊢
  dsimp only at h ⊢
  split at h
  next b hb =>
    have h1 := fetchHalf_ok_keepsPending hb
    split at h
    next b' hb' => exact h1.trans (fetchHalf_ok_keepsPending hb')
    next hn => exact absurd h (hn _)
  next hn => exact absurd h (hn _)

/-- Where no pending bit changes after a marker has passed, the marker has nothing left to clear. -/
theorem KeepsPending.passMarker_eq_self {i : Instr} {s s' : State} {t : Nat} (h : KeepsPending (s.modThread t (passMarker i)) s') :
    passMarker i (s'.thread t) = s'.thread t := by
  have h := h t
  rw [State.thread_modThread, if_pos rfl] at h
  unfold passMarker at h ⊢
  split
  next hm =>
    rw [if_pos hm] at h
    have hg : (s'.thread t).pendG = 0 := h.1
    have hq : (s'.thread t).pendQ = 0 := h.2
    unfold clearPending
    rw [← hg, ← hq]
  next => rfl

end Sys2Proof.Machine
end

section
/-! PROOF. Branches and indirect jumps (R229 to R233). -/

namespace Sys2Proof.Machine
open Sys2Proof Sys2Proof.Claims

/-! The targets of branches, in integers (R229). -/

theorem relPc_eq_movedBy {w : Nat} (th : Thread) (x : BitVec w) : relPc th x = movedBy th.pc x.toInt := by
  have h2 : x.signExtend 48 <<< 1 = BitVec.ofInt 48 (2 * x.toInt) := by
    rw [BitVec.shiftLeft_eq_mul_twoPow, BitVec.ofInt_mul, BitVec.mul_comm]
    rfl
  unfold relPc movedBy
  rw [h2, BitVec.ofInt_add, BitVec.ofInt_natCast, BitVec.ofNat_toNat, BitVec.setWidth_eq]

/-- The link that the model writes is the one that R229 gives. -/
theorem pair_link_eq_linkAt (d : Nat) (pc : Addr) :
    [(d, ((pc + 4).setWidth 64 : DWord).setWidth 32), (d + 1, ((pc + 4).setWidth 64 : DWord).extractLsb' 32 32)] = linkAt d pc := by
  have hpc := pc.isLt
  have hn : (pc + 4).toNat = (pc.toNat + 4) % 2 ^ 48 := by simp
  have hw : ((pc + 4).setWidth 64 : DWord).toNat = (pc.toNat + 4) % 2 ^ 48 := by
    rw [BitVec.toNat_setWidth, hn]
    omega
  unfold linkAt
  rw [← BitVec.ofNat_toNat 32, BitVec.extractLsb', hw, Nat.shiftRight_eq_div_pow]

/-! Branches (R229, R233). -/

/-- The test of `br`: the predicate is not the value given. -/
theorem bne_beq_one_iff (b : Bool) (v : BitVec 1) : (b != (v == 1)) = true ↔ (b = true) ≠ (v = 1) := by
  cases b <;> by_cases h : v = 1 <;> simp [h]
theorem branchResults : BranchResults := by
  intro i f s hf hr
  cases i <;> simp only [branchOf, Option.some.injEq, reduceCtorEq] at hf
  case br x v q sm =>
    subst hf
    refine issueEach_ready_modThread hr (fun _ _ => rfl) fun th => ?_
    simp only [relPc_eq_movedBy, pc_passMarker, getQ_passMarker, bne_beq_one_iff]
    by_cases h : q = 0 ∨ (getQ th q.toNat = true) ≠ (v = 1)
    · simp only [if_pos h]
      exact completed_goTo_passMarker _ _ _
    · simp only [if_neg h]
      exact completed_past_passMarker (.br x v q sm) th
  case call x sm =>
    subst hf
    refine issueEach_ready_modThread hr (fun _ _ => rfl) fun th => ?_
    rw [relPc_eq_movedBy, pc_passMarker]
    have h := completed_goTo_setX (.call x sm) th 0 ((th.pc + 4).setWidth 64) (movedBy th.pc x.toInt)
    rwa [pair_link_eq_linkAt] at h
  case land sm =>
    subst hf
    exact issueEach_ready_modThread hr (fun _ _ => rfl) (completed_past_passMarker (.land sm))

/-! The target of an indirect jump, in integers (R231). -/

theorem ux_eq_getX {n : Nat} (th : Thread) (a : BitVec n) : ux th a = ((getX th a.toNat).toNat : Int) := by
  unfold ux getX
  rw [BitVec.toNat_append, ← Nat.shiftLeft_add_eq_or_of_lt (getG th a.toNat).isLt, Nat.shiftLeft_eq]
  push_cast
  ring
/-- A marker that passes leaves the target as it is. -/
theorem ux_modThread_passMarker {n : Nat} (s : State) (t : Nat) (i : Instr) (a : BitVec n) :
    ux ((s.modThread t (passMarker i)).thread t) a = ux (s.thread t) a := by
  rw [State.thread_modThread, if_pos rfl, ux_eq_getX, ux_eq_getX, getX_passMarker]
/-- The target as a 64-bit word and as an address. -/
theorem getX_eq_ofInt_ux (th : Thread) (a : BitVec 6) : getX th a.toNat = BitVec.ofInt 64 (ux th a) := by
  rw [ux_eq_getX, BitVec.ofInt_natCast, BitVec.ofNat_toNat, BitVec.setWidth_eq]
theorem setWidth_getX_eq_ofInt_ux (th : Thread) (a : BitVec 6) : ((getX th a.toNat).setWidth 48 : Addr) = BitVec.ofInt 48 (ux th a) := by
  rw [ux_eq_getX, BitVec.ofInt_natCast, BitVec.ofNat_toNat]
theorem toNat_ofInt_ux (th : Thread) (a : BitVec 6) : (BitVec.ofInt 64 (ux th a)).toNat = (ux th a).toNat := by
  rw [← getX_eq_ofInt_ux, ux_eq_getX, Int.toNat_natCast]
theorem target_beyond_iff (th : Thread) (a : BitVec 6) : (getX th a.toNat).extractLsb' 48 16 ≠ 0 ↔ 2 ^ 48 ≤ ux th a := by
  have hx := (getX th a.toNat).isLt
  rw [ux_eq_getX, Ne, ← BitVec.toNat_inj, BitVec.extractLsb'_toNat, Nat.shiftRight_eq_div_pow]
  simp only [BitVec.ofNat_eq_ofNat, BitVec.toNat_ofNat]
  omega
theorem target_odd_iff (th : Thread) (a : BitVec 6) : (getX th a.toNat).getLsbD 0 = true ↔ ux th a % 2 = 1 := by
  rw [ux_eq_getX, BitVec.getLsbD, Nat.testBit_zero, decide_eq_true_iff]
  omega

/-! What an indirect jump does, by its target (R231). -/

section
variable {a : BitVec 6} {l : Bool} {link : Thread → Thread} {s s1 : State} {t : Nat}

theorem jumpBody_beyond (h : 2 ^ 48 ≤ ux (s.thread t) a) :
    jumpBody a.toNat l link s t = raise s t 6 (BitVec.ofInt 64 (ux (s.thread t) a)) := by
  rw [← getX_eq_ofInt_ux]
  exact if_pos ((target_beyond_iff _ _).2 h)
theorem jumpBody_odd (h : ux (s.thread t) a < 2 ^ 48) (h1 : ux (s.thread t) a % 2 = 1) :
    jumpBody a.toNat l link s t = raise s t 4 (BitVec.ofInt 64 (ux (s.thread t) a)) := by
  rw [← getX_eq_ofInt_ux]
  exact (if_neg (by rw [target_beyond_iff]; omega)).trans (if_pos ((target_odd_iff _ _).2 h1))

variable (h : ux (s.thread t) a < 2 ^ 48) (h0 : ux (s.thread t) a % 2 = 0)
include h h0

/-- An even target in the device space that the landing check, where there is one, lets pass. -/
theorem jumpBody_goes (hr : (if l then landCheck s t (BitVec.ofInt 64 (ux (s.thread t) a)) else (s, none)) = (s1, none)) :
    jumpBody a.toNat l link s t = s1.modThread t fun th => goTo (link th) (BitVec.ofInt 48 (ux (s.thread t) a)) := by
  unfold jumpBody
  dsimp only
  rw [if_neg (by rw [target_beyond_iff]; omega), if_neg (by rw [target_odd_iff]; omega), getX_eq_ofInt_ux, hr,
    ← getX_eq_ofInt_ux, setWidth_getX_eq_ofInt_ux]
/-- An even target in the device space at which the landing check raises a trap. -/
theorem jumpBody_stopped {c : Nat}
    (hr : (if l then landCheck s t (BitVec.ofInt 64 (ux (s.thread t) a)) else (s, none)) = (s1, some (some c))) :
    jumpBody a.toNat l link s t = raise s1 t c (BitVec.ofInt 64 (ux (s.thread t) a)) := by
  unfold jumpBody
  dsimp only
  rw [if_neg (by rw [target_beyond_iff]; omega), if_neg (by rw [target_odd_iff]; omega), getX_eq_ofInt_ux, hr]
end

/-! The landing check (R231, R232). -/

theorem landChecked_passMarker (s : State) (t : Nat) (i : Instr) : landChecked (s.modThread t (passMarker i)) t = landChecked s t := by
  have h : (s.modThread t (passMarker i)).launchOf t = s.launchOf t := by
    unfold State.launchOf State.trainOf
    rw [State.thread_modThread, if_pos rfl, passMarker_eq]
    rfl
  unfold landChecked
  rw [h]
  rfl
theorem landCheck_unchecked {s : State} {t : Nat} (x : DWord) (h : landChecked s t = false) : landCheck s t x = (s, none) := by
  cases hl : s.launch? (s.launchOf t) with
  | none => simp only [landCheck, hl]
  | some l =>
    have hb : l.header.getLsbD 0 = false := by simpa only [landChecked, hl] using h
    simp only [landCheck, hl, hb, Bool.false_eq_true, if_false]
theorem landCheck_checked {s : State} {t : Nat} {x : DWord} {bs : List Byte} (h : landChecked s t = true)
    (hf : (fetch32 s (s.coreOf t) (s.trainOf t).quarter (s.ctxOf t) (s.launchOf t) x.toNat t).2 = .ok bs) :
    landCheck s t x = ((fetch32 s (s.coreOf t) (s.trainOf t).quarter (s.ctxOf t) (s.launchOf t) x.toNat t).1,
      if wordOfBytes bs &&& 0xFFFFFFFD = 0x08000041 then none else some (some 10)) := by
  cases hl : s.launch? (s.launchOf t) with
  | none => simp only [landChecked, hl, Bool.false_eq_true] at h
  | some l =>
    have hb : l.header.getLsbD 0 = true := by simpa only [landChecked, hl] using h
    simp only [landCheck, hl, hb, if_true, hf]
    split <;> rfl

/-! The indirect jumps (R231, R232). -/

/-- An indirect jump is `jumpBody` of its pair, with a link that writes what its row says. -/
theorem jumpOf_exec {i : Instr} {a : BitVec 6} {l : Bool} {f : Thread → List (Nat × Word)} (h : jumpOf i = some (a, l, f)) :
    ∃ link, (∀ s, exec i s = issueEach i (jumpBody a.toNat l link) s) ∧
      ∀ th pc, Completed i th (goTo (link (passMarker i th)) pc) pc (f th) [] 0 := by
  cases i <;> simp only [jumpOf, Option.some.injEq, Prod.mk.injEq, reduceCtorEq] at h
  case jr b sm =>
    obtain ⟨rfl, rfl, rfl⟩ := h
    exact ⟨id, fun _ => rfl, completed_goTo_passMarker _⟩
  case jalr b d sm =>
    obtain ⟨rfl, rfl, rfl⟩ := h
    refine ⟨_, fun _ => rfl, fun th pc => ?_⟩
    rw [pc_passMarker]
    have h := completed_goTo_setX (.jalr b d sm) th d.toNat ((th.pc + 4).setWidth 64) pc
    rwa [pair_link_eq_linkAt] at h
  case ret b sm =>
    obtain ⟨rfl, rfl, rfl⟩ := h
    exact ⟨id, fun _ => rfl, completed_goTo_passMarker _⟩

theorem jumpResults : JumpResults := by
  intro i a l f s t hj ha h48 h0 hl
  obtain ⟨link, he, hc⟩ := jumpOf_exec hj
  have hu := ux_modThread_passMarker s t i a
  have hr : (if l then landCheck (s.modThread t (passMarker i)) t (BitVec.ofInt 64 (ux (s.thread t) a))
      else (s.modThread t (passMarker i), none)) = (s.modThread t (passMarker i), none) := by
    rcases hl with hl | hl
    · rw [hl]; rfl
    · rw [landCheck_unchecked _ (by rwa [landChecked_passMarker]), ite_self]
  have hb := jumpBody_goes (link := link) (by rwa [hu]) (by rwa [hu]) (by rwa [hu])
  rw [hu] at hb
  simp only [he]
  exact issueEach_alone_modThread ha (hb.trans (State.modThread_modThread _ _ _ _)) (hc _ _)

theorem jumpTraps : JumpTraps := by
  intro i a l f s t hj ha ht
  obtain ⟨link, he, -⟩ := jumpOf_exec hj
  have hu := ux_modThread_passMarker s t i a
  simp only [he]
  refine ⟨fun h => ?_, fun h h1 => ?_⟩
  · have hb := jumpBody_beyond (l := l) (link := link) (by rwa [hu])
    rw [hu] at hb
    exact issueEach_alone_raise ha ht hb
  · have hb := jumpBody_odd (l := l) (link := link) (by rwa [hu]) (by rwa [hu])
    rw [hu] at hb
    exact issueEach_alone_raise ha ht hb

theorem landingChecked : LandingChecked := by
  intro i a f s t bs hj ha h48 h0 hl p r hr ht
  obtain ⟨link, he, hc⟩ := jumpOf_exec hj
  have hu : ux (p.thread t) a = ux (s.thread t) a := ux_modThread_passMarker s t i a
  have hm : passMarker i (r.1.thread t) = r.1.thread t := (fetch32_ok_keepsPending hr).passMarker_eq_self
  have hcheck : landCheck p t (BitVec.ofInt 64 (ux (s.thread t) a)) =
      (r.1, if wordOfBytes bs &&& 0xFFFFFFFD = 0x08000041 then none else some (some 10)) := by
    have hf : (fetch32 p (p.coreOf t) (p.trainOf t).quarter (p.ctxOf t) (p.launchOf t)
        (BitVec.ofInt 64 (ux (s.thread t) a)).toNat t).2 = .ok bs := by rwa [toNat_ofInt_ux]
    rw [landCheck_checked (by rwa [landChecked_passMarker]) hf, toNat_ofInt_ux]
  refine ⟨_, (he s).trans (issueEach_run i _ s t ha), fun hw => ?_, fun hw => ?_⟩
  · have hb := jumpBody_goes (link := link) (by rwa [hu]) (by rwa [hu]) (by rw [hu, if_pos rfl, hcheck, if_pos hw])
    rw [hb, hu]
    refine ⟨rfl, ?_⟩
    have hth : (r.1.modThread t fun th => goTo (link th) (BitVec.ofInt 48 (ux (s.thread t) a))).thread t =
        goTo (link (passMarker i (r.1.thread t))) (BitVec.ofInt 48 (ux (s.thread t) a)) := by
      rw [State.thread_modThread, if_pos rfl, hm]
    have h := hc (r.1.thread t) (BitVec.ofInt 48 (ux (s.thread t) a))
    rwa [← hth] at h
  · have hb := jumpBody_stopped (link := link) (by rwa [hu]) (by rwa [hu]) (by rw [hu, if_pos rfl, hcheck, if_neg hw])
    rw [hb, hu]
    exact raise_trapped 10 _ ht hm

/-- Settles O16: the branches move one thread alone; an indirect jump goes by its target, and by the landing check of it. -/
theorem controlFlow : Obligations.ControlFlow := ⟨branchResults, jumpResults, jumpTraps, landingChecked⟩

end Sys2Proof.Machine
end

section
/-! PROOF. The horizon instructions (R243 to R245, R329). -/

namespace Sys2Proof.Machine
open Sys2Proof Sys2Proof.Claims

/-! The horizon (R243 to R245, R329). -/

theorem unresolved_passMarker (i : Instr) (th : Thread) : unresolved (passMarker i th) = unresolved th := by rw [passMarker_eq]; rfl

/-- The model's count of unresolved operations is that of R238 and R329. -/
theorem unresolvedAll_eq_openOps (s : State) (t : Nat) : unresolvedAll s t = openOps s t := by
  unfold unresolvedAll openOps helpersOf
  cases (s.thread t).bank with
  | none => rfl
  | some b => simp only [← List.sum_eq_foldl_nat]; rfl

/-- A marker that passes leaves the count as it is. -/
theorem openOps_modThread_passMarker (s : State) (t : Nat) (i : Instr) : openOps (s.modThread t (passMarker i)) t = openOps s t := by
  have hn : ∀ v, (((s.modThread t (passMarker i)).thread v).seq - ((s.modThread t (passMarker i)).thread v).hz).toNat =
      ((s.thread v).seq - (s.thread v).hz).toNat := by
    intro v
    rw [State.thread_modThread]
    split
    next h => subst h; exact unresolved_passMarker i _
    next => rfl
  have hb : ((s.modThread t (passMarker i)).thread t).bank = (s.thread t).bank := by
    rw [State.thread_modThread, if_pos rfl, passMarker_eq]
  unfold openOps
  simp only [hn, hb]

/-- The word that `hzrd` sends, in integers. -/
theorem plainResult_seq_hz (d : BitVec 6) (a b : BitVec 16) :
    plainResult d.toNat (a ++ b) = { regs := word d (a.toNat * 2 ^ 16 + b.toNat), preds := [], flags := 0 } := by
  have h : BitVec.ofInt 32 (a.toNat * 2 ^ 16 + b.toNat) = a ++ b := by
    have ha := a.isLt
    have hb := b.isLt
    apply BitVec.eq_of_toNat_eq
    rw [BitVec.toNat_append, ← Nat.shiftLeft_add_eq_or_of_lt hb, Nat.shiftLeft_eq, BitVec.toNat_ofInt]
    omega
  unfold plainResult word
  rw [h]

theorem horizonRead : HorizonRead := by
  intro d sm s hr
  refine issueEach_ready_modThread hr (fun _ _ => rfl) fun th => ?_
  have hs : (passMarker (.hzrd d sm) th).seq = th.seq := by rw [passMarker_eq]
  have hz : (passMarker (.hzrd d sm) th).hz = th.hz := by rw [passMarker_eq]
  dsimp only
  rw [← plainResult_seq_hz, hs, hz]
  exact sent_past_putResult _ _ _

/-- A horizon is clear where no operation is unresolved, whatever marker has passed. -/
theorem horizonClear_passMarker (s : State) (t : Nat) (i : Instr) :
    horizonClear (s.modThread t (passMarker i)) t = decide (openOps s t = 0) := by
  unfold horizonClear
  rw [unresolvedAll_eq_openOps, openOps_modThread_passMarker]

/-- A thread held after it is changed. -/
theorem park_modThread (s : State) (t : Nat) (f : Thread → Thread) (w : Wait) : park (s.modThread t f) t w =
    s.modThread t fun th => { f th with park := w, since := if (f th).park = w then (f th).since else s.clk } :=
  State.modThread_modThread s t f _

theorem hzwait_goes_on {a : BitVec 6} {sm : BitVec 1} {s : State} {t : Nat} (ha : Alone s t (.hzwait a sm)) (h : openOps s t ≤ a.toNat) :
    ∃ s', exec (.hzwait a sm) s = .next s' ∧ OnlyThreads s s' ∧ EachThread s s' fun th th' =>
      Completed (.hzwait a sm) th th' (th.pc + 4) [] [] 0 := by
  refine issueEach_alone_goTo (pc := fun th => th.pc + 4) ha ?_ fun th => by rw [pc_passMarker]
  rw [unresolvedAll_eq_openOps, openOps_modThread_passMarker, if_pos h]
  rfl
theorem hzwait_holds {a : BitVec 6} {sm : BitVec 1} {s : State} {t : Nat} (ha : Alone s t (.hzwait a sm)) (h : ¬openOps s t ≤ a.toNat) :
    ∃ s', exec (.hzwait a sm) s = .next s' ∧ OnlyThreads s s' ∧ EachThread s s' fun th th' =>
      th' = { passMarker (.hzwait a sm) th with park := .horizon a.toNat, since := th'.since } := by
  refine issueEach_alone_modThread ha ((if_neg ?_).trans (park_modThread s t _ _)) rfl
  rwa [unresolvedAll_eq_openOps, openOps_modThread_passMarker]

theorem horizonResults : HorizonResults := by
  intro i f s t hf ha
  cases i <;> simp only [horizonOf, Option.some.injEq, reduceCtorEq] at hf
  case hzwait a sm =>
    subst hf
    by_cases h : openOps s t ≤ a.toNat
    · simp only [h, if_true]
      exact hzwait_goes_on ha h
    · simp only [h, if_false]
      obtain ⟨s', h1, h2, h3, h4⟩ := hzwait_holds ha h
      exact ⟨s', h1, h2, fun u hu => ⟨a, sm, rfl, h3 u hu⟩, h4⟩
  case hzbr x sm =>
    subst hf
    refine issueEach_alone_goTo ha ?_ fun th => by rw [pc_passMarker]
    simp only [horizonClear_passMarker, decide_eq_true_eq, ← relPc_eq_movedBy]
    split <;> rfl
  case hzbrn x sm =>
    subst hf
    refine issueEach_alone_goTo ha ?_ fun th => by rw [pc_passMarker]
    simp only [horizonClear_passMarker, decide_eq_true_eq, ← relPc_eq_movedBy]
    split <;> rfl

/-- Settles O18: the model counts the operations of R238 and R329, and the marker of an instruction changes none of them. `hzwait` is held by
that count whatever it names, 16 too (the model's reading, log entry 76). -/
theorem horizonInstructions : Obligations.HorizonInstructions := ⟨horizonRead, horizonResults⟩

end Sys2Proof.Machine
end

section
/-! SUPPORT. Operations on words in integers: registers as the integers that the tables speak of, and words modulo 2^32 and 2^64
(R253, R255 to R259). -/

namespace Sys2Proof.Machine
open Sys2Proof Sys2Proof.Claims

/-! The low bits of an integer. -/

theorem ofInt_toNat_eq_setWidth {v w : Nat} (x : BitVec v) : BitVec.ofInt w (x.toNat : Int) = x.setWidth w := by
  rw [BitVec.ofInt_natCast, BitVec.ofNat_toNat]
theorem ofInt_toNat_self {w : Nat} (x : BitVec w) : BitVec.ofInt w (x.toNat : Int) = x := by
  rw [ofInt_toNat_eq_setWidth, BitVec.setWidth_eq]
theorem ofInt_sub_eq_sub {w : Nat} (x y : Int) : BitVec.ofInt w (x - y) = BitVec.ofInt w x - BitVec.ofInt w y := by
  rw [Int.sub_eq_add_neg, BitVec.ofInt_add, BitVec.ofInt_neg, BitVec.sub_eq_add_neg]
theorem ofInt_mul_two_pow {w : Nat} (x : Int) (k : Nat) : BitVec.ofInt w (x * 2 ^ k) = BitVec.ofInt w x <<< k := by
  have hk : BitVec.ofInt w (2 ^ k) = BitVec.twoPow w k := by
    rw [← Nat.cast_ofNat, ← Nat.cast_pow, BitVec.ofInt_natCast]
    exact BitVec.eq_of_toNat_eq (by rw [BitVec.toNat_ofNat, BitVec.toNat_twoPow])
  rw [BitVec.ofInt_mul, hk, BitVec.shiftLeft_eq_mul_twoPow]
theorem ofInt_toNat_div_two_pow {w : Nat} (x : BitVec w) (k : Nat) : BitVec.ofInt w ((x.toNat : Int) / 2 ^ k) = x >>> k := by
  rw [← ofInt_toNat_self (x >>> k), BitVec.toNat_ushiftRight, Nat.shiftRight_eq_div_pow]
  push_cast
  rfl
theorem ofInt_toInt_div_two_pow {w : Nat} (x : BitVec w) (k : Nat) : BitVec.ofInt w (x.toInt / 2 ^ k) = x.sshiftRight k := by
  rw [BitVec.sshiftRight_eq, Int.shiftRight_eq_div_pow]
  push_cast
  rfl

/-- The halves of a 64-bit value, in integers. -/
theorem setWidth_ofInt_64 (x : Int) : (BitVec.ofInt 64 x).setWidth 32 = BitVec.ofInt 32 x := by
  apply BitVec.eq_of_toNat_eq
  rw [BitVec.toNat_setWidth, BitVec.toNat_ofInt, BitVec.toNat_ofInt]
  omega
theorem extractLsb'_ofInt_64 (x : Int) : (BitVec.ofInt 64 x).extractLsb' 32 32 = BitVec.ofInt 32 (x / 2 ^ 32) := by
  apply BitVec.eq_of_toNat_eq
  rw [BitVec.extractLsb'_toNat, Nat.shiftRight_eq_div_pow, BitVec.toNat_ofInt, BitVec.toNat_ofInt]
  omega

/-! The shifts of the model are those of the words, at every amount (R255, R259). -/

section
variable {w : Nat} (x : BitVec w) (k : Nat)

theorem ite_shiftLeft : (if k < w then x <<< k else 0) = x <<< k := by
  split
  next => rfl
  next h => exact (BitVec.shiftLeft_eq_zero (not_lt.1 h)).symm
theorem ite_ushiftRight : (if k < w then x >>> k else 0) = x >>> k := by
  split
  next => rfl
  next h => exact (BitVec.ushiftRight_eq_zero (not_lt.1 h)).symm
theorem ite_sshiftRight : (if k < w then x.sshiftRight k else if x.msb then BitVec.allOnes w else 0) = x.sshiftRight k := by
  split
  next => rfl
  next h =>
    refine BitVec.eq_of_getLsbD_eq fun i hi => ?_
    have hk : ¬k + i < w := by omega
    rw [BitVec.getLsbD_sshiftRight, if_neg hk]
    cases x.msb <;> simp [hi]
end

theorem shlWord_eq_shiftLeft (a b : Word) : shlWord a b = a <<< b.toNat := ite_shiftLeft a _
theorem shrWord_eq_ushiftRight (a b : Word) : shrWord a b = a >>> b.toNat := ite_ushiftRight a _
theorem sarWord_eq_sshiftRight (a b : Word) : sarWord a b = a.sshiftRight b.toNat := ite_sshiftRight a _
theorem shlD_eq_shiftLeft (a : DWord) (b : Word) : shlD a b = a <<< b.toNat := ite_shiftLeft a _
theorem shrD_eq_ushiftRight (a : DWord) (b : Word) : shrD a b = a >>> b.toNat := ite_ushiftRight a _
theorem sarD_eq_sshiftRight (a : DWord) (b : Word) : sarD a b = a.sshiftRight b.toNat := ite_sshiftRight a _

/-! Products of full width, and their high words (R255, R259). -/

theorem mulhiWord_eq_ofInt (a b : Word) : mulhiWord a b = BitVec.ofInt 32 (a.toInt * b.toInt / 2 ^ 32) := by
  rw [← extractLsb'_ofInt_64, BitVec.ofInt_mul]
  rfl
theorem mulhuWord_eq_ofInt (a b : Word) : mulhuWord a b = BitVec.ofInt 32 (a.toNat * b.toNat / 2 ^ 32) := by
  rw [← extractLsb'_ofInt_64, BitVec.ofInt_mul, ofInt_toNat_eq_setWidth, ofInt_toNat_eq_setWidth]
  rfl

/-! The smaller and the larger of two words (R255). -/

theorem minWord_eq_ofInt (a b : Word) : minWord a b = BitVec.ofInt 32 (min a.toInt b.toInt) := by
  unfold minWord
  split
  next h => rw [min_eq_right (BitVec.slt_iff_toInt_lt.1 h).le, BitVec.ofInt_toInt]
  next h => rw [min_eq_left (not_lt.1 (mt BitVec.slt_iff_toInt_lt.2 h)), BitVec.ofInt_toInt]
theorem maxWord_eq_ofInt (a b : Word) : maxWord a b = BitVec.ofInt 32 (max a.toInt b.toInt) := by
  unfold maxWord
  split
  next h => rw [max_eq_right (BitVec.slt_iff_toInt_lt.1 h).le, BitVec.ofInt_toInt]
  next h => rw [max_eq_left (not_lt.1 (mt BitVec.slt_iff_toInt_lt.2 h)), BitVec.ofInt_toInt]
theorem minuWord_eq_ofInt (a b : Word) : minuWord a b = BitVec.ofInt 32 (min (a.toNat : Int) b.toNat) := by
  rw [← Nat.cast_min, BitVec.ofInt_natCast]
  unfold minuWord
  split
  next h => rw [min_eq_right (BitVec.le_of_lt h), BitVec.ofNat_toNat, BitVec.setWidth_eq]
  next h => rw [min_eq_left (BitVec.not_lt.1 h), BitVec.ofNat_toNat, BitVec.setWidth_eq]
theorem maxuWord_eq_ofInt (a b : Word) : maxuWord a b = BitVec.ofInt 32 (max (a.toNat : Int) b.toNat) := by
  rw [← Nat.cast_max, BitVec.ofInt_natCast]
  unfold maxuWord
  split
  next h => rw [max_eq_right (BitVec.le_of_lt h), BitVec.ofNat_toNat, BitVec.setWidth_eq]
  next h => rw [max_eq_left (BitVec.not_lt.1 h), BitVec.ofNat_toNat, BitVec.setWidth_eq]

/-! Registers and pairs, and as integers (R253). -/

/-- A marker that passes leaves the registers as they are. -/
theorem getG_passMarker_eq (i : Instr) (th : Thread) : getG (passMarker i th) = getG th := funext (getG_passMarker i th)
/-- A pair of a register file, the even register as the low word (R253): `getX` is that of a thread's registers. -/
def pairAt (r : Nat → Word) (k : Nat) : DWord := r (k + 1) ++ r k
theorem getX_eq_pairAt (th : Thread) (k : Nat) : getX th k = pairAt (getG th) k := rfl
theorem ofInt_u {n : Nat} (th : Thread) (a : BitVec n) : BitVec.ofInt 32 (u th a) = getG th a.toNat := ofInt_toNat_self _
theorem ofInt_ux (th : Thread) (a : BitVec 6) : BitVec.ofInt 64 (ux th a) = pairAt (getG th) a.toNat := by
  rw [← getX_eq_ofInt_ux, getX_eq_pairAt]
theorem ux_eq_toNat {n : Nat} (th : Thread) (a : BitVec n) : ux th a = ((pairAt (getG th) a.toNat).toNat : Int) := by
  rw [ux_eq_getX, getX_eq_pairAt]
theorem sx_eq_toInt {n : Nat} (th : Thread) (a : BitVec n) : sx th a = (pairAt (getG th) a.toNat).toInt := by
  unfold sx
  rw [ux_eq_toNat, BitVec.toInt_eq_toNat_cond]
  split <;> split <;> omega

/-- `li.hi` in integers: the lower half of the register kept, the immediate above it (R258). -/
theorem ofInt_low_add_high (x : Word) (i : BitVec 16) :
    BitVec.ofInt 32 ((x.toNat : Int) % 2 ^ 16 + i.toNat * 2 ^ 16) = i ++ x.setWidth 16 := by
  apply BitVec.eq_of_toNat_eq
  rw [BitVec.toNat_append, ← Nat.shiftLeft_add_eq_or_of_lt (x.setWidth 16).isLt, Nat.shiftLeft_eq, BitVec.toNat_setWidth, BitVec.toNat_ofInt]
  omega

end Sys2Proof.Machine
end

section
/-! PROOF. The integer instructions with a 32-bit and with a 64-bit result (R255 to R259). -/

namespace Sys2Proof.Machine
open Sys2Proof Sys2Proof.Claims

/-! The rows of the tables, as the model computes them (Tables 10-1 and 10-2). -/

section
variable {m n k : Nat} (th : Thread) (d : BitVec k) (a : BitVec m) (b : BitVec n)

theorem word_mov : word d (u th b) = [(d.toNat, getG th b.toNat)] := by rw [word, ofInt_u]
theorem word_add : word d (u th a + u th b) = [(d.toNat, getG th a.toNat + getG th b.toNat)] := by
  rw [word, BitVec.ofInt_add, ofInt_u, ofInt_u]
theorem word_sub : word d (u th a - u th b) = [(d.toNat, getG th a.toNat - getG th b.toNat)] := by
  rw [word, ofInt_sub_eq_sub, ofInt_u, ofInt_u]
theorem word_mul : word d (u th a * u th b) = [(d.toNat, getG th a.toNat * getG th b.toNat)] := by
  rw [word, BitVec.ofInt_mul, ofInt_u, ofInt_u]
theorem word_shl : word d (u th a * 2 ^ amount th b) = [(d.toNat, shlWord (getG th a.toNat) (getG th b.toNat))] := by
  rw [word, ofInt_mul_two_pow, ofInt_u, shlWord_eq_shiftLeft, amount]
theorem word_shr : word d (u th a / 2 ^ amount th b) = [(d.toNat, shrWord (getG th a.toNat) (getG th b.toNat))] := by
  rw [word, u, ofInt_toNat_div_two_pow, shrWord_eq_ushiftRight, amount]
theorem word_sar : word d (si th a / 2 ^ amount th b) = [(d.toNat, sarWord (getG th a.toNat) (getG th b.toNat))] := by
  rw [word, si, ofInt_toInt_div_two_pow, sarWord_eq_sshiftRight, amount]
theorem word_mulhi : word d (si th a * si th b / 2 ^ 32) = [(d.toNat, mulhiWord (getG th a.toNat) (getG th b.toNat))] := by
  rw [mulhiWord_eq_ofInt]; rfl
theorem word_mulhu : word d (u th a * u th b / 2 ^ 32) = [(d.toNat, mulhuWord (getG th a.toNat) (getG th b.toNat))] := by
  rw [mulhuWord_eq_ofInt]; rfl
theorem word_min : word d (min (si th a) (si th b)) = [(d.toNat, minWord (getG th a.toNat) (getG th b.toNat))] := by
  rw [minWord_eq_ofInt]; rfl
theorem word_max : word d (max (si th a) (si th b)) = [(d.toNat, maxWord (getG th a.toNat) (getG th b.toNat))] := by
  rw [maxWord_eq_ofInt]; rfl
theorem word_minu : word d (min (u th a) (u th b)) = [(d.toNat, minuWord (getG th a.toNat) (getG th b.toNat))] := by
  rw [minuWord_eq_ofInt]; rfl
theorem word_maxu : word d (max (u th a) (u th b)) = [(d.toNat, maxuWord (getG th a.toNat) (getG th b.toNat))] := by
  rw [maxuWord_eq_ofInt]; rfl
/-- The immediates, sign-extended (R256, R257, R258). -/
theorem word_addi : word d (u th a + b.toInt) = [(d.toNat, getG th a.toNat + b.signExtend 32)] := by
  rw [word, BitVec.ofInt_add, ofInt_u, BitVec.signExtend]
theorem word_li_hi (i : BitVec 16) :
    word d (u th d % 2 ^ 16 + i.toNat * 2 ^ 16) = [(d.toNat, i ++ (getG th d.toNat).setWidth 16)] := by
  rw [word, u, ofInt_low_add_high]
end

/-- An integer instruction with a 32-bit result is a fixed-latency one that writes one register, with the operation of its row on the
registers as they were (R255 to R258). -/
theorem wordOf_exec {i : Instr} {f : Thread → List (Nat × Word)} (h : wordOf i = some f) :
    ∃ (d : Nat) (v : (Nat → Word) → Word), (∀ s, exec i s = issueEach i (fixedBody i fun th => setG th d (v (getG th))) s) ∧
      ∀ th, f th = [(d, v (getG th))] := by
  cases i <;> simp only [wordOf, Option.some.injEq, reduceCtorEq] at h <;> subst h
  case movFormH b d sm => exact ⟨_, fun r => r b.toNat, fun _ => rfl, fun th => word_mov th d b⟩
  case addFormH b d sm => exact ⟨_, fun r => r d.toNat + r b.toNat, fun _ => rfl, fun th => word_add th d d b⟩
  case subFormH b d sm => exact ⟨_, fun r => r d.toNat - r b.toNat, fun _ => rfl, fun th => word_sub th d d b⟩
  case andFormH b d sm => exact ⟨_, fun r => r d.toNat &&& r b.toNat, fun _ => rfl, fun _ => rfl⟩
  case orFormH b d sm => exact ⟨_, fun r => r d.toNat ||| r b.toNat, fun _ => rfl, fun _ => rfl⟩
  case xorFormH b d sm => exact ⟨_, fun r => r d.toNat ^^^ r b.toNat, fun _ => rfl, fun _ => rfl⟩
  case shlFormH b d sm => exact ⟨_, fun r => shlWord (r d.toNat) (r b.toNat), fun _ => rfl, fun th => word_shl th d d b⟩
  case shrFormH b d sm => exact ⟨_, fun r => shrWord (r d.toNat) (r b.toNat), fun _ => rfl, fun th => word_shr th d d b⟩
  case mulFormH b d sm => exact ⟨_, fun r => r d.toNat * r b.toNat, fun _ => rfl, fun th => word_mul th d d b⟩
  case addiFormH x d sm => exact ⟨_, fun r => r d.toNat + x.signExtend 32, fun _ => rfl, fun th => word_addi th d d x⟩
  case moviFormH x d sm => exact ⟨_, fun _ => x.signExtend 32, fun _ => rfl, fun _ => rfl⟩
  case add g b a d sm => exact ⟨_, fun r => r a.toNat + r b.toNat, fun _ => rfl, fun th => word_add th d a b⟩
  case sub g b a d sm => exact ⟨_, fun r => r a.toNat - r b.toNat, fun _ => rfl, fun th => word_sub th d a b⟩
  case mul g b a d sm => exact ⟨_, fun r => r a.toNat * r b.toNat, fun _ => rfl, fun th => word_mul th d a b⟩
  case mulhi g b a d sm => exact ⟨_, fun r => mulhiWord (r a.toNat) (r b.toNat), fun _ => rfl, fun th => word_mulhi th d a b⟩
  case mulhu g b a d sm => exact ⟨_, fun r => mulhuWord (r a.toNat) (r b.toNat), fun _ => rfl, fun th => word_mulhu th d a b⟩
  case and g b a d sm => exact ⟨_, fun r => r a.toNat &&& r b.toNat, fun _ => rfl, fun _ => rfl⟩
  case or g b a d sm => exact ⟨_, fun r => r a.toNat ||| r b.toNat, fun _ => rfl, fun _ => rfl⟩
  case xor g b a d sm => exact ⟨_, fun r => r a.toNat ^^^ r b.toNat, fun _ => rfl, fun _ => rfl⟩
  case shl g b a d sm => exact ⟨_, fun r => shlWord (r a.toNat) (r b.toNat), fun _ => rfl, fun th => word_shl th d a b⟩
  case shr g b a d sm => exact ⟨_, fun r => shrWord (r a.toNat) (r b.toNat), fun _ => rfl, fun th => word_shr th d a b⟩
  case sar g b a d sm => exact ⟨_, fun r => sarWord (r a.toNat) (r b.toNat), fun _ => rfl, fun th => word_sar th d a b⟩
  case min g b a d sm => exact ⟨_, fun r => minWord (r a.toNat) (r b.toNat), fun _ => rfl, fun th => word_min th d a b⟩
  case max g b a d sm => exact ⟨_, fun r => maxWord (r a.toNat) (r b.toNat), fun _ => rfl, fun th => word_max th d a b⟩
  case minu g b a d sm => exact ⟨_, fun r => minuWord (r a.toNat) (r b.toNat), fun _ => rfl, fun th => word_minu th d a b⟩
  case maxu g b a d sm => exact ⟨_, fun r => maxuWord (r a.toNat) (r b.toNat), fun _ => rfl, fun th => word_maxu th d a b⟩
  case mov g b a d sm => exact ⟨_, fun r => r b.toNat, fun _ => rfl, fun th => word_mov th d b⟩
  case addi x a d sm => exact ⟨_, fun r => r a.toNat + x.signExtend 32, fun _ => rfl, fun th => word_addi th d a x⟩
  case andi x a d sm => exact ⟨_, fun r => r a.toNat &&& x.signExtend 32, fun _ => rfl, fun _ => rfl⟩
  case liLo x d sm => exact ⟨_, fun _ => x.signExtend 32, fun _ => rfl, fun _ => rfl⟩
  case liHi x d sm => exact ⟨_, fun r => x ++ (r d.toNat).setWidth 16, fun _ => rfl, fun th => word_li_hi th d x⟩

theorem integerWordResults : IntegerWordResults := by
  intro i f s hf hr
  obtain ⟨d, v, he, hv⟩ := wordOf_exec hf
  rw [he]
  refine fixed_word i _ f (fun _ => 0) s hr fun th => ⟨d, v (getG th), ?_, hv th⟩
  rw [orFlags_zero, getG_passMarker_eq]

/-! The rows of Table 10-3. -/

/-- The two halves of a value written to a pair. -/
theorem pair_eq_halves {n : Nat} (d : BitVec n) (x : Int) :
    pair d x = [(d.toNat, (BitVec.ofInt 64 x).setWidth 32), (d.toNat + 1, (BitVec.ofInt 64 x).extractLsb' 32 32)] := by
  rw [pair, setWidth_ofInt_64, extractLsb'_ofInt_64]

section
variable (th : Thread) (a b : BitVec 6)

theorem ofInt_add64 : BitVec.ofInt 64 (ux th a + ux th b) = pairAt (getG th) a.toNat + pairAt (getG th) b.toNat := by
  rw [BitVec.ofInt_add, ofInt_ux, ofInt_ux]
theorem ofInt_sub64 : BitVec.ofInt 64 (ux th a - ux th b) = pairAt (getG th) a.toNat - pairAt (getG th) b.toNat := by
  rw [ofInt_sub_eq_sub, ofInt_ux, ofInt_ux]
theorem ofInt_addw : BitVec.ofInt 64 (ux th a + si th b) = pairAt (getG th) a.toNat + (getG th b.toNat).signExtend 64 := by
  rw [BitVec.ofInt_add, ofInt_ux, si, BitVec.signExtend]
theorem ofInt_adduw : BitVec.ofInt 64 (ux th a + u th b) = pairAt (getG th) a.toNat + (getG th b.toNat).setWidth 64 := by
  rw [BitVec.ofInt_add, ofInt_ux, u, ofInt_toNat_eq_setWidth]
theorem ofInt_shl64 : BitVec.ofInt 64 (ux th a * 2 ^ amount th b) = shlD (pairAt (getG th) a.toNat) (getG th b.toNat) := by
  rw [ofInt_mul_two_pow, ofInt_ux, shlD_eq_shiftLeft, amount]
theorem ofInt_shr64 : BitVec.ofInt 64 (ux th a / 2 ^ amount th b) = shrD (pairAt (getG th) a.toNat) (getG th b.toNat) := by
  rw [ux_eq_toNat, ofInt_toNat_div_two_pow, shrD_eq_ushiftRight, amount]
theorem ofInt_sar64 : BitVec.ofInt 64 (sx th a / 2 ^ amount th b) = sarD (pairAt (getG th) a.toNat) (getG th b.toNat) := by
  rw [sx_eq_toInt, ofInt_toInt_div_two_pow, sarD_eq_sshiftRight, amount]
theorem ofInt_mulw : BitVec.ofInt 64 (si th a * si th b) = (getG th a.toNat).signExtend 64 * (getG th b.toNat).signExtend 64 := by
  rw [BitVec.ofInt_mul, si, si, BitVec.signExtend, BitVec.signExtend]
end

/-- An integer instruction with a 64-bit result is a fixed-latency one that writes one pair, with the operation of its row on the
registers as they were (R259). -/
theorem pairOf_exec {i : Instr} {f : Thread → List (Nat × Word)} (h : Claims.pairOf i = some f) :
    ∃ (n : Nat) (d : BitVec n) (x : Thread → Int) (v : (Nat → Word) → DWord),
      (∀ s, exec i s = issueEach i (fixedBody i fun th => setX th d.toNat (v (getG th))) s) ∧ f = (fun th => pair d (x th)) ∧
      ∀ th, BitVec.ofInt 64 (x th) = v (getG th) := by
  cases i <;> simp only [Claims.pairOf, Option.some.injEq, reduceCtorEq] at h <;> subst h
  case add64 g b a d sm =>
    exact ⟨_, d, _, fun r => pairAt r a.toNat + pairAt r b.toNat, fun _ => rfl, rfl, fun th => ofInt_add64 th a b⟩
  case sub64 g b a d sm =>
    exact ⟨_, d, _, fun r => pairAt r a.toNat - pairAt r b.toNat, fun _ => rfl, rfl, fun th => ofInt_sub64 th a b⟩
  case addw g b a d sm =>
    exact ⟨_, d, _, fun r => pairAt r a.toNat + (r b.toNat).signExtend 64, fun _ => rfl, rfl, fun th => ofInt_addw th a b⟩
  case adduw g b a d sm =>
    exact ⟨_, d, _, fun r => pairAt r a.toNat + (r b.toNat).setWidth 64, fun _ => rfl, rfl, fun th => ofInt_adduw th a b⟩
  case shl64 g b a d sm =>
    exact ⟨_, d, _, fun r => shlD (pairAt r a.toNat) (r b.toNat), fun _ => rfl, rfl, fun th => ofInt_shl64 th a b⟩
  case shr64 g b a d sm =>
    exact ⟨_, d, _, fun r => shrD (pairAt r a.toNat) (r b.toNat), fun _ => rfl, rfl, fun th => ofInt_shr64 th a b⟩
  case sar64 g b a d sm =>
    exact ⟨_, d, _, fun r => sarD (pairAt r a.toNat) (r b.toNat), fun _ => rfl, rfl, fun th => ofInt_sar64 th a b⟩
  case mulw g b a d sm =>
    exact ⟨_, d, _, fun r => (r a.toNat).signExtend 64 * (r b.toNat).signExtend 64, fun _ => rfl, rfl, fun th => ofInt_mulw th a b⟩

theorem integerPairResults : IntegerPairResults := by
  intro i f s hf hr
  obtain ⟨n, d, x, v, he, rfl, hv⟩ := pairOf_exec hf
  rw [he]
  refine fixed_pair i _ _ s hr fun th => ⟨d.toNat, v (getG th), ?_, ?_⟩
  · rw [getG_passMarker_eq]
  · rw [pair_eq_halves, hv]

/-- Settles O11: each integer instruction writes its one destination with the operation of its row, which is the integer of the table
modulo 2^32 or 2^64. -/
theorem integerResults : Obligations.IntegerResults := ⟨integerWordResults, integerPairResults⟩

end Sys2Proof.Machine
end

section
/-! SUPPORT. A boundary that completes at once, and the clocks that it leaves (R83, R126, Table 4-2). -/

namespace Sys2Proof.Machine
open Sys2Proof Sys2Proof.Claims

/-! The phase clocks written and read (steps 3 and 4 of R126). -/

section
variable (s : State) (c scope x : Nat)

@[simp] theorem raiseLt_thread : (raiseLt s c x).thread = s.thread := rfl
@[simp] theorem raiseLt_die : (raiseLt s c x).die = s.die := rfl
@[simp] theorem raiseLt_dpc : (raiseLt s c x).dpc = s.dpc := rfl
@[simp] theorem raiseLt_mem : (raiseLt s c x).mem = s.mem := rfl
theorem raiseLt_core (k : Nat) : (raiseLt s c x).core k = if k = c then { s.core c with lt := max (s.core c).lt x } else s.core k :=
  State.core_modCore _ _ _ _

@[simp] theorem writeClocks_thread : (writeClocks s c scope x).thread = s.thread := by
  unfold writeClocks
  (repeat' split) <;> rfl
@[simp] theorem writeClocks_mem : (writeClocks s c scope x).mem = s.mem := by
  unfold writeClocks
  (repeat' split) <;> rfl
theorem writeClocks_core (k : Nat) :
    (writeClocks s c scope x).core k = if k = c then { s.core c with lt := max (s.core c).lt x } else s.core k := by
  by_cases h2 : 2 ≤ scope <;> by_cases h3 : 3 ≤ scope
  all_goals
    simp only [writeClocks, h2, h3, if_true, if_false]
    exact raiseLt_core _ _ _ _
theorem writeClocks_die (d : Nat) : (writeClocks s c scope x).die d =
    if d = dieOfCore c ∧ 2 ≤ scope then { s.die (dieOfCore c) with cpc := max (s.die (dieOfCore c)).cpc x } else s.die d := by
  unfold writeClocks
  by_cases h2 : 2 ≤ scope
  · have hd : (s.modDie (dieOfCore c) fun d => { d with cpc := max d.cpc x }).die d = _ := State.die_modDie _ _ _ _
    simp only [h2, if_true, and_true, raiseLt_die, ← hd]
    split <;> rfl
  · simp only [h2, if_false, and_false, raiseLt_die]
    split <;> rfl
theorem writeClocks_dpc : (writeClocks s c scope x).dpc = if 3 ≤ scope then max s.dpc x else s.dpc := by
  unfold writeClocks
  (repeat' split) <;> rfl

@[simp] theorem readClocks_thread : (readClocks s c scope).thread = s.thread := by
  unfold readClocks
  (repeat' split) <;> rfl
@[simp] theorem readClocks_mem : (readClocks s c scope).mem = s.mem := by
  unfold readClocks
  (repeat' split) <;> rfl
@[simp] theorem readClocks_die : (readClocks s c scope).die = s.die := by
  unfold readClocks
  (repeat' split) <;> rfl
@[simp] theorem readClocks_dpc : (readClocks s c scope).dpc = s.dpc := by
  unfold readClocks
  (repeat' split) <;> rfl
theorem readClocks_core (k : Nat) : (readClocks s c scope).core k = if k = c then
    { s.core c with lt := max (max (s.core c).lt (if 2 ≤ scope then (s.die (dieOfCore c)).cpc else 0)) (if 3 ≤ scope then s.dpc else 0) }
    else s.core k := by
  unfold readClocks
  by_cases e : k = c
  · subst e
    rw [if_pos rfl]
    (repeat' split) <;> simp [raiseLt_core]
  · rw [if_neg e]
    (repeat' split) <;> simp [raiseLt_core, e]
end

/-- A core's logical time written to the phase clocks of a scope and read back. -/
theorem clocksRaised_write_read (s : State) (t scope : Nat) :
    ClocksRaised s (readClocks (writeClocks s (s.coreOf t) scope (s.core (s.coreOf t)).lt) (s.coreOf t) scope) t scope := by
  refine ⟨fun k => ?_, fun d => ?_, ?_⟩
  · rw [readClocks_core, writeClocks_core, writeClocks_core, writeClocks_die, writeClocks_dpc, if_pos rfl]
    by_cases e : k = s.coreOf t
    · subst e
      by_cases h2 : 2 ≤ scope <;> by_cases h3 : 3 ≤ scope <;> simp [h2, h3, State.dieOf] <;> omega
    · simp [e]
  · rw [readClocks_die, writeClocks_die]
    by_cases e : d = s.dieOf t ∧ 2 ≤ scope
    · obtain ⟨rfl, h2⟩ := e
      rw [if_pos ⟨rfl, h2⟩, if_pos ⟨rfl, h2⟩]
      rfl
    · rw [if_neg e]
      exact if_neg e
  · rw [readClocks_dpc, writeClocks_dpc]
/-- The clocks alone, of a state whose cores and dies have changed in nothing else. -/
theorem clocksAt_of_clocksRaised {s s' : State} {t scope : Nat} (h : ClocksRaised s s' t scope) : ClocksAt s s' t scope := by
  obtain ⟨hc, hd, hp⟩ := h
  refine ⟨fun c => ?_, fun d => ?_, hp⟩
  · rw [hc c]
    split <;> rfl
  · rw [hd d]
    split
    next e => rw [e.1]
    next => rfl

/-! A boundary with nothing to wait for and nothing to publish. -/

theorem horizonClear_of_quiet {s : State} {t : Nat} (h : quiet s t) : (horizonClear s t && allPerformed (s.thread t)) = true := by
  obtain ⟨hn, hp⟩ := h
  rw [Bool.and_eq_true]
  exact ⟨decide_eq_true ((unresolvedAll_eq_openOps s t).trans hn), List.all_eq_true.2 hp⟩
theorem boundaryEntries_eq_nil {th : Thread} (h : nothingToPublish th) : boundaryEntries th = [] :=
  List.filter_eq_nil_iff.2 fun e he => by simpa using h e he
/-- The boundary completes in the step that meets it: the clocks are written and read, and nothing else is done. -/
theorem boundaryStep_of_boundaryFree {s : State} {t : Nat} (scope : Nat) (h : boundaryFree s t) : boundaryStep s t scope =
    (readClocks (writeClocks s (s.coreOf t) scope (s.core (s.coreOf t)).lt) (s.coreOf t) scope, true) := by
  obtain ⟨hb, hq, hw⟩ := h
  have hp : boundaryPublish s t scope = (writeClocks s (s.coreOf t) scope (s.core (s.coreOf t)).lt, true) := by
    unfold noBoundary at hb
    simp only [boundaryPublish, hb, horizonClear_of_quiet hq, boundaryEntries_eq_nil hw, if_true]
  simp only [boundaryStep, hp, if_true]

/-! What a marker that passes leaves. -/

theorem trainOf_modThread_passMarker (s : State) (t : Nat) (i : Instr) : (s.modThread t (passMarker i)).trainOf t = s.trainOf t := by
  unfold State.trainOf
  rw [State.thread_modThread, if_pos rfl, passMarker_eq]
  rfl
theorem coreOf_modThread_passMarker (s : State) (t : Nat) (i : Instr) : (s.modThread t (passMarker i)).coreOf t = s.coreOf t :=
  congrArg Train.core (trainOf_modThread_passMarker s t i)
theorem stage_passMarker (i : Instr) (th : Thread) : (passMarker i th).stage = th.stage := by rw [passMarker_eq]
theorem boundaryFree_passMarker {s : State} {t : Nat} (i : Instr) (h : boundaryFree s t) :
    boundaryFree (s.modThread t (passMarker i)) t := by
  unfold boundaryFree quiet noBoundary nothingToPublish at h ⊢
  rw [openOps_modThread_passMarker, State.thread_modThread, if_pos rfl, passMarker_eq]
  exact h
theorem clocksAt_modThread_passMarker {s s' : State} {t scope : Nat} {i : Instr}
    (h : ClocksAt (s.modThread t (passMarker i)) s' t scope) : ClocksAt s s' t scope := by
  unfold ClocksAt State.dieOf at h ⊢
  rwa [coreOf_modThread_passMarker] at h

/-! A thread held once its boundary has completed. -/

/-- A thread after one is held. -/
theorem thread_park (s : State) (t u : Nat) (w : Wait) : (park s t w).thread u =
    if u = t then { s.thread t with park := w, since := if (s.thread t).park = w then (s.thread t).since else s.clk } else s.thread u :=
  State.thread_modThread _ _ _ _
/-- A thread that issues alone is held where nothing but its marker has passed for the threads. -/
theorem eachThread_park {s s' : State} {t : Nat} {i : Instr} (w : Wait) (h : s.bundle = [t])
    (hs : s'.thread = (s.modThread t (passMarker i)).thread) :
    EachThread s { park s' t w with bundle := [] } fun th th' => th' = { passMarker i th with park := w, since := th'.since } := by
  refine ⟨fun u hu => ?_, fun u hu => ?_⟩
  · obtain rfl : u = t := by simpa [h] using hu
    have hp := thread_park s' u u w
    rw [if_pos rfl, hs, State.thread_modThread, if_pos rfl] at hp
    change (park s' u w).thread u = { passMarker i (s.thread u) with park := w, since := ((park s' u w).thread u).since }
    rw [hp]
  · have hne : u ≠ t := by simpa [h] using hu
    refine (thread_park s' t u w).trans ?_
    rw [if_neg hne, hs, State.thread_modThread, if_neg hne]

end Sys2Proof.Machine
end

section
/-! PROOF. Uniform registers, and the end of a phase (R360, R366). -/

namespace Sys2Proof.Machine
open Sys2Proof Sys2Proof.Claims

/-- A thread that issues alone and sends a result. -/
theorem issueEach_alone_sent {i : Instr} {body : State → Nat → State} {r : Result} {s : State} {t : Nat} (h : Alone s t i)
    (hb : body (s.modThread t (passMarker i)) t = variableBody i (fun _ => r) (s.modThread t (passMarker i)) t) :
    ∃ s', issueEach i body s = .next s' ∧ OnlyThreads s s' ∧ EachThread s s' fun th th' => Sent i th th' r :=
  issueEach_alone_modThread h (hb.trans (State.modThread_modThread _ _ _ _)) (sent_past_putResult i _ r)

/-! `krd` (R360). -/

theorem uniformReads : UniformReads := by
  intro a d sm s t ha
  have ht := trainOf_modThread_passMarker s t (.krd a d sm)
  refine ⟨fun h => issueEach_alone_sent ha ?_, fun h hr => issueEach_alone_raise ha hr ?_⟩
  · rw [krdBody, ht, if_neg (Nat.not_le.2 h)]
    rfl
  · rw [krdBody, ht, if_pos h]

/-! `ph.end` (R366). -/

/-- Before the phase has ended: the boundary completes, and the thread is held. -/
theorem phEndBody_parks {i : Instr} {s : State} {t : Nat} (d : BitVec 6) (h : (s.thread t).stage ≠ 2) (hb : boundaryFree s t) :
    phEndBody i d s t = park (readClocks (writeClocks s (s.coreOf t) 4 (s.core (s.coreOf t)).lt) (s.coreOf t) 4) t .phaseEnd := by
  simp only [phEndBody, if_neg h, boundaryStep_of_boundaryFree 4 hb, if_true]

theorem phEnd_sends {d : BitVec 6} {sm : BitVec 1} {s : State} {t : Nat} (ha : Alone s t (.phEnd d sm)) (h : (s.thread t).stage = 2) :
    ∃ s', exec (.phEnd d sm) s = .next s' ∧ OnlyThreads s s' ∧ EachThread s s' fun th th' =>
      Sent (.phEnd d sm) th th' { regs := [(d.toNat, BitVec.ofNat 32 (s.phase - 1))], preds := [], flags := 0 } := by
  refine issueEach_alone_sent ha ?_
  rw [phEndBody, State.thread_modThread, if_pos rfl, stage_passMarker, if_pos h]
  rfl

theorem phEnd_holds {d : BitVec 6} {sm : BitVec 1} {s : State} {t : Nat} (ha : Alone s t (.phEnd d sm)) (h : (s.thread t).stage ≠ 2)
    (hb : boundaryFree s t) :
    ∃ s', exec (.phEnd d sm) s = .next s' ∧ s'.mem = s.mem ∧ ClocksAt s s' t 4 ∧ EachThread s s' fun th th' =>
      th' = { passMarker (.phEnd d sm) th with park := .phaseEnd, since := th'.since } := by
  have hs : ((s.modThread t (passMarker (.phEnd d sm))).thread t).stage ≠ 2 := by
    rwa [State.thread_modThread, if_pos rfl, stage_passMarker]
  have hbody := phEndBody_parks (i := .phEnd d sm) d hs (boundaryFree_passMarker _ hb)
  refine ⟨_, (issueEach_run _ _ s t ha).trans (by rw [hbody]), ?_, ?_, eachThread_park _ ha.1 ?_⟩
  · exact (readClocks_mem _ _ _).trans (writeClocks_mem _ _ _ _)
  · exact clocksAt_modThread_passMarker (clocksAt_of_clocksRaised (clocksRaised_write_read _ t 4))
  · rw [readClocks_thread, writeClocks_thread]

theorem phaseEndResults : PhaseEndResults := fun _ _ _ _ ha => ⟨phEnd_sends ha, phEnd_holds ha⟩

/-- Settles O37: `krd` sends what the thread's own train holds, or traps beyond its count. `ph.end` completes its domain boundary and is held;
once the phase has ended (the thread's stage 2), it sends the number of the phase that ended, not of the one that begins (the model's reading
of R366). -/
theorem uniformsAndPhases : Obligations.UniformsAndPhases := ⟨uniformReads, phaseEndResults⟩

end Sys2Proof.Machine
end
